-- ==== Sys2Proof/Word.lean ====
section
/-!
DEFINITION. The word types of the model: bytes, words, a 512-byte block (a crumb of stored payload or a block of
host data), and the sparse table that most of the state is held in. No operation stands here.
-/
namespace Sys2Proof

/-- One byte. -/
abbrev Byte := BitVec 8
/-- A 32-bit little-endian word (dword). -/
abbrev Dword := BitVec 32
/-- A 64-bit little-endian word. -/
abbrev Qword := BitVec 64
/-- The 512 bytes of one crumb of stored payload, or of one 512-byte block of host data; byte k is bits 8k+7 to 8k. -/
abbrev Crumb := BitVec 4096
/-- A sparse table: (key, value) pairs with strictly rising keys. What an absent key means is said where the table is declared. -/
abbrev Tab (α : Type) := List (Nat × α)

end Sys2Proof
end

