-- ==== Sys2Proof/Inputs.lean ====
section
/-!
DEFINITION. Structures that operands of commands have: a submission queue entry, and a microcode module as verified.
-/
namespace Sys2Proof

/-- A submission queue entry as fetched from host memory (R65, R495). -/
structure Sqe where
  /-- Opcode, CDW0 [7:0]. -/
  opcode : Byte := 0
  /-- Fused operation, CDW0 [9:8]. -/
  fuse : Nat := 0
  /-- Command identifier, CDW0 [31:16]. -/
  cid : Nat := 0
  /-- Namespace identifier. -/
  nsid : Dword := 0
  /-- PRP entry 1, or the first half of the SGL descriptor. -/
  prp : Nat := 0
  /-- CDW10 to CDW15. -/
  cdw : List Dword := []
  /-- SGL descriptors in order: (descriptor type, length); empty for PRPs. -/
  sgl : List (Nat × Nat) := []
  deriving DecidableEq, Repr, Inhabited


/-- A microcode module as verified and decrypted (R265, R266). -/
structure McuModule where
  /-- KIND: 1 vendor base, 2 vendor patch, 3 customer. -/
  kind : Nat := 0
  /-- Loads into FCS0 to FCS31. -/
  fcs : Bool := true
  /-- Loads into DFS0 and DFS1. -/
  dfs : Bool := false
  /-- Module version. -/
  version : Dword := 0
  /-- Lowest vendor base version that it applies to. -/
  baseMin : Dword := 0
  /-- Highest such version. -/
  baseMax : Dword := 0
  /-- The signature verifies and the body decrypts (R266). -/
  verifies : Bool := true
  /-- Load records, expanded: word address and word. -/
  words : List (Nat × BitVec 96) := []
  /-- Dispatch records: opcode and entry. -/
  disp : List (Nat × BitVec 32) := []
  deriving DecidableEq, Repr, Inhabited

/-- A flash die as initialisation and training find it (R220, R221, R228, R229). -/
structure DieReport where
  /-- Die address on the channel, 8 × chip enable + volume. -/
  addr : Nat := 0
  /-- Page data area in bytes. -/
  page : Nat := 16384
  /-- Spare area in bytes. -/
  spare : Nat := 2048
  /-- Planes. -/
  planes : Nat := 4
  /-- Blocks per plane. -/
  blocks : Nat := 0
  /-- Wordlines of a block. -/
  wordlines : Nat := 0
  /-- Column address cycles. -/
  colCycles : Nat := 2
  /-- Row address cycles. -/
  rowCycles : Nat := 3
  /-- Capacity in Gb. -/
  gbits : Nat := 0
  /-- Highest NV-DDR3 rate in MT/s. -/
  rate : Nat := 4800
  /-- Dense modes: bit n for n bits per cell. -/
  dense : Nat := 0
  /-- Narrowest eye in % of UI at each rate of R215 in ascending order; 0 where a strobe's duty cycle fails. -/
  eyes : List Nat := []
  deriving DecidableEq, Repr, Inhabited

/-- A request that arrives at a DRAM port (R430, R435, R436). -/
structure DramArrival where
  /-- Port 0 to 7. -/
  port : Nat := 0
  /-- Row. -/
  row : Nat := 0
  /-- Bank: 4 × bank group + bank. -/
  bank : Nat := 0
  /-- A write. -/
  write : Bool := false
  /-- What the burst holds: 0 clean map page, 1 dirty map page and the other structures of that row of R435, 2 staging or accumulator of an
  open stack, 3 Rack read staging, 4 runout entry, 5 event ring, 6 device firmware memory. -/
  holds : Nat := 0
  /-- Which one: the map page, the actuator, or the ring offset of the burst. -/
  key : Nat := 0
  deriving DecidableEq, Repr, Inhabited

/-- Where a register write goes: the two BARs that hold registers, and the blocks of the control cores' address space. -/
inductive RegBlock
  /-- The NVMe registers or the recovery function (R485, R567). -/
  | bar0
  /-- The Capture Window (R145). -/
  | bar2
  /-- The fault collector (R592). -/
  | collector
  /-- The OSPI controller (R547). -/
  | ospi
  /-- The four training helpers (R427). -/
  | helper
  /-- The buffer pool manager (R453). -/
  | pool
  /-- A sequencer: FCS0 to FCS31, DFS0 and DFS1 (R270). -/
  | seq (n : Nat)
  /-- The Servo Control Engine (R419). -/
  | servo
  deriving DecidableEq, Repr, Inhabited

/-- A memory request that arrives at the endpoint (R459). -/
inductive MemReq
  /-- A memory read of a number of bytes. -/
  | read (len : Nat)
  /-- A memory write; a byte without its byte enable is none. -/
  | write (data : List (Option Byte))
  /-- A memory read with the lock attribute. -/
  | locked
  /-- An AtomicOp. -/
  | atomic
  deriving DecidableEq, Repr, Inhabited

end Sys2Proof
end

