-- ==== Sys2Proof/Syntax.lean ====
section
/-!
DEFINITION. The commands that the block takes, one constructor for each row of spec/opcode_table.json, with their operands
as plain data.
-/
namespace Sys2Proof

/-- The commands of the block: one constructor for each row of the table of operations and events. Operands are what the
row takes from outside: host memory contents, measured values, statuses of media and die operations, and the choices of an
arbiter. A command that names a `stamp` acts in the context with that fetch stamp (R70). -/
inductive Instr where
  /-- POWER_UP_SEQUENCE (R656): VIN_MAIN rising past 4.2 V starts AON and brings up the rails in order. -/
  | powerUpSequence (vin vb : Nat) (failed : Option Nat) (cold : Bool)
  /-- RAIL_RETRY_TIMEOUT (R656): The 1 s wait after a failed rail ramp ends and the power die repeats the sequence, or holds off after three failures. -/
  | railRetryTimeout (failed : Option Nat)
  /-- BOOT_START (R562): The power die releases the controller die and the boot ROM runs its start steps up to DRAM training. -/
  | bootStart (bankSize : Nat) (bad : List (Nat × Nat)) (otpBad : Bool) (margins : List (List (List Int)))
  /-- BOOT_FETCH_FAULT (R552): An execute-in-place fetch from a busy bank faults, and the boot ROM waits, counts it and restarts the boot. -/
  | bootFetchFault (bad : List (Nat × Nat))
  /-- NVM_WINDOW_BUS_FAULT (R551): A read of a busy bank through the NVM window ends at once in a bus fault. -/
  | nvmWindowBusFault (addr : Nat)
  /-- DRAM_TRAINING_END (R426): DRAM training of all subchannels ends, with rate fallback or failure, and CORE is started. -/
  | dramTrainingEnd (passes : List Bool) (eyes : List (Nat × Nat × Nat × Nat))
  /-- MICROCODE_LOAD (R267): The loader fills, verifies and loads the modules into all sequencer control stores and locks the dispatch tables. -/
  | microcodeLoad (base : McuModule) (patches : List McuModule) (custom : Option McuModule) (failed : List Nat) (bad : List (Nat × Nat))
  /-- CHANNEL_INITIALISATION (R228): Each flash channel is reset, its volumes appointed, its dies identified and trained. -/
  | channelInitialisation (ch : Nat) (rb : Bool) (dies : List DieReport)
  /-- MOUNT (R132): The map is rebuilt from the valid root and the events above its horizon. -/
  | mount (lost : List (Nat × Nat))
  /-- CONTROLLER_READY (R563): CSTS.RDY rises once the start is complete and CC.EN is set. -/
  | controllerReady
  /-- VIN_MAIN_UNDERVOLTAGE (R612): VIN_MAIN below threshold for 0.5 µs switches the load to VIN_BKUP and asserts the power-fail line. -/
  | vinMainUndervoltage (vin : Nat)
  /-- POWER_LOSS_SEQUENCE_END (R621): The power-loss sequence ends, write protects drop and the controller die is held in reset. -/
  | powerLossSequenceEnd (dur vend : Nat)
  /-- VIN_BKUP_BROWN_OUT (R614): VIN_BKUP below 4.5 V before the sequence ends removes the controller die's rails. -/
  | vinBkupBrownOut (dur vend : Nat) (steps : BitVec 6)
  /-- SYSRST_N_LOW (R657): SYSRST_N held low for 10 µs asserts the power-fail line and then holds the controller die in reset. -/
  | sysrstNLow
  /-- SYSRST_N_RELEASE (R657): SYSRST_N going high lets the start proceed under R611 and R656. -/
  | sysrstNRelease
  /-- RAIL_OUT_OF_REGULATION (R669): A rail leaves regulation, raising its source and after 20 µs the power-fail line. -/
  | railOutOfRegulation (rail : Nat) (long : Bool)
  /-- CRYSTAL_STOPPED (R669): The AON clock monitor sees the crystal stop, raises its source and enters the safe state. -/
  | crystalStopped
  /-- VIN_OVERVOLTAGE (R669): An input above 18.5 V raises its source and VMOT switches off at 19 V. -/
  | vinOvervoltage (bkup : Bool) (mv : Nat)
  /-- VIN_MAIN_BELOW_RACK_MINIMUM (R11): VIN_MAIN below 10.8 V parks the actuators, stops the spindle and takes the Rack tier to LOWV. -/
  | vinMainBelowRackMinimum (mv : Nat)
  /-- RACK_VOLTAGE_RESTORED (R11): VIN_MAIN at or above 10.8 V for 1 s returns the Rack tier from LOWV to STOPPED. -/
  | rackVoltageRestored (mv : Nat)
  /-- CHARGE_VOLTAGE_REACHED (R615): The backup bank reaches its charge voltage and the charger holds it there. -/
  | chargeVoltageReached
  /-- HOLDUP_CHECK_START (R618): At start or at the check interval, the charger stops and the test load is applied to VIN_BKUP. -/
  | holdupCheckStart (vb : Nat)
  /-- HOLDUP_CHECK_END (R618): The test load ends, capacitance, ESR and margin are computed and recorded. -/
  | holdupCheckEnd (step fall t : Nat)
  /-- WRITE_HOLD_LIMIT (R620): The write hold at start expires before the bank check passes and writes are released. -/
  | writeHoldLimit
  /-- BUDGET_GOVERNOR_TICK (R624): Every 10 µs the governor estimates dissipation and throttles or unthrottles. -/
  | budgetGovernorTick (activity : List Nat)
  /-- DOMAIN_IDLE_TIMEOUT (R625): A domain idle for the gating time is gated. -/
  | domainIdleTimeout (dom : Nat)
  /-- DOMAIN_WAKE (R626): An access to a gated domain stalls while the domain wakes, then proceeds. -/
  | domainWake (dom : Nat)
  /-- OP_TRANSITION_END (R628): A clock and voltage transition between operating points completes. -/
  | opTransitionEnd (monitorsOk : Bool)
  /-- TEMPERATURE_SAMPLE (R629): A temperature input is sampled and its contribution updated. -/
  | temperatureSample (input : Nat) (reading : Option Int)
  /-- COMPOSITE_TEMPERATURE_UPDATE (R630): Every 10 ms the composite temperature is recomputed and thresholds tested. -/
  | compositeTemperatureUpdate
  /-- RATE_OF_RISE_EVALUATION (R632): Every 100 ms each input's slope is computed and warned on. -/
  | rateOfRiseEvaluation
  /-- CPM_TRIP (R640): A critical-path monitor below 10 ps stretches the clocks and raises a corrected fault. -/
  | cpmTrip (n : Nat)
  /-- DIE_LINK_FRAME (R8): A die-to-die frame is received and checked by its CRC-8. -/
  | dieLinkFrame (toPower good : Bool) (dac : Option Nat)
  /-- LINK_FRAME_INTERVAL (R9): The controller die sends a frame at least every 2 µs. -/
  | linkFrameInterval
  /-- LINK_SILENCE_TIMEOUT (R9): 50 µs without a valid frame makes the power die retract and brake on its own. -/
  | linkSilenceTimeout
  /-- POWER_DIE_REARM (R9): Device firmware re-arms the power die to accept motor commands again. -/
  | powerDieRearm
  /-- RETRACT_LINE_ASSERT (R417): The engine asserts the retract line after the power-fail line, at safe-state entry or on firmware order. -/
  | retractLineAssert
  /-- POWER_DIE_RETRACT_TIMEOUT (R417): Undervoltage with the retract line low for 100 µs makes the power die retract. -/
  | powerDieRetractTimeout
  /-- RETRACT_PARKED (R418): Both actuators are parked on their ramps at the end of a retract. -/
  | retractParked
  /-- FABRIC_BLOCK_RECEIVE (R12): A fabric block arrives at a port and its CRC-32C is checked before use. -/
  | fabricBlockReceive (src : Nat) (dst : Nat) (blk : Nat) (flow : Nat) (id : Nat) (lcn : Nat) (good : Bool)
  /-- UNIT_RELEASE (R55): A fenced unit that passes self-test is released within the unfence limit. -/
  | unitRelease (kind : Nat) (n : Nat)
  /-- ACTUATOR_UNLOCK_TIMEOUT (R55): Both loops unlocked for more than 1 s at speed fence the actuator. -/
  | actuatorUnlockTimeout (act : Nat)
  /-- CONTROLLER_ENABLE (R486): CC.EN set to 1 checks CC and AQA, resets features and stamps, and starts toward ready. -/
  | controllerEnable (cc : Dword)
  /-- CONTROLLER_RESET (R88): CC.EN cleared discards every context, halts Peel channels and releases push slots. -/
  | controllerReset (cc : Dword)
  /-- SHUTDOWN_NOTIFICATION (R128): CC.SHN stops ingest, drains descriptors and writes a clean root before SHST reports complete. -/
  | shutdownNotification (shn : BitVec 2)
  /-- SUBMISSION_QUEUE_DOORBELL (R459): A submission queue tail doorbell write makes new entries available to fetch. -/
  | submissionQueueDoorbell (qid tail : Nat)
  /-- COMPLETION_QUEUE_DOORBELL (R459): A completion queue head doorbell write frees completion queue entries. -/
  | completionQueueDoorbell (qid head : Nat)
  /-- INTERRUPT_MASK_SET (R485): A write to INTMS masks pin-based interrupt vectors. -/
  | interruptMaskSet (mask : Dword)
  /-- INTERRUPT_MASK_CLEAR (R485): A write to INTMC unmasks pin-based interrupt vectors. -/
  | interruptMaskClear (mask : Dword)
  /-- REGISTER_WRITE (R4): A write to a register with no behaviour of its own updates its writable fields. -/
  | registerWrite (block : RegBlock) (core off v : Nat)
  /-- COMMAND_FETCH (R70): The front end fetches the next command chosen by arbitration, stamps it and gives it a context. -/
  | commandFetch (qid : Nat) (sqe : Sqe) (ranges : List (Nat × Nat)) (window : List (Nat × Nat × Nat))
  /-- FETCH_RESUME (R67): Fetching resumes once a context and enough tracker entries are free. -/
  | fetchResume
  /-- VERSION_IDLE_TIMEOUT (R81): An open chunk version with all data present and no joiner for 20 µs is sealed. -/
  | versionIdleTimeout (vid : Nat)
  /-- WRITE_ASSIGNMENT (R40): The placement engine assigns a sealed chunk to a tier, slot, span and batch and reserves 256 crumbs. -/
  | writeAssignment (vid : Nat)
  /-- ENCODE_JOB_END (R202): A coder encode job ends coded or falls back to raw, and the payload takes its crumbs and WSN. -/
  | encodeJobEnd (vid : Nat) (parity : Bool)
  /-- DECODE_JOB_END (R205): A coder decode ends, with a malformed or mismatched stream sent on down the recovery ladder. -/
  | decodeJobEnd (job : Nat) (parity mismatch : Bool)
  /-- CIPHER_JOB_END (R14): A media cipher engine finishes encrypting or decrypting a stored payload. -/
  | cipherJobEnd (encrypt : Bool) (id : Nat) (parity : Bool)
  /-- BATCH_CLOSE_TIMEOUT (R41): A member page-group whose oldest crumb waited the batch close time is padded and programmed. -/
  | batchCloseTimeout (span batch : Nat)
  /-- PROGRAM_COMPLETE (R14): A page-group program reports its status, and good chunks take effect or are sent back to another batch. -/
  | programComplete (span batch member : Nat) (good last : Bool)
  /-- INTERRUPT_AGGREGATION_TIMEOUT (R87): An interrupt coalescing time expires and the delayed MSI-X message is sent. -/
  | interruptAggregationTimeout (qid : Nat)
  /-- FLASH_READ_COMPLETE (R18): A flash read delivers its codewords to hard decoders. -/
  | flashReadComplete (job : Nat)
  /-- CODEWORD_DECODE_END (R309): A codeword decode ends; failure moves it to the next step of the recovery ladder. -/
  | codewordDecodeEnd (job : Nat) (good : Bool) (maxBits entry lost : Nat)
  /-- ERASE_COMPLETE (R277): A span erase ends on its members; a failed member block is retired. -/
  | eraseComplete (span : Nat) (failed : List Nat)
  /-- STATUS_POLL (R225): Read Status Enhanced polls a busy die at its expected time and then every poll interval. -/
  | statusPoll (die : Nat) (op : Nat) (ready : Bool)
  /-- OPERATION_TIMEOUT (R226): A die operation past its time limit is reset with Reset LUN and retried or failed. -/
  | operationTimeout (die : Nat) (op : Nat) (a : Nat) (b : Nat) (c : Nat) (resetOk : Bool)
  /-- RETRAIN_INTERVAL (R230): A die retrain falls due at its interval or on a flash band change and runs when the die is idle. -/
  | retrainInterval (die : Nat) (eye : Nat) (full : Nat)
  /-- SEQUENCER_SUBMIT (R250): A write including byte 0x11F queues an operation record, or drops it when the queue is full. -/
  | sequencerSubmit (seq : Nat) (off : Nat) (data : List Byte) (handles : List Nat)
  /-- COMPLETION_RECORD_READ (R270): A read including byte 0x20F returns and removes the oldest completion record. -/
  | completionRecordRead (seq : Nat) (last : Bool)
  /-- SEQUENCER_HOLD (R269): Setting HOLD stops dispatch and the sequencer enters HELD after active contexts end. -/
  | sequencerHold (seq : Nat)
  /-- SEQUENCER_HOLD_RELEASE (R269): Clearing HOLD resumes dispatch. -/
  | sequencerHoldRelease (seq : Nat)
  /-- MACHINE_CHECK_CLEAR (R270): MCLR from MCHECK clears the machine check and enters LOADING. -/
  | machineCheckClear (seq : Nat)
  /-- OPERATION_DISPATCH (R239): A queued operation whose die is free is dispatched into a free context. -/
  | operationDispatch (seq : Nat) (parity : Bool)
  /-- MICROWORD_EXECUTE (R244): The running context executes one microword: ALU, bus action, delay and sequencing. -/
  | microwordExecute (seq : Nat) (par : Nat) (status : Byte) (strobe : Bool) (lost : Bool) (cwfail : Byte) (maxbits : Byte)
  /-- YIELD_DELAY_END (R244): A parked context's YIELD delay ends and it becomes runnable. -/
  | yieldDelayEnd (seq : Nat) (ctx : Nat)
  /-- WATCHDOG_TRAP (R257): An operation running past its limit takes the WATCHDOG trap. -/
  | watchdogTrap (seq : Nat) (ctx : Nat)
  /-- MAP_PAGE_LOAD_COMPLETE (R130): A missing map page is read in, spill changes merged, and stalled lookups proceed. -/
  | mapPageLoadComplete (page : Nat) (good : Bool)
  /-- MAP_PAGE_SPILL (R131): An eligible map page is written to the conventional region on two surfaces. -/
  | mapPageSpill (page : Nat)
  /-- JOURNAL_PAGE_PROGRAM_COMPLETE (R122): A journal page becomes durable and the acts waiting on its entries proceed. -/
  | journalPageProgramComplete (good : Bool) (die block : Nat)
  /-- DEALLOCATION_JOURNAL_DELAY (R123): Pending deallocation entries reach their delay and are programmed. -/
  | deallocationJournalDelay
  /-- CHECKPOINT_ROUND_START (R126): A checkpoint round starts on half the replay window, the interval or shutdown and writes dirty pages. -/
  | checkpointRoundStart
  /-- CHECKPOINT_ROOT_DURABLE (R126): The round's root is durable and writes waiting on the replay window resume. -/
  | checkpointRootDurable
  /-- EPOCH_ADVANCE (R32): The epoch count advances by one after each epoch length of powered time. -/
  | epochAdvance (margins : List (List (List Int))) (eyes : List (Nat × Nat × Nat × Nat))
  /-- AGEING_SWEEP_VISIT (R35): The map engine visits a descriptor, decays its counts and caps its age. -/
  | ageingSweepVisit (nsid lcn : Nat)
  /-- EVACUATION_CHOICE (R48): A chunk of a span under evacuation or a migration candidate is kept, folded, migrated or left. -/
  | evacuationChoice (nsid lcn : Nat)
  /-- MIGRATION_QUEUE_ROOM (R48): An actuator's migration queue drops below its limit and the waiting chunk is queued. -/
  | migrationQueueRoom (act : Nat)
  /-- COPY_SOURCE_READ_END (R22): A copy's source read ends and the target program is issued. -/
  | copySourceReadEnd (copy : Nat) (good ladder : Bool) (bits lost : Nat)
  /-- COPY_READ_VERIFY_END (R293): A copy target passes or fails read-verify; a pass forms the conditional MOVE. -/
  | copyReadVerifyEnd (copy : Nat) (good : Bool) (bits member : Nat)
  /-- KNEAD_SPAN_SELECTION (R297): Knead picks the next span by priority and score when thresholds or flags call for it. -/
  | kneadSpanSelection
  /-- RETENTION_AGE_UPDATE (R305): Each hour of powered time adds weighted age to closed spans, flagging refresh-due. -/
  | retentionAgeUpdate
  /-- SCRUB_READ (R307): Scrub reads a record page of a closed span when dies are free. -/
  | scrubRead (span member bits : Nat) (ladder : Bool) (nsid lcn lost : Nat) (last : Bool)
  /-- CHANNEL_FENCE_REBUILD_TIMEOUT (R319): A training-failure fence lasting 10 minutes flags its spans rebuild-due. -/
  | channelFenceRebuildTimeout (ch : Nat)
  /-- PEEL_START (R159): START from IDLE or HALTED with READY 1 puts the channel in RUN. -/
  | peelStart (ch : Nat)
  /-- PEEL_STOP (R160): STOP ends acceptance at the next descriptor boundary. -/
  | peelStop (ch : Nat)
  /-- PEEL_RESUME (R159): RESUME in chain mode continues a halted channel at CUR. -/
  | peelResume (ch : Nat)
  /-- PEEL_DESCRIPTOR_READ_COMPLETE (R152): A 64-byte descriptor read returns and is checked for OWN and its fields. -/
  | peelDescriptorReadComplete (ch : Nat) (data : List Byte)
  /-- PEEL_DESCRIPTOR_ACCEPT (R153): A valid descriptor obtains a context and tracker entries and is stamped. -/
  | peelDescriptorAccept (ch : Nat)
  /-- PEEL_POLL_INTERVAL (R158): In POLL the descriptor at CUR is read again every POLL_US. -/
  | peelPollInterval (ch : Nat)
  /-- PEEL_SOURCE_READ_COMPLETE (R164): A source read completion is reordered and unpacked into ingest buffers. -/
  | peelSourceReadComplete (ch : Nat) (stamp : Nat) (off : Nat) (data : List Byte)
  /-- PEEL_RETIREMENT (R156): A completed descriptor is retired in chain order with status, OWN and notify writes. -/
  | peelRetirement (ch : Nat)
  /-- PUSH_LEASE (R174): A read of LEASE grants a cleared push buffer or returns 0xFFFF. -/
  | pushLease (slot : Nat)
  /-- APERTURE_WRITE (R175): A write through a buffer aperture changes a leased, uncommitted buffer or is discarded. -/
  | apertureWrite (handle : Nat) (off : Nat) (data : List (Option Byte))
  /-- LEASE_EXPIRY (R176): A lease reaches its lease time and the buffer returns to the push pool. -/
  | leaseExpiry (handle : Nat)
  /-- PUSH_COMMIT (R177): A write including byte 0x1F forms a commit record, rejected or queued. -/
  | pushCommit (slot : Nat) (off : Nat) (data : List Byte)
  /-- SLOT_RESUME (R173): RESUME clears a halted push slot. -/
  | slotResume (slot : Nat)
  /-- SLOT_RELEASE_ALL (R176): RELEASE_ALL returns every uncommitted buffer leased by the slot. -/
  | slotReleaseAll (slot : Nat)
  /-- COMMIT_RECORD_ACCEPT (R178): A queued commit record obtains a context and is stamped as a write. -/
  | commitRecordAccept (slot : Nat)
  /-- COMMIT_RETIREMENT (R180): A commit record retires in acceptance order, increments DONE and may notify or halt the slot. -/
  | commitRetirement (slot : Nat)
  /-- RECORD_PIN_CHANGE (R537): A change of RECORD level starts or restarts the 10 µs debounce. -/
  | recordPinChange (level : Bool)
  /-- RECORD_DEBOUNCE_COMPLETE (R537): A RECORD level held 10 µs is reported and, with PIN_EN 1, triggers a swap. -/
  | recordDebounceComplete
  /-- SWAP_POINT (R535): At a batch boundary after a trigger the active and shadow profile sets are exchanged. -/
  | swapPoint
  /-- SWAP_FALLBACK_TIMEOUT (R535): With no batch boundary within 400 µs, the swap takes the next instant free of decisions. -/
  | swapFallbackTimeout
  /-- SCHEDULED_SWAP_COMPARE (R539): The 1 ms comparison of SCHED_TIME with the Timestamp triggers and disarms a scheduled swap. -/
  | scheduledSwapCompare
  /-- ORDER_ARBITRATION_CYCLE (R520): Each 1 µs cycle decides host and management orders on the same object. -/
  | orderArbitrationCycle (sameData : List Nat)
  /-- OSPI_PROGRAM (R549): GO with OP PROGRAM checks and programs up to 256 erased bytes. -/
  | ospiProgram (addr : Nat) (len : Nat) (data : List Byte)
  /-- OSPI_ERASE (R548): GO with OP ERASE checks and erases a 64 KiB sector. -/
  | ospiErase (addr : Nat)
  /-- OSPI_OPERATION_END (R548): A boot NVM operation ends and DONE and RESULT are set. -/
  | ospiOperationEnd (bank : Nat) (outcome : Nat) (ready : Bool)
  /-- OSPI_LOCK (R547): Setting LOCK at the end of boot locks the protection fields until the next start. -/
  | ospiLock
  /-- ACTIVATION_COMPARE (R576): The 1 ms comparison of ACT_TIME with the Timestamp triggers a scheduled activation. -/
  | activationCompare
  /-- ACTIVATION_POINT (R573): An activation begins its pause and applies CFG, SEQ, SRV and starts the new CORE. -/
  | activationPoint (base : McuModule) (patches : List McuModule) (custom : Option McuModule) (failed : List Nat)
  /-- ACTIVATION_CORE_READY (R574): The new CORE reports ready, the twin CRC is programmed and fetching resumes. -/
  | activationCoreReady (ok : Bool)
  /-- RECOVERY_INSTALL (R568): INSTALL checks the staged package and writes slot set A and a boot block. -/
  | recoveryInstall (bad : List Nat) (fails : Bool)
  /-- RECOVERY_RESTART (R568): RESTART runs the start from its first step. -/
  | recoveryRestart (bad : List (Nat × Nat))
  /-- RECOVERY_WINDOW_WRITE (R567): A write to the recovery window stores package bytes into recovery staging. -/
  | recoveryWindowWrite (k : Nat) (data : List Byte)
  /-- HARDWARE_FAULT_DETECTED (R579): A hardware fault condition raises its source with its class reaction. -/
  | hardwareFaultDetected (id : Nat) (detail : List Nat)
  /-- CORRECTED_SUPPRESSION_SECOND (R580): At the end of a second with suppressed corrected faults a summary record is written. -/
  | correctedSuppressionSecond
  /-- REACTION_TIMER_EXPIRY (R581): An unacknowledged contained fault reaches the reaction time and escalates to fatal. -/
  | reactionTimerExpiry (id : Nat)
  /-- FAULT_ACK (R581): A write of a source ID to FLT.ACK clears PENDING and stops its timer. -/
  | faultAck (id : Nat) (cleared : Bool)
  /-- HEARTBEAT_WRITE (R592): A core's HEARTBEAT write restarts its 20 ms heartbeat timer. -/
  | heartbeatWrite (core : Nat)
  /-- HEARTBEAT_MISSED (R579): 20 ms without a heartbeat raises that core's contained fault. -/
  | heartbeatMissed (core : Nat)
  /-- SAFE_STATE_FLASH_DONE (R586): Once the safe-state flash steps end, every held context completes with Internal Error. -/
  | safeStateFlashDone
  /-- QUIET_PERIOD_EXPIRY (R587): The quiet period elapses and recovery from the safe state begins. -/
  | quietPeriodExpiry
  /-- SAFE_STATE_RECOVERY_END (R587): Recovery completes, FAULT_N releases and fetching resumes. -/
  | safeStateRecoveryEnd (failed : List Nat) (lost : List (Nat × Nat))
  /-- FORCE_BIT_WRITE (R591): Device firmware sets or clears a source's force bit through FLT.SRC. -/
  | forceBitWrite (id : Nat) (v : Bool)
  /-- MIRROR_PAGE_PROGRAM (R604): Pending ring records are programmed to the recorder partition. -/
  | mirrorPageProgram (good : Bool)
  /-- PATTERN_RUN_START (R427): PG_START starts a helper pattern run on a subchannel. -/
  | patternRunStart (sub : Nat)
  /-- PATTERN_COMPARE_CLEAR (R427): CMP_CLR clears the helper's error mask and counts. -/
  | patternCompareClear (sub : Nat)
  /-- PATTERN_RUN_END (R427): A helper run ends and DONE is set. -/
  | patternRunEnd (sub : Nat) (bad : List (Nat × Nat))
  /-- DQS_TRACKING_INTERVAL (R429): Every 100 ms the DQS oscillators are read and write delays adjusted. -/
  | dqsTrackingInterval (sub : Nat) (drift : List Int)
  /-- REFRESH_RATE_CHECK (R431): Every 32 ms device temperatures set each subchannel's refresh rate. -/
  | refreshRateCheck (hot : List Nat)
  /-- REFRESH_INTERVAL (R432): A same-bank refresh falls due and is issued or postponed during panic. -/
  | refreshInterval (sub : Nat)
  /-- PATROL_SCRUB_BURST (R425): Patrol scrub reads and corrects the next burst. -/
  | patrolScrubBurst (result : Nat) (holds : Nat) (key : Nat)
  /-- SELF_REFRESH_EXIT (R433): An access to the DDR domain or PS4 exit relocks the PLL and leaves self-refresh. -/
  | selfRefreshExit (drift : List (List Int))
  /-- DRAM_ALERT (R434): A device alert stops the subchannel and replays the retry buffer. -/
  | dramAlert (sub : Nat) (fresh : Bool)
  /-- DRAM_REQUEST_CHOICE (R439): The controller chooses the next request by panic, urgency and row state. -/
  | dramRequestChoice (sub : Nat) (arrivals : List DramArrival) (levels : List Nat)
  /-- DRAM_BURST_READ_END (R424): A burst read returns, corrected or retried, or is delivered poisoned. -/
  | dramBurstReadEnd (sub : Nat) (id : Nat) (result : Nat)
  /-- BUFFER_ALLOC (R449): ALLOC pops a buffer from a pool or returns 0xFFFF. -/
  | bufferAlloc (owner : Nat) (pool : Nat) (count : Nat) (linkBad : Bool)
  /-- BUFFER_FREE (R450): FREE returns a buffer to its home pool or is rejected. -/
  | bufferFree (owner : Nat) (handle : Nat)
  /-- BUFFER_TRANSFER (R448): TRANSFER moves sole ownership of a buffer. -/
  | bufferTransfer (owner : Nat) (handle : Nat) (receiver : Nat)
  /-- BUFFER_SHARE (R448): SHARE gives a buffer up to four holders and a last owner. -/
  | bufferShare (owner : Nat) (handle : Nat) (list : List Nat) (last : Nat)
  /-- BUFFER_RELEASE (R448): RELEASE clears a holder's share. -/
  | bufferRelease (owner : Nat) (handle : Nat)
  /-- BUFFER_GROUP_GRANT (R671): The oldest waiting group of a pool is served once enough buffers are free. -/
  | bufferGroupGrant (pool : Nat)
  /-- FREE_LIST_REBUILD (R446): A bad free-list link pauses the pool and rebuilds its list. -/
  | freeListRebuild (pool : Nat) (order : List Nat)
  /-- POOL_MINFREE_CLEAR (R453): MINCLR sets a pool's MINFREE to FREE. -/
  | poolMinfreeClear (pool : Nat)
  /-- LINK_TRAINING_END (R464): The PCIe link trains to a width and rate. -/
  | linkTrainingEnd (width speed : Nat) (flit : Bool)
  /-- PARTNER_LINK_CHANGE (R465): The partner retrains or changes speed or width and a fallback is recorded. -/
  | partnerLinkChange (width speed : Nat)
  /-- ASPM_L1_IDLE_TIMEOUT (R466): 32 µs of idle link with L1 enabled requests ASPM L1. -/
  | aspmL1IdleTimeout
  /-- L0P_WIDTH_CHANGE (R468): Traffic below 20 % halves the width, or outbound backlog restores full width. -/
  | l0pWidthChange (down : Bool)
  /-- CONFIGURATION_REQUEST (R479): A configuration request is served or answered with Request Retry Status. -/
  | configurationRequest (off : Nat) (write : Option (Nat × Nat)) (ready : Bool)
  /-- INBOUND_MEMORY_REQUEST (R459): A memory request is decoded by BAR or answered Unsupported Request. -/
  | inboundMemoryRequest (addr : Nat) (req : MemReq)
  /-- POISONED_WRITE_RECEIVED (R481): A poisoned memory write is discarded and logged through AER. -/
  | poisonedWriteReceived
  /-- READ_COMPLETION_RECEIVED (R476): A completion for an outstanding read is accepted, or fails it on error status. -/
  | readCompletionReceived (tag status : Nat)
  /-- COMPLETION_TIMEOUT (R474): A non-posted request's timer expires and it fails by its kind. -/
  | completionTimeout (tag : Nat)
  /-- UNEXPECTED_COMPLETION (R476): A late or unmatched completion is discarded and logged. -/
  | unexpectedCompletion (tag : Nat)
  /-- BUS_MASTER_ENABLE_CLEAR (R477): Clearing Bus Master Enable stops requests and holds writes and messages. -/
  | busMasterEnableClear
  /-- BUS_MASTER_ENABLE_SET (R477): Setting Bus Master Enable issues held writes in order and resumes fetching. -/
  | busMasterEnableSet
  /-- MSIX_VECTOR_UNMASK (R463): Clearing a vector or function mask sends a pending MSI-X message. -/
  | msixVectorUnmask (v : Option Nat)
  /-- D3HOT_ENTRY (R470): A move to D3hot stops requests and answers memory requests UR. -/
  | d3hotEntry
  /-- D0_RETURN (R470): A return to D0 restores state and issues held writes. -/
  | d0Return
  /-- FUNCTION_LEVEL_RESET (R479): An FLR discards contexts, resets the Capture Window and configuration. -/
  | functionLevelReset
  /-- PERST_N_ASSERT (R480): PERST_N assertion is a conventional reset of the endpoint. -/
  | perstNAssert
  /-- PERST_N_RELEASE (R480): PERST_N release lets the endpoint answer configuration within 100 ms. -/
  | perstNRelease
  /-- HOT_RESET (R480): A hot reset resets the endpoint as a conventional reset. -/
  | hotReset
  /-- LINK_DOWN (R480): A link-down event resets the endpoint as a conventional reset. -/
  | linkDown
  /-- REFCLK_LOSS (R669): REFCLK lost takes the link down while media work continues. -/
  | refclkLoss
  /-- JTAG_INSTRUCTION (R658): A JTAG instruction runs boundary scan or is refused while test mode is locked. -/
  | jtagInstruction (boundary : Bool)
  /-- WRITE (R85): Write transfers data and completes when every chunk has taken effect. -/
  | write (stamp : Nat) (data : List Crumb)
  /-- READ (R18): Read serves each chunk through the read path after earlier writes. -/
  | read (stamp : Nat)
  /-- COMPARE (R85): Compare reads and compares every unit, failing at the first difference. -/
  | compare (stamp : Nat) (data : List Crumb)
  /-- VERIFY (R85): Verify reads and decodes every unit without transfer. -/
  | verify (stamp : Nat)
  /-- FLUSH (R85): Flush completes at fetch, there being no volatile cache. -/
  | flush (stamp : Nat)
  /-- WRITE_ZEROES (R142): Write Zeroes makes one change per chunk through ZERO entries or a new version. -/
  | writeZeroes (stamp : Nat)
  /-- DEALLOCATE (R140): Dataset Management with deallocate marks chunks or units DEALLOC in the map. -/
  | deallocate (stamp : Nat)
  /-- DATASET_MANAGEMENT_HINT (R85): Dataset Management without deallocate completes after fetch. -/
  | datasetManagementHint (stamp : Nat)
  /-- RAW_THROUGH_READ (R210): Raw-through Read returns decrypted stored payloads as records. -/
  | rawThroughRead (stamp : Nat)
  /-- PLACEMENT_QUERY (R60): Placement Query returns the placement state of a run of chunks. -/
  | placementQuery (stamp : Nat)
  /-- CREATE_IO_SUBMISSION_QUEUE (R492): Creates an I/O submission queue with its priority class. -/
  | createIoSubmissionQueue (stamp : Nat)
  /-- DELETE_IO_SUBMISSION_QUEUE (R88): Deletes an I/O submission queue, aborting caught commands. -/
  | deleteIoSubmissionQueue (stamp : Nat)
  /-- CREATE_IO_COMPLETION_QUEUE (R492): Creates an I/O completion queue with its vector. -/
  | createIoCompletionQueue (stamp : Nat)
  /-- DELETE_IO_COMPLETION_QUEUE (R492): Deletes an I/O completion queue. -/
  | deleteIoCompletionQueue (stamp : Nat)
  /-- IDENTIFY_CONTROLLER (R488): Returns the Identify Controller structure. -/
  | identifyController (stamp : Nat)
  /-- IDENTIFY_NAMESPACE (R490): Returns the Identify Namespace structure. -/
  | identifyNamespace (stamp : Nat)
  /-- IDENTIFY_LISTS (R491): Returns the other supported CNS structures or rejects the CNS. -/
  | identifyLists (stamp : Nat)
  /-- ABORT (R91): Abort decides at its abort point whether the named command is caught. -/
  | abort (stamp : Nat)
  /-- ASYNCHRONOUS_EVENT_REQUEST (R515): An outstanding request that completes when an enabled event is raised. -/
  | asynchronousEventRequest (stamp : Nat)
  /-- NAMESPACE_CREATE (R496): Namespace Management create allocates an identifier, key and NS_RESET. -/
  | namespaceCreate (stamp nsze ncap flbas : Nat)
  /-- NAMESPACE_DELETE (R496): Namespace Management delete is a barrier that releases the namespace. -/
  | namespaceDelete (stamp : Nat)
  /-- NAMESPACE_ATTACH (R496): Namespace Attachment attaches a namespace to controller 0. -/
  | namespaceAttach (stamp : Nat) (ctrls : List Nat)
  /-- NAMESPACE_DETACH (R496): Namespace Attachment detaches a namespace as a barrier. -/
  | namespaceDetach (stamp : Nat) (ctrls : List Nat)
  /-- FIRMWARE_IMAGE_DOWNLOAD (R570): Appends package data to the download buffer. -/
  | firmwareImageDownload (stamp : Nat) (data : List Byte)
  /-- FIRMWARE_COMMIT_REPLACE (R572): Commit CA 0 writes the slot without activation. -/
  | firmwareCommitReplace (stamp : Nat) (bad : List Nat) (fails : Bool)
  /-- FIRMWARE_COMMIT_NEXT_RESET (R572): Commit CA 1 writes the slot and prepares the twin for the next enable or start. -/
  | firmwareCommitNextReset (stamp : Nat) (bad : List Nat) (fails : Bool)
  /-- FIRMWARE_COMMIT_ACTIVATE_SLOT (R572): Commit CA 2 prepares the twin for the set already in the slot. -/
  | firmwareCommitActivateSlot (stamp : Nat) (bad : List Nat) (fails : Bool)
  /-- FIRMWARE_COMMIT_IMMEDIATE (R572): Commit CA 3 writes the slot and activates at once or at ACT_TIME. -/
  | firmwareCommitImmediate (stamp : Nat) (bad : List Nat) (fails : Bool)
  /-- DEVICE_SELF_TEST_SHORT (R493): Runs sequencer, engine and per-die read tests. -/
  | deviceSelfTestShort (stamp result : Nat)
  /-- DEVICE_SELF_TEST_EXTENDED (R493): Runs one scrub pass of flash and Rack. -/
  | deviceSelfTestExtended (stamp result : Nat) (lost : List (Nat × Nat × Nat))
  /-- STREAMS_ALLOCATE_RESOURCES (R499): Grants stream identifiers from those still free. -/
  | streamsAllocateResources (stamp : Nat)
  /-- STREAMS_RELEASE_IDENTIFIER (R499): Closes a stream identifier and frees its record. -/
  | streamsReleaseIdentifier (stamp : Nat)
  /-- STREAMS_RETURN_PARAMETERS (R499): Directive Receive returns stream parameters. -/
  | streamsReturnParameters (stamp : Nat)
  /-- FORMAT_NVM (R497): Formats a namespace, rescaling windows and hint ranges. -/
  | formatNvm (stamp : Nat)
  /-- FORMAT_NVM_CRYPTO_ERASE (R315): Format with Secure Erase Settings 2 replaces the namespace key. -/
  | formatNvmCryptoErase (stamp : Nat)
  /-- SANITIZE_EXIT_FAILURE (R498): Sanitize action 1 leaves the failed-sanitize mode. -/
  | sanitizeExitFailure (stamp : Nat)
  /-- SANITIZE_BLOCK_ERASE (R316): Sanitize action 2 erases every span and Rack band. -/
  | sanitizeBlockErase (stamp : Nat)
  /-- SANITIZE_CRYPTO_ERASE (R315): Sanitize action 4 runs crypto erase on every namespace. -/
  | sanitizeCryptoErase (stamp : Nat)
  /-- PROFILE_SWAP (R508): Profile Swap triggers a swap and completes at its swap point. -/
  | profileSwap (stamp : Nat)
  /-- FAULT_INJECT_FORCE (R509): Fault Inject sets or clears one source's force bit. -/
  | faultInjectForce (stamp : Nat)
  /-- FAULT_INJECT_CLEAR_ALL (R509): Fault Inject clears every force bit. -/
  | faultInjectClearAll (stamp : Nat)
  /-- EVENT_RECORDER_CLEAR_UPTO (R603): Clears records up to UPTO and writes a clear record. -/
  | eventRecorderClearUpto (stamp : Nat)
  /-- EVENT_RECORDER_CLEAR_ALL (R603): Clears every record and writes a clear record. -/
  | eventRecorderClearAll (stamp : Nat)
  /-- SET_ARBITRATION (R500): Sets arbitration burst and weights. -/
  | setArbitration (stamp : Nat)
  /-- GET_ARBITRATION (R500): Returns arbitration burst and weights. -/
  | getArbitration (stamp : Nat)
  /-- SET_POWER_MANAGEMENT (R623): Moves the device to a power state. -/
  | setPowerManagement (stamp : Nat)
  /-- GET_POWER_MANAGEMENT (R516): Returns the power state. -/
  | getPowerManagement (stamp : Nat)
  /-- SET_TEMPERATURE_THRESHOLD (R635): Sets a temperature threshold. -/
  | setTemperatureThreshold (stamp : Nat)
  /-- GET_TEMPERATURE_THRESHOLD (R635): Returns a temperature threshold. -/
  | getTemperatureThreshold (stamp : Nat)
  /-- SET_ERROR_RECOVERY (R500): Accepts error recovery settings. -/
  | setErrorRecovery (stamp : Nat)
  /-- GET_ERROR_RECOVERY (R500): Returns error recovery settings. -/
  | getErrorRecovery (stamp : Nat)
  /-- SET_NUMBER_OF_QUEUES (R492): Reports 1,023 queues for both counts. -/
  | setNumberOfQueues (stamp : Nat)
  /-- GET_NUMBER_OF_QUEUES (R492): Returns the queue counts. -/
  | getNumberOfQueues (stamp : Nat)
  /-- SET_INTERRUPT_COALESCING (R492): Sets interrupt aggregation. -/
  | setInterruptCoalescing (stamp : Nat)
  /-- GET_INTERRUPT_COALESCING (R492): Returns interrupt aggregation. -/
  | getInterruptCoalescing (stamp : Nat)
  /-- SET_INTERRUPT_VECTOR_CONFIG (R492): Sets a vector's coalescing disable. -/
  | setInterruptVectorConfig (stamp : Nat)
  /-- GET_INTERRUPT_VECTOR_CONFIG (R492): Returns a vector's configuration. -/
  | getInterruptVectorConfig (stamp : Nat)
  /-- SET_WRITE_ATOMICITY_NORMAL (R500): Accepted with no effect. -/
  | setWriteAtomicityNormal (stamp : Nat)
  /-- GET_WRITE_ATOMICITY_NORMAL (R500): Returns the write atomicity setting. -/
  | getWriteAtomicityNormal (stamp : Nat)
  /-- SET_ASYNC_EVENT_CONFIG (R515): Enables asynchronous event types 1 and 2. -/
  | setAsyncEventConfig (stamp : Nat)
  /-- GET_ASYNC_EVENT_CONFIG (R515): Returns the event enables. -/
  | getAsyncEventConfig (stamp : Nat)
  /-- SET_TIMESTAMP (R500): Sets the Timestamp and writes a time sync record. -/
  | setTimestamp (stamp : Nat) (value : BitVec 48)
  /-- GET_TIMESTAMP (R500): Returns the Timestamp. -/
  | getTimestamp (stamp : Nat)
  /-- SET_HCTM (R637): Sets host controlled thermal management levels. -/
  | setHctm (stamp : Nat)
  /-- GET_HCTM (R637): Returns thermal management levels. -/
  | getHctm (stamp : Nat)
  /-- SET_STREAM_FORMAT (R187): Defines or undefines a stream format as a barrier on its windows. -/
  | setStreamFormat (stamp : Nat) (data : List Byte)
  /-- GET_STREAM_FORMAT (R502): Returns a Stream Format record. -/
  | getStreamFormat (stamp : Nat)
  /-- SET_PROFILE_CONTROL (R503): Sets PIN_EN and the scheduled swap. -/
  | setProfileControl (stamp : Nat) (data : List Byte)
  /-- GET_PROFILE_CONTROL (R503): Returns profile control and state. -/
  | getProfileControl (stamp : Nat)
  /-- SET_SCHEDULED_ACTIVATION (R504): Arms, moves or disarms a scheduled activation. -/
  | setScheduledActivation (stamp : Nat) (data : List Byte)
  /-- GET_SCHEDULED_ACTIVATION (R504): Returns the scheduled activation state. -/
  | getScheduledActivation (stamp : Nat)
  /-- SET_RACK_SPINDLE_CONTROL (R353): Sets spin-up allowed and standby time with no action. -/
  | setRackSpindleControl (stamp : Nat)
  /-- RACK_SPIN_UP_ACTION (R353): Rack Spindle Control action 1 demands spin-up. -/
  | rackSpinUpAction (stamp : Nat)
  /-- RACK_SPIN_DOWN_ACTION (R354): Rack Spindle Control action 2 spins the assembly down. -/
  | rackSpinDownAction (stamp : Nat)
  /-- GET_RACK_SPINDLE_CONTROL (R505): Returns spin settings and state. -/
  | getRackSpindleControl (stamp : Nat)
  /-- PLACEMENT_HINTS_ADD (R506): Adds hold or drain ranges. -/
  | placementHintsAdd (stamp : Nat) (data : List Byte)
  /-- PLACEMENT_HINTS_REMOVE (R506): Removes matching hint ranges. -/
  | placementHintsRemove (stamp : Nat) (data : List Byte)
  /-- PLACEMENT_HINTS_REMOVE_ALL (R506): Removes every hint range. -/
  | placementHintsRemoveAll (stamp : Nat)
  /-- GET_PLACEMENT_HINTS (R506): Returns the held hint ranges. -/
  | getPlacementHints (stamp : Nat)
  /-- SET_CAPTURE_WINDOW_CONTROL (R149): Sets push enable, pool size and lease time. -/
  | setCaptureWindowControl (stamp : Nat)
  /-- GET_CAPTURE_WINDOW_CONTROL (R507): Returns push settings. -/
  | getCaptureWindowControl (stamp : Nat)
  /-- GET_LOG_SUPPORTED_PAGES (R511): Returns Supported Log Pages. -/
  | getLogSupportedPages (stamp : Nat)
  /-- GET_LOG_ERROR_INFORMATION (R511): Returns Error Information. -/
  | getLogErrorInformation (stamp : Nat)
  /-- GET_LOG_SMART_HEALTH (R514): Returns SMART / Health Information. -/
  | getLogSmartHealth (stamp : Nat)
  /-- GET_LOG_FIRMWARE_SLOT (R569): Returns Firmware Slot Information. -/
  | getLogFirmwareSlot (stamp : Nat)
  /-- GET_LOG_CHANGED_NAMESPACES (R511): Returns the Changed Namespace List. -/
  | getLogChangedNamespaces (stamp : Nat)
  /-- GET_LOG_COMMANDS_EFFECTS (R511): Returns Commands Supported and Effects. -/
  | getLogCommandsEffects (stamp : Nat)
  /-- GET_LOG_DEVICE_SELF_TEST (R511): Returns the Device Self-test log. -/
  | getLogDeviceSelfTest (stamp : Nat)
  /-- GET_LOG_SANITIZE_STATUS (R498): Returns Sanitize Status. -/
  | getLogSanitizeStatus (stamp : Nat)
  /-- GET_LOG_PLACEMENT_REPORT (R62): Returns the Placement Report. -/
  | getLogPlacementReport (stamp : Nat)
  /-- GET_LOG_EVENT_RECORDER (R602): Returns the image of the event ring. -/
  | getLogEventRecorder (stamp : Nat)
  /-- GET_LOG_DEFERRED_ERROR (R98): Returns and with RAE 0 clears a namespace's Deferred Error log. -/
  | getLogDeferredError (stamp : Nat)
  /-- GET_LOG_FAULT_STATUS (R593): Returns the Fault Status log. -/
  | getLogFaultStatus (stamp : Nat)
  /-- GET_LOG_HEALTH_EARLY_WARNING (R596): Returns warnings and with RAE 0 marks them seen. -/
  | getLogHealthEarlyWarning (stamp : Nat)
  /-- GET_LOG_AGEING (R642): Returns the Ageing log. -/
  | getLogAgeing (stamp : Nat)
  /-- GET_LOG_MEDIA_GEOMETRY (R513): Returns the Media Geometry log. -/
  | getLogMediaGeometry (stamp : Nat)
  /-- MI_READ_DATA_STRUCTURE (R519): NVMe-MI Read NVMe-MI Data Structure. -/
  | miReadDataStructure (tag dtyp port : Nat)
  /-- MI_SUBSYSTEM_HEALTH_POLL (R519): NVMe-MI NVM Subsystem Health Status Poll. -/
  | miSubsystemHealthPoll (tag : Nat)
  /-- MI_CONTROLLER_HEALTH_POLL (R519): NVMe-MI Controller Health Status Poll. -/
  | miControllerHealthPoll (tag first : Nat)
  /-- MI_CONFIGURATION_SET (R519): NVMe-MI Configuration Set. -/
  | miConfigurationSet (tag cfg port v : Nat)
  /-- MI_CONFIGURATION_GET (R519): NVMe-MI Configuration Get. -/
  | miConfigurationGet (tag cfg port : Nat)
  /-- MI_TUNNELLED_ADMIN_COMMAND (R519): A tunnelled admin command is accepted, arbitrated against host orders or rejected. -/
  | miTunnelledAdminCommand (tag : Nat) (sqe : Sqe)
  /-- RACK_SPINUP_TIMEOUT (R351): At 15 s the spin-up succeeds, fences one actuator or spins down to retry. -/
  | rackSpinupTimeout
  /-- SPINUP_RETRY_WAIT (R351): The 10 s wait after a failed spin-up ends and SPINUP is retried or FAILED entered. -/
  | spinupRetryWait
  /-- RACK_STANDBY_TIMEOUT (R351): Standby time with no Rack work spins the assembly down. -/
  | rackStandbyTimeout
  /-- SPINDLE_STOPPED (R351): The spindle stops and SPINDOWN becomes STOPPED or REDUCED. -/
  | spindleStopped
  /-- STAGING_READ_END (R332): A migration or Knead source is read into DRAM staging and placed in the open stack. -/
  | stagingReadEnd (act : Nat) (good : Bool) (lost : Nat)
  /-- BAND_WRITE_END (R332): A data band is written and its last-track check issued. -/
  | bandWriteEnd (act : Nat) (good charge : Bool)
  /-- LAST_TRACK_CHECK_END (R333): A band's last track is read back and passes or is a write fault. -/
  | lastTrackCheckEnd (act : Nat) (good charge : Bool)
  /-- PARITY_BAND_READBACK_END (R333): The parity band read-back ends and the summary is written. -/
  | parityBandReadbackEnd (act : Nat) (good charge : Bool)
  /-- STACK_SUMMARY_WRITE_END (R332): The stack summary is written and STACK_CLOSE journalled. -/
  | stackSummaryWriteEnd (act copies : Nat)
  /-- STACK_IDLE_CLOSE_TIMEOUT (R335): An open stack idle for the close time closes early. -/
  | stackIdleCloseTimeout (act : Nat)
  /-- RACK_SECTOR_READ_END (R339): A Rack sector read decodes or moves down the Rack read ladder. -/
  | rackSectorReadEnd (job : Nat) (good : Bool) (bits lost : Nat)
  /-- RACK_KNEAD_SELECTION (R344): Rack Knead picks a rebuild-due, refresh-due or scored stack. -/
  | rackKneadSelection (act : Nat)
  /-- RACK_SCRUB_READ (R346): Scrub reads written sectors of a closed stack. -/
  | rackScrubRead (act index bits : Nat) (ladder : Bool) (nsid lcn lost : Nat) (last : Bool)
  /-- ROOT_COPY_TO_RACK (R348): A durable root is copied to the conventional region of each surface. -/
  | rootCopyToRack
  /-- WEDGE_RECORD (R365): A servo wedge is demodulated and its record handed to servo and formatter. -/
  | wedgeRecord (act : Nat) (rec : BitVec 128) (write : Option (Nat × Bool))
  /-- SERVO_GO (R419): GO applies TARGET and HEAD_SEL to an actuator. -/
  | servoGo (act : Nat) (target : BitVec 32) (head : BitVec 4) (op : Nat)
  /-- HEAD_SWITCH_SETTLE (R372): After a head switch the settle time ends and transfers may begin. -/
  | headSwitchSettle (act : Nat)
  /-- SEEK_TIME_LIMIT (R401): A seek not on track within its limit is retried or fails. -/
  | seekTimeLimit (act : Nat)
  /-- SPEED_LOOP_UPDATE (R411): The speed loop runs per commutation or per wedge and updates the spindle current. -/
  | speedLoopUpdate (period at_ : Nat) (theta : Option Nat)
  /-- ROTOR_SENSING_END (R410): Rotor sensing reports the electrical sector and the open-loop ramp begins. -/
  | rotorSensingEnd (ambiguous : Bool)
  /-- OPEN_LOOP_RAMP_TIMEOUT (R410): No back-EMF within 2 s repeats sensing and ramp. -/
  | openLoopRampTimeout
  /-- BACK_EMF_DETECTED (R410): Back-EMF at the hand-over speed closes the speed loop for run-up. -/
  | backEmfDetected
  /-- RUN_UP_SPEED_REACHED (R410): Speed within 0.5 % of 7,200 rpm starts actuator load. -/
  | runUpSpeedReached
  /-- ACTUATOR_LOAD_END (R415): Servo marks on four wedges end a load and track acquisition begins. -/
  | actuatorLoadEnd (act track : Nat)
  /-- LOAD_TIMEOUT (R415): No mark within the load timeout unloads and retries once. -/
  | loadTimeout (act : Nat)
  /-- UNLOAD_END (R415): Back-EMF below 10 % for 2 ms and a 5 ms hold end an unload. -/
  | unloadEnd (act : Nat)
  /-- SPINDLE_SPEED_ERROR_TIMEOUT (R413): A speed error over 1 % for 1 s raises the spindle fault and holds write gates. -/
  | spindleSpeedErrorTimeout
  /-- BRAKING_SPEED_REACHED (R416): Reverse-torque braking reaches 600 rpm and short braking starts. -/
  | brakingSpeedReached
  /-- RUNOUT_QUEUE_REFILL (R407): A block of runout entries arrives through the servo-table port. -/
  | runoutQueueRefill (act : Nat)
  /-- PREAMP_FAULT (R371): Pa_FLT_N low drops write and assist gates and the fault register is read. -/
  | preampFault (act kind : Nat) (again : Bool)
  /-- HEAD_CALIBRATION_DUE (R376): A head calibration falls due and starts between band writes. -/
  | headCalibrationDue (act : Nat)
  /-- CALIBRATION_STEP_END (R377): A calibration step ends and the next runs or the record is written. -/
  | calibrationStepEnd (act : Nat) (again : Bool) (contact : Option Nat) (rates : List Nat) (rres : Nat)
  /-- SQ_FETCH_RETRY (R475): A failed submission queue entry fetch is issued once more 10 µs later, and a second failure sets CSTS.CFS. -/
  | sqFetchRetry
  /-- TAG_REUSE_TIMEOUT (R476): A tag whose request failed, or that was outstanding at a reset, becomes free again one timeout period later, and a request waiting for a tag proceeds. -/
  | tagReuseTimeout (tag : Nat)
  /-- REFCLK_RETURN (R25): REFCLK becomes present again, so the link may train once PERST_N is released. -/
  | refclkReturn
  /-- ACTIVATION_STEP_TIMEOUT (R575): The new CORE does not report ready within the limit of activation step 5, and the device reverts to the previous set. -/
  | activationStepTimeout
  /-- TIMESTAMP_WAIT_EXPIRY (R306): 60 s after CSTS.RDY with no Timestamp set, every closed span's next scrub falls due within 24 h of powered time. -/
  | timestampWaitExpiry
  /-- PREAMP_FAULT_PERSISTENCE (R371): A preamplifier supply or thermal fault that persists for 1 s fences its actuator. -/
  | preampFaultPersistence (act : Nat)
  /-- VIN_OVERVOLTAGE_CLEARED (R669): VIN_MAIN falls back below 18.5 V and the Rack tier leaves the LOWV handling that the overvoltage imposed. -/
  | vinOvervoltageCleared (mv : Nat)
  deriving DecidableEq, Repr, Inhabited

end Sys2Proof
end

