-- ==== Sys2Proof/Config.lean ====
section
/-!
DEFINITION. What an implementation fixes and the spec leaves open: constants without a body, so that no proof can see
what they are. A claim about them holds whatever they are.
-/
namespace Sys2Proof

/-- Free values: the n-th value that the spec leaves open, at width w (assumption log 4). -/
opaque Config.freeValue (w : Nat) (n : Nat) : BitVec w

/-- SHA-384, which R531 names and no rule of the spec computes (assumption log 8). -/
opaque Config.sha384 (bytes : List Byte) : BitVec 384

/-- Power of one block at an operating point, in mW per activity count: the governor's estimate of R624, whose weights the
spec does not give (assumption log 4). -/
opaque Config.activityWeight (domain : Nat) : Nat

/-- Number, from 0 to 47, of the fabric port of a block: R12 gives one port to each block and no rule numbers them
(assumption log 6). -/
opaque Config.portIndex (block : Nat) : Fin 48

/-- ROM_VER of the recovery function: the boot ROM version, for which the spec gives no value (R567; assumption log 4). -/
opaque Config.romVersion : BitVec 32

/-- Assist full scale that a preamplifier map of key 0x0411 holds: no rule gives the map's layout (R374, R383, R385; assumption log 41). -/
opaque Config.assistScale (map : List Byte) : Nat

/-- Heater range, lowest and highest code, that a preamplifier map of key 0x0411 holds (R374, R385; assumption log 41). -/
opaque Config.heaterRange (map : List Byte) : Int × Int

end Sys2Proof
end

