-- ==== Sys2Proof/Machine/Types.lean ====
section
/-!
DEFINITION. The types of the state of the YH7400, all plain data: one structure per block of the spec, every field with
the rule that names it and its value at reset (the value of the field in `State.reset`). A table (`Tab`) holds only the keys that differ from what its docstring says an absent key means.
Where the spec gives a field no reset value, its value here is the model's (assumption log 2).
-/
namespace Sys2Proof.Machine
open Sys2Proof

/-- Tier: see the fields that use it (01_architecture.md). -/
inductive Tier where
  | none
  | proof
  | bake
  | rack
  deriving DecidableEq, Repr, Inhabited

/-- Port: see the fields that use it (01_architecture.md). -/
inductive Port where
  | pcie
  | pool
  | placement
  | coder (n : Nat)
  | cipher (n : Nat)
  | hard (n : Nat)
  | soft (n : Nat)
  | flash (ch : Nat)
  | dfs (n : Nat)
  | dram
  | cores
  deriving DecidableEq, Repr, Inhabited

/-- FabFlow: see the fields that use it (01_architecture.md). -/
inductive FabFlow where
  | write (vid : Nat)
  | read (stamp lcn : Nat)
  | copy (cid : Nat)
  | internal
  deriving DecidableEq, Repr, Inhabited

/-- one fabric block being re-sent (R13) (01_architecture.md). -/
structure FabXfer where
  /-- R13 sending port. -/
  src : Port := .pool
  /-- R13 receiving port. -/
  dst : Port := .pool
  /-- R13 source buffer kept until a good CRC. -/
  blk : Nat := 0
  /-- R13 re-sends so far, at most 3. -/
  resends : Nat := 0
  /-- R13 table row the block belongs to. -/
  flow : FabFlow := .internal
  deriving DecidableEq, Repr, Inhabited

/-- die-to-die link and the two dedicated lines (01_architecture.md). -/
structure LinkSt where
  /-- R9 time (ns) of the last valid frame at the power die. -/
  lastGood : Nat := 0
  /-- R9 time (ns) of the last frame sent by the controller die. -/
  lastSent : Nat := 0
  /-- R9 autonomous retract taken, motor commands ignored until re-armed. -/
  silent : Bool := false
  /-- R9 autonomous retract still to be reported when the link recovers. -/
  retractReport : Bool := false
  /-- R8 discarded frames counted as corrected faults. -/
  crcErrors : Nat := 0
  /-- R8 voice-coil DAC code held per actuator. -/
  dac : List (BitVec 18) := [0, 0]
  /-- R8 milliactuator DAC code held per actuator. -/
  madac : List (BitVec 16) := [0, 0]
  /-- R8 DAC updates discarded in a row per actuator. -/
  dacMiss : List Nat := [0, 0]
  /-- R10 power-fail line. -/
  powerFail : Bool := false
  /-- R10 retract line. -/
  retract : Bool := false
  deriving DecidableEq, Repr, Inhabited

/-- data fabric (01_architecture.md). -/
structure FabSt where
  /-- R13 blocks with failed CRC awaiting a re-send. -/
  xfers : List FabXfer := []
  /-- R13 (stamp, lcn) whose read path was started again once. -/
  readRetried : List (Nat × Nat) := []
  deriving DecidableEq, Repr, Inhabited

/-- R33, R34 (02_placement.md). -/
structure StreamRec where
  /-- R35 step 5: key 0x0207 default at reset of the record. -/
  est : BitVec 32 := 144
  /-- R34 (nsid, stream identifier) served, none when free. -/
  bind : Option (Nat × Nat) := none
  deriving DecidableEq, Repr, Inhabited

/-- HintKind: see the fields that use it (02_placement.md). -/
inductive HintKind where
  | hold
  | drain
  deriving DecidableEq, Repr, Inhabited

/-- R57 (02_placement.md). -/
structure Hint where
  /-- R57. -/
  nsid : Nat := 0
  /-- R57. -/
  slba : Nat := 0
  /-- R57. -/
  nlb : Nat := 0
  /-- R57. -/
  kind : HintKind := .hold
  deriving DecidableEq, Repr, Inhabited

/-- location of a stored payload (R106, R107) (04_map_and_journal.md). -/
structure Loc where
  /-- R107 [4:3]. -/
  tier : Tier := .none
  /-- R107 [37:14]. -/
  span : Nat := 0
  /-- R107 [63:38]. -/
  offset : Nat := 0
  /-- R107 [13:6] plus 1. -/
  crumbs : Nat := 1
  /-- R107 [5]. -/
  coded : Bool := false
  deriving DecidableEq, Repr, Inhabited

/-- entry of a migration queue (R42, R51) (02_placement.md). -/
structure MigItem where
  /-- R51. -/
  nsid : Nat := 0
  /-- R51. -/
  lcn : Nat := 0
  /-- R42 lifetime class. -/
  lc : Nat := 0
  /-- R48 stored length. -/
  crumbs : Nat := 0
  /-- R332 source the chunk was queued with. -/
  src : Loc := {}
  /-- R332 Knead and rebuild chunks go first. -/
  knead : Bool := false
  deriving DecidableEq, Repr, Inhabited

/-- CopyKind: see the fields that use it (02_placement.md). -/
inductive CopyKind where
  | fold
  | keep
  | knead
  | migrate
  | refresh
  | rebuild
  | rackKnead
  deriving DecidableEq, Repr, Inhabited

/-- CopyPhase: see the fields that use it (02_placement.md). -/
inductive CopyPhase where
  | reading
  | programming
  | verifying
  | journalling
  | closed
  deriving DecidableEq, Repr, Inhabited

/-- a copy step of Fold, keep, Knead, refresh, rebuild (R22, R56) (02_placement.md). -/
structure CopyStep where
  /-- R56. -/
  id : Nat := 0
  /-- R56. -/
  kind : CopyKind := .fold
  /-- R56. -/
  nsid : Nat := 0
  /-- R56. -/
  lcn : Nat := 0
  /-- R56 source read. -/
  src : Loc := {}
  /-- R22 target. -/
  dst : Loc := {}
  /-- R21, R116 WSN taken at the target. -/
  wsn : Nat := 0
  /-- R22 WSN of the MOVE entry formed. -/
  moveWsn : Nat := 0
  /-- R22 order. -/
  phase : CopyPhase := .reading
  /-- R31 profile of the decision. -/
  profile : Nat := 0
  /-- R40 batch at the target. -/
  batch : Nat := 0
  /-- R41 time (ns) at which it took its crumbs. -/
  placedAt : Nat := 0
  /-- R21 stored payload carried. -/
  payload : List Crumb := []
  /-- R110 units carried of a split raw chunk. -/
  units : BitVec 32 := 0xFFFFFFFF
  /-- R313 generation of the key pair the payload is encrypted under. -/
  key : Nat := 0
  /-- R38 lifetime class of the decision. -/
  lc : Nat := 0
  /-- R38 slot of the decision. -/
  slot : Nat := 0
  deriving DecidableEq, Repr, Inhabited

/-- dispatch state of one kind of engine (R52) (02_placement.md). -/
structure EngineQ where
  /-- R52 queued bytes or codewords per instance. -/
  queued : Tab Nat := []
  /-- R52 last instance chosen, for round-robin ties. -/
  last : Nat := 0
  deriving DecidableEq, Repr, Inhabited

/-- PlaceSt (02_placement.md). -/
structure PlaceSt where
  /-- R32 epoch count E. -/
  epoch : BitVec 32 := 0
  /-- R32 powered time (ns) at the last advance. -/
  epochStart : Nat := 0
  /-- R34 the 4,096 stream records; absent means free. -/
  streams : Tab StreamRec := []
  /-- R499 stream identifiers allocated to a namespace. -/
  granted : Tab Nat := []
  /-- R34 EST of the 64 namespace default records; absent means key 0x0207. -/
  nsStreams : Tab (BitVec 32) := []
  /-- R43 direct Bake mode; R62 reset 0. -/
  directBake : Bool := false
  /-- R62 DB_ENTRIES. -/
  dbEntries : BitVec 32 := 0
  /-- R62 DB_EXITS. -/
  dbExits : BitVec 32 := 0
  /-- R50, R62 EMERGENCY. -/
  emergency : Bool := false
  /-- R62. -/
  hostLogical : BitVec 64 := 0
  /-- R62. -/
  hostStored : BitVec 64 := 0
  /-- R62. -/
  dbBytes : BitVec 64 := 0
  /-- R62. -/
  foldBytes : BitVec 64 := 0
  /-- R62 KEEP_BYTES. -/
  keepBytes : BitVec 64 := 0
  /-- R62 MIG_BYTES0, MIG_BYTES1. -/
  migBytes : List (BitVec 64) := [0, 0]
  /-- R42 migration queue per actuator. -/
  queues : List (List MigItem) := [[], []]
  /-- R48 chunks waiting for room in the queue of their actuator, head first. -/
  waitEvac : List (Nat × MigItem) := []
  /-- R47 Bake-to-Rack migration running until 5 points below the target. -/
  migrating : Bool := false
  /-- R57 up to 256 hint ranges. -/
  hints : List Hint := []
  /-- R55, R62. -/
  fenceCoder : BitVec 16 := 0
  /-- R55, R62. -/
  fenceCipher : BitVec 8 := 0
  /-- R55, R62. -/
  fenceSoft : BitVec 8 := 0
  /-- R55, R62. -/
  fenceHard : BitVec 32 := 0
  /-- R55, R62. -/
  fenceCh : BitVec 32 := 0
  /-- R55, R62. -/
  fenceHead : List (BitVec 12) := [0, 0]
  /-- R55, R62. -/
  fenceAct : BitVec 2 := 0
  /-- R55 dies fenced for good. -/
  fencedDies : List Nat := []
  /-- R55 fabric port of another block. -/
  fencePorts : List Port := []
  /-- R55 releases of each unit in this power cycle, against key 0x0231. -/
  unfences : Tab Nat := []
  /-- R55 contradicting decode results in a row per decoder. -/
  contradict : Tab Nat := []
  /-- R52. -/
  coderQ : EngineQ := {}
  /-- R52. -/
  cipherQ : EngineQ := {}
  /-- R52. -/
  hardQ : EngineQ := {}
  /-- R52. -/
  softQ : EngineQ := {}
  /-- R53 last 64 jobs of each coder engine, true for decode. -/
  coderHist : Tab (List Bool) := []
  /-- R56 copy steps in flight. -/
  copies : List CopyStep := []
  /-- R56 (model's own identifier). -/
  nextCopy : Nat := 0
  /-- R46 (member set, span) under evacuation. -/
  evacuating : List (Nat × Nat) := []
  /-- R55 time (ns) since which both loops are unlocked at speed, per actuator. -/
  unlocked : List Nat := [0, 0]
  deriving DecidableEq, Repr, Inhabited

/-- Origin: see the fields that use it (03_host_commands.md). -/
inductive Origin where
  | sq (qid cid : Nat)
  | peel (ch : Nat) (addr : Nat)
  | push (slot handle : Nat)
  | mgmt (tag : Nat)
  deriving DecidableEq, Repr, Inhabited

/-- Phase: see the fields that use it (03_host_commands.md). -/
inductive Phase where
  | waiting
  | transfer
  | media
  | finishing
  | posted
  deriving DecidableEq, Repr, Inhabited

/-- OrdClass: see the fields that use it (03_host_commands.md). -/
inductive OrdClass where
  | read
  | write
  | barrier
  | none
  deriving DecidableEq, Repr, Inhabited

/-- ChunkRes: see the fields that use it (03_host_commands.md). -/
inductive ChunkRes where
  | pending
  | effected
  | failed (status : Nat)
  | served
  deriving DecidableEq, Repr, Inhabited

/-- overlap-tracker entry of a context for one chunk (R67) (03_host_commands.md). -/
structure ChunkEnt where
  /-- R67. -/
  nsid : Nat := 0
  /-- R67. -/
  lcn : Nat := 0
  /-- R72 512-byte blocks touched, eight to a unit. -/
  blks : BitVec 256 := 0
  /-- R80 version joined. -/
  vid : Option Nat := none
  /-- R65 per-chunk result. -/
  res : ChunkRes := .pending
  /-- R76 read completed step 3 for the chunk. -/
  decoded : Bool := false
  /-- R74 the map lookup of step 1 of R18 is done. -/
  started : Bool := false
  /-- R18 512-byte blocks decoded for the command, or received for a write; stored crumbs for Raw-through Read. -/
  data : Tab Crumb := []
  /-- R111 Write Zeroes that found no sub-map block: through a version of its own. -/
  lone : Bool := false
  /-- R211 KIND of the record of a Raw-through Read. -/
  rawKind : Nat := 0
  /-- R211 FORMAT. -/
  rawFmt : Nat := 0
  /-- R211 SPLIT. -/
  rawSplit : Bool := false
  /-- R211 ZMASK. -/
  rawZ : BitVec 32 := 0
  deriving DecidableEq, Repr, Inhabited

/-- command context (R65) (03_host_commands.md). -/
structure Ctx where
  /-- R70 64-bit fetch stamp. -/
  stamp : Nat := 0
  /-- R65. -/
  origin : Origin := .sq 0 0
  /-- R65. -/
  opcode : BitVec 8 := 0
  /-- R65. -/
  nsid : Nat := 0
  /-- R65. -/
  slba : Nat := 0
  /-- R65 block count. -/
  nlb : Nat := 0
  /-- R65 data pointer. -/
  prp : Nat := 0
  /-- R65 CDW10 to CDW15. -/
  cdw : List (BitVec 32) := []
  /-- R72. -/
  cls : OrdClass := .none
  /-- R65 chunk list. -/
  ents : List ChunkEnt := []
  /-- R65. -/
  phase : Phase := .waiting
  /-- R65 outcome so far, (SCT << 8) | SC. -/
  status : Option Nat := none
  /-- R72 windows (namespace, first chunk, chunks) of a Stream Format barrier. -/
  wins : List (Nat × Nat × Nat) := []
  /-- R72 512-byte block ranges (first, end) of a deallocate that is a barrier. -/
  ranges : List (Nat × Nat) := []
  /-- R91 admin command begun by device firmware. -/
  begun : Bool := false
  /-- R90 data transferred. -/
  xferred : Bool := false
  /-- R65 abort decided for it. -/
  aborted : Bool := false
  /-- R122 journal entry (WSN) that the completion awaits. -/
  jwait : Option Nat := none
  /-- R87 Dword 0 of the completion that waits. -/
  dw0 : BitVec 32 := 0
  deriving DecidableEq, Repr, Inhabited

/-- VPhase: see the fields that use it (03_host_commands.md). -/
inductive VPhase where
  | opened
  | sealed
  | merging
  | ready
  | encoding
  | ciphering
  | waiting
  | placed
  | parked
  | journalling
  deriving DecidableEq, Repr, Inhabited

/-- chunk version gathered and written (R80, R81) (03_host_commands.md). -/
structure Version where
  /-- R80 (model's own identifier). -/
  id : Nat := 0
  /-- R80. -/
  nsid : Nat := 0
  /-- R80. -/
  lcn : Nat := 0
  /-- R80 stamps, in order. -/
  joiners : List Nat := []
  /-- R80 Deallocate and Write Zeroes versions accept no joiner. -/
  lone : Bool := false
  /-- R81 512-byte blocks merged from the mapped version. -/
  base : Tab Crumb := []
  /-- R81 event 2 (ns). -/
  lastJoin : Nat := 0
  /-- R81, R14. -/
  phase : VPhase := .opened
  /-- R190 stamp of the write that seals it. -/
  sealStamp : Nat := 0
  /-- R84 units the merge could not read. -/
  unread : BitVec 32 := 0
  /-- R190 stream format bound. -/
  fmt : Option Nat := none
  /-- R40. -/
  tier : Tier := .none
  /-- R38. -/
  slot : Nat := 0
  /-- R40 span holding the reservation. -/
  span : Nat := 0
  /-- R40. -/
  batch : Nat := 0
  /-- R52 coder or cipher instance. -/
  engine : Nat := 0
  /-- R14 step 4 stored payload. -/
  payload : List Crumb := []
  /-- R14 step 3. -/
  coded : Bool := false
  /-- R116. -/
  wsn : Nat := 0
  /-- R106. -/
  offset : Nat := 0
  /-- R41 time (ns) at which it took its crumbs. -/
  placedAt : Nat := 0
  /-- R14 step 7 repeats. -/
  placedBad : Nat := 0
  /-- R104 stored length once the payload is formed. -/
  crumbs : Nat := 0
  /-- R122 journal entry (WSN) that must be durable first. -/
  jwait : Option Nat := none
  /-- R35 stream record of each joiner, in stamp order, once programming has started. -/
  streams : List Nat := []
  /-- R62 bytes that its joiners wrote. -/
  logical : Nat := 0
  deriving DecidableEq, Repr, Inhabited

/-- R100 entry (03_host_commands.md). -/
structure DefEntry where
  /-- R100. -/
  slba : BitVec 64 := 0
  /-- R100. -/
  units : BitVec 16 := 0
  /-- R100. -/
  cause : BitVec 4 := 0
  /-- R100. -/
  tier : BitVec 2 := 0
  /-- R100. -/
  evSeq : BitVec 32 := 0
  /-- R100. -/
  ts : BitVec 64 := 0
  /-- R100. -/
  wsn : BitVec 64 := 0
  deriving DecidableEq, Repr, Inhabited

/-- R96, R100 (03_host_commands.md). -/
structure Deferred where
  /-- R96 deferred-error state, PENDING. -/
  inState : Bool := false
  /-- R96 REPORTED. -/
  reported : Bool := false
  /-- R96 up to 126. -/
  entries : List DefEntry := []
  /-- R96 LOST. -/
  lost : BitVec 32 := 0
  deriving DecidableEq, Repr, Inhabited

/-- IngestItem: see the fields that use it (03_host_commands.md). -/
inductive IngestItem where
  | peel (ch : Nat)
  | push (slot : Nat)
  deriving DecidableEq, Repr, Inhabited

/-- HostSt (03_host_commands.md). -/
structure HostSt where
  /-- R65 contexts held, stamp order. -/
  ctxs : List Ctx := []
  /-- R70 last stamp given; the sequence starts at 1 at each controller enable. -/
  lastStamp : Nat := 0
  /-- R67 fetch stalled; the chunk entries that the chosen command needs. -/
  stalled : Option Nat := none
  /-- R71 queue last chosen, 65536 for the ingest sources. -/
  arbLast : Nat := 0
  /-- R71 commands left in its burst. -/
  arbLeft : Nat := 0
  /-- R71 credits of the high, medium and low class. -/
  arbCredit : List Nat := [0, 0, 0]
  /-- R80 versions not yet effected or failed. -/
  versions : List Version := []
  /-- R80 (model's own identifier). -/
  nextVid : Nat := 1
  /-- R96 per namespace. -/
  deferred : Tab Deferred := []
  /-- R96 losses whose UNREADABLE entry (WSN) is not yet durable (WSN, namespace, entries). -/
  defPend : List (Nat × Nat × List DefEntry) := []
  /-- R71 accepted ingest work waiting its turn in arbitration. -/
  ingestQ : List IngestItem := []
  deriving DecidableEq, Repr, Inhabited

/-- ChunkState: see the fields that use it (04_map_and_journal.md). -/
inductive ChunkState where
  | unmapped
  | mapped
  | dealloc
  | zero
  | lost
  deriving DecidableEq, Repr, Inhabited

/-- chunk descriptor (R104) (04_map_and_journal.md). -/
structure Desc where
  /-- R104 [2:0]. -/
  state : ChunkState := .unmapped
  /-- R104 TIER, CODED, CRUMBS, SPAN, OFFSET. -/
  loc : Loc := {}
  /-- R104 [6]. -/
  split : Bool := false
  /-- R104 [47:24] sub-map block when SPLIT. -/
  sub : Nat := 0
  /-- R104 [7]. -/
  kept : Bool := false
  /-- R104 [15:8]. -/
  format : BitVec 8 := 0
  /-- R104 [79:74]. -/
  rc : BitVec 6 := 0
  /-- R104 [87:80]. -/
  rs : BitVec 8 := 0
  /-- R104 [91:88]. -/
  wc : BitVec 4 := 0
  /-- R104 [107:92]. -/
  we : BitVec 16 := 0
  /-- R104 [110:108]. -/
  hc : BitVec 3 := 0
  /-- R104 [112:111]. -/
  lc : BitVec 2 := 0
  /-- R104 [113]. -/
  ddur : Bool := false
  deriving DecidableEq, Repr, Inhabited

/-- UState: see the fields that use it (04_map_and_journal.md). -/
inductive UState where
  | mapped (l : Loc)
  | dealloc
  | zero
  | unreadable
  deriving DecidableEq, Repr, Inhabited

/-- namespace table entry (R496) (15_nvme_commands.md). -/
structure NsEntry where
  /-- R496 LBAs. -/
  nsze : Nat := 0
  /-- R496 0: 4 KiB, 1: 512 bytes. -/
  flbas : Nat := 0
  /-- R496. -/
  attached : Bool := false
  /-- R313 generation of its wrapped key. -/
  keyGen : Nat := 0
  deriving DecidableEq, Repr, Inhabited

/-- Stream Format record (R186) (06_residue_coder.md). -/
structure FormatRec where
  /-- R186 0x00 [0]. -/
  valid : Bool := false
  /-- R186. -/
  layout : BitVec 4 := 0
  /-- R186. -/
  bits : BitVec 5 := 0
  /-- R186. -/
  packing : BitVec 8 := 0
  /-- R186. -/
  thr : BitVec 4 := 0xF
  /-- R186. -/
  width : BitVec 16 := 0
  /-- R186. -/
  height : BitVec 16 := 0
  /-- R186. -/
  nsid : BitVec 32 := 0
  /-- R186. -/
  base : BitVec 64 := 0
  /-- R186. -/
  chunks : BitVec 64 := 0
  /-- R186. -/
  limit : BitVec 8 := 0
  /-- R189 ever written by Set Features or namespace deletion. -/
  written : Bool := false
  deriving DecidableEq, Repr, Inhabited

/-- SideRec: see the fields that use it (04_map_and_journal.md). -/
inductive SideRec where
  | ns (e : Option NsEntry)
  | format (ix : Nat) (r : FormatRec)
  | hints (h : List Hint)
  | fences (dies : List Nat) (heads : List (BitVec 12))
  | deferred (nsid : Nat) (d : Deferred)
  | streams (t : Tab StreamRec) (n : Tab (BitVec 32))
  deriving DecidableEq, Repr, Inhabited

/-- JBody: see the fields that use it (04_map_and_journal.md). -/
inductive JBody where
  | move (src dst : Loc)
  | zeroRange (n : Nat)
  | zeroUnits (m : BitVec 32)
  | deallocRange (n : Nat)
  | deallocUnits (m : BitVec 32)
  | unreadable (m : BitVec 32) (src : Loc) (cause : Nat)
  | spanOpen (span arg : Nat)
  | spanRelease (span : Nat)
  | blockRetire (die block : Nat)
  | stackOpen (act ix : Nat)
  | stackClose (act ix : Nat)
  | stackDiscard (act ix : Nat)
  | side (r : SideRec)
  | nsReset
  deriving DecidableEq, Repr, Inhabited

/-- journal entry (R120, R121) (04_map_and_journal.md). -/
structure JEntry where
  /-- R120. -/
  wsn : Nat := 0
  /-- R120 NSIDX + 1. -/
  nsid : Nat := 0
  /-- R120. -/
  lcn : Nat := 0
  /-- R121. -/
  body : JBody := .nsReset
  deriving DecidableEq, Repr, Inhabited

/-- spare-area entry of a programmed host chunk version (R113, R114) (04_map_and_journal.md). -/
structure HostRec where
  /-- R114. -/
  wsn : Nat := 0
  /-- R114. -/
  nsid : Nat := 0
  /-- R114. -/
  lcn : Nat := 0
  /-- R106 place of the payload. -/
  loc : Loc := {}
  deriving DecidableEq, Repr, Inhabited

/-- a stored payload on media (R14 step 4, R21) (04_map_and_journal.md). -/
structure Copy where
  /-- R116. -/
  wsn : Nat := 0
  /-- R15. -/
  nsid : Nat := 0
  /-- R15 tweak. -/
  lcn : Nat := 0
  /-- R313 generation of the namespace key it is encrypted under. -/
  key : Nat := 0
  /-- R106. -/
  loc : Loc := {}
  /-- R14 step 4 (plaintext of the XTS data unit). -/
  payload : List Crumb := []
  /-- R110 units carried by a split raw copy. -/
  units : BitVec 32 := 0xFFFFFFFF
  deriving DecidableEq, Repr, Inhabited

/-- SpanPhase: see the fields that use it (09_flash_media.md). -/
inductive SpanPhase where
  | free
  | opened
  | closed
  | releasing
  | released
  deriving DecidableEq, Repr, Inhabited

/-- Prot: see the fields that use it (09_flash_media.md). -/
inductive Prot where
  | opened
  | full
  | partialOver (members : List Nat)
  | spilled
  | unprotected
  deriving DecidableEq, Repr, Inhabited

/-- a batch of a flash span (R40, R41, R281) (09_flash_media.md). -/
structure Batch where
  /-- R281 index within the span. -/
  ix : Nat := 0
  /-- R40 crumbs taken, padding included. -/
  used : Nat := 0
  /-- R40 versions (or copies) holding a 256-crumb reservation. -/
  reserved : List Nat := []
  /-- R276 data members programmed with good status. -/
  prog : List Nat := []
  /-- R317 data members whose program failed. -/
  bad : List Nat := []
  /-- R118 record page last started in, lowest and highest WSN of the versions starting in it. -/
  rp : Option (Nat × Nat × Nat) := none
  /-- R276, R282. -/
  prot : Prot := .opened
  deriving DecidableEq, Repr, Inhabited

/-- span table entry (R276, R277) (09_flash_media.md). -/
structure SpanSt where
  /-- R276 none while free; a map-area span has mapArea set. -/
  tier : Tier := .none
  /-- R276. -/
  mapArea : Bool := false
  /-- R277. -/
  phase : SpanPhase := .free
  /-- R277 mode. -/
  dense : Bool := false
  /-- R38 slot that opened it. -/
  slot : Nat := 0
  /-- R276 (die, block) in channel order. -/
  members : List (Nat × Nat) := []
  /-- R276. -/
  batches : List Batch := []
  /-- R46, R297 order of closing. -/
  closeSeq : Nat := 0
  /-- R276. -/
  closeEpoch : BitVec 32 := 0
  /-- R305 weighted retention age, in half hours. -/
  age : Nat := 0
  /-- R276. -/
  refreshDue : Bool := false
  /-- R276. -/
  rebuildDue : Bool := false
  /-- R276. -/
  wearMove : Bool := false
  /-- R308 ahead of priority 1. -/
  urgent : Bool := false
  /-- R307 powered time (ns) of the last scrub pass. -/
  scrubbed : Nat := 0
  /-- R306 next pass within 24 h. -/
  scrubSoon : Bool := false
  deriving DecidableEq, Repr, Inhabited

/-- StackPhase: see the fields that use it (10_rack_tier.md). -/
inductive StackPhase where
  | free
  | opening
  | opened
  | closing
  | closed
  | discarding
  | discarded
  deriving DecidableEq, Repr, Inhabited

/-- stack record, key act * 2^23 + index (R328) (10_rack_tier.md). -/
structure StackSt where
  /-- R328. -/
  phase : StackPhase := .free
  /-- R328 heads at opening. -/
  members : List Nat := []
  /-- R328. -/
  openWsn : Nat := 0
  /-- R328 data bands written. -/
  bands : Nat := 0
  /-- R328 write pointer of the last one. -/
  wptr : Nat := 0
  /-- R328 parity band written. -/
  parity : Bool := false
  /-- R328 valid crumbs. -/
  valid : Nat := 0
  /-- R328. -/
  closeEpoch : BitVec 32 := 0
  /-- R328 lost heads. -/
  rebuildDue : List Nat := []
  /-- R328. -/
  refreshDue : Bool := false
  /-- R328. -/
  sumIncomplete : Bool := false
  /-- R329 bands still to be reset. -/
  resetDue : Bool := false
  /-- R346. -/
  scrubbed : Nat := 0
  deriving DecidableEq, Repr, Inhabited

/-- per block of a die, key die * 2^22 + block (R276) (09_flash_media.md). -/
structure BlockSt where
  /-- R300. -/
  wear : Nat := 0
  /-- R304. -/
  reads : Nat := 0
  /-- R310 tracked retry entry. -/
  entry : Nat := 0
  /-- R317. -/
  retired : Bool := false
  /-- R275 replacement block from the reserve. -/
  repl : Option Nat := none
  deriving DecidableEq, Repr, Inhabited

/-- checkpoint root with what it binds (R124) (04_map_and_journal.md). -/
structure Root where
  /-- R124. -/
  clean : Bool := false
  /-- R124. -/
  ckseq : Nat := 0
  /-- R124. -/
  horizon : Nat := 0
  /-- R124. -/
  wsnHigh : Nat := 0
  /-- R124. -/
  epoch : BitVec 32 := 0
  /-- R124 TIMESTAMP. -/
  ts : Nat := 0
  /-- R124 map pages. -/
  map : Tab Desc := []
  /-- R124 sub-map blocks. -/
  subs : Tab (List UState) := []
  /-- R124 TABLE_LOC[0]. -/
  spans : Tab SpanSt := []
  /-- R328. -/
  stackTab : Tab StackSt := []
  /-- R276. -/
  blocks : Tab BlockSt := []
  /-- R124 TABLE_LOC[1]. -/
  nss : Tab NsEntry := []
  /-- R124 TABLE_LOC[2]. -/
  formats : Tab FormatRec := []
  /-- R124 TABLE_LOC[3]. -/
  hints : List Hint := []
  /-- R124 TABLE_LOC[4]. -/
  fencedDies : List Nat := []
  /-- R124 TABLE_LOC[4]. -/
  fenceHead : List (BitVec 12) := [0, 0]
  /-- R124 TABLE_LOC[5]. -/
  deferred : Tab Deferred := []
  /-- R124 STREAM_LOC. -/
  streams : Tab StreamRec := []
  /-- R34. -/
  nsStreams : Tab (BitVec 32) := []
  /-- R131 map pages that the directory finds on the conventional region. -/
  spilled : List Nat := []
  /-- R131 spill pending table. -/
  pend : List (Nat × Desc) := []
  deriving DecidableEq, Repr, Inhabited

/-- what is on non-volatile media (survives power loss) (04_map_and_journal.md). -/
structure MediaSt where
  /-- R120 durable journal entries, WSN order. -/
  journal : List JEntry := []
  /-- R113 KIND 1 records. -/
  recs : List HostRec := []
  /-- R14, R21 stored payloads. -/
  copies : List Copy := []
  /-- R125. -/
  rootA : Option Root := none
  /-- R125. -/
  rootB : Option Root := none
  /-- R348 (slot, root) copies in the conventional regions. -/
  rackRoot : List (Nat × Root) := []
  /-- R131, R349 spilled map pages. -/
  spill : Tab (List (Nat × Desc)) := []
  /-- R138, R295 page-groups and parity of the spans that were open when power was lost. -/
  lastSpans : Tab SpanSt := []
  deriving DecidableEq, Repr, Inhabited

/-- the map in DRAM and the journal being formed (04_map_and_journal.md). -/
structure MapSt where
  /-- R102 descriptors, key nsidx * 2^34 + LCN; absent means UNMAPPED with zero stamps. -/
  map : Tab Desc := []
  /-- R109 sub-map blocks. -/
  subs : Tab (List UState) := []
  /-- R111 free blocks outside the reserve (256 MiB / 256 B less 4,096). -/
  subFree : Nat := 1044480
  /-- R111 blocks reserved for unreadable markings. -/
  subReserve : Nat := 4096
  /-- R111 (stamp, chunk key, block) held for a change. -/
  subHeld : List (Nat × Nat × Nat) := []
  /-- R116 counter. -/
  wsn : Nat := 0
  /-- R120 entries formed and not durable. -/
  pendJ : List JEntry := []
  /-- R123 time (ns) of the oldest pending deallocation entry. -/
  jDelay : Option Nat := none
  /-- R126 horizon H of the round in progress. -/
  ckActive : Option Nat := none
  /-- R124. -/
  ckseq : Nat := 0
  /-- R126 horizon of the current root. -/
  horizon : Nat := 0
  /-- R128 the newest root is clean and nothing has followed it. -/
  cleanNow : Bool := false
  /-- R126 stored bytes programmed since the horizon. -/
  sinceHorizon : Nat := 0
  /-- R126 time (ns) of the last round. -/
  lastRound : Nat := 0
  /-- R126 map changed since the last round. -/
  dirty : Bool := false
  /-- R127 new host chunks wait for the root. -/
  windowFull : Bool := false
  /-- R129. -/
  paged : Bool := false
  /-- R130 map pages not resident. -/
  absent : List Nat := []
  /-- R131 pages on the conventional region. -/
  spilled : List Nat := []
  /-- R131 spill pending table, 65,536 entries. -/
  spillPend : List (Nat × Desc) := []
  /-- R137 every namespace ready. -/
  mounted : Bool := false
  /-- R306 timestamp (ms) saved at the last root that mount loaded, 0 for none. -/
  rootTs : Nat := 0
  deriving DecidableEq, Repr, Inhabited

/-- PeelState: see the fields that use it (05_frame_ingest.md). -/
inductive PeelState where
  | idle
  | run
  | poll
  | stopping
  | halted
  deriving DecidableEq, Repr, Inhabited

/-- descriptor fields acted on (R151) (05_frame_ingest.md). -/
structure PeelDesc where
  /-- R151. -/
  addr : Nat := 0
  /-- R151. -/
  src : BitVec 64 := 0
  /-- R151. -/
  next : BitVec 64 := 0
  /-- R151. -/
  slba : BitVec 64 := 0
  /-- R151. -/
  nsid : BitVec 32 := 0
  /-- R151. -/
  len : BitVec 32 := 0
  /-- R151. -/
  fmt : BitVec 8 := 0
  /-- R151. -/
  fmtEn : Bool := false
  /-- R151. -/
  notify : Bool := false
  /-- R151. -/
  last : Bool := false
  /-- R151. -/
  own : Bool := false
  deriving DecidableEq, Repr, Inhabited

/-- an accepted descriptor (R155) (05_frame_ingest.md). -/
structure PeelJob where
  /-- R70. -/
  stamp : Nat := 0
  /-- R151. -/
  d : PeelDesc := {}
  /-- R164 source bytes received in order. -/
  got : Nat := 0
  /-- R171 holding register, at most 15 bits. -/
  hold : List Bool := []
  /-- R170 logical bytes unpacked and not yet in a unit. -/
  out : List (BitVec 8) := []
  /-- R170 logical bytes placed. -/
  filled : Nat := 0
  /-- R164 completions waiting for source order. -/
  ooo : List (Nat × List (BitVec 8)) := []
  /-- R169 source packing, taken at acceptance; 0 where FMT_EN is 0. -/
  pack : BitVec 8 := 0
  /-- R156 status of the completed command. -/
  done : Option Nat := none
  deriving DecidableEq, Repr, Inhabited

/-- R150 (05_frame_ingest.md). -/
structure PeelCh where
  /-- R150 0x04 [2:0]. -/
  state : PeelState := .idle
  /-- R150 0x00 [8]. -/
  mode : Bool := false
  /-- R150 0x00 [9]. -/
  notifyHalt : Bool := false
  /-- R150 0x04 [3]. -/
  bmHold : Bool := false
  /-- R150 0x04 [4]. -/
  startIgnored : Bool := false
  /-- R150 0x04 [15:8]. -/
  code : BitVec 8 := 0
  /-- R150 0x04 [23:16]. -/
  sc : BitVec 8 := 0
  /-- R150 0x04 [26:24]. -/
  sct : BitVec 3 := 0
  /-- R150 0x08. -/
  src : BitVec 64 := 0
  /-- R150 0x10. -/
  slba : BitVec 64 := 0
  /-- R150 0x18. -/
  nsid : BitVec 32 := 0
  /-- R150 0x1C. -/
  len : BitVec 32 := 0
  /-- R150 0x20 [7:0]. -/
  fmt : BitVec 8 := 0
  /-- R150 0x20 [8]. -/
  fmtEn : Bool := false
  /-- R150 0x20 [9]. -/
  notify : Bool := false
  /-- R150 0x28. -/
  chain : BitVec 64 := 0
  /-- R150 0x30. -/
  cur : BitVec 64 := 0
  /-- R150 0x38. -/
  descLimit : BitVec 32 := 0x10000
  /-- R150 0x3C. -/
  descCount : BitVec 32 := 0
  /-- R150 0x40. -/
  inflight : BitVec 4 := 3
  /-- R150 0x44. -/
  pollUs : BitVec 16 := 10
  /-- R150 0x48. -/
  notifyAddr : BitVec 64 := 0
  /-- R150 0x50. -/
  notifyData : BitVec 32 := 0
  /-- R150 0x54. -/
  retired : BitVec 32 := 0
  /-- R163 chain's first address. -/
  first : BitVec 64 := 0
  /-- R159 code of the first cause seen while STOPPING. -/
  cause : BitVec 8 := 0
  /-- R153 checked descriptor waiting for acceptance. -/
  ready : Option PeelDesc := none
  /-- R155 accepted, chain order. -/
  jobs : List PeelJob := []
  /-- R159 a descriptor with LAST 1 was accepted. -/
  lastSeen : Bool := false
  deriving DecidableEq, Repr, Inhabited

/-- R177 (05_frame_ingest.md). -/
structure CommitRec where
  /-- R177. -/
  slba : BitVec 64 := 0
  /-- R177. -/
  nsid : BitVec 32 := 0
  /-- R177. -/
  handle : BitVec 16 := 0xFFFF
  /-- R177. -/
  count : BitVec 13 := 0
  /-- R178 stamp once accepted. -/
  stamp : Nat := 0
  /-- R180 status once its command completed. -/
  done : Option Nat := none
  deriving DecidableEq, Repr, Inhabited

/-- R173 (05_frame_ingest.md). -/
structure PushSlot where
  /-- R173 0x04 [0]. -/
  halted : Bool := false
  /-- R173 0x04 [1]. -/
  rej : Bool := false
  /-- R173 0x04 [15:8]. -/
  rejCode : BitVec 8 := 0
  /-- R173 0x04 [23:16]. -/
  sc : BitVec 8 := 0
  /-- R173 0x04 [26:24]. -/
  sct : BitVec 3 := 0
  /-- R181 an error is held since the last RESUME. -/
  errHeld : Bool := false
  /-- R173 0x08 [2]. -/
  notifyEn : Bool := false
  /-- R173 0x10. -/
  cSlba : BitVec 64 := 0
  /-- R173 0x18. -/
  cNsid : BitVec 32 := 0
  /-- R173 0x1C [15:0]. -/
  cHandle : BitVec 16 := 0xFFFF
  /-- R173 0x1C [28:16]. -/
  cCount : BitVec 13 := 0
  /-- R177 reserved bits of the commit dword, for COUNT_INVALID. -/
  cRsv : BitVec 3 := 0
  /-- R173 0x20. -/
  accepted : BitVec 32 := 0
  /-- R173 0x24. -/
  done : BitVec 32 := 0
  /-- R173 0x28. -/
  rejected : BitVec 32 := 0
  /-- R173 0x30. -/
  notifyAddr : BitVec 64 := 0
  /-- R178 queued, at most 16. -/
  queue : List CommitRec := []
  /-- R180 accepted, not retired, acceptance order. -/
  active : List CommitRec := []
  deriving DecidableEq, Repr, Inhabited

/-- R174, R176 (05_frame_ingest.md). -/
structure Lease where
  /-- R174. -/
  slot : Nat := 0
  /-- R176 time (ns) of the grant. -/
  granted : Nat := 0
  /-- R149 lease time that applies to this lease. -/
  leaseUs : Nat := 10000
  /-- R175 buffer content, sparse, cleared at the grant. -/
  data : Tab (BitVec 8) := []
  deriving DecidableEq, Repr, Inhabited

/-- Capture Window (05_frame_ingest.md). -/
structure WinSt where
  /-- R145 table 0x8000 [9]; R148. -/
  pushEn : Bool := true
  /-- R148. -/
  poolSize : Nat := 1024
  /-- R148. -/
  leaseUs : BitVec 32 := 10000
  /-- R146 0x8020 saturating. -/
  discards : BitVec 32 := 0
  /-- R165 0x8024 saturating. -/
  lateCpl : BitVec 32 := 0
  /-- R150 channels 0 to 63; absent means reset values. -/
  peel : Tab PeelCh := []
  /-- R173 slots 0 to 15; absent means reset values. -/
  slots : Tab PushSlot := []
  /-- R174 leased, uncommitted buffers by handle. -/
  leases : Tab Lease := []
  /-- R178 committed buffers by handle. -/
  fixedBufs : Tab Lease := []
  /-- R149 Sets waiting (stamp, enable, size, lease). -/
  setQ : List (Nat × Nat × Nat × Nat) := []
  /-- R65, R157, R180 contexts in Finishing whose ingest write is not retired yet. -/
  finishing : List Ctx := []
  deriving DecidableEq, Repr, Inhabited

/-- R186 counters since power-on (06_residue_coder.md). -/
structure FormatCnt where
  /-- R186 CODED_CNT. -/
  coded : BitVec 32 := 0
  /-- R186 RAW_LIMIT_CNT. -/
  rawLimit : BitVec 32 := 0
  /-- R186 RAW_RANGE_CNT. -/
  rawRange : BitVec 32 := 0
  deriving DecidableEq, Repr, Inhabited

/-- CoderSt (06_residue_coder.md). -/
structure CoderSt where
  /-- R186 256 stream formats. -/
  formats : Tab FormatRec := []
  /-- R186. -/
  counts : Tab FormatCnt := []
  deriving DecidableEq, Repr, Inhabited

/-- die geometry of the device (R220, R221), as the first good die reports (07_flash_channels.md). -/
structure Geometry where
  /-- R221. -/
  planes : Nat := 0
  /-- R275 blocks per plane. -/
  blocks : Nat := 0
  /-- R278. -/
  wordlines : Nat := 0
  /-- R221, R279. -/
  spare : Nat := 0
  /-- R221 capacity in Gb. -/
  tb : Nat := 0
  /-- R221. -/
  rowCycles : Nat := 0
  /-- R221 highest NV-DDR3 rate supported. -/
  rates : Nat := 0
  /-- R288 dense modes supported (bit n: n bits per cell). -/
  denseBits : Nat := 0
  deriving DecidableEq, Repr, Inhabited

/-- DieOp: see the fields that use it (07_flash_channels.md). -/
inductive DieOp where
  | read
  | program
  | erase
  | reset
  deriving DecidableEq, Repr, Inhabited

/-- one flash die (R219) (07_flash_channels.md). -/
structure DieSt where
  /-- R220 responded. -/
  present : Bool := false
  /-- R220, R221. -/
  usable : Bool := false
  /-- R318. -/
  failed : Bool := false
  /-- R224 array operation in flight. -/
  op : Option DieOp := none
  /-- R225 status polls of the operation. -/
  polls : Nat := 0
  /-- R226 timeouts in a row. -/
  timeouts : Nat := 0
  /-- R226 read issued once more. -/
  again : Bool := false
  /-- R228 rate of the stored training values. -/
  rate : Nat := 0
  /-- R228 recorded eye width, % of UI. -/
  eye : Nat := 0
  /-- R228, R229 narrowest eye at each rate of R215, % of UI, 0 where a strobe fails. -/
  eyes : List Nat := []
  /-- R228 step 9. -/
  trained : Bool := false
  /-- R230. -/
  retrainDue : Bool := false
  /-- R230, R318. -/
  retrainFails : Nat := 0
  /-- R230 time (ns). -/
  lastTrain : Nat := 0
  /-- R318 against key 0x0131. -/
  retiredBlocks : Nat := 0
  /-- R318 record pages that needed step 4 in this epoch. -/
  step4 : Nat := 0
  deriving DecidableEq, Repr, Inhabited

/-- one channel (07_flash_channels.md). -/
structure ChanSt where
  /-- R218 Fnn_WP_N level. -/
  wp : Bool := false
  /-- R228. -/
  inited : Bool := false
  /-- R652 a channel that initialisation has not found to be without dies. -/
  fitted : Bool := false
  /-- R229, R319 powered time (ns) of a training-failure fence. -/
  trainFence : Option Nat := none
  /-- R240 last volume addressed per chip enable. -/
  lastVol : Tab Nat := []
  deriving DecidableEq, Repr, Inhabited

/-- FlashIfSt (07_flash_channels.md). -/
structure FlashIfSt where
  /-- R221. -/
  geo : Geometry := {}
  /-- R219 0 to 1,023. -/
  dies : Tab DieSt := []
  /-- R215 0 to 31. -/
  chans : Tab ChanSt := []
  /-- R215, R229 MT/s per group. -/
  groupRate : Tab Nat := []
  deriving DecidableEq, Repr, Inhabited

/-- SeqState: see the fields that use it (08_channel_sequencers.md). -/
inductive SeqState where
  | reset
  | loading
  | idle
  | run
  | trap
  | held
  | mcheck
  | ploss
  deriving DecidableEq, Repr, Inhabited

/-- Cause: see the fields that use it (08_channel_sequencers.md). -/
inductive Cause where
  | illegal
  | priv
  | stack
  | watchdog
  | strobe
  | xfer
  | powerfail
  | user
  deriving DecidableEq, Repr, Inhabited

/-- Result: see the fields that use it (08_channel_sequencers.md). -/
inductive Result where
  | ok
  | fail
  | timeout
  | unsupported
  | trapped
  | mcheck
  | abandoned
  | xfer
  deriving DecidableEq, Repr, Inhabited

/-- operation record (R250) (08_channel_sequencers.md). -/
structure OpRec where
  /-- R250. -/
  opcode : BitVec 8 := 0
  /-- R250. -/
  die : BitVec 5 := 0
  /-- R250. -/
  pls : Bool := false
  /-- R250. -/
  planes : BitVec 4 := 0
  /-- R250. -/
  tag : BitVec 12 := 0
  /-- R250. -/
  row : BitVec 32 := 0
  /-- R250. -/
  col : BitVec 16 := 0
  /-- R250. -/
  blist : BitVec 8 := 0
  /-- R250. -/
  len : BitVec 32 := 0
  /-- R250 PARAM0 to PARAM3. -/
  params : List (BitVec 32) := []
  deriving DecidableEq, Repr, Inhabited

/-- completion record (R254) (08_channel_sequencers.md). -/
structure CplRec where
  /-- R254. -/
  opcode : BitVec 8 := 0
  /-- R254. -/
  result : Result := .ok
  /-- R254. -/
  cause : BitVec 3 := 0
  /-- R254. -/
  traps : Bool := false
  /-- R254. -/
  tag : BitVec 12 := 0
  /-- R254. -/
  fstat : BitVec 8 := 0
  /-- R254. -/
  cwfail : BitVec 8 := 0
  /-- R254. -/
  maxbits : BitVec 8 := 0
  /-- R254. -/
  ucode : BitVec 8 := 0
  /-- R254. -/
  res : BitVec 32 := 0
  /-- R254. -/
  duration : BitVec 32 := 0
  deriving DecidableEq, Repr, Inhabited

/-- sequencer context (R239, R248) (08_channel_sequencers.md). -/
structure MCtx where
  /-- R239. -/
  op : OpRec := {}
  /-- R251 CLASS of the dispatched entry. -/
  cls : BitVec 2 := 0
  /-- R258 dispatch entry for a restart. -/
  entry : BitVec 12 := 0
  /-- R239 next word. -/
  upc : BitVec 12 := 0
  /-- R248 G0 to G15. -/
  g : List (BitVec 32) := []
  /-- R248. -/
  row : BitVec 32 := 0
  /-- R248. -/
  col : BitVec 16 := 0
  /-- R248. -/
  cnt : BitVec 32 := 0
  /-- R248. -/
  sr : BitVec 8 := 0
  /-- R248. -/
  lc : List (BitVec 16) := [0, 0, 0, 0]
  /-- R248 Z, C, N, T. -/
  flg : BitVec 4 := 0
  /-- R248. -/
  res : BitVec 32 := 0
  /-- R239 4 return addresses. -/
  stack : List (BitVec 12) := []
  /-- R244 in YIELD. -/
  parked : Bool := false
  /-- R261 a command that starts an array operation was driven. -/
  started : Bool := false
  /-- R245 DECOK. -/
  decok : Bool := true
  /-- R254. -/
  cwfail : BitVec 8 := 0
  /-- R254. -/
  maxbits : BitVec 8 := 0
  /-- R254 last trap taken. -/
  cause : Option Cause := none
  /-- R254. -/
  ucode : BitVec 8 := 0
  /-- R257 STROBE traps of the operation. -/
  strobes : Nat := 0
  /-- R257 WATCHDOG expiries of the operation. -/
  expiries : Nat := 0
  /-- R246 position in the buffer list. -/
  xferPos : Nat := 0
  /-- R254 time (ns) of dispatch. -/
  start : Nat := 0
  /-- R257 time (ns) from which the limit of key 0x0108 runs. -/
  wdStart : Nat := 0
  deriving DecidableEq, Repr, Inhabited

/-- trap frame (R258) (08_channel_sequencers.md). -/
structure Frame where
  /-- R258. -/
  upc : BitVec 12 := 0
  /-- R258. -/
  lc : List (BitVec 16) := [0, 0, 0, 0]
  /-- R258. -/
  flg : BitVec 4 := 0
  /-- R258. -/
  cause : Cause := .illegal
  /-- R258. -/
  code : BitVec 8 := 0
  /-- R259 context that owns the frame. -/
  owner : Nat := 0
  deriving DecidableEq, Repr, Inhabited

/-- one sequencer (R238, R270) (08_channel_sequencers.md). -/
structure SeqSt where
  /-- R270 0x000 [0]. -/
  hold : Bool := false
  /-- R270 0x004 [2:0]. -/
  state : SeqState := .reset
  /-- R270. -/
  maddr : BitVec 12 := 0
  /-- R270. -/
  mkind : BitVec 2 := 0
  /-- R270. -/
  mgroup : BitVec 3 := 0
  /-- R270. -/
  trapCnt : BitVec 32 := 0
  /-- R258, R270 0x010 to 0x018. -/
  frame : Option Frame := none
  /-- R270 0x01C [14]. -/
  drop : Bool := false
  /-- R270. -/
  baseVer : BitVec 32 := 0
  /-- R270. -/
  patches : BitVec 8 := 0
  /-- R270. -/
  cust : Bool := false
  /-- R270. -/
  custVer : BitVec 32 := 0
  /-- R241 control store words; absent means the fill word. -/
  store : Tab (BitVec 96) := []
  /-- R251 dispatch entries; absent means 0. -/
  disp : Tab (BitVec 32) := []
  /-- R267 dispatch table locked. -/
  locked : Bool := false
  /-- R250 up to 64, oldest first. -/
  queue : List OpRec := []
  /-- R250 up to 64, oldest first. -/
  cq : List CplRec := []
  /-- R250 handle list table. -/
  blists : Tab (List Nat) := []
  /-- R270 SUBMIT bytes 0x100 to 0x11F. -/
  submit : List (BitVec 8) := []
  /-- R239 active contexts 0 to 7. -/
  ctxs : Tab MCtx := []
  /-- R239 context that runs. -/
  cur : Option Nat := none
  /-- R239 last context picked, round robin. -/
  rr : Nat := 0
  /-- R259 asynchronous causes pending (cause, context). -/
  pend : List (Cause × Nat) := []
  /-- R261 power-loss mode. -/
  ploss : Bool := false
  deriving DecidableEq, Repr, Inhabited

/-- SeqsSt (08_channel_sequencers.md). -/
structure SeqsSt where
  /-- R238 FCS0 to FCS31 at 0 to 31, DFS0 and DFS1 at 32 and 33; absent means reset values. -/
  seqs : Tab SeqSt := []
  /-- R269 vendor base as verified at the last start or newly activated. -/
  base : Option McuModule := none
  /-- R267. -/
  patchMods : List McuModule := []
  /-- R267 key 0x0110 as parsed. -/
  custom : Option McuModule := none
  /-- R263 TRAPPED ends per customer opcode since start. -/
  custTraps : Tab Nat := []
  /-- R264 pairs in force. -/
  overrides : List (Nat × Nat) := []
  deriving DecidableEq, Repr, Inhabited

/-- media key slot (R313) (09_flash_media.md). -/
structure KeySlot where
  /-- R313 generation of the key pair held. -/
  gen : Nat := 0
  /-- R313 unwrapped key in the slot. -/
  loaded : Bool := false
  deriving DecidableEq, Repr, Inhabited

/-- ReadPhase: see the fields that use it (09_flash_media.md). -/
inductive ReadPhase where
  | fetch
  | decode
  | cipher
  | coder
  | done
  | bad
  | rackWait
  deriving DecidableEq, Repr, Inhabited

/-- one chunk of a read-class command or internal read on its way (R18, R309) (09_flash_media.md). -/
structure ReadJob where
  /-- model's own identifier. -/
  id : Nat := 0
  /-- R18 command, 0 for an internal flow. -/
  stamp : Nat := 0
  /-- R18. -/
  nsid : Nat := 0
  /-- R18. -/
  lcn : Nat := 0
  /-- R18 step 1. -/
  loc : Loc := {}
  /-- R18 units needed. -/
  units : BitVec 32 := 0
  /-- R94 cause code of the finding flow, 0 for a host read. -/
  flow : Nat := 0
  /-- R309 ladder step. -/
  step : Nat := 1
  /-- R18. -/
  phase : ReadPhase := .fetch
  /-- R52. -/
  engine : Nat := 0
  /-- model's own: version or copy step that an internal read serves. -/
  ref : Nat := 0
  /-- R317 units whose codewords are unrecoverable. -/
  failed : BitVec 32 := 0
  deriving DecidableEq, Repr, Inhabited

/-- FlashSt (09_flash_media.md). -/
structure FlashSt where
  /-- R276 span table, key span number. -/
  spans : Tab SpanSt := []
  /-- R276. -/
  blocks : Tab BlockSt := []
  /-- R38 open span per (tier, slot): Proof slot n at n, Bake slot n at 8 + n. -/
  openSpan : Tab Nat := []
  /-- R287 open map-area spans: 0 journal, 1 map pages, 2 parity spill. -/
  mapOpen : Tab Nat := []
  /-- R46 closings so far. -/
  closeSeq : Nat := 0
  /-- R287 map area's span limit of this start. -/
  mapLimit : Nat := 0
  /-- R305 time (ns) to which retention ages are counted. -/
  retainedAt : Nat := 0
  /-- R313 64 key slots. -/
  keys : Tab KeySlot := []
  /-- R313 key pairs generated. -/
  keyGen : Nat := 0
  /-- R18, R309. -/
  jobs : List ReadJob := []
  /-- model's own identifier. -/
  nextJob : Nat := 1
  /-- R320 media read-only mode. -/
  readOnly : Bool := false
  /-- R296 member sets in which Knead runs. -/
  kneading : List Nat := []
  /-- R297 spans under Knead. -/
  kneadSpans : List Nat := []
  /-- R45 versions waiting for an erased span. -/
  stalled : List Nat := []
  /-- R275 blocks marked bad at first format. -/
  factoryBad : List (Nat × Nat) := []
  deriving DecidableEq, Repr, Inhabited

/-- Spin: see the fields that use it (10_rack_tier.md). -/
inductive Spin where
  | absent
  | stopped
  | spinup
  | ready
  | reduced
  | spindown
  | failed
  | lowv
  deriving DecidableEq, Repr, Inhabited

/-- chunk placed in the open stack (R332) (10_rack_tier.md). -/
structure Placed where
  /-- R332. -/
  nsid : Nat := 0
  /-- R332. -/
  lcn : Nat := 0
  /-- R332. -/
  src : Loc := {}
  /-- R332. -/
  dst : Loc := {}
  /-- R116. -/
  wsn : Nat := 0
  /-- R332. -/
  knead : Bool := false
  deriving DecidableEq, Repr, Inhabited

/-- StackStep: see the fields that use it (10_rack_tier.md). -/
inductive StackStep where
  | none
  | filling
  | lastTrack
  | parityWrite
  | parityRead
  | summary
  | close
  deriving DecidableEq, Repr, Inhabited

/-- per actuator (R330, R332) (10_rack_tier.md). -/
structure ActSt where
  /-- R330. -/
  openStack : Option Nat := none
  /-- R332. -/
  step : StackStep := .none
  /-- R332. -/
  placed : List Placed := []
  /-- R332 crumbs placed in the data space. -/
  used : Nat := 0
  /-- R333 data bands that passed the last-track check. -/
  checked : Nat := 0
  /-- R334 parity band rewrites. -/
  parityTries : Nat := 0
  /-- R42 lifetime class the stack takes. -/
  lc : Nat := 0
  /-- R335 time (ns) of the last chunk placed. -/
  lastPlace : Nat := 0
  /-- R332 chunk being read into staging. -/
  staging : List MigItem := []
  /-- R332 accumulator held in DRAM. -/
  accum : Bool := false
  /-- R334 summary copies that could not be written. -/
  sumBad : Nat := 0
  /-- R344 stack under Knead. -/
  rackKnead : Option Nat := none
  /-- R332 the open stack takes no more chunks. -/
  closing : Bool := false
  /-- R344 running up to the high threshold. -/
  kneading : Bool := false
  deriving DecidableEq, Repr, Inhabited

/-- RackSt (10_rack_tier.md). -/
structure RackSt where
  /-- R350. -/
  spin : Spin := .absent
  /-- R353 key 0x0404. -/
  spinAllowed : Bool := true
  /-- R353 standby time set by the host, none follows key 0x0405. -/
  standby : Option (BitVec 32) := none
  /-- R354 after action 2 only a command demands spin-up. -/
  demandHeld : Bool := false
  /-- R351 time (ns) of entering SPINUP. -/
  spinupAt : Nat := 0
  /-- R351 spin-up attempts. -/
  attempts : Nat := 0
  /-- R351 10 s wait after a failed spin-up. -/
  retryWait : Bool := false
  /-- R352 spin-up wanted once SPINDOWN ends. -/
  demand : Bool := false
  /-- R351 SPINDOWN leads to LOWV. -/
  lowv : Bool := false
  /-- R351 SPINDOWN leads to REDUCED. -/
  toReduced : Bool := false
  /-- R351 time (ns) of the last Rack work. -/
  lastWork : Nat := 0
  /-- R328. -/
  stackTab : Tab StackSt := []
  /-- R330. -/
  acts : List ActSt := [{}, {}]
  /-- R341 (actuator, head). -/
  lostHeads : List (Nat × Nat) := []
  /-- R348 CKSEQ of the newest root copied. -/
  rootCopied : Nat := 0
  deriving DecidableEq, Repr, Inhabited

/-- calibration entry of one band (R378) (11_disk_channel_and_assist.md). -/
structure CalEntry where
  /-- R378. -/
  assist : BitVec 16 := 0
  /-- R378. -/
  wcur : BitVec 8 := 0
  /-- R378. -/
  wos : BitVec 8 := 0
  /-- R378. -/
  whtr : BitVec 16 := 0
  /-- R378. -/
  rhtr : BitVec 16 := 0
  /-- R378. -/
  epoch : BitVec 32 := 0
  /-- R378. -/
  temp : BitVec 8 := 0
  /-- R378. -/
  valid : Bool := false
  deriving DecidableEq, Repr, Inhabited

/-- calibration record of a surface (R378), newest good copy and its place (11_disk_channel_and_assist.md). -/
structure CalRec where
  /-- R378. -/
  seq : BitVec 32 := 0
  /-- R378. -/
  baseAssist : BitVec 16 := 0
  /-- R378. -/
  baseRres : BitVec 16 := 0
  /-- R378. -/
  lastRres : BitVec 16 := 0
  /-- R378. -/
  calFails : BitVec 8 := 0
  /-- R378. -/
  calCount : BitVec 32 := 0
  /-- R378. -/
  entries : List CalEntry := [{}, {}, {}, {}, {}]
  /-- R378 copy that holds it. -/
  slot : Nat := 0
  deriving DecidableEq, Repr, Inhabited

/-- per surface 12 * a + h (11_disk_channel_and_assist.md). -/
structure HeadSt where
  /-- R376 valid calibration record. -/
  cal : Option CalRec := none
  /-- R376. -/
  calDue : Bool := false
  /-- R381 powered times (ns) of charged faults within 24 h. -/
  faults : List Nat := []
  /-- R381 measures already warned on. -/
  warned : List Nat := []
  /-- R382 fence entry not yet durable. -/
  retiring : Bool := false
  deriving DecidableEq, Repr, Inhabited

/-- calibration in progress on an actuator (R377) (11_disk_channel_and_assist.md). -/
structure CalRun where
  /-- R377. -/
  head : Nat := 0
  /-- R377. -/
  step : Nat := 1
  /-- R377. -/
  rhtr : BitVec 16 := 0
  /-- R377. -/
  whtr : BitVec 16 := 0
  /-- R377. -/
  assist : BitVec 16 := 0
  /-- R377. -/
  wcur : BitVec 8 := 0
  /-- R377 a host read waits, the step is repeated. -/
  again : Bool := false
  deriving DecidableEq, Repr, Inhabited

/-- per actuator read/write channel (11_disk_channel_and_assist.md). -/
structure RwSt where
  /-- R367 Pa_WG. -/
  wg : Bool := false
  /-- R367 Pa_ASSIST_EN. -/
  assistEn : Bool := false
  /-- R367 Pa_FLT_N. -/
  fltN : Bool := true
  /-- R370 write burst in progress. -/
  burst : Bool := false
  /-- R370 next sector of the band being written. -/
  writing : Option Nat := none
  /-- R370 first sector begun after the last good wedge. -/
  lastGood : Nat := 0
  /-- R370 neighbouring track to be read. -/
  squeezeCheck : Bool := false
  /-- R371 time (ns) of a persisting supply or thermal fault. -/
  faultSince : Option Nat := none
  /-- R377. -/
  calib : Option CalRun := none
  /-- R372, R374 parameter set loaded into the preamplifier, with the heater codes as applied. -/
  params : CalEntry := {}
  deriving DecidableEq, Repr, Inhabited

/-- ChanAssistSt (11_disk_channel_and_assist.md). -/
structure ChanAssistSt where
  /-- R378 surface 12 * a + h. -/
  heads : Tab HeadSt := []
  /-- R367 per actuator. -/
  rw : List RwSt := [{}, {}]
  /-- R374 Rack band (B0 to B4). -/
  band : Nat := 1
  /-- R373 Rack temperature, 0.125 degrees C. -/
  rackTemp : Int := 200
  deriving DecidableEq, Repr, Inhabited

/-- ServoMode: see the fields that use it (12_actuator_servo.md). -/
inductive ServoMode where
  | parked
  | loading
  | seek
  | settle
  | follow
  | reacquire
  | unloading
  | fenced
  deriving DecidableEq, Repr, Inhabited

/-- SpinSt: see the fields that use it (12_actuator_servo.md). -/
inductive SpinSt where
  | stopped
  | sense
  | openloop
  | bemf
  | wedge
  | reduced
  | braking
  | retracted
  deriving DecidableEq, Repr, Inhabited

/-- a hand-over in progress (R403) (12_actuator_servo.md). -/
structure Hand where
  /-- R403 new region. -/
  region : Nat := 0
  /-- R403 new mode 0 seek, 1 settle, 2 follow. -/
  mode : Nat := 0
  /-- R403 comparisons made. -/
  samples : Nat := 0
  /-- R402 voice-coil compensator states of the new bank. -/
  vs : List Int := [0, 0, 0]
  /-- R402 milliactuator compensator states of the new bank. -/
  ms : List Int := [0, 0]
  /-- R402 voice-coil notch states of the new bank. -/
  vn : List (List Int) := []
  /-- R402 milliactuator notch states of the new bank. -/
  mn : List (List Int) := []
  deriving DecidableEq, Repr, Inhabited

/-- one actuator of the Servo Control Engine (R419) (12_actuator_servo.md). -/
structure ServoAct where
  /-- R419 0x000 [2:0]. -/
  mode : ServoMode := .parked
  /-- R419 0x000 [5:3]. -/
  region : Nat := 0
  /-- R398 mode of the bank that drives (0 seek, 1 settle, 2 follow). -/
  bank : Nat := 0
  /-- R419 0x000 [6]. -/
  locked : Bool := false
  /-- R419 0x000 [15:12]. -/
  head : BitVec 4 := 0
  /-- R419 0x004 TARGET. -/
  target : BitVec 32 := 0
  /-- R419 0x008 HEAD_SEL. -/
  headSel : BitVec 4 := 0
  /-- R393 target in force, Q24.8. -/
  curTarget : Int := 0
  /-- R393 position, Q26.14. -/
  x : Int := 0
  /-- R393 velocity estimate, Q16.16. -/
  v : Int := 0
  /-- R419 0x010. -/
  pes : BitVec 16 := 0
  /-- R419. -/
  satCnt : BitVec 32 := 0
  /-- R419. -/
  missCnt : BitVec 32 := 0
  /-- R419. -/
  hoFail : BitVec 32 := 0
  /-- R419. -/
  retries : BitVec 32 := 0
  /-- R419. -/
  seekFail : BitVec 32 := 0
  /-- R419. -/
  rround : BitVec 32 := 0
  /-- R396 voice-coil compensator states s1 to s3. -/
  vs : List Int := [0, 0, 0]
  /-- R396 milliactuator compensator states. -/
  ms : List Int := [0, 0]
  /-- R396 voice-coil notch states. -/
  vn : List (List Int) := [[0, 0], [0, 0], [0, 0], [0, 0], [0, 0], [0, 0]]
  /-- R396 milliactuator notch states. -/
  mn : List (List Int) := [[0, 0], [0, 0], [0, 0], [0, 0], [0, 0], [0, 0]]
  /-- R394 milliactuator stage output of the previous sample. -/
  uM : Int := 0
  /-- R392 voice-coil DAC code sent. -/
  dacV : Int := 0
  /-- R392 milliactuator DAC code sent. -/
  dacM : Int := 0
  /-- R406 last 16 voice-coil commands sent. -/
  hist : List Int := []
  /-- R403. -/
  hand : Option Hand := none
  /-- R404 samples until a failed region change is tried again. -/
  hoWait : Nat := 0
  /-- R408 consecutive invalid wedges. -/
  misses : Nat := 0
  /-- R400 consecutive samples toward NFOL. -/
  followCnt : Nat := 0
  /-- R409 consecutive samples within the lock limit. -/
  lockCnt : Nat := 0
  /-- R400 consecutive samples within the off-track limit in follow. -/
  onTrackCnt : Nat := 0
  /-- R400 a seek has not ended. -/
  seekActive : Bool := false
  /-- R401 retries used. -/
  seekTries : Nat := 0
  /-- R401 failed seeks in a row. -/
  seekFails : Nat := 0
  /-- R372 head-switch settle time running. -/
  settling : Bool := false
  /-- R407 entries queued ahead. -/
  runout : List (BitVec 16) := []
  /-- R407 wedge of the first queued entry. -/
  rroAt : Nat := 0
  /-- R407 port panic signal. -/
  panic : Bool := false
  /-- R415 loads tried. -/
  loadTries : Nat := 0
  /-- R415 time (ns) at which the load began. -/
  loadAt : Nat := 0
  /-- R401 time (ns) at which the seek or its retry began. -/
  seekAt : Nat := 0
  /-- R401 operation that asked: 1 a write, 2 a read, else load or seek test. -/
  seekOp : Nat := 0
  /-- R372 time (ns) of the head switch. -/
  settleAt : Nat := 0
  /-- R400 a target set and not yet tested. -/
  newTarget : Bool := false
  /-- R401, R408 a seek to the current target starts at the next valid wedge. -/
  reseek : Bool := false
  /-- R393 no position sample yet on this head. -/
  first : Bool := true
  /-- R415 wedges with a servo address mark in a row. -/
  samRun : Nat := 0
  deriving DecidableEq, Repr, Inhabited

/-- SpindleSt (12_actuator_servo.md). -/
structure SpindleSt where
  /-- R419 0x200 [2:0]. -/
  state : SpinSt := .stopped
  /-- R419 0x200 [3]. -/
  srvLock : Bool := false
  /-- R419 0x200 [4]. -/
  winhibit : Bool := false
  /-- R419 0x204. -/
  speed : BitVec 32 := 0
  /-- R419 0x208. -/
  attempts : BitVec 8 := 0
  /-- R410 time (ns) at which the present step of the start began. -/
  stageAt : Nat := 0
  /-- R26 consecutive wedges within the lock window. -/
  lockRun : Nat := 0
  /-- R387 consecutive wedges without valid TERR on either actuator. -/
  lossRun : Nat := 0
  /-- R387 actuator whose wedges lock the loop. -/
  lockAct : Nat := 0
  /-- R411 speed compensator states. -/
  sp : List Int := [0, 0]
  /-- R392 spindle current command. -/
  cmd : Int := 0
  /-- R412 electrical-angle index at wedge 0. -/
  theta0 : Nat := 0
  /-- R413 wedges in a row with the period within 0.1 %. -/
  goodRun : Nat := 0
  /-- R413 time (ns) since a departure over 1 %. -/
  errSince : Option Nat := none
  deriving DecidableEq, Repr, Inhabited

/-- ServoSt (12_actuator_servo.md). -/
structure ServoSt where
  /-- R419. -/
  acts : List ServoAct := [{}, {}]
  /-- R419. -/
  spindle : SpindleSt := {}
  /-- R407 runout tables in DRAM, key surface * 8 + region. -/
  rro : Tab (List (BitVec 16)) := []
  /-- R669 VMOT switched on. -/
  vmot : Bool := false
  deriving DecidableEq, Repr, Inhabited

/-- training helper block of a subchannel (R427) (13_memory_and_buffers.md). -/
structure Helper where
  /-- R427. -/
  pgMode : BitVec 2 := 0
  /-- R427. -/
  pgDir : Bool := false
  /-- R427. -/
  seed : BitVec 32 := 1
  /-- R427. -/
  count : BitVec 32 := 0
  /-- R427. -/
  addr : BitVec 32 := 0
  /-- R427. -/
  errMaskD : BitVec 32 := 0
  /-- R427. -/
  errMaskE : BitVec 8 := 0
  /-- R427. -/
  done : Bool := false
  /-- R427 bits 0 to 39. -/
  errCnt : Tab (BitVec 32) := []
  /-- R427 DQ_DLY: read delay [7:0], write delay [15:8]. -/
  dly : Tab (BitVec 16) := []
  /-- R427. -/
  vref : BitVec 7 := 0x40
  /-- R427 run in progress, the helper owns the subchannel. -/
  active : Bool := false
  deriving DecidableEq, Repr, Inhabited

/-- a request waiting on a subchannel (R436, R439) (13_memory_and_buffers.md). -/
structure DramReq where
  /-- R439 order of arrival. -/
  id : Nat := 0
  /-- R436. -/
  port : Nat := 0
  /-- R430. -/
  row : Nat := 0
  /-- R430. -/
  bank : Nat := 0
  /-- R430. -/
  write : Bool := false
  /-- R437 time (ns). -/
  arrived : Nat := 0
  /-- R435 contents code. -/
  holds : Nat := 0
  /-- R435 which page, actuator or ring offset the burst holds. -/
  burst : Nat := 0
  /-- R435 read once more. -/
  again : Bool := false
  deriving DecidableEq, Repr, Inhabited

/-- one DRAM subchannel (13_memory_and_buffers.md). -/
structure SubCh where
  /-- R427. -/
  helper : Helper := {}
  /-- R430 open row per bank. -/
  openRow : Tab Nat := []
  /-- R430 direction in progress, true for writes. -/
  dir : Bool := false
  /-- R430 bursts in that direction. -/
  dirRun : Nat := 0
  /-- R439 waiting requests. -/
  reqs : List DramReq := []
  /-- R424 issued reads. -/
  inflight : List DramReq := []
  /-- R434 last 64 commands. -/
  retry : List DramReq := []
  /-- R434 failed replays of one window. -/
  replays : Nat := 0
  /-- R431 refresh rate 1, 2 or 4. -/
  rate : Nat := 1
  /-- R432 postponed refreshes. -/
  owed : Nat := 0
  /-- R432 next bank set. -/
  refBank : Nat := 0
  /-- R429 trained write delays. -/
  trained : List Nat := []
  /-- R426 tracking base. -/
  oscBase : Nat := 0
  /-- R429. -/
  retrainDue : Bool := false
  /-- R429 smallest margin found, reads, % of UI. -/
  minEyeR : Nat := 0
  /-- R429 smallest margin found, writes. -/
  minEyeW : Nat := 0
  /-- R642 smallest read voltage margin, mV. -/
  minMvR : Nat := 0
  /-- R642 smallest write voltage margin, mV. -/
  minMvW : Nat := 0
  deriving DecidableEq, Repr, Inhabited

/-- DramSt (13_memory_and_buffers.md). -/
structure DramSt where
  /-- R428. -/
  inService : Bool := false
  /-- R428 MT/s. -/
  rate : Nat := 0
  /-- R433. -/
  selfRefresh : Bool := false
  /-- R423 A0, A1, B0, B1. -/
  subs : List SubCh := [{}, {}, {}, {}]
  /-- R438 levels of ports 5, 6, 7. -/
  levels : List Nat := [65536, 65536, 64]
  /-- R438 ports 5, 6, 7. -/
  panic : List Bool := [false, false, false]
  /-- R439 arrivals so far. -/
  nextReq : Nat := 0
  /-- R425 next burst to scrub. -/
  patrol : Nat := 0
  deriving DecidableEq, Repr, Inhabited

/-- status word of one buffer (R452); absent means free with reset fields (13_memory_and_buffers.md). -/
structure Buf where
  /-- R452. -/
  alloc : Bool := false
  /-- R452. -/
  pool : BitVec 4 := 0
  /-- R452. -/
  shared : Bool := false
  /-- R452. -/
  last : BitVec 2 := 0
  /-- R452. -/
  held : BitVec 4 := 0
  /-- R452. -/
  owners : List (BitVec 6) := [0, 0, 0, 0]
  /-- R452. -/
  crcv : Bool := false
  /-- R452 CRC word. -/
  crc : BitVec 32 := 0
  deriving DecidableEq, Repr, Inhabited

/-- waiting group of a pool (R671) (13_memory_and_buffers.md). -/
structure Group where
  /-- R671. -/
  owner : BitVec 6 := 0
  /-- R671. -/
  need : Nat := 0
  /-- R671 handles granted. -/
  got : List Nat := []
  deriving DecidableEq, Repr, Inhabited

/-- R442, R453 (13_memory_and_buffers.md). -/
structure Pool where
  /-- R453 SIZE. -/
  size : Nat := 0
  /-- R445 free list, head first. -/
  free : List Nat := []
  /-- R453 MINFREE. -/
  minFree : Nat := 0
  /-- R453. -/
  noneCnt : BitVec 32 := 0
  /-- R446. -/
  paused : Bool := false
  /-- R446 link found bad. -/
  badLink : Bool := false
  /-- R449 requester last served. -/
  lastServed : Nat := 0
  /-- R671. -/
  groups : List Group := []
  /-- R446 requests that wait for the rebuild: requester, and the slot of a LEASE read. -/
  heldAllocs : List (Nat × Option Nat) := []
  /-- R454 frees that wait for the rebuild: requester, handle. -/
  heldFrees : List (Nat × Nat) := []
  deriving DecidableEq, Repr, Inhabited

/-- buffer pool manager (13_memory_and_buffers.md). -/
structure PoolSt where
  /-- R452 12,288 status words. -/
  bufs : Tab Buf := []
  /-- R442 pools 0 to 15. -/
  pools : Tab Pool := []
  /-- R453 0x004. -/
  opOwners : BitVec 24 := 0
  /-- R453. -/
  opNown : BitVec 3 := 0
  /-- R453. -/
  opLast : BitVec 2 := 0
  /-- R453. -/
  resHandle : BitVec 16 := 0xFFFF
  /-- R453. -/
  resCode : BitVec 3 := 0
  /-- R453. -/
  resValid : Bool := false
  /-- R453. -/
  dfreeCnt : BitVec 32 := 0
  /-- R453. -/
  ownvCnt : BitVec 32 := 0
  /-- R453. -/
  shoutCnt : BitVec 32 := 0
  /-- R442 buffers still owed to pool 2. -/
  toPush : Nat := 0
  deriving DecidableEq, Repr, Inhabited

/-- one fault source (R579, R592) (18_faults_and_events.md). -/
structure Src where
  /-- R592 PENDING. -/
  pending : Bool := false
  /-- R581 time (ns) at which PENDING was set, pauses taken out. -/
  pendAt : Nat := 0
  /-- R592 FORCE. -/
  force : Bool := false
  /-- R592 MASKED. -/
  masked : Bool := false
  /-- R592 COUNT, saturating. -/
  count : BitVec 32 := 0
  /-- R593 LAST_SEQ. -/
  lastSeq : BitVec 32 := 0
  /-- R580 powered second of the last records. -/
  secStart : Nat := 0
  /-- R580 records written in that second. -/
  secRecs : Nat := 0
  /-- R580 occurrences counted only in that second. -/
  suppressed : Nat := 0
  deriving DecidableEq, Repr, Inhabited

/-- ReqKind: see the fields that use it (14_pcie_endpoint.md). -/
inductive ReqKind where
  | sqFetch (qid : Nat)
  | prp (stamp : Nat)
  | data (stamp : Nat)
  | peelDesc (ch : Nat) (addr : Nat)
  | peelSrc (ch : Nat) (stamp : Nat) (off : Nat)
  deriving DecidableEq, Repr, Inhabited

/-- outstanding non-posted request (R473, R474) (14_pcie_endpoint.md). -/
structure OutReq where
  /-- R473. -/
  tag : Nat := 0
  /-- R471. -/
  kind : ReqKind := .sqFetch 0
  /-- R471 bytes. -/
  len : Nat := 0
  /-- R474 time (ns). -/
  issued : Nat := 0
  /-- R474 ns, 0 for none. -/
  timeout : Nat := 0
  /-- R475 fetch issued once more. -/
  again : Bool := false
  /-- R476 its completion has been accepted in time, and its data waits to be used. -/
  arrived : Bool := false
  deriving DecidableEq, Repr, Inhabited

/-- DevState: see the fields that use it (14_pcie_endpoint.md). -/
inductive DevState where
  | d0
  | d3hot
  deriving DecidableEq, Repr, Inhabited

/-- completion queue entry (R87) (14_pcie_endpoint.md). -/
structure Cqe where
  /-- R87. -/
  sqid : Nat := 0
  /-- R87. -/
  cid : Nat := 0
  /-- R87 (SCT << 8) | SC. -/
  status : Nat := 0
  /-- R92. -/
  dw0 : BitVec 32 := 0
  /-- R87 submission queue head. -/
  sqhd : Nat := 0
  /-- R87 phase tag. -/
  phase : Bool := true
  deriving DecidableEq, Repr, Inhabited

/-- Out: see the fields that use it (14_pcie_endpoint.md). -/
inductive Out where
  | read (kind : ReqKind) (addr len : Nat)
  | data (stamp len : Nat) (fields : List (Nat × Nat × Nat))
  | blocks (stamp first : Nat) (bs : List Crumb)
  | bytes (addr : Nat) (bs : List (BitVec 8))
  | cqe (qid : Nat) (e : Cqe)
  | msix (v : Nat)
  | intx
  | cpl (val : Nat)
  | cplData (fields : List (Nat × Nat × Nat))
  | ur
  | crs
  | mi (tag status : Nat) (dw0 : BitVec 32)
  | miData (tag len : Nat) (fields : List (Nat × Nat × Nat))
  | ltr (us : Nat)
  | frame
  | busFault (addr : Nat)
  | bus (ch kind : Nat) (bs : List (BitVec 8))
  | answer (val : Nat)
  | gpio (n : Nat) (v : Bool)
  | motor (act : Nat) (dacV dacM : Int)
  | spindle (cmd : Int)
  deriving DecidableEq, Repr, Inhabited

/-- a tag whose request failed or that was outstanding at a reset (R476, R479) (14_pcie_endpoint.md). -/
structure DeadTag where
  /-- R476. -/
  tag : Nat := 0
  /-- R476 time (ns) from which its further period runs. -/
  start : Nat := 0
  /-- R476 timeout period, ns. -/
  period : Nat := 0
  /-- R165 request of a Peel channel. -/
  peel : Bool := false
  /-- R479 outstanding at a reset. -/
  reset : Bool := false
  deriving DecidableEq, Repr, Inhabited

/-- PcieSt (14_pcie_endpoint.md). -/
structure PcieSt where
  /-- R456 0x04 [1]. -/
  memEn : Bool := false
  /-- R456 0x04 [2]. -/
  bmEn : Bool := false
  /-- R456. -/
  perrEn : Bool := false
  /-- R456. -/
  serrEn : Bool := false
  /-- R456. -/
  intxDis : Bool := false
  /-- R456. -/
  intxSts : Bool := false
  /-- R456 MDPE, RTA, RMA, SSE, DPE. -/
  errSts : BitVec 5 := 0
  /-- R456. -/
  cacheLine : BitVec 8 := 0
  /-- R456. -/
  intLine : BitVec 8 := 0
  /-- R458 [63:16]. -/
  bar0 : BitVec 64 := 0
  /-- R458 [63:27]. -/
  bar2 : BitVec 64 := 0
  /-- R458 [63:16]. -/
  bar4 : BitVec 64 := 0
  /-- R457 recovery function presented. -/
  recovery : Bool := false
  /-- R457 identity loaded, configuration answered. -/
  present : Bool := false
  /-- R463. -/
  msixEn : Bool := false
  /-- R463 function mask. -/
  msixMask : Bool := false
  /-- R463 vectors unmasked by software (table reset: masked). -/
  unmasked : List Nat := []
  /-- R463 message address and data per vector. -/
  vecTable : Tab (Nat × Nat) := []
  /-- R463 pending-bit array. -/
  pend : List Nat := []
  /-- R464 Max_Payload_Size in effect. -/
  mps : Nat := 128
  /-- R164 Max_Read_Request_Size. -/
  mrrs : Nat := 512
  /-- R471 Enable Relaxed Ordering. -/
  roEn : Bool := true
  /-- R471 IDO Request Enable. -/
  idoEn : Bool := false
  /-- R474 Completion Timeout Value. -/
  cto : BitVec 4 := 0
  /-- R474. -/
  ctoDis : Bool := false
  /-- R473. -/
  tag10 : Bool := false
  /-- R473. -/
  tag14 : Bool := false
  /-- R469. -/
  ltrEn : Bool := false
  /-- R466. -/
  aspmL1 : Bool := false
  /-- R468. -/
  l0pEn : Bool := false
  /-- R467 L1 PM Substates enables. -/
  l1pm : BitVec 4 := 0
  /-- R464. -/
  linkUp : Bool := false
  /-- R464 trained width. -/
  width : Nat := 0
  /-- R468 width in use under L0p. -/
  l0pWidth : Nat := 0
  /-- R464 1 to 6. -/
  speed : Nat := 0
  /-- R464. -/
  flit : Bool := false
  /-- R466, R467 0 L0, 1 L1, 2 L1.1, 3 L1.2. -/
  linkL1 : Nat := 0
  /-- R25. -/
  refclk : Bool := false
  /-- R480 level. -/
  perstN : Bool := false
  /-- R470. -/
  dstate : DevState := .d0
  /-- R479, R480 time (ns) since which configuration requests receive Request Retry Status. -/
  crs : Option Nat := none
  /-- R469 latency of the last LTR message, us. -/
  lastLtr : Nat := 0
  /-- R467 L1.2 threshold, us. -/
  l12Thr : Nat := 0
  /-- R473. -/
  outstanding : List OutReq := []
  /-- R476 tags not to be reused. -/
  deadTags : List DeadTag := []
  /-- R473 requests that wait for a tag (kind, address, bytes). -/
  waitReads : List (ReqKind × Nat × Nat) := []
  /-- R475 queue whose failed entry fetch is issued once more, and time (ns) of the failure. -/
  fetchRetry : Option (Nat × Nat) := none
  /-- R477 writes held, original order. -/
  heldWrites : List Out := []
  /-- R65, R477 completion entries held, in order (completion queue, entry, the context in Finishing). -/
  heldCqes : List (Nat × Cqe × Ctx) := []
  /-- R475 nothing fetched until a controller reset. -/
  fetchDead : Bool := false
  /-- R482 correctable error status. -/
  aerCor : BitVec 32 := 0
  /-- R482 uncorrectable error status. -/
  aerUnc : BitVec 32 := 0
  /-- R482 severity register (PCI Express default). -/
  aerSev : BitVec 32 := 0x00462030
  /-- R482 correctable mask (PCI Express default). -/
  aerMaskC : BitVec 32 := 0x2000
  /-- R482. -/
  aerMaskU : BitVec 32 := 0
  /-- R461 writable bits of capability registers that the PCI Express specification defines and no rule here uses, by offset. -/
  stored : Tab Nat := []
  deriving DecidableEq, Repr, Inhabited

/-- submission queue (R492) (15_nvme_commands.md). -/
structure SqSt where
  /-- R492 entries. -/
  size : Nat := 2
  /-- R492. -/
  cqid : Nat := 0
  /-- R492 0 urgent, 1 high, 2 medium, 3 low. -/
  prio : Nat := 0
  /-- R492. -/
  base : Nat := 0
  /-- R71 next entry to fetch. -/
  head : Nat := 0
  /-- R459 doorbell. -/
  tail : Nat := 0
  /-- R88 delete waits (its stamp). -/
  deleting : Option Nat := none
  deriving DecidableEq, Repr, Inhabited

/-- completion queue (R492) (15_nvme_commands.md). -/
structure CqSt where
  /-- R492. -/
  size : Nat := 2
  /-- R492. -/
  vector : Nat := 0
  /-- R463 interrupts enabled. -/
  ien : Bool := true
  /-- R492. -/
  base : Nat := 0
  /-- R459 doorbell. -/
  head : Nat := 0
  /-- R87. -/
  tail : Nat := 0
  /-- R87 phase tag of the next entry. -/
  phase : Bool := true
  /-- R492 entries since the last message. -/
  aggr : Nat := 0
  deriving DecidableEq, Repr, Inhabited

/-- R493 (15_nvme_commands.md). -/
structure SelfTest where
  /-- R511 log 0x06 (kind, result), newest first. -/
  results : List (Nat × Nat) := []
  deriving DecidableEq, Repr, Inhabited

/-- an order on a named object (R520) (15_nvme_commands.md). -/
structure MgmtOrder where
  /-- R520. -/
  host : Bool := true
  /-- R520 admin opcode. -/
  op : BitVec 8 := 0
  /-- R519 namespace identifier of a tunnelled command. -/
  nsid : Nat := 0
  /-- R520 its command dwords, which name the object and the state it would leave. -/
  cdw : List (BitVec 32) := []
  /-- R520 management request tag. -/
  tag : Nat := 0
  deriving DecidableEq, Repr, Inhabited

/-- NvmeSt (15_nvme_commands.md). -/
structure NvmeSt where
  /-- R485 interrupt mask (INTMS/INTMC). -/
  intms : BitVec 32 := 0
  /-- R485 CC.EN. -/
  en : Bool := false
  /-- R485. -/
  css : BitVec 3 := 0
  /-- R485. -/
  mps : BitVec 4 := 0
  /-- R485. -/
  ams : BitVec 3 := 0
  /-- R485. -/
  shn : BitVec 2 := 0
  /-- R485. -/
  iosqes : BitVec 4 := 0
  /-- R485. -/
  iocqes : BitVec 4 := 0
  /-- R485. -/
  crime : Bool := false
  /-- R485 CSTS.RDY. -/
  rdy : Bool := false
  /-- R590 time (ns) of a controller enable during the safe state, until CSTS.RDY rises. -/
  enAt : Option Nat := none
  /-- R485 CSTS.CFS. -/
  cfs : Bool := false
  /-- R485 CSTS.SHST. -/
  shst : BitVec 2 := 0
  /-- R485 CSTS.PP. -/
  pp : Bool := false
  /-- R485. -/
  asqs : BitVec 12 := 0
  /-- R485. -/
  acqs : BitVec 12 := 0
  /-- R485. -/
  asq : BitVec 64 := 0
  /-- R485. -/
  acq : BitVec 64 := 0
  /-- R492 queue 0 is the admin queue. -/
  sqs : Tab SqSt := []
  /-- R492. -/
  cqs : Tab CqSt := []
  /-- R496 by namespace identifier. -/
  nss : Tab NsEntry := []
  /-- R500 feature 0x01. -/
  arb : BitVec 32 := 6
  /-- R500 feature 0x05. -/
  errRec : BitVec 32 := 0
  /-- R492 feature 0x08. -/
  coal : BitVec 16 := 0
  /-- R492 vectors with coalescing disabled (feature 0x09). -/
  coalDis : List Nat := []
  /-- R500 feature 0x0A. -/
  atomicity : BitVec 32 := 0
  /-- R515 feature 0x0B. -/
  aecfg : BitVec 32 := 0
  /-- R500 feature 0x04, per sensor (over, under) in K. -/
  tempThr : Tab (Nat × Nat) := []
  /-- R500 feature 0x10. -/
  hctm : BitVec 32 := 0
  /-- R500 Timestamp (value ms, powered time ns when set). -/
  tsBase : Option (Nat × Nat) := none
  /-- R515 stamps of outstanding Asynchronous Event Requests. -/
  aers : List Nat := []
  /-- R515 events raised and not cleared (type, log). -/
  raised : List (Nat × Nat) := []
  /-- R515 events waiting for a request (type, information, log). -/
  waitingEv : List (Nat × Nat × Nat) := []
  /-- R514. -/
  critWarn : BitVec 8 := 0
  /-- R511 log 0x01, newest first (queue, cid, status). -/
  errLog : List (Nat × Nat × Nat) := []
  /-- R511. -/
  errCount : Nat := 0
  /-- R511 log 0x04. -/
  changedNs : List Nat := []
  /-- R511 host logical bytes read. -/
  dataRead : Nat := 0
  /-- R511 host logical bytes written. -/
  dataWritten : Nat := 0
  /-- R511. -/
  cmdsRead : Nat := 0
  /-- R511. -/
  cmdsWritten : Nat := 0
  /-- R493. -/
  selfTest : SelfTest := {}
  /-- R511 starts. -/
  powerCycles : Nat := 0
  /-- R511 power losses without a completed shutdown. -/
  unsafeOff : Nat := 0
  /-- R511 unrecovered read errors reported. -/
  mediaErrs : Nat := 0
  /-- R511 powered time of earlier starts, ns. -/
  onTime : Nat := 0
  /-- R498 0 never, 1 completed, 2 in progress, 3 failed. -/
  sanitize : Nat := 0
  /-- R498 action in progress. -/
  sanAction : Nat := 0
  /-- R498 failure mode. -/
  sanFailed : Bool := false
  /-- R520 orders of the current 1 us arbitration cycle. -/
  cycle : List MgmtOrder := []
  /-- R519 NVMe-MI configuration values. -/
  miCfg : Tab Nat := []
  /-- R516 last operational power state the host set. -/
  lastOper : Nat := 0
  /-- R488 extended self-test time, minutes, computed at each start. -/
  edstt : Nat := 2
  /-- R306 time (ns) of CSTS.RDY while unpowered time is not yet accounted for. -/
  readyAt : Option Nat := none
  /-- R513 Media Geometry page as found at the last start: (offset, bytes, value). -/
  geoLog : List (Nat × Nat × Nat) := []
  deriving DecidableEq, Repr, Inhabited

/-- what a valid Garek image gives (R522 to R527); the default is an image with no key (16_configuration.md). -/
structure Image where
  /-- R523 IMAGE_LEN. -/
  len : Nat := 0
  /-- R523 IMAGE_VERSION. -/
  version : BitVec 32 := 0
  /-- R523 SIGNED. -/
  signed : Bool := false
  /-- R523 PIN_EN. -/
  pinEn : Bool := false
  /-- R523 BOOT_PROFILE, true for Drain. -/
  bootDrain : Bool := false
  /-- R523 BUILDER. -/
  builder : BitVec 32 := 0
  /-- R523 BUILD_TIME. -/
  buildTime : BitVec 64 := 0
  /-- R522, R524 records of the common section by key. -/
  common : Tab (List (BitVec 8)) := []
  /-- R522 records of the Capture section. -/
  capture : Tab (List (BitVec 8)) := []
  /-- R522 records of the Drain section. -/
  drain : Tab (List (BitVec 8)) := []
  /-- R526 key 0x0301 records of the common section by format index. -/
  formats : Tab (List (BitVec 8)) := []
  deriving DecidableEq, Repr, Inhabited

/-- Trigger: see the fields that use it (16_configuration.md). -/
inductive Trigger where
  | pin
  | host
  | mgmt
  | schedule
  | cfg
  deriving DecidableEq, Repr, Inhabited

/-- a pending profile swap (R536) (16_configuration.md). -/
structure Swap where
  /-- R536 target profile, true for Drain. -/
  drain : Bool := false
  /-- R606 record 0x2005. -/
  trig : Trigger := .pin
  /-- R535 time (ns) of the trigger. -/
  trigAt : Nat := 0
  deriving DecidableEq, Repr, Inhabited

/-- CfgSt (16_configuration.md). -/
structure CfgSt where
  /-- R522 image in force. -/
  img : Image := {}
  /-- R531 one-time key register; all zeros as shipped. -/
  digest : BitVec 384 := 0
  /-- R532 unlocked. -/
  testMode : Bool := false
  /-- R533 active profile, true for Drain. -/
  drainActive : Bool := false
  /-- R503, R538 PIN_EN of Profile Control. -/
  pinEn : Bool := false
  /-- R503, R539. -/
  schedEn : Bool := false
  /-- R503 SCHED_PROFILE. -/
  schedDrain : Bool := false
  /-- R503 SCHED_TIME. -/
  schedTime : BitVec 64 := 0
  /-- R536 SWAP_PENDING and the pending target. -/
  swap : Option Swap := none
  /-- R536 stamps of Profile Swap commands waiting for the swap point. -/
  waiters : List Nat := []
  /-- R535, R541 end of recovery or of an activation pause from which the 500 us run. -/
  swapBlockedAt : Nat := 0
  /-- R537 level of the RECORD pin. -/
  record : Bool := false
  /-- R537 time (ns) of the last change of level. -/
  recordSince : Nat := 0
  /-- R537 debounced level. -/
  recordDeb : Bool := false
  /-- R532 64-bit unique ID of the controller die. -/
  factoryUid : BitVec 64 := 0
  deriving DecidableEq, Repr, Inhabited

/-- an operation in progress in a bank (R548) (16_configuration.md). -/
structure OspiOp where
  /-- R547. -/
  erase : Bool := false
  /-- R547. -/
  addr : Nat := 0
  /-- R547 program data. -/
  bytes : List (BitVec 8) := []
  /-- R548 time (ns). -/
  start : Nat := 0
  /-- R549 ended DEVICE_FAIL or TIMEOUT, the bank waits for ready. -/
  failed : Bool := false
  deriving DecidableEq, Repr, Inhabited

/-- OspiSt (16_configuration.md). -/
structure OspiSt where
  /-- R547 0x004. -/
  addr : BitVec 32 := 0
  /-- R547 0x008. -/
  len : BitVec 9 := 0
  /-- R547 0x00C [2]. -/
  done : Bool := false
  /-- R547 0x00C [7:4]. -/
  result : BitVec 4 := 0
  /-- R547 0x010 [0]. -/
  lock : Bool := false
  /-- R547 0x010 [1]. -/
  aspEn : Bool := false
  /-- R547 0x100 to 0x1FF; an unlisted byte is 0. -/
  data : List Host.Cell := []
  /-- R547 0x200 sectors with their bit 1. -/
  prot : List Nat := []
  /-- R547 0x400 sectors with their bit 1. -/
  aprot : List Nat := []
  /-- R547 BUSY0, BUSY1 and the operation of each bank. -/
  busy : List (Option OspiOp) := [none, none]
  /-- R547 0x600, kept in the AON domain. -/
  fetchFaults : BitVec 8 := 0
  /-- R552 FETCH_FAULTS of the previous power cycle. -/
  prevFaults : Nat := 0
  /-- R542 bank size, 16 MiB to 128 MiB. -/
  bankSize : Nat := 16777216
  /-- R543 contents of the boot NVM; an unlisted byte reads 0xFF (erased). -/
  nvm : List Host.Cell := []
  deriving DecidableEq, Repr, Inhabited

/-- a component as its wrapper describes it (R555 to R557) (17_firmware_update.md). -/
structure FwComp where
  /-- R556. -/
  version : BitVec 32 := 0
  /-- R557 SVN. -/
  svn : Nat := 0
  /-- R557 COMPAT[0..4] (lowest, highest). -/
  compat : List (Nat × Nat) := []
  /-- R544 NVM address of the stored image. -/
  addr : Nat := 0
  /-- R544 stored image length. -/
  len : Nat := 0
  deriving DecidableEq, Repr, Inhabited

/-- BootStage: see the fields that use it (17_firmware_update.md). -/
inductive BootStage where
  | off
  | rom
  | boot
  | dram
  | core
  | mounted
  | recovery
  deriving DecidableEq, Repr, Inhabited

/-- ActStep: see the fields that use it (17_firmware_update.md). -/
inductive ActStep where
  | waiting
  | running
  | coreWait
  deriving DecidableEq, Repr, Inhabited

/-- a committed activation (R572 to R576) (17_firmware_update.md). -/
structure Activation where
  /-- R572 slot that the activation makes running. -/
  slot : Nat := 0
  /-- R572 components of the set in the slot. -/
  comps : Tab FwComp := []
  /-- R576 PENDING. -/
  scheduled : Bool := false
  /-- R572 CA 1 or 2, at the next controller enable. -/
  atEnable : Bool := false
  /-- R573 time (ns) of the trigger. -/
  trigger : Option Nat := none
  /-- R572 commit command waiting for the activation. -/
  stamp : Option Nat := none
  /-- R574. -/
  step : ActStep := .waiting
  /-- R574 time (ns) at which the pause began. -/
  began : Nat := 0
  /-- R575 previous profiles. -/
  oldImg : Image := {}
  /-- R575 previous SEQ as loaded. -/
  oldSeqs : SeqsSt := {}
  /-- R575 components applied, a bit for each COMP. -/
  mask : Nat := 0
  /-- R573 waited for the safe state. -/
  delayed : Bool := false
  deriving DecidableEq, Repr, Inhabited

/-- FwSt (17_firmware_update.md). -/
structure FwSt where
  /-- R562 step of the start. -/
  stage : BootStage := .off
  /-- R545 boot block in use, true for B. -/
  bootB : Bool := false
  /-- R569 running set by COMP. -/
  running : Tab FwComp := []
  /-- R569 set in the slot that is not running, empty when it holds no complete good set. -/
  other : Tab FwComp := []
  /-- R569 AFI [2:0]. -/
  runSlot : Nat := 1
  /-- R569 AFI [6:4]. -/
  nextSlot : Nat := 0
  /-- R570 download buffer, data received so far. -/
  buf : List (BitVec 8) := []
  /-- R571 activation pending or in progress. -/
  act : Option Activation := none
  /-- R504, R576 ARMED. -/
  armed : Bool := false
  /-- R504 ACT_TIME. -/
  actTime : BitVec 64 := 0
  /-- R562 CORE runs on every core. -/
  coreReady : Bool := false
  /-- R598 value of the AON counter (ns) at this start. -/
  startAt : Nat := 0
  /-- R561 CSTS.RDY has risen since the start. -/
  firstReady : Bool := false
  /-- R563 start complete: mount has ended. -/
  startDone : Bool := false
  /-- R566 images run from the staging area. -/
  stagedCopy : Bool := false
  /-- R560, R561 one-time programmable floor, bits set. -/
  svnFloor : Nat := 0
  /-- R567 CAUSE. -/
  recCause : BitVec 8 := 0
  /-- R567 STATE. -/
  recState : BitVec 2 := 0
  /-- R567 WIN_BASE. -/
  recWinBase : BitVec 24 := 0
  /-- R567 PKG_LEN. -/
  recPkgLen : BitVec 24 := 0
  /-- R567 RESULT. -/
  recResult : BitVec 4 := 0
  /-- R567 first 12 MiB of the buffer pool SRAM; an unlisted byte reads 0. -/
  recStaging : List Host.Cell := []
  deriving DecidableEq, Repr, Inhabited

/-- FltState: see the fields that use it (18_faults_and_events.md). -/
inductive FltState where
  | normal
  | safe
  | latched
  | recovering
  deriving DecidableEq, Repr, Inhabited

/-- FaultSt (18_faults_and_events.md). -/
structure FaultSt where
  /-- R592 STATE. -/
  state : FltState := .normal
  /-- R592 CAUSE. -/
  cause : BitVec 10 := 0
  /-- R592 ESCALATED. -/
  escalated : Bool := false
  /-- R592 sources by ID; absent means reset values. -/
  srcs : Tab Src := []
  /-- R584 classes raised by key 0x0902. -/
  raised : Tab Nat := []
  /-- R589 powered times (ns) of the recoveries of the last 60 minutes. -/
  recovTimes : List Nat := []
  /-- R589 RECOV_TOTAL, kept in the recorder partition. -/
  recovTotal : BitVec 32 := 0
  /-- R593 ENTRIES. -/
  entries : BitVec 32 := 0
  /-- R593 ENTRY_TS. -/
  entryTs : BitVec 64 := 0
  /-- R587 time (ns) at which the quiet period last started. -/
  quietStart : Nat := 0
  /-- R587 the entry work of R585 is done. -/
  entryDone : Bool := false
  /-- R588 collector registers suspect. -/
  suspect : Bool := false
  /-- R579 time (ns) of the last HEARTBEAT write of each core. -/
  heart : Tab Nat := []
  /-- R583 level the YH7400 leaves on FAULT_N, false while driven low. -/
  faultN : Bool := true
  /-- R583 the boot ROM has started the collector. -/
  collector : Bool := false
  /-- R592 REACTION_MS. -/
  reactionMs : BitVec 10 := 50
  /-- R592 QUIET_MS. -/
  quietMs : BitVec 16 := 2000
  deriving DecidableEq, Repr, Inhabited

/-- an event record (R598, R606, R607) (18_faults_and_events.md). -/
structure Rec where
  /-- R598 EVENT_ID. -/
  id : Nat := 0
  /-- R598 SEQ. -/
  seq : BitVec 32 := 0
  /-- R598 TIME. -/
  time : Nat := 0
  /-- R607 subject kind. -/
  kind : Nat := 0
  /-- R607 subject index. -/
  index : Nat := 0
  /-- R606 arguments, 8 bytes each. -/
  args : List Nat := []
  /-- R606 fault record: word at 0x10 and COUNT at 0x14. -/
  detail : Option (Nat × Nat) := none
  /-- R599 length of a pad record. -/
  pad : Nat := 0
  deriving DecidableEq, Repr, Inhabited

/-- Health Early Warning entry (R594) (18_faults_and_events.md). -/
structure Warn where
  /-- R594 KIND. -/
  kind : Nat := 0
  /-- R594 INDEX. -/
  index : Nat := 0
  /-- R594 MEASURE. -/
  measure : Nat := 0
  /-- R594 VALUE. -/
  value : Int := 0
  /-- R594 LIMIT. -/
  limit : Int := 0
  /-- R594 EVENT_SEQ. -/
  seq : BitVec 32 := 0
  /-- R594 TIMESTAMP. -/
  ts : Nat := 0
  /-- R594 SEEN. -/
  seen : Bool := false
  deriving DecidableEq, Repr, Inhabited

/-- what the recorder partition holds on media (R604) (18_faults_and_events.md). -/
structure Mirror where
  /-- R604 ring records in SEQ order, pads excluded. -/
  recs : List Rec := []
  /-- R604 Health Early Warning log. -/
  warns : List Warn := []
  /-- R604. -/
  recovTotal : BitVec 32 := 0
  /-- R604. -/
  bootCount : BitVec 32 := 0
  /-- R640 ageing offset kept there. -/
  ageOffset : Nat := 0
  /-- R640 OP ceiling kept there. -/
  ceiling : Nat := 0
  deriving DecidableEq, Repr, Inhabited

/-- event recorder (18_faults_and_events.md). -/
structure EvtSt where
  /-- R597 (ring offset, record) held, SEQ order. -/
  recs : List (Nat × Rec) := []
  /-- R597 FIRST_SEQ. -/
  firstSeq : BitVec 32 := 0
  /-- R597 NEXT_SEQ. -/
  nextSeq : BitVec 32 := 0
  /-- R597 HEAD. -/
  head : Nat := 0x40
  /-- R597 TAIL. -/
  tail : Nat := 0x40
  /-- R597 LOST. -/
  lost : BitVec 32 := 0
  /-- R597 BOOT_COUNT. -/
  bootCount : BitVec 32 := 0
  /-- R605 the start record is in the ring and records go straight to it. -/
  started : Bool := false
  /-- R605 staging buffer of 64 KiB. -/
  staged : List Rec := []
  /-- R605 records dropped while the staging buffer was full. -/
  dropped : Nat := 0
  /-- R603 clears waiting (requester, UPTO or all, stamp). -/
  clears : List (Nat × Option (BitVec 32) × Option Nat) := []
  /-- R604 records pending for the mirror. -/
  pend : List Rec := []
  /-- R604 time (ns) of the oldest pending record. -/
  pendSince : Nat := 0
  /-- R594 Health Early Warning log. -/
  warns : List Warn := []
  /-- R594 LOST. -/
  warnLost : BitVec 32 := 0
  /-- R596 (kind, index, measure) warned in this power cycle. -/
  warned : List (Nat × Nat × Nat) := []
  /-- R604 recorder partition on media. -/
  mirror : Mirror := {}
  deriving DecidableEq, Repr, Inhabited

/-- Charger: see the fields that use it (19_power_and_thermal.md). -/
inductive Charger where
  | off
  | current
  | hold
  | checking
  deriving DecidableEq, Repr, Inhabited

/-- hold-up bank as measured (R617, R618, R642) (19_power_and_thermal.md). -/
structure Bank where
  /-- R642 HOLDUP_C, uF. -/
  c : Nat := 0
  /-- R642 HOLDUP_ESR, mOhm. -/
  esr : Nat := 0
  /-- R642 E_USABLE, mJ. -/
  eUsable : Nat := 0
  /-- R642 HOLDUP_MARGIN. -/
  margin : Nat := 0
  /-- R642 HOLDUP_TS. -/
  ts : Nat := 0
  deriving DecidableEq, Repr, Inhabited

/-- one temperature input (R629): TS0 to TS19 at 0 to 19, THM0 to THM3 at 20 to 23 (19_power_and_thermal.md). -/
structure Sensor where
  /-- R629 last reading, 0.125 C (25 C). -/
  reading : Int := 200
  /-- R629 time (ns) of the last sample. -/
  sampledAt : Nat := 0
  /-- R633 time (ns) of the last result. -/
  lastAt : Nat := 0
  /-- R633 time (ns) since which readings are out of range. -/
  oorSince : Option Nat := none
  /-- R633 reading at the start of the unchanged run. -/
  stuckAt : Int := 200
  /-- R633 time (ns) of the start of the unchanged run. -/
  stuckSince : Nat := 0
  /-- R633 reference temperature at the start of the run. -/
  stuckRef : Int := 200
  /-- R633 declared broken in this power cycle. -/
  broken : Bool := false
  /-- R633 one-time programmable broken bit. -/
  brokenBit : Bool := false
  /-- R634 one-time programmable mask bit. -/
  maskBit : Bool := false
  /-- R636 samples in a row at 150 C or more. -/
  hot : Nat := 0
  /-- R632 samples of the last 1 s (time, reading). -/
  samples : List (Nat × Int) := []
  /-- R632 evaluations in a row at the warning rate or more. -/
  rising : Nat := 0
  /-- R632 evaluations in a row below half the warning rate since the last record. -/
  calm : Nat := 100
  /-- R632 record written, waiting for 10 s below half the rate. -/
  recorded : Bool := false
  deriving DecidableEq, Repr, Inhabited

/-- the power-loss sequence in progress or last run (R621) (19_power_and_thermal.md). -/
structure PlSeq where
  /-- R612. -/
  running : Bool := false
  /-- R621 time (ns) of the power-fail line. -/
  start : Nat := 0
  /-- R621 rows completed. -/
  steps : BitVec 8 := 0
  /-- R614 brown-out. -/
  brown : Bool := false
  /-- R621 duration us, VIN_BKUP mV, steps: written at the next start. -/
  latched : Option (Nat × Nat × BitVec 8) := none
  deriving DecidableEq, Repr, Inhabited

/-- PowerSt (19_power_and_thermal.md). -/
structure PowerSt where
  /-- R610 VIN_MAIN, mV. -/
  vinMain : Nat := 0
  /-- R610 VIN_BKUP, mV. -/
  vinBkup : Nat := 0
  /-- R610 VIN_BKUP carries the load. -/
  onBkup : Bool := false
  /-- R656 VDD_AON in regulation, AON domain running. -/
  aon : Bool := false
  /-- R653 rails on, besides rail 1. -/
  rails : List Nat := []
  /-- R656 failed ramp attempts. -/
  rampFails : Nat := 0
  /-- R656 time (ns) of a failed ramp attempt, while the 1 s wait runs. -/
  rampAt : Option Nat := none
  /-- R656 rails that failed, reported by the next start that succeeds. -/
  failedRails : List Nat := []
  /-- R636, R656 held off until both inputs have been removed. -/
  heldOff : Bool := false
  /-- R613 controller die held in reset. -/
  crst : Bool := true
  /-- R611 time (ns) since which VIN_MAIN has stayed at threshold plus 0.3 V. -/
  mainSince : Nat := 0
  /-- R669 crystal running. -/
  crystal : Bool := true
  /-- R621. -/
  pl : PlSeq := {}
  /-- R615. -/
  charger : Charger := .off
  /-- R643 time (ns) at which charging started. -/
  chargeStart : Nat := 0
  /-- R618. -/
  bank : Bank := {}
  /-- R618 first check of this start done. -/
  checked : Bool := false
  /-- R618 Vb read in step 1, mV. -/
  checkVb : Nat := 0
  /-- R618 time (ns) of the last check. -/
  checkAt : Nat := 0
  /-- R620 time (ns) at which the write hold began, none when it is over. -/
  hold : Option Nat := none
  /-- R622 power state. -/
  ps : Nat := 0
  /-- R624 active coder engines allowed by the governor. -/
  limCoders : Nat := 16
  /-- R624 OP the governor has lowered to. -/
  limOp : Nat := 0
  /-- R624 fetches and acceptance delayed. -/
  limFetch : Bool := false
  /-- R624 ticks in a row with the average below 90 % of the budget. -/
  below : Nat := 0
  /-- R624 estimates of the last 10 ms, mW, newest last. -/
  ests : List Nat := []
  /-- R624 time (ns) of the last estimate. -/
  tickAt : Nat := 0
  /-- R625 gated domains. -/
  gated : List Nat := []
  /-- R231 time (ns) at which a domain was gated. -/
  gatedAt : Tab Nat := []
  /-- R627 operating point in use. -/
  op : Nat := 0
  /-- R628 transition in progress. -/
  opTarget : Option Nat := none
  /-- R628 request taken after the transition. -/
  opNext : Option Nat := none
  /-- R640 ageing offset, mV. -/
  ageOffset : Nat := 0
  /-- R640 highest OP still allowed. -/
  ceiling : Nat := 0
  /-- R640, R642 margin of each monitor at the ceiling OP, ps. -/
  cpm : List Int := [0, 0, 0, 0, 0, 0, 0, 0]
  /-- R642 margins at the first start. -/
  cpmFirst : Option (List Int) := none
  /-- R642 TRIPS. -/
  trips : BitVec 32 := 0
  /-- R640 time (ns) of the last clock stretch. -/
  stretched : Option Nat := none
  /-- R642 REPLAN_EPOCH. -/
  replanEpoch : BitVec 32 := 0
  /-- R642 REPLAN_TS. -/
  replanTs : Nat := 0
  deriving DecidableEq, Repr, Inhabited

/-- ThermSt (19_power_and_thermal.md). -/
structure ThermSt where
  /-- R629 inputs 0 to 23; absent means reset values. -/
  sensors : Tab Sensor := []
  /-- R630 time (ns) of the last composite update. -/
  compAt : Nat := 0
  /-- R632 time (ns) of the last evaluation of slopes. -/
  rateAt : Nat := 0
  /-- R630 composite, 0.125 C. -/
  composite : Int := 200
  /-- R631 controller die band. -/
  bandCtl : Nat := 1
  /-- R631 power die band. -/
  bandPwr : Nat := 1
  /-- R631 flash band per channel group. -/
  bandFlash : List Nat := [1, 1, 1, 1, 1, 1, 1, 1]
  /-- R637 0 none, 1 TMT1, 2 TMT2. -/
  throttle : Nat := 0
  /-- R637 transitions to TMT1 and TMT2. -/
  tmtCount : List Nat := [0, 0]
  /-- R637 composite updates spent at TMT1 and TMT2. -/
  tmtTime : List Nat := [0, 0]
  /-- R635 some threshold is crossed. -/
  crossed : Bool := false
  /-- R511 composite updates at WCTEMP or above, below CCTEMP. -/
  warnTime : Nat := 0
  /-- R511 composite updates at CCTEMP or above. -/
  critTime : Nat := 0
  /-- R636 protective shutdowns in the power cycle. -/
  shutdowns : Nat := 0
  /-- R636 held off until every on-die input reads 115 C or less. -/
  shutHold : Bool := false
  /-- R636 input, temperature, count: recorded at the next start. -/
  shutRec : Option (Nat × Int × Nat) := none
  deriving DecidableEq, Repr, Inhabited

/-- Jtag: see the fields that use it (20_signals_and_package.md). -/
inductive Jtag where
  | none
  | boundary
  | refused
  deriving DecidableEq, Repr, Inhabited

/-- PinSt (20_signals_and_package.md). -/
structure PinSt where
  /-- R657 counted level of SYSRST_N. -/
  sysrstN : Bool := true
  /-- R656 time (ns) since which SYSRST_N has been high. -/
  sysrstAt : Nat := 0
  /-- R659 outputs enabled by device firmware. -/
  gpioOut : BitVec 16 := 0
  /-- R659 levels. -/
  gpio : BitVec 16 := 0
  /-- R658 last instruction. -/
  jtag : Jtag := .none
  /-- R669 time (ns) since which a rail is out of regulation. -/
  railOut : Tab Nat := []
  /-- R669 VIN_MAIN above 18.5 V. -/
  overvolt : Bool := false
  deriving DecidableEq, Repr, Inhabited

end Sys2Proof.Machine
end

