-- ==== Sys2Proof/Machine/State.lean ====
section
/-!
DEFINITION. The whole state of the YH7400, the fault and refusal reasons, the state after reset, and one update function
for each part of the state.
-/
namespace Sys2Proof.Machine
open Sys2Proof

/-- Why the machine stops with a fault. No command of this block faults: the spec gives every command an effect, and
what the spec answers with an error is that answer. -/
inductive Fault where
  /-- Never raised by any meaning. Safe: nothing ends in it. -/
  | unreachable
  deriving DecidableEq, Repr

/-- Why a command is refused. -/
inductive Refusal where
  /-- Raised by the dispatch alone, for a command that has no meaning yet. Safe: the run stops. -/
  | notModelled (mnemonic : String)
  deriving DecidableEq, Repr

/-- The whole state of the block. -/
structure State where
  /-- Die-to-die link. -/
  link : LinkSt := {}
  /-- Data fabric. -/
  fab : FabSt := {}
  /-- Placement engine. -/
  place : PlaceSt := {}
  /-- Command contexts and chunk versions. -/
  host : HostSt := {}
  /-- Map, journal being formed. -/
  map : MapSt := {}
  /-- Contents of the non-volatile media. -/
  media : MediaSt := {}
  /-- Capture Window. -/
  win : WinSt := {}
  /-- Stream formats. -/
  coder : CoderSt := {}
  /-- Flash channels and dies. -/
  flashIf : FlashIfSt := {}
  /-- Channel sequencers. -/
  seqs : SeqsSt := {}
  /-- Flash media management. -/
  flash : FlashSt := {}
  /-- Rack tier. -/
  rack : RackSt := {}
  /-- Read/write channels and energy assist. -/
  chan : ChanAssistSt := {}
  /-- Servo control engine and spindle. -/
  servo : ServoSt := {}
  /-- DRAM controller. -/
  dram : DramSt := {}
  /-- Buffer pool manager. -/
  pool : PoolSt := {}
  /-- PCIe endpoint. -/
  pcie : PcieSt := {}
  /-- NVMe controller. -/
  nvme : NvmeSt := {}
  /-- Configuration and profiles. -/
  cfg : CfgSt := {}
  /-- OSPI controller and boot NVM. -/
  ospi : OspiSt := {}
  /-- Boot chain and firmware update. -/
  fw : FwSt := {}
  /-- Fault collector. -/
  flt : FaultSt := {}
  /-- Event recorder. -/
  evt : EvtSt := {}
  /-- Supplies and power states. -/
  pwr : PowerSt := {}
  /-- Temperatures. -/
  therm : ThermSt := {}
  /-- Board pins. -/
  pins : PinSt := {}
  /-- The AON counter: nanoseconds of powered time, never reset (R598 counts from `fw.startAt`). The model's clock: an idle step adds one AON cycle (assumption log 3). -/
  now : Nat := 0
  /-- The model's own: how many free values have been drawn (assumption log 4). No statement rests on its value. -/
  free : Nat := 0
  /-- The model's own: everything the block has sent outside, oldest first (assumption log 5). -/
  out : List Out := []
  /-- The commands that wait, first in, first out. -/
  pending : List Instr := []
  deriving DecidableEq, Repr, Inhabited

/-- The block right after reset: every supply off, the boot NVM erased, the media blank, nothing waiting. -/
def State.reset : State := {}

/-- Change the die-to-die link. -/
def State.modLink (s : State) (f : LinkSt → LinkSt) : State := { s with link := f s.link }
/-- Change the data fabric. -/
def State.modFab (s : State) (f : FabSt → FabSt) : State := { s with fab := f s.fab }
/-- Change the placement engine. -/
def State.modPlace (s : State) (f : PlaceSt → PlaceSt) : State := { s with place := f s.place }
/-- Change the command contexts and chunk versions. -/
def State.modHost (s : State) (f : HostSt → HostSt) : State := { s with host := f s.host }
/-- Change the map, journal being formed. -/
def State.modMap (s : State) (f : MapSt → MapSt) : State := { s with map := f s.map }
/-- Change the contents of the non-volatile media. -/
def State.modMedia (s : State) (f : MediaSt → MediaSt) : State := { s with media := f s.media }
/-- Change the Capture Window. -/
def State.modWin (s : State) (f : WinSt → WinSt) : State := { s with win := f s.win }
/-- Change the stream formats. -/
def State.modCoder (s : State) (f : CoderSt → CoderSt) : State := { s with coder := f s.coder }
/-- Change the flash channels and dies. -/
def State.modFlashIf (s : State) (f : FlashIfSt → FlashIfSt) : State := { s with flashIf := f s.flashIf }
/-- Change the channel sequencers. -/
def State.modSeqs (s : State) (f : SeqsSt → SeqsSt) : State := { s with seqs := f s.seqs }
/-- Change the flash media management. -/
def State.modFlash (s : State) (f : FlashSt → FlashSt) : State := { s with flash := f s.flash }
/-- Change the Rack tier. -/
def State.modRack (s : State) (f : RackSt → RackSt) : State := { s with rack := f s.rack }
/-- Change the read/write channels and energy assist. -/
def State.modChan (s : State) (f : ChanAssistSt → ChanAssistSt) : State := { s with chan := f s.chan }
/-- Change the servo control engine and spindle. -/
def State.modServo (s : State) (f : ServoSt → ServoSt) : State := { s with servo := f s.servo }
/-- Change the DRAM controller. -/
def State.modDram (s : State) (f : DramSt → DramSt) : State := { s with dram := f s.dram }
/-- Change the buffer pool manager. -/
def State.modPool (s : State) (f : PoolSt → PoolSt) : State := { s with pool := f s.pool }
/-- Change the PCIe endpoint. -/
def State.modPcie (s : State) (f : PcieSt → PcieSt) : State := { s with pcie := f s.pcie }
/-- Change the NVMe controller. -/
def State.modNvme (s : State) (f : NvmeSt → NvmeSt) : State := { s with nvme := f s.nvme }
/-- Change the configuration and profiles. -/
def State.modCfg (s : State) (f : CfgSt → CfgSt) : State := { s with cfg := f s.cfg }
/-- Change the OSPI controller and boot NVM. -/
def State.modOspi (s : State) (f : OspiSt → OspiSt) : State := { s with ospi := f s.ospi }
/-- Change the boot chain and firmware update. -/
def State.modFw (s : State) (f : FwSt → FwSt) : State := { s with fw := f s.fw }
/-- Change the fault collector. -/
def State.modFlt (s : State) (f : FaultSt → FaultSt) : State := { s with flt := f s.flt }
/-- Change the event recorder. -/
def State.modEvt (s : State) (f : EvtSt → EvtSt) : State := { s with evt := f s.evt }
/-- Change the supplies and power states. -/
def State.modPwr (s : State) (f : PowerSt → PowerSt) : State := { s with pwr := f s.pwr }
/-- Change the temperatures. -/
def State.modTherm (s : State) (f : ThermSt → ThermSt) : State := { s with therm := f s.therm }
/-- Change the board pins. -/
def State.modPins (s : State) (f : PinSt → PinSt) : State := { s with pins := f s.pins }
/-- Change the clock. -/
def State.setNow (s : State) (t : Nat) : State := { s with now := t }
/-- Draw one free value. -/
def State.drawn (s : State) : State := { s with free := s.free + 1 }
/-- Send something outside the block. -/
def State.send (s : State) (o : Out) : State := { s with out := s.out ++ [o] }
/-- Replace the queue of waiting commands. -/
def State.setPending (s : State) (q : List Instr) : State := { s with pending := q }

end Sys2Proof.Machine
end

