-- ==== Sys2Proof/Machine/Ops.lean ====
section
/-!
DEFINITION. The named operations that every meaning is written with: sparse tables, byte memories, bit fields, byte
orders, CRC-32C and saturating counters.
-/
namespace Sys2Proof.Machine
open Sys2Proof

/-! Sparse tables -/

/-- The entry of a key, if the table lists it. -/
def tget {α : Type} (t : Tab α) (k : Nat) : Option α := (t.find? fun e => e.1 == k).map (·.2)

/-- The entry of a key, or `d` where the table does not list it. -/
def tgetD {α : Type} (t : Tab α) (k : Nat) (d : α) : α := (tget t k).getD d

/-- Write an entry, keeping the keys strictly rising. -/
def tput {α : Type} : Tab α → Nat → α → Tab α
  | [], k, v => [(k, v)]
  | (j, w) :: t, k, v => if k < j then (k, v) :: (j, w) :: t else if k = j then (k, v) :: t else (j, w) :: tput t k v

/-- Remove an entry. -/
def tdel {α : Type} (t : Tab α) (k : Nat) : Tab α := t.filter fun e => e.1 != k

/-- Change an entry, starting from `d` where the table does not list it. -/
def tmod {α : Type} (t : Tab α) (k : Nat) (d : α) (f : α → α) : Tab α := tput t k (f (tgetD t k d))

/-- Change an entry if the table lists it. -/
def tupd {α : Type} (t : Tab α) (k : Nat) (f : α → α) : Tab α := t.map fun e => if e.1 = k then (e.1, f e.2) else e

/-- Whether the table lists a key. -/
def thas {α : Type} (t : Tab α) (k : Nat) : Bool := t.any fun e => e.1 == k

/-- The keys of a table are strictly rising. -/
def tsorted {α : Type} : Tab α → Bool
  | [] => true
  | [_] => true
  | a :: b :: t => decide (a.1 < b.1) && tsorted (b :: t)

/-- Change the i-th element of a list. -/
def lmod {α : Type} (l : List α) (i : Nat) (f : α → α) : List α := l.modify i f

/-! Byte memories: strictly rising addresses, no byte equal to what an unlisted address reads as -/

/-- One byte; `d` is what an unlisted address reads as. -/
def mread (d : Byte) (m : List Host.Cell) (a : Nat) : Byte := tgetD m a d

/-- Write one byte, keeping the canonical form. -/
def mwrite (d : Byte) (m : List Host.Cell) (a : Nat) (b : Byte) : List Host.Cell := if b = d then tdel m a else tput m a b

/-- n bytes from an address upward. -/
def mreadN (d : Byte) (m : List Host.Cell) (a : Nat) (n : Nat) : List Byte := (List.range n).map fun k => mread d m (a + k)

/-- Write bytes from an address upward. -/
def mwriteN (d : Byte) : List Host.Cell → Nat → List Byte → List Host.Cell
  | m, _, [] => m
  | m, a, b :: bs => mwriteN d (mwrite d m a b) (a + 1) bs

/-- Every byte of the n addresses from `a` upward becomes what an unlisted address reads as. -/
def mclear (m : List Host.Cell) (a n : Nat) : List Host.Cell := m.filter fun c => !(decide (a ≤ c.1) && decide (c.1 < a + n))

/-- The canonical form of a byte memory. -/
def Memory.wf (d : Byte) (m : List Host.Cell) : Bool := tsorted m && m.all fun c => c.2 != d

/-! Bits and bytes -/

/-- The w bits of x from bit `lo` upward. -/
def bits (x lo w : Nat) : Nat := x / 2 ^ lo % 2 ^ w

/-- One bit of x. -/
def bitAt (x i : Nat) : Bool := bits x i 1 == 1

/-- 1 for true. -/
def b2n (b : Bool) : Nat := if b then 1 else 0

/-- Little-endian value of bytes. -/
def leNat : List Byte → Nat
  | [] => 0
  | b :: bs => b.toNat + 256 * leNat bs

/-- The w little-endian bytes of x. -/
def leBytes : Nat → Nat → List Byte
  | 0, _ => []
  | w + 1, x => BitVec.ofNat 8 x :: leBytes w (x / 256)

/-- Most significant byte first. -/
def beBytes (w x : Nat) : List Byte := (leBytes w x).reverse

/-- A field of w bytes at a byte offset, little-endian; bytes beyond the end read 0. -/
def fieldAt (bs : List Byte) (off w : Nat) : Nat := leNat ((bs.drop off).take w)

/-- Two's complement value of a w-bit number. -/
def signed (w x : Nat) : Int := if x < 2 ^ (w - 1) then (x : Int) else (x : Int) - (2 ^ w : Nat)

/-- The w-bit pattern of an integer. -/
def pattern (w : Nat) (x : Int) : Nat := (x % ((2 ^ w : Nat) : Int)).toNat

/-- Limit an integer to a range. -/
def clampI (lo hi x : Int) : Int := max lo (min hi x)

/-- One more, staying at the largest value (saturating). -/
def satInc {w : Nat} (x : BitVec w) : BitVec w := if x = BitVec.allOnes w then x else x + 1

/-- Add, staying at the largest value. -/
def satAdd {w : Nat} (x : BitVec w) (n : Nat) : BitVec w := if x.toNat + n < 2 ^ w then BitVec.ofNat w (x.toNat + n) else BitVec.allOnes w

/-- Ceiling of a division. -/
def ceilDiv (a b : Nat) : Nat := (a + b - 1) / b

/-- One bit of a reflected CRC-32C division. -/
def crcBit (c : Nat) : Nat := if c % 2 = 1 then (c / 2) ^^^ 0x82F63B78 else c / 2

/-- One byte of a CRC-32C. -/
def crcByte (c : Nat) (b : Byte) : Nat := crcBit (crcBit (crcBit (crcBit (crcBit (crcBit (crcBit (crcBit (c ^^^ b.toNat))))))))

/-- CRC-32C in its usual reflected form, initial value and final exclusive-or 0xFFFF_FFFF (R195). -/
def crc32c (bs : List Byte) : Dword := BitVec.ofNat 32 (bs.foldl crcByte 0xFFFFFFFF ^^^ 0xFFFFFFFF)

/-- The bytes of a crumb. -/
def crumbBytes (c : Crumb) : List Byte := leBytes 512 c.toNat

/-- A crumb from bytes; missing bytes are 0. -/
def bytesCrumb (bs : List Byte) : Crumb := BitVec.ofNat 4096 (leNat (bs.take 512))

/-- Cut a list into pieces of n. -/
def chunksOf {α : Type} (n : Nat) (l : List α) : List (List α) := (List.range (ceilDiv l.length n)).map fun i => (l.drop (i * n)).take n

/-- The set bits of a mask, lowest first. -/
def maskList (w m : Nat) : List Nat := (List.range w).filter fun i => bitAt m i

/-- A mask from bit numbers. -/
def listMask (l : List Nat) : Nat := l.foldl (fun m i => m ||| 2 ^ i) 0

/-! Time -/

/-- Nanoseconds of one microsecond, millisecond, second and hour. -/
def us : Nat := 1000
def ms : Nat := 1000000
def sec : Nat := 1000000000
def hour : Nat := 3600000000000

/-- A timer that ends at `t`: its expiry is the instant at which the clock stands at `t` or later (assumption log 3). -/
def State.reach (s : State) (t : Nat) : State := s.setNow (max s.now t)

/-- Nanoseconds of powered time since this start (R598). -/
def State.time (s : State) : Nat := s.now - s.fw.startAt

/-- The NVMe Timestamp in ms, or 0 while it is not set (R500). -/
def State.stamp (s : State) : Nat :=
  match s.nvme.tsBase with
  | some (v, t) => v + (s.now - t) / ms
  | none => 0

/-- The next free value of width w, and the state with the counter advanced (assumption log 4). -/
def State.fresh (s : State) (w : Nat) : BitVec w × State := (Config.freeValue w s.free, s.drawn)

end Sys2Proof.Machine
end

