-- ==== Sys2Proof/Machine/Keys.lean ====
section
/-!
DEFINITION. The keys of the Garek image (R529): one row for each key of the key tables of R63, R144, R214, R272, R322,
R347, R385, R421, R455, R484, R530, R554, R608, R645 and R646, with lengths, scope, field ranges and defaults, and the
resolution of a key for a profile (R527).
-/
namespace Sys2Proof.Machine
open Sys2Proof

/-- One row of a key table. -/
structure KeyRow where
  /-- First and last key identifier of the row. -/
  lo : Nat
  hi : Nat
  /-- Value length in bytes. -/
  minLen : Nat
  maxLen : Nat
  /-- Profile scope; false for global. -/
  prof : Bool
  /-- Required (on a product with a Rack tier for keys 0x04xx and 0x05xx). -/
  req : Bool
  /-- Fields in order: bytes, lowest and highest value. Empty where the value has no fixed fields. -/
  fields : List (Nat × Int × Int)
  /-- Capture and Drain defaults: (bytes, value) of each field. -/
  cap : List (Nat × Nat)
  drn : List (Nat × Nat)

/-- Keys 0x01xx. -/
def keyRows01a : List KeyRow := [
  -- Target data rate, MT/s
  ⟨0x0101, 0x0101, 2, 2, false, false, [(2, 800, 4800)], [(2, 4800)], [(2, 4800)]⟩,
  -- Rate floor, MT/s
  ⟨0x0102, 0x0102, 2, 2, false, false, [(2, 800, 4800)], [(2, 2400)], [(2, 2400)]⟩,
  -- Command and address cycle period, ns
  ⟨0x0103, 0x0103, 2, 2, false, false, [(2, 10, 100)], [(2, 20)], [(2, 20)]⟩,
  -- Die population
  ⟨0x0104, 0x0104, 128, 128, false, false, [(4, 0, 4294967295), (4, 0, 4294967295), (4, 0, 4294967295), (4, 0, 4294967295), (4, 0, 4294967295), (4, 0, 4294967295), (4, 0, 4294967295), (4, 0, 4294967295), (4, 0, 4294967295), (4, 0, 4294967295), (4, 0, 4294967295), (4, 0, 4294967295), (4, 0, 4294967295), (4, 0, 4294967295), (4, 0, 4294967295), (4, 0, 4294967295), (4, 0, 4294967295), (4, 0, 4294967295), (4, 0, 4294967295), (4, 0, 4294967295), (4, 0, 4294967295), (4, 0, 4294967295), (4, 0, 4294967295), (4, 0, 4294967295), (4, 0, 4294967295), (4, 0, 4294967295), (4, 0, 4294967295), (4, 0, 4294967295), (4, 0, 4294967295), (4, 0, 4294967295), (4, 0, 4294967295), (4, 0, 4294967295)], [(4, 0), (4, 0), (4, 0), (4, 0), (4, 0), (4, 0), (4, 0), (4, 0), (4, 0), (4, 0), (4, 0), (4, 0), (4, 0), (4, 0), (4, 0), (4, 0), (4, 0), (4, 0), (4, 0), (4, 0), (4, 0), (4, 0), (4, 0), (4, 0), (4, 0), (4, 0), (4, 0), (4, 0), (4, 0), (4, 0), (4, 0), (4, 0)], [(4, 0), (4, 0), (4, 0), (4, 0), (4, 0), (4, 0), (4, 0), (4, 0), (4, 0), (4, 0), (4, 0), (4, 0), (4, 0), (4, 0), (4, 0), (4, 0), (4, 0), (4, 0), (4, 0), (4, 0), (4, 0), (4, 0), (4, 0), (4, 0), (4, 0), (4, 0), (4, 0), (4, 0), (4, 0), (4, 0), (4, 0), (4, 0)]⟩,
  -- Receive termination, ohm
  ⟨0x0105, 0x0105, 2, 2, false, false, [(2, 0, 150)], [(2, 75)], [(2, 75)]⟩,
  -- Die drive strength and ODT codes
  ⟨0x0106, 0x0106, 4, 4, false, false, [(2, 0, 65535), (2, 0, 65535)], [(2, 0), (2, 0)], [(2, 0), (2, 0)]⟩,
  -- Protocol delay overrides, ns
  ⟨0x0107, 0x0107, 10, 10, false, false, [(2, 0, 2000), (2, 0, 2000), (2, 0, 2000), (2, 0, 2000), (2, 0, 2000)], [(2, 0), (2, 0), (2, 0), (2, 0), (2, 0)], [(2, 0), (2, 0), (2, 0), (2, 0), (2, 0)]⟩,
  -- Operation time limits, us
  ⟨0x0108, 0x0108, 12, 12, false, false, [(4, 50, 100000), (4, 50, 100000), (4, 50, 100000)], [(4, 200), (4, 5000), (4, 30000)], [(4, 200), (4, 5000), (4, 30000)]⟩,
  -- Retrain interval, s
  ⟨0x0109, 0x0109, 2, 2, false, false, [(2, 1, 3600)], [(2, 60)], [(2, 60)]⟩,
  -- Minimum eye width, % of UI
  ⟨0x010A, 0x010A, 2, 2, false, false, [(2, 20, 60)], [(2, 35)], [(2, 35)]⟩,
  -- Status poll interval, ns
  ⟨0x010B, 0x010B, 2, 2, false, false, [(2, 200, 10000)], [(2, 1000)], [(2, 1000)]⟩,
  -- Customer microcode module
  ⟨0x0110, 0x0110, 0, 65535, false, false, [], [], []⟩,
  -- Operation overrides
  ⟨0x0111, 0x0111, 2, 32, false, false, [], [], []⟩,
  -- Bake bits per cell
  ⟨0x0120, 0x0120, 2, 2, false, false, [(2, 3, 4)], [(2, 4)], [(2, 4)]⟩,
  -- Dense program scheme
  ⟨0x0121, 0x0121, 2, 2, false, false, [(2, 0, 1)], [(2, 1)], [(2, 1)]⟩,
  -- Proof data capacity, GB
  ⟨0x0122, 0x0122, 4, 4, false, false, [(4, 1, 4294967295)], [], []⟩,
  -- Map area extra spans
  ⟨0x0123, 0x0123, 2, 2, false, false, [(2, 0, 64)], [(2, 8)], [(2, 8)]⟩,
  -- Bake over-provisioning, %
  ⟨0x0124, 0x0124, 2, 2, false, false, [(2, 3, 50)], [(2, 7)], [(2, 7)]⟩,
  -- Read-disturb limit, dense
  ⟨0x0125, 0x0125, 4, 4, false, false, [(4, 1000, 10000000)], [(4, 100000)], [(4, 100000)]⟩,
  -- Read-disturb limit, one-bit
  ⟨0x0126, 0x0126, 4, 4, false, false, [(4, 10000, 100000000)], [(4, 1000000)], [(4, 1000000)]⟩]

/-- Keys 0x01xx. -/
def keyRows01b : List KeyRow := [
  -- Retention limits: dense, one-bit, weighted hours
  ⟨0x0127, 0x0127, 8, 8, false, false, [(4, 24, 87600), (4, 24, 87600)], [(4, 4380), (4, 8760)], [(4, 4380), (4, 8760)]⟩,
  -- One-bit wear weight
  ⟨0x0128, 0x0128, 2, 2, false, false, [(2, 1, 4)], [(2, 1)], [(2, 1)]⟩,
  -- Endurance: dense, one-bit, cycles
  ⟨0x0129, 0x0129, 8, 8, false, false, [(4, 100, 100000), (4, 100, 100000)], [(4, 1500), (4, 30000)], [(4, 1500), (4, 30000)]⟩,
  -- Wear spread limit
  ⟨0x012A, 0x012A, 2, 2, false, false, [(2, 64, 4096)], [(2, 400)], [(2, 400)]⟩,
  -- Knead thresholds: low, high
  ⟨0x012B, 0x012B, 4, 4, false, false, [(2, 2, 256), (2, 2, 256)], [(2, 8), (2, 16)], [(2, 8), (2, 16)]⟩,
  -- Knead die-time share
  ⟨0x012C, 0x012C, 2, 2, true, false, [(2, 0, 100)], [(2, 5)], [(2, 30)]⟩,
  -- Read retry table
  ⟨0x012D, 0x012D, 16, 512, false, false, [], [], []⟩,
  -- Refresh bit threshold
  ⟨0x012E, 0x012E, 2, 2, false, false, [(2, 16, 255)], [(2, 100)], [(2, 100)]⟩,
  -- Scrub interval, h
  ⟨0x012F, 0x012F, 2, 2, false, false, [(2, 24, 8760)], [(2, 168)], [(2, 168)]⟩,
  -- Block reserve per die, %
  ⟨0x0130, 0x0130, 2, 2, false, false, [(2, 1, 10)], [(2, 2)], [(2, 2)]⟩,
  -- Die retire limit, %
  ⟨0x0131, 0x0131, 2, 2, false, false, [(2, 1, 20)], [(2, 5)], [(2, 5)]⟩,
  -- Split-chunk pool size, MiB
  ⟨0x0140, 0x0140, 4, 4, false, false, [(4, 64, 8192)], [(4, 256)], [(4, 256)]⟩,
  -- Replay window per die, MiB
  ⟨0x0141, 0x0141, 2, 2, false, false, [(2, 128, 1024)], [(2, 512)], [(2, 512)]⟩,
  -- Deallocation journal delay, ms
  ⟨0x0142, 0x0142, 2, 2, false, false, [(2, 1, 1000)], [(2, 100)], [(2, 100)]⟩,
  -- Checkpoint interval, s
  ⟨0x0143, 0x0143, 2, 2, false, false, [(2, 10, 3600)], [(2, 60)], [(2, 60)]⟩,
  -- Map spill enable
  ⟨0x0144, 0x0144, 2, 2, false, false, [(2, 0, 1)], [(2, 1)], [(2, 1)]⟩,
  -- Pool sizes
  ⟨0x0150, 0x0150, 32, 32, false, false, [(2, 0, 7936), (2, 0, 7936), (2, 0, 7936), (2, 0, 7936), (2, 0, 7936), (2, 0, 7936), (2, 0, 7936), (2, 0, 7936), (2, 0, 7936), (2, 0, 7936), (2, 0, 7936), (2, 0, 7936), (2, 0, 7936), (2, 0, 7936), (2, 0, 7936), (2, 0, 7936)], [(2, 0), (2, 768), (2, 0), (2, 768), (2, 768), (2, 1280), (2, 768), (2, 1248), (2, 384), (2, 384), (2, 128), (2, 128), (2, 0), (2, 0), (2, 0), (2, 0)], [(2, 0), (2, 768), (2, 0), (2, 768), (2, 768), (2, 1280), (2, 768), (2, 1248), (2, 384), (2, 384), (2, 128), (2, 128), (2, 0), (2, 0), (2, 0), (2, 0)]⟩,
  -- DRAM target rate, MT/s
  ⟨0x0151, 0x0151, 2, 2, false, false, [(2, 3200, 8000)], [(2, 8000)], [(2, 8000)]⟩,
  -- DRAM rate floor, MT/s
  ⟨0x0152, 0x0152, 2, 2, false, false, [(2, 3200, 8000)], [(2, 5600)], [(2, 5600)]⟩,
  -- DRAM geometry
  ⟨0x0153, 0x0153, 4, 4, false, true, [(1, 8, 16), (1, 16, 64), (1, 1, 2), (1, 0, 0)], [], []⟩]

/-- Keys 0x01xx. -/
def keyRows01c : List KeyRow := [
  -- Minimum eye: % of UI, mV
  ⟨0x0154, 0x0154, 4, 4, false, false, [(2, 20, 60), (2, 20, 100)], [(2, 30), (2, 40)], [(2, 30), (2, 40)]⟩,
  -- Latency targets, ports 0 to 4, ns
  ⟨0x0155, 0x0155, 20, 20, false, false, [(4, 100, 1000000), (4, 100, 1000000), (4, 100, 1000000), (4, 100, 1000000), (4, 100, 1000000)], [(4, 500), (4, 2000), (4, 1000), (4, 20000), (4, 100000)], [(4, 500), (4, 2000), (4, 1000), (4, 20000), (4, 100000)]⟩,
  -- Real-time marks
  ⟨0x0156, 0x0156, 12, 12, false, false, [(2, 4096, 61440), (2, 4096, 61440), (2, 4096, 61440), (2, 4096, 61440), (2, 4, 60), (2, 4, 60)], [(2, 16384), (2, 49152), (2, 16384), (2, 49152), (2, 16), (2, 48)], [(2, 16384), (2, 49152), (2, 16384), (2, 49152), (2, 16), (2, 48)]⟩,
  -- Patrol scrub interval, h
  ⟨0x0157, 0x0157, 2, 2, false, false, [(2, 1, 168)], [(2, 24)], [(2, 24)]⟩]

/-- Keys 0x02xx. -/
def keyRows02a : List KeyRow := [
  -- Epoch length
  ⟨0x0201, 0x0201, 4, 4, false, false, [(4, 60, 86400)], [(4, 600)], [(4, 600)]⟩,
  -- Read weight Wr
  ⟨0x0202, 0x0202, 2, 2, true, false, [(2, 0, 32)], [(2, 4)], [(2, 8)]⟩,
  -- Rewrite weight Ww
  ⟨0x0203, 0x0203, 2, 2, true, false, [(2, 0, 32)], [(2, 16)], [(2, 16)]⟩,
  -- Heat thresholds T1 to T7
  ⟨0x0204, 0x0204, 14, 14, false, false, [(2, 0, 320), (2, 0, 320), (2, 0, 320), (2, 0, 320), (2, 0, 320), (2, 0, 320), (2, 0, 320)], [(2, 4), (2, 8), (2, 16), (2, 24), (2, 32), (2, 48), (2, 64)], [(2, 4), (2, 8), (2, 16), (2, 24), (2, 32), (2, 48), (2, 64)]⟩,
  -- Lifetime thresholds L1 to L3
  ⟨0x0205, 0x0205, 12, 12, false, false, [(4, 1, 16383), (4, 1, 16383), (4, 1, 16383)], [(4, 4), (4, 144), (4, 4032)], [(4, 4), (4, 144), (4, 4032)]⟩,
  -- Stream estimator shift n
  ⟨0x0206, 0x0206, 2, 2, false, false, [(2, 1, 8)], [(2, 3)], [(2, 3)]⟩,
  -- Initial stream estimate EST
  ⟨0x0207, 0x0207, 4, 4, false, false, [(4, 0, 16383)], [(4, 144)], [(4, 144)]⟩,
  -- Heat split class
  ⟨0x0208, 0x0208, 2, 2, false, false, [(2, 1, 7)], [(2, 4)], [(2, 4)]⟩,
  -- Proof low watermark
  ⟨0x0210, 0x0210, 2, 2, true, false, [(2, 1, 50)], [(2, 2)], [(2, 5)]⟩,
  -- Proof high watermark
  ⟨0x0211, 0x0211, 2, 2, true, false, [(2, 2, 60)], [(2, 6)], [(2, 10)]⟩,
  -- Batch close time
  ⟨0x0212, 0x0212, 4, 4, false, false, [(4, 10, 10000)], [(4, 100)], [(4, 100)]⟩,
  -- Keep budget
  ⟨0x0213, 0x0213, 2, 2, true, false, [(2, 0, 50)], [(2, 10)], [(2, 5)]⟩,
  -- Keep heat minimum
  ⟨0x0214, 0x0214, 2, 2, true, false, [(2, 0, 7)], [(2, 5)], [(2, 6)]⟩,
  -- Fold die-time share
  ⟨0x0218, 0x0218, 2, 2, true, false, [(2, 0, 100)], [(2, 10)], [(2, 60)]⟩,
  -- Fold start fill
  ⟨0x0219, 0x0219, 2, 2, true, false, [(2, 0, 100)], [(2, 50)], [(2, 0)]⟩,
  -- Migration enable
  ⟨0x0220, 0x0220, 2, 2, true, false, [(2, 0, 1)], [(2, 0)], [(2, 1)]⟩,
  -- Migration heat maximum
  ⟨0x0221, 0x0221, 2, 2, true, false, [(2, 0, 7)], [(2, 2)], [(2, 2)]⟩,
  -- Migration lifetime minimum
  ⟨0x0222, 0x0222, 2, 2, true, false, [(2, 0, 3)], [(2, 2)], [(2, 2)]⟩,
  -- Bake target fill
  ⟨0x0223, 0x0223, 2, 2, true, false, [(2, 10, 95)], [(2, 90)], [(2, 70)]⟩,
  -- Bake critical free
  ⟨0x0224, 0x0224, 2, 2, false, false, [(2, 1, 20)], [(2, 3)], [(2, 3)]⟩]

/-- Keys 0x02xx. -/
def keyRows02b : List KeyRow := [
  -- Migration queue limit, MiB
  ⟨0x0225, 0x0225, 4, 4, false, false, [(4, 256, 8192)], [(4, 1024)], [(4, 1024)]⟩,
  -- Actuator stripe, chunks
  ⟨0x0228, 0x0228, 2, 2, false, false, [(2, 1, 4096)], [(2, 64)], [(2, 64)]⟩,
  -- Actuator imbalance bound, ms
  ⟨0x0229, 0x0229, 4, 4, false, false, [(4, 100, 10000)], [(4, 1000)], [(4, 1000)]⟩,
  -- Coder decode reserve
  ⟨0x0230, 0x0230, 2, 2, true, false, [(2, 0, 75)], [(2, 25)], [(2, 50)]⟩,
  -- Unfence limit
  ⟨0x0231, 0x0231, 2, 2, false, false, [(2, 0, 8)], [(2, 3)], [(2, 3)]⟩]

/-- Keys 0x03xx. -/
def keyRows03 : List KeyRow := [
  -- Initial stream format
  ⟨0x0301, 0x0301, 68, 68, false, false, [], [], []⟩,
  -- Default coded limit, crumbs
  ⟨0x0302, 0x0302, 2, 2, false, false, [(2, 64, 255)], [(2, 248)], [(2, 248)]⟩,
  -- Raw-through Read enable
  ⟨0x0303, 0x0303, 2, 2, false, false, [(2, 0, 1)], [(2, 1)], [(2, 1)]⟩]

/-- Keys 0x04xx. -/
def keyRows04a : List KeyRow := [
  -- Heads per actuator H0, H1
  ⟨0x0401, 0x0401, 4, 4, false, false, [(2, 0, 12), (2, 0, 12)], [(2, 0), (2, 0)], [(2, 0), (2, 0)]⟩,
  -- Zone table
  ⟨0x0402, 0x0402, 12, 768, false, false, [], [], []⟩,
  -- Conventional region size, GiB
  ⟨0x0403, 0x0403, 2, 2, false, false, [(2, 1, 64)], [(2, 16)], [(2, 16)]⟩,
  -- Spin-up allowed at start
  ⟨0x0404, 0x0404, 2, 2, false, false, [(2, 0, 1)], [(2, 1)], [(2, 1)]⟩,
  -- Standby time, s
  ⟨0x0405, 0x0405, 4, 4, true, false, [(4, 0, 86400)], [(4, 0)], [(4, 1800)]⟩,
  -- Spin-up attempts
  ⟨0x0406, 0x0406, 2, 2, false, false, [(2, 1, 5)], [(2, 3)], [(2, 3)]⟩,
  -- Rack Knead thresholds: low, high
  ⟨0x0407, 0x0407, 4, 4, false, false, [(2, 2, 1024), (2, 2, 1024)], [(2, 16), (2, 32)], [(2, 16), (2, 32)]⟩,
  -- Rack Knead actuator share
  ⟨0x0408, 0x0408, 2, 2, true, false, [(2, 0, 100)], [(2, 5)], [(2, 25)]⟩,
  -- Stack idle close time, s
  ⟨0x0409, 0x0409, 2, 2, false, false, [(2, 1, 3600)], [(2, 30)], [(2, 30)]⟩,
  -- Rack refresh bit threshold
  ⟨0x040A, 0x040A, 2, 2, false, false, [(2, 16, 1023)], [(2, 120)], [(2, 120)]⟩,
  -- Re-read limit, revolutions
  ⟨0x040B, 0x040B, 2, 2, false, false, [(2, 1, 32)], [(2, 8)], [(2, 8)]⟩,
  -- Rack scrub interval, h
  ⟨0x040C, 0x040C, 2, 2, false, false, [(2, 168, 8760)], [(2, 720)], [(2, 720)]⟩,
  -- Assist type
  ⟨0x0410, 0x0410, 2, 2, false, true, [(2, 1, 2)], [], []⟩,
  -- Preamplifier map
  ⟨0x0411, 0x0411, 64, 512, false, true, [], [], []⟩,
  -- Rack thermistor input
  ⟨0x0412, 0x0412, 2, 2, false, false, [(2, 0, 3)], [(2, 3)], [(2, 3)]⟩,
  -- Temperature windows, C
  ⟨0x0413, 0x0413, 8, 8, false, false, [(2, (-10), 85), (2, (-10), 85), (2, (-10), 85), (2, (-10), 85)], [(2, 5), (2, 60), (2, 0), (2, 65)], [(2, 5), (2, 60), (2, 0), (2, 65)]⟩,
  -- Initial parameter sets
  ⟨0x0414, 0x0414, 40, 960, false, true, [], [], []⟩,
  -- Gating times: tALD, tALG, head settle
  ⟨0x0415, 0x0415, 6, 6, false, false, [(2, 0, 65535), (2, 0, 65535), (2, 100, 900)], [(2, 2000), (2, 200), (2, 400)], [(2, 2000), (2, 200), (2, 400)]⟩,
  -- Off-track limit, squeeze limit; calibration interval
  ⟨0x0416, 0x0416, 8, 8, false, false, [(2, 5, 30), (2, 5, 30), (4, 24, 2160)], [(2, 10), (2, 18), (4, 168)], [(2, 10), (2, 18), (4, 168)]⟩,
  -- Calibration: read backoff, write backoff, bit error rate limit
  ⟨0x0417, 0x0417, 6, 6, false, false, [(2, 0, 65535), (2, 0, 65535), (2, 2, 6)], [(2, 40), (2, 24), (2, 3)], [(2, 40), (2, 24), (2, 3)]⟩]

/-- Keys 0x04xx. -/
def keyRows04b : List KeyRow := [
  -- Re-read sets
  ⟨0x0418, 0x0418, 8, 128, false, false, [], [], []⟩,
  -- Assist drift ratio, 1/100
  ⟨0x0419, 0x0419, 2, 2, false, false, [(2, 110, 300)], [(2, 140)], [(2, 140)]⟩,
  -- Reader resistance limit, %
  ⟨0x041A, 0x041A, 2, 2, false, false, [(2, 5, 50)], [(2, 15)], [(2, 15)]⟩,
  -- Head fault limit in 24 h
  ⟨0x041B, 0x041B, 2, 2, false, false, [(2, 2, 16)], [(2, 3)], [(2, 3)]⟩,
  -- Heater temperature coefficient, 1/16 code per C
  ⟨0x041D, 0x041D, 2, 2, false, false, [(2, (-256), 256)], [(2, 0)], [(2, 0)]⟩]

/-- Keys 0x05xx. -/
def keyRows05 : List KeyRow := [
  -- Stroke and regions
  ⟨0x0501, 0x0501, 64, 64, false, true, [(4, 0, 4294967295), (4, 0, 4294967295), (4, 0, 4294967295), (4, 0, 4294967295), (4, 0, 4294967295), (4, 0, 4294967295), (4, 0, 4294967295), (4, 0, 4294967295), (4, 0, 4294967295), (4, 0, 4294967295), (4, 0, 4294967295), (4, 0, 4294967295), (4, 0, 4294967295), (4, 0, 4294967295), (4, 0, 4294967295), (4, 0, 4294967295)], [], []⟩,
  -- Banks of actuators 0 and 1
  ⟨0x0502, 0x0503, 3584, 3584, false, true, [], [], []⟩,
  -- Friction and bias of actuators 0 and 1
  ⟨0x0504, 0x0505, 4096, 4096, false, false, [], [(1, 0)], [(1, 0)]⟩,
  -- Cross-actuator taps
  ⟨0x0506, 0x0506, 128, 128, false, false, [], [(1, 0)], [(1, 0)]⟩,
  -- Cogging table
  ⟨0x0507, 0x0507, 512, 512, false, false, [], [(1, 0)], [(1, 0)]⟩,
  -- Spindle
  ⟨0x0508, 0x0508, 32, 32, false, true, [(2, 2, 8), (2, 1638, 32767), (2, 1638, 32767), (2, 1638, 32767), (2, 100, 1000), (2, 3600, 6000), (4, (-2147483648), 2147483647), (4, (-2147483648), 2147483647), (4, (-2147483648), 2147483647), (4, (-2147483648), 2147483647), (4, (-2147483648), 2147483647)], [(2, 4), (2, 9830), (2, 26214), (2, 16384), (2, 300), (2, 4800)], [(2, 4), (2, 9830), (2, 26214), (2, 16384), (2, 300), (2, 4800)]⟩,
  -- Seek profile
  ⟨0x0509, 0x0509, 28, 28, false, false, [(4, 1048576, 131072000), (4, 32768, 4194304), (4, 32768, 4194304), (4, 3277, 262144), (4, 256, 65536), (2, 1, 255), (2, 5, 200), (2, 1, 8), (2, 0, 0)], [(4, 26214400), (4, 524288), (4, 262144), (4, 16384), (4, 4096), (2, 16), (2, 30), (2, 3), (2, 0)], [(4, 26214400), (4, 524288), (4, 262144), (4, 16384), (4, 4096), (2, 16), (2, 30), (2, 3), (2, 0)]⟩,
  -- Hand-over bound HB, Q8.24
  ⟨0x050A, 0x050A, 4, 4, false, false, [(4, 256, 1048576)], [(4, 65536)], [(4, 65536)]⟩,
  -- Lock and loss
  ⟨0x050B, 0x050B, 8, 8, false, false, [(2, 5, 200), (2, 16, 512), (2, 1, 16), (2, 0, 1024)], [(2, 20), (2, 128), (2, 4), (2, 32)], [(2, 20), (2, 128), (2, 4), (2, 32)]⟩,
  -- Load and retract
  ⟨0x050C, 0x050C, 12, 12, false, true, [(2, 20, 2000), (2, 20, 2000), (4, 0, 4294967295), (2, 50, 1000), (2, 0, 0)], [(2, 300), (2, 400), (4, 0), (2, 200), (2, 0)], [(2, 300), (2, 400), (4, 0), (2, 200), (2, 0)]⟩,
  -- Runout, surfaces 0 to 23
  ⟨0x0540, 0x0557, 7680, 7680, false, false, [], [(1, 0)], [(1, 0)]⟩]

/-- Keys 0x06xx. -/
def keyRows06 : List KeyRow := [
  -- Undervoltage threshold, mV
  ⟨0x0601, 0x0601, 2, 2, false, false, [(2, 4200, 10500)], [(2, 4400)], [(2, 4400)]⟩,
  -- Charge voltage, mV
  ⟨0x0602, 0x0602, 2, 2, false, false, [(2, 6000, 18000)], [(2, 16000)], [(2, 16000)]⟩,
  -- Charge current, mA
  ⟨0x0603, 0x0603, 2, 2, false, false, [(2, 100, 2000)], [(2, 1000)], [(2, 1000)]⟩,
  -- Hold-up check interval, h
  ⟨0x0604, 0x0604, 2, 2, false, false, [(2, 1, 168)], [(2, 24)], [(2, 24)]⟩,
  -- Write hold at start: enable, limit in ms
  ⟨0x0605, 0x0605, 4, 4, false, false, [(2, 0, 1), (2, 500, 30000)], [(2, 1), (2, 5000)], [(2, 1), (2, 5000)]⟩,
  -- Timing margin target, ps
  ⟨0x0606, 0x0606, 2, 2, false, false, [(2, 10, 100)], [(2, 40)], [(2, 40)]⟩,
  -- Other hold-up load, mJ
  ⟨0x0607, 0x0607, 2, 2, false, false, [(2, 0, 10000)], [(2, 0)], [(2, 0)]⟩,
  -- Domain idle time before gating, us
  ⟨0x0608, 0x0608, 2, 2, true, false, [(2, 10, 10000)], [(2, 1000)], [(2, 100)]⟩]

/-- Keys 0x07xx. -/
def keyRows07 : List KeyRow := [
  -- WCTEMP, K
  ⟨0x0701, 0x0701, 2, 2, false, false, [(2, 358, 408)], [(2, 398)], [(2, 398)]⟩,
  -- CCTEMP, K
  ⟨0x0702, 0x0702, 2, 2, false, false, [(2, 373, 418)], [(2, 413)], [(2, 413)]⟩,
  -- Flash thermistor per channel group
  ⟨0x0703, 0x0703, 8, 8, false, false, [(1, 0, 255), (1, 0, 255), (1, 0, 255), (1, 0, 255), (1, 0, 255), (1, 0, 255), (1, 0, 255), (1, 0, 255)], [(1, 255), (1, 255), (1, 255), (1, 255), (1, 255), (1, 255), (1, 255), (1, 255)], [(1, 255), (1, 255), (1, 255), (1, 255), (1, 255), (1, 255), (1, 255), (1, 255)]⟩,
  -- Thermistor models
  ⟨0x0704, 0x0704, 32, 32, false, false, [], [(1, 0), (1, 0), (1, 0), (1, 0), (1, 0), (1, 0), (1, 0), (1, 0), (1, 0), (1, 0), (1, 0), (1, 0), (1, 0), (1, 0), (1, 0), (1, 0), (1, 0), (1, 0), (1, 0), (1, 0), (1, 0), (1, 0), (1, 0), (1, 0), (1, 0), (1, 0), (1, 0), (1, 0), (1, 0), (1, 0), (1, 0), (1, 0)], [(1, 0), (1, 0), (1, 0), (1, 0), (1, 0), (1, 0), (1, 0), (1, 0), (1, 0), (1, 0), (1, 0), (1, 0), (1, 0), (1, 0), (1, 0), (1, 0), (1, 0), (1, 0), (1, 0), (1, 0), (1, 0), (1, 0), (1, 0), (1, 0), (1, 0), (1, 0), (1, 0), (1, 0), (1, 0), (1, 0), (1, 0), (1, 0)]⟩,
  -- Input masks
  ⟨0x0705, 0x0705, 4, 4, false, false, [(4, 0, 16777215)], [(4, 0)], [(4, 0)]⟩,
  -- Rate-of-rise limits: warning, critical, 0.1 C/s
  ⟨0x0706, 0x0706, 4, 4, false, false, [(2, 10, 100), (2, 30, 300)], [(2, 30), (2, 100)], [(2, 30), (2, 100)]⟩]

/-- Keys 0x08xx. -/
def keyRows08 : List KeyRow := [
  -- Subsystem vendor ID
  ⟨0x0801, 0x0801, 2, 2, false, false, [(2, 1, 65534)], [(2, 8011)], [(2, 8011)]⟩,
  -- Subsystem ID
  ⟨0x0802, 0x0802, 2, 2, false, false, [(2, 0, 65535)], [(2, 29696)], [(2, 29696)]⟩,
  -- Device serial number
  ⟨0x0803, 0x0803, 8, 8, false, false, [(8, 1, 18446744073709551615)], [], []⟩,
  -- Maximum link width
  ⟨0x0804, 0x0804, 2, 2, false, false, [(2, 1, 8)], [(2, 8)], [(2, 8)]⟩,
  -- Maximum link speed
  ⟨0x0805, 0x0805, 2, 2, false, false, [(2, 1, 6)], [(2, 6)], [(2, 6)]⟩,
  -- CLKREQ_N pin
  ⟨0x0806, 0x0806, 2, 2, false, false, [(2, 0, 65535)], [(2, 65535)], [(2, 65535)]⟩]

/-- Keys 0x09xx. -/
def keyRows09 : List KeyRow := [
  -- Reaction time, ms
  ⟨0x0900, 0x0900, 2, 2, false, false, [(2, 1, 1000)], [(2, 50)], [(2, 50)]⟩,
  -- Quiet period, ms
  ⟨0x0901, 0x0901, 4, 4, false, false, [(4, 100, 60000)], [(4, 2000)], [(4, 2000)]⟩,
  -- Class raises
  ⟨0x0902, 0x0902, 4, 2260, false, false, [], [], []⟩,
  -- FAULT_N on pending contained faults
  ⟨0x0903, 0x0903, 2, 2, false, false, [(2, 0, 1)], [(2, 0)], [(2, 0)]⟩,
  -- Corrected records per source per second
  ⟨0x0904, 0x0904, 2, 2, false, false, [(2, 1, 1000)], [(2, 16)], [(2, 16)]⟩]

/-- Keys 0x0Axx. -/
def keyRows0A : List KeyRow := [
  -- Customer public key
  ⟨0x0A01, 0x0A01, 96, 96, false, false, [], [], []⟩,
  -- Register customer key
  ⟨0x0A02, 0x0A02, 2, 2, false, false, [(2, 0, 1)], [(2, 0)], [(2, 0)]⟩,
  -- Test mode unlock
  ⟨0x0A03, 0x0A03, 8, 8, false, false, [], [], []⟩]

/-- Keys 0x0Bxx. -/
def keyRows0B : List KeyRow := [
  -- Protected sectors
  ⟨0x0B01, 0x0B01, 4, 512, false, false, [], [], []⟩,
  -- Active-set protection
  ⟨0x0B02, 0x0B02, 2, 2, false, false, [(2, 0, 1)], [(2, 1)], [(2, 1)]⟩,
  -- Update placement
  ⟨0x0B03, 0x0B03, 2, 2, false, false, [(2, 0, 1)], [(2, 0)], [(2, 0)]⟩,
  -- OSPI clock, MHz
  ⟨0x0B04, 0x0B04, 2, 2, false, false, [(2, 50, 200)], [(2, 200)], [(2, 200)]⟩]

/-- Every key the manual defines (R528). -/
def keyRows : List KeyRow := keyRows01a ++ keyRows01b ++ keyRows01c ++ keyRows02a ++ keyRows02b ++ keyRows03 ++ keyRows04a ++ keyRows04b ++ keyRows05 ++ keyRows06 ++ keyRows07 ++ keyRows08 ++ keyRows09 ++ keyRows0A ++ keyRows0B

/-- The row of a key. -/
def keyRow? (k : Nat) : Option KeyRow := keyRows.find? fun r => decide (r.lo ≤ k) && decide (k ≤ r.hi)

/-- The bytes of a default. -/
def defaultBytes (l : List (Nat × Nat)) : List Byte := l.flatMap fun v => leBytes v.1 v.2

/-- The value of a key for a profile, first that applies: for a global key the common section, for a profile key the
profile's own section and then the common section; otherwise the default (R527). -/
def Image.value (img : Image) (drain : Bool) (k : Nat) : List Byte :=
  match keyRow? k with
  | none => []
  | some r =>
    let own := if r.prof then tget (if drain then img.drain else img.capture) k else none
    match own with
    | some v => v
    | none => (tget img.common k).getD (defaultBytes (if drain then r.drn else r.cap))

/-- Whether the image gives a global key a value (no default). -/
def Image.present (img : Image) (k : Nat) : Bool := thas img.common k

/-- The value of a key as the active set holds it (R533, R534). The default serial number is the unique ID of the controller die (R484). -/
def State.key (s : State) (k : Nat) : List Byte :=
  if k = 0x0803 && !s.cfg.img.present 0x0803 then leBytes 8 s.cfg.factoryUid.toNat else s.cfg.img.value s.cfg.drainActive k

/-- A field of a key's value, little-endian. -/
def State.keyN (s : State) (k off w : Nat) : Nat := fieldAt (s.key k) off w

/-- A 16-bit key. -/
def State.key2 (s : State) (k : Nat) : Nat := s.keyN k 0 2

/-- A 32-bit key. -/
def State.key4 (s : State) (k : Nat) : Nat := s.keyN k 0 4

end Sys2Proof.Machine
end

