-- ==== Sys2Proof/Machine/Flags.lean ====
section
/-!
DEFINITION. What the block tells: completion queue entries and their messages, asynchronous events and critical warning
bits, event records, health warnings, and the reaction to a fault up to entry into the safe state.
-/
namespace Sys2Proof.Machine
open Sys2Proof

/-! Completions and interrupts (R87, R463, R477) -/

/-- Requests and messages may leave: Bus Master Enable is 1, the function is in D0, and no power-loss sequence runs
(R463, R470, R477, R483). -/
def State.canMaster (s : State) : Bool :=
  s.pcie.bmEn && decide (s.pcie.dstate = .d0) && !s.pwr.pl.running

/-- A TLP leaves; a link in L1 returns to L0 for it (R466). -/
def State.tlp (s : State) (o : Out) : State := (s.modPcie fun p => { p with linkL1 := 0 }).send o

/-- A memory write toward the host: issued, or held in its original order while it may not leave (R477). -/
def State.hostWrite (s : State) (o : Out) : State :=
  if s.canMaster then s.tlp o else s.modPcie fun p => { p with heldWrites := p.heldWrites ++ [o] }

/-- The interrupt of a vector: a message, a pending bit, or INTA (R463, R485). -/
def State.fireVector (s : State) (v : Nat) : State :=
  if s.pcie.msixEn then
    if s.pcie.msixMask || !s.pcie.unmasked.contains v || !s.canMaster then
      s.modPcie fun p => { p with pend := if p.pend.contains v then p.pend else p.pend ++ [v] }
    else s.tlp (.msix v)
  else if s.pcie.intxDis then s
  else
    let s := s.modPcie fun p => { p with intxSts := true }
    if s.canMaster && !bitAt s.nvme.intms.toNat 0 then s.tlp .intx else s

/-- Interrupt Coalescing applies to a completion queue (R492, feature 0x08 and 0x09). -/
def State.coalesces (s : State) (qid : Nat) (q : CqSt) : Bool :=
  decide (qid ≠ 0) && decide (bits s.nvme.coal.toNat 8 8 ≠ 0) && !s.nvme.coalDis.contains q.vector

/-- The message that a new completion queue entry triggers, delayed only by coalescing (R87). -/
def State.interrupt (s : State) (qid : Nat) : State :=
  match tget s.nvme.cqs qid with
  | none => s
  | some q =>
    if !q.ien then s
    else if s.coalesces qid q && decide (q.aggr < bits s.nvme.coal.toNat 0 8) then
      s.modNvme fun n => { n with cqs := tput n.cqs qid { q with aggr := q.aggr + 1 } }
    else (s.modNvme fun n => { n with cqs := tput n.cqs qid { q with aggr := 0 } }).fireVector q.vector

/-- A completion queue has no free entry (R459). -/
def CqSt.full (q : CqSt) : Bool := decide ((q.tail + 1) % q.size = q.head)

/-- Write one completion queue entry and trigger its message, or hold it, with its context in Finishing (R65, R87, R477). -/
def State.postCqe (s : State) (qid : Nat) (e : Cqe) (c : Ctx) : State :=
  match tget s.nvme.cqs qid with
  | none => s
  | some q =>
    if s.canMaster && !q.full then
      let q' := { q with tail := (q.tail + 1) % q.size, phase := if q.tail + 1 = q.size then !q.phase else q.phase }
      ((s.tlp (.cqe qid { e with phase := q.phase })).modNvme fun n => { n with cqs := tput n.cqs qid q' }).interrupt qid
    else s.modPcie fun p => { p with heldCqes := p.heldCqes ++ [(qid, e, { c with phase := .finishing })] }

/-- Every context held: also those in Finishing, whose entries are held or whose ingest write is not retired yet (R65, R88, R157). -/
def State.contexts (s : State) : List Ctx := s.host.ctxs ++ s.pcie.heldCqes.map (·.2.2) ++ s.win.finishing

/-- Issue the held writes in their original order (R477). -/
def State.flushWrites (s : State) : State :=
  s.pcie.heldWrites.foldl (fun s o => s.hostWrite o) (s.modPcie fun p => { p with heldWrites := [] })

/-- The context with a stamp. -/
def State.ctx? (s : State) (st : Nat) : Option Ctx := s.host.ctxs.find? fun c => c.stamp == st

/-- Change one context. -/
def State.modCtx (s : State) (st : Nat) (f : Ctx → Ctx) : State :=
  s.modHost fun h => { h with ctxs := h.ctxs.map fun c => if c.stamp = st then f c else c }

/-- Remove one context (R65, R88). -/
def State.dropCtx (s : State) (st : Nat) : State :=
  s.modHost fun h => { h with ctxs := h.ctxs.filter fun c => c.stamp != st }

/-- A pool, its status words, and a change of either. -/
def State.poolOf (s : State) (p : Nat) : Pool := tgetD s.pool.pools p {}
def State.buf (s : State) (h : Nat) : Buf := tgetD s.pool.bufs h {}
def State.modPoolOf (s : State) (p : Nat) (f : Pool → Pool) : State := s.modPool fun x => { x with pools := tmod x.pools p {} f }
def State.modBuf (s : State) (h : Nat) (f : Buf → Buf) : State := s.modPool fun x => { x with bufs := tmod x.bufs h {} f }

/-- Push a buffer on its home pool's list; while a growth of the push pool is owed, a buffer freed to pool 0 goes to pool 2 (R442, R445). -/
def State.pushBuf (s : State) (h : Nat) : State :=
  let home := (s.buf h).pool.toNat
  let dest := if home = 0 && s.pool.toPush ≠ 0 then 2 else home
  let s := s.modBuf h fun b => { b with alloc := false, shared := false, held := 0, pool := BitVec.ofNat 4 dest }
  let s := s.modPoolOf dest fun x => { x with free := h :: x.free, size := if dest = home then x.size else x.size + 1 }
  if dest = home then s else (s.modPoolOf 0 fun x => { x with size := x.size - 1 }).modPool fun x => { x with toPush := x.toPush - 1 }

/-- Post the outcome of a command to where it came from; the buffer of a commit record goes back to the push pool (R65, R179, R87, R156, R180, R519). -/
def State.answer (s : State) (c : Ctx) (status : Nat) (dw0 : Dword) : State :=
  match c.origin with
  | .sq qid cid =>
    let q := tgetD s.nvme.sqs qid {}
    let s := if status = 0 then s else s.modNvme fun n =>
      { n with errLog := ((qid, cid, status) :: n.errLog).take 64, errCount := n.errCount + 1
               mediaErrs := if status = 0x281 then n.mediaErrs + 1 else n.mediaErrs }
    s.postCqe q.cqid { sqid := qid, cid := cid, status := status, dw0 := dw0, sqhd := q.head } c
  | .mgmt tag => if s.pwr.pl.running then s else s.send (.mi tag status dw0)
  | .peel ch _ => s.modWin fun w => { w with finishing := w.finishing ++ [{ c with phase := .finishing }], peel := tupd w.peel ch fun p =>
      { p with jobs := p.jobs.map fun j => if j.stamp = c.stamp then { j with done := some status } else j } }
  | .push slot h => (s.modWin fun w => { w with
      finishing := w.finishing ++ [{ c with phase := .finishing }]
      fixedBufs := tdel w.fixedBufs h
      slots := tupd w.slots slot fun p =>
        { p with active := p.active.map fun r => if r.stamp = c.stamp then { r with done := some status } else r } }).pushBuf h

/-- A queue whose deletion waits has no context left: the delete completes (R88). -/
def State.finishDeletes (s : State) : State :=
  s.nvme.sqs.foldl (fun s e =>
    match e.2.deleting with
    | none => s
    | some st =>
      if s.contexts.any fun c => match c.origin with | .sq q _ => q == e.1 | _ => false then s
      else
        let s := s.modNvme fun n => { n with sqs := tdel n.sqs e.1 }
        match s.ctx? st with
        | none => s
        | some c => (s.dropCtx st).answer c 0 0) s

/-- Issue the held completion queue entries that may leave, in order; a deletion that waited for their contexts completes (R88, R459, R477). -/
def State.flushCqes (s : State) : State :=
  (s.pcie.heldCqes.foldl (fun s e => s.postCqe e.1 e.2.1 e.2.2) (s.modPcie fun p => { p with heldCqes := [] })).finishDeletes

/-- Post the completion of the command with a stamp and release its context (R65, R87, R88). A stamp that names no context
changes nothing. -/
def State.complete (s : State) (st status : Nat) (dw0 : Dword) : State :=
  match s.ctx? st with
  | none => s
  | some c => ((s.dropCtx st).answer c status dw0).finishDeletes

/-! Status codes, (status code type << 8) | status code -/

/-- Generic status codes of NVMe that the spec names. -/
def scInvalidOpcode : Nat := 0x01
def scInvalidField : Nat := 0x02
def scIdConflict : Nat := 0x03
def scDataTransfer : Nat := 0x04
def scInternal : Nat := 0x06
def scAbortRequested : Nat := 0x07
def scAbortSqDeleted : Nat := 0x08
def scInvalidNs : Nat := 0x0B
def scLbaRange : Nat := 0x80
def scUnrecovered : Nat := 0x281
def scCompareFailure : Nat := 0x285
/-- A vendor status of status code type 7 (R517). -/
def vendor (sc : Nat) : Nat := 0x700 + sc

/-! Asynchronous events and critical warnings (R514, R515) -/

/-- Asynchronous Event Configuration enables an event: type 1 by the critical warning bits, type 2 by bits 8 and 9, type 7
always. A completed sanitize has no control bit (assumption log 14). -/
def State.eventEnabled (s : State) (ty info crit : Nat) : Bool :=
  let c := s.nvme.aecfg.toNat
  if ty = 1 then bitAt c crit
  else if ty = 2 then (if info = 0 then bitAt c 8 else if info = 1 then bitAt c 9 else true)
  else true

/-- Deliver an event to the oldest outstanding Asynchronous Event Request, or keep it for the next one. -/
def State.deliver (s : State) (ty info log : Nat) : State :=
  match s.nvme.aers with
  | st :: rest =>
    (s.modNvme fun n => { n with aers := rest }).complete st 0 (BitVec.ofNat 32 (ty + info * 2 ^ 8 + log * 2 ^ 16))
  | [] => s.modNvme fun n => { n with waitingEv := n.waitingEv ++ [(ty, info, log)] }

/-- Raise an asynchronous event: not again while one of its type and log is raised and not cleared (R515). -/
def State.raiseEvent (s : State) (ty info log : Nat) (crit : Nat := 0) : State :=
  if !s.eventEnabled ty info crit || s.nvme.raised.contains (ty, log) then s
  else (s.modNvme fun n => { n with raised := n.raised ++ [(ty, log)] }).deliver ty info log

/-- Clear the event of a type and log. -/
def State.clearEvent (s : State) (ty log : Nat) : State :=
  s.modNvme fun n => { n with raised := n.raised.filter (· != (ty, log)), waitingEv := n.waitingEv.filter fun e => !(e.1 == ty && e.2.2 == log) }

/-- Set a critical warning bit and raise its event (R514, R515). -/
def State.warnBit (s : State) (b : Nat) : State :=
  if bitAt s.nvme.critWarn.toNat b then s
  else
    let s := s.modNvme fun n => { n with critWarn := n.critWarn ||| BitVec.ofNat 8 (2 ^ b) }
    s.raiseEvent 1 (if b = 1 then 1 else if b = 0 then 2 else 0) 0x02 b

/-- Clear a critical warning bit. -/
def State.clearWarnBit (s : State) (b : Nat) : State :=
  s.modNvme fun n => { n with critWarn := n.critWarn &&& ~~~ (BitVec.ofNat 8 (2 ^ b)) }

/-! The event ring (R597 to R607) -/

/-- Length of a record in bytes: a multiple of 16 (R598, R606, R607). -/
def Rec.len (r : Rec) : Nat :=
  if r.id = 0 then r.pad
  else if r.detail.isSome then ceilDiv (24 + 4 * r.args.length) 16 * 16
  else ceilDiv (24 + 8 * r.args.length) 16 * 16

/-- First record offset and end of the ring (R597). -/
def ringBase : Nat := 0x40
def ringEnd : Nat := 0x1000000

/-- R599 step 2: drop the records at HEAD that overlap the space from `lo` to `hi`. -/
def ringEvict (lo hi : Nat) : List (Nat × Rec) → List (Nat × Rec)
  | [] => []
  | e :: t => if e.1 < hi && lo < e.1 + e.2.len then ringEvict lo hi t else e :: t

/-- R599 steps 2 to 5 for one record at TAIL; `n` is how many sequence numbers it carries. -/
def EvtSt.put (e : EvtSt) (r : Rec) (n : Nat) : EvtSt :=
  let len := r.len
  let kept := ringEvict e.tail (e.tail + len) e.recs
  let recs := kept ++ [(e.tail, { r with seq := e.nextSeq })]
  { e with
    recs := recs
    head := (recs.headD (0, {})).1
    firstSeq := (recs.headD (0, {})).2.seq
    nextSeq := e.nextSeq + BitVec.ofNat 32 n
    tail := if e.tail + len = ringEnd then ringBase else e.tail + len }

/-- R599: a pad first where the record would run past the ring's end, then the record. -/
def EvtSt.append (e : EvtSt) (r : Rec) (n : Nat := 1) : EvtSt :=
  if e.tail + r.len > ringEnd then (e.put { id := 0, pad := ringEnd - e.tail, time := r.time } 1).put r n else e.put r n

/-- Bytes held in the staging buffer (R605). -/
def EvtSt.stagedBytes (e : EvtSt) : Nat := e.staged.foldl (fun n r => n + r.len) 0

/-- Write a record: into the ring and, for the mirror, into the pending records, or into the staging buffer before the start
record and while the DRAM is in self-refresh (R604, R605). -/
def State.append (s : State) (r : Rec) : State :=
  let r := { r with time := s.time }
  if s.evt.started && !s.dram.selfRefresh then
    s.modEvt fun e =>
      let e' := e.append r
      { e' with pend := e.pend ++ [{ r with seq := e'.nextSeq - 1 }], pendSince := if e.pend.isEmpty then s.now else e.pendSince }
  else
    s.modEvt fun e =>
      if e.stagedBytes + r.len ≤ 65536 && e.dropped == 0 then { e with staged := e.staged ++ [r] }
      else { e with dropped := e.dropped + 1, lost := satInc e.lost }

/-- The SEQ of the record written last; while records are staged it has none yet, and `old` stays until it is appended (R605). -/
def State.lastSeq (s : State) (old : BitVec 32) : BitVec 32 := if s.evt.started && !s.dram.selfRefresh then s.evt.nextSeq - 1 else old

/-- Write a record with the common body (R607). -/
def State.note (s : State) (id kind index : Nat) (args : List Nat) : State :=
  s.append { id := id, kind := kind, index := index, args := args }

/-- The event 0xn0FF of a group, its tag given as four 8-byte words (R606). -/
def State.noteTag (s : State) (group kind index : Nat) (tag : List Nat) : State :=
  s.note (group * 0x1000 + 0xFF) kind index tag

/-- Append a health early warning (R594 to R596). -/
def State.healthWarn (s : State) (kind index measure : Nat) (value limit : Int) : State :=
  if s.evt.warned.contains (kind, index, measure) ||
     s.evt.warns.any (fun w => w.kind == kind && w.index == index && w.measure == measure) then s
  else
    let s := s.note 0x9001 kind index [measure, pattern 64 value, pattern 64 limit]
    let w : Warn := { kind := kind, index := index, measure := measure, value := value, limit := limit, seq := s.lastSeq 0, ts := s.stamp }
    let s := s.modEvt fun e =>
      let e := { e with warned := e.warned ++ [(kind, index, measure)] }
      if e.warns.length < 126 then { e with warns := e.warns ++ [w] }
      else match e.warns.findIdx? (·.seen) with
        | some i => { e with warns := e.warns.eraseIdx i ++ [w] }
        | none => { e with warnLost := satInc e.warnLost }
    s.raiseEvent 7 1 0xC4

/-! Faults (R579 to R592) -/

/-- Default class of a source: 0 not implemented, 1 corrected, 2 contained, 3 fatal (R579). -/
def defaultClass (id : Nat) : Nat :=
  let r (lo hi : Nat) : Bool := decide (lo ≤ id) && decide (id ≤ hi)
  if r 0x000 0x007 || r 0x140 0x141 || r 0x1BC 0x1BF || r 0x1C8 0x1C9 || r 0x1D6 0x1D6 || r 0x1E1 0x1E1 ||
     r 0x203 0x203 || r 0x213 0x213 || r 0x2B0 0x2B0 then 3
  else if r 0x0A0 0x0DF || r 0x180 0x1B3 || r 0x1B8 0x1BB || r 0x1D2 0x1D2 || r 0x1D5 0x1D5 || r 0x1F1 0x1F1 ||
     r 0x200 0x200 || r 0x220 0x237 || r 0x2A0 0x2A7 || r 0x2B1 0x2B1 || r 0x2C0 0x2C1 then 1
  else if r 0x010 0x01B || r 0x020 0x02B || r 0x040 0x09F || r 0x0E0 0x13F || r 0x150 0x17F || r 0x1B4 0x1B7 ||
     r 0x1C0 0x1C7 || r 0x1D0 0x1D1 || r 0x1D3 0x1D4 || r 0x1E0 0x1E0 || r 0x1F0 0x1F0 || r 0x1F2 0x1F2 ||
     r 0x201 0x202 || r 0x210 0x212 || r 0x214 0x219 || r 0x238 0x27F || r 0x280 0x297 || r 0x298 0x298 then 2
  else 0

/-- Class in effect: raised by key 0x0902, else the default (R584, R592). -/
def State.faultClass (s : State) (id : Nat) : Nat := tgetD s.flt.raised id (defaultClass id)

/-- The source with an ID. -/
def State.src (s : State) (id : Nat) : Src := tgetD s.flt.srcs id {}

/-- Change a source. -/
def State.modSrc (s : State) (id : Nat) (f : Src → Src) : State :=
  s.modFlt fun t => { t with srcs := tmod t.srcs id {} f }

/-- Recoveries in the last 60 minutes of powered time (R589). -/
def State.recovHour (s : State) : Nat := (s.flt.recovTimes.filter fun t => decide (s.now < t + hour)).length

/-- FAULT_N follows the safe state and, with key 0x0903, any pending source (R583). -/
def State.driveFaultN (s : State) : State :=
  let low := s.flt.collector && (decide (s.flt.state ≠ .normal) || (decide (s.key2 0x0903 = 1) && s.flt.srcs.any (·.2.pending)))
  s.modFlt fun t => { t with faultN := !low }

/-- Entry into the safe state, or into the latched safe state when the hour has seen 8 recoveries (R585, R589). -/
def State.enterSafe (s : State) (cause : Nat) (escalated : Bool) : State :=
  let latch := decide (8 ≤ s.recovHour)
  let s := s.modFlt fun t => { t with
    state := if latch then .latched else .safe
    cause := BitVec.ofNat 10 cause
    escalated := escalated
    entries := satInc t.entries
    entryTs := BitVec.ofNat 64 s.stamp
    quietStart := s.now
    entryDone := false }
  let s := s.modNvme fun n => { n with cfs := true }
  let s := s.modLink fun l => { l with retract := true }
  let s := s.modRack fun r => { r with spin := if r.spin = .absent then .absent else .stopped }
  let s := s.modChan fun c => { c with rw := c.rw.map fun w => { w with calib := none, wg := false, assistEn := false } }
  let args := [cause + 1024 * b2n escalated, s.recovHour]
  let s := s.note 0x1401 0 0 args
  (if latch then s.note 0x1403 0 0 args else s).driveFaultN

/-- A fatal fault against the state of the collector (R585, R587, R589): the quiet period restarts, and a recovery is
abandoned without a new entry. -/
def State.fatal (s : State) (cause : Nat) (escalated : Bool) : State :=
  match s.flt.state with
  | .normal => s.enterSafe cause escalated
  | .safe => s.modFlt fun t => { t with quietStart := s.now }
  | .recovering => s.modFlt fun t => { t with state := .safe, quietStart := s.now }
  | .latched => s

/-- A contained fault against the state of the collector (R587, R588). -/
def State.restartQuiet (s : State) : State :=
  match s.flt.state with
  | .safe => s.modFlt fun t => { t with quietStart := s.now }
  | .recovering => s.modFlt fun t => { t with state := .safe, quietStart := s.now }
  | _ => s

/-- Write the fault record of a source (R606); `esc` marks an escalation. -/
def State.faultRecord (s : State) (id cls : Nat) (esc : Bool) (detail : List Nat) : State :=
  let x := s.src id
  let word := cls + 4 * b2n esc + 8 * b2n x.force
  let s := s.append { id := 0x1000 + id, args := detail.take 4, detail := some (word, x.count.toNat) }
  s.modSrc id fun x => { x with lastSeq := s.lastSeq x.lastSeq }

/-- A second of a source that suppressed occurrences and has ended gets its summary record before the next one opens (R580). -/
def State.closeSecond (s : State) (id : Nat) : State :=
  let x := s.src id
  if x.secStart = s.now / sec then s
  else
    (if x.suppressed = 0 then s else s.note 0x1400 0 0 [id, x.suppressed]).modSrc id fun y =>
      { y with secStart := s.now / sec, secRecs := 0, suppressed := 0 }

/-- One occurrence of a source's condition, with the reaction of its class (R580, R581, R585). A source that is not
implemented or is masked raises nothing. -/
def State.raise (s : State) (id : Nat) (detail : List Nat := []) : State :=
  let cls := s.faultClass id
  if cls = 0 || (s.src id).masked then s
  else
    let s := s.modSrc id fun x => { x with count := satInc x.count }
    if cls = 1 then
      let s := s.closeSecond id
      let x := s.src id
      if x.secRecs < s.key2 0x0904 then
        (s.modSrc id fun _ => { x with secRecs := x.secRecs + 1 }).faultRecord id 1 false detail
      else s.modSrc id fun _ => { x with suppressed := x.suppressed + 1 }
    else if cls = 2 then
      let s := s.faultRecord id 2 false detail
      let s := s.modSrc id fun y => { y with pending := true, pendAt := if y.pending then y.pendAt else s.now }
      ((s.raiseEvent 7 2 0xC3).restartQuiet).driveFaultN
    else
      ((s.faultRecord id 3 false detail).raiseEvent 7 2 0xC3).fatal id false

/-- Whether the safe state, latched or not, or its recovery is in force. -/
def State.safeState (s : State) : Bool := decide (s.flt.state ≠ .normal)

end Sys2Proof.Machine
end

