-- ==== Sys2Proof/Machine/PcieOps.lean ====
section
/-!
DEFINITION. What the endpoint does for every request of its own: tags, completion timers and what follows a failure, AER
logging and LTR messages (R469 to R476, R482).
-/
namespace Sys2Proof.Machine
open Sys2Proof

/-- Completion timeout of R474 for a Completion Timeout Value, in ns. -/
def ctoNs (v : Nat) : Nat :=
  if v = 1 then 90 * us else if v = 2 then 9 * ms else if v = 5 then 50 * ms else if v = 6 then 200 * ms
  else if v = 9 then 850 * ms else if v = 10 then 3300 * ms else if v = 13 then 12 * sec else if v = 14 then 60 * sec
  else 45 * ms

/-- Non-posted requests that may be outstanding (R473). -/
def State.tagLimit (s : State) : Nat :=
  if s.pcie.tag14 && s.pcie.flit then 8192 else if s.pcie.tag10 then 768 else 256

/-- A request of a Peel channel, for which a quarter of the tags is out of reach (R473). -/
def ReqKind.isPeel : ReqKind → Bool
  | .peelDesc _ _ => true
  | .peelSrc _ _ _ => true
  | _ => false

/-- The first tag that is neither outstanding nor waiting for its further timeout period. -/
def State.freeTag? (s : State) (peel : Bool) : Option Nat :=
  let lim := s.tagLimit
  let out := s.pcie.outstanding.filter fun r => !r.arrived
  let n := out.length
  let np := (out.filter (·.kind.isPeel)).length
  if n ≥ lim || (peel && np ≥ lim - lim / 4) then none
  else (List.range lim).find? fun t => !(out.any (·.tag == t)) && !(s.pcie.deadTags.any (·.tag == t))

/-- Issue a read request, or let it wait for Bus Master Enable or a free tag (R473, R474, R477). -/
def State.issueRead (s : State) (kind : ReqKind) (addr len : Nat) (again : Bool := false) : State :=
  let wait := s.modPcie fun p => { p with waitReads := p.waitReads ++ [(kind, addr, len)] }
  if !s.canMaster then wait
  else match s.freeTag? kind.isPeel with
    | none => wait
    | some t =>
      let limit := if s.pcie.ctoDis then 0 else ctoNs s.pcie.cto.toNat
      let r : OutReq := { tag := t, kind := kind, len := len, issued := s.now, timeout := limit, again := again }
      (s.modPcie fun p => { p with outstanding := p.outstanding ++ [r] }).tlp (.read kind addr len)

/-- The requests that wait go out as far as tags are free, in order (R473). -/
def State.pumpReads (s : State) : State :=
  s.pcie.waitReads.foldl (fun s r => s.issueRead r.1 r.2.1 r.2.2) (s.modPcie fun p => { p with waitReads := [] })

/-- Remove the outstanding requests of a kind; their tags are free at once. -/
def State.dropReq (s : State) (kind : ReqKind) : State :=
  s.modPcie fun p => { p with outstanding := p.outstanding.filter fun r => !decide (r.kind = kind), waitReads := p.waitReads.filter fun r => !decide (r.1 = kind) }

/-- AER: a correctable error (R482). -/
def State.aerCorrectable (s : State) (b : Nat) : State :=
  s.modPcie fun p => { p with aerCor := p.aerCor ||| BitVec.ofNat 32 (2 ^ b) }

/-- AER: an uncorrectable error, advisory where the table says so and its severity is non-fatal, recorded as event 0x7003
(R482, R606). -/
def State.aerUncorrectable (s : State) (b : Nat) (advisory : Bool) : State :=
  let adv := advisory && !bitAt s.pcie.aerSev.toNat b
  let s := s.modPcie fun p => { p with aerUnc := p.aerUnc ||| BitVec.ofNat 32 (2 ^ b) }
  (if adv then s.aerCorrectable 13 else s).note 0x7003 0 0 [b]

/-- Status bits of the header for a completion with an error status: 1 Unsupported Request, Received Master Abort; 2 Completer Abort, Received Target
Abort; 3 poisoned data, Detected Parity Error, and Master Data Parity Error where Parity Error Response is 1 (R456; assumption log 35). -/
def State.headerErr (s : State) (status : Nat) : State :=
  s.modPcie fun p => { p with errSts := p.errSts ||| (if status = 1 then 4 else if status = 2 then 2 else if status = 3 then (if p.perrEn then 17 else 16) else 0) }

/-- Bits of the AER uncorrectable error status register that R482 uses. -/
def aerPoisoned : Nat := 12
def aerTimeout : Nat := 14
def aerUnexpected : Nat := 16
def aerInternal : Nat := 22
def aerUnsupported : Nat := 20

/-- LTR value of a power state in µs (R469). -/
def ltrUs (ps : Nat) : Nat := if ps = 0 then 20 else if ps = 1 then 50 else if ps = 2 then 100 else 3000

/-- An LTR message while LTR Mechanism Enable is 1 (R469). -/
def State.sendLtr (s : State) (v : Nat) : State :=
  if s.pcie.ltrEn then (s.modPcie fun p => { p with lastLtr := v }).tlp (.ltr v) else s

/-- Width in lanes up to the limit of key 0x0804. -/
def State.widthOk (s : State) (w : Nat) : Bool := [1, 2, 4, 8].contains w && decide (w ≤ s.key2 0x0804)

/-- The recorded fall-back of R465: below the target speed or width, once per change. -/
def State.noteLink (s : State) (width speed : Nat) (changed : Bool) : State :=
  if changed && (decide (width < s.key2 0x0804) || decide (speed < s.key2 0x0805)) then s.note 0x7001 0 0 [speed, width] else s

end Sys2Proof.Machine
end

