-- ==== Sys2Proof/Machine/Operands.lean ====
section
/-!
DEFINITION. Operand forms of host commands: the dwords of a command, the namespace and LBA range it names, the chunks and
512-byte blocks that it touches, and its ordering class (R3, R65, R66, R72).
-/
namespace Sys2Proof.Machine
open Sys2Proof

/-- Dword n of a command, 10 to 15. -/
def Ctx.dw (c : Ctx) (n : Nat) : Nat := (c.cdw.getD (n - 10) 0).toNat

/-- An admin command: from the admin queue or the management endpoint. -/
def Ctx.isAdmin (c : Ctx) : Bool :=
  match c.origin with
  | .sq 0 _ => true
  | .mgmt _ => true
  | _ => false

/-- A command of an I/O submission queue. -/
def Ctx.isIo (c : Ctx) : Bool :=
  match c.origin with
  | .sq (_ + 1) _ => true
  | _ => false

/-- A command from the management endpoint. -/
def Ctx.isMgmt (c : Ctx) : Bool :=
  match c.origin with
  | .mgmt _ => true
  | _ => false

/-- LBA size of an LBA format (R490). -/
def lbaBytes (flbas : Nat) : Nat := if flbas = 1 then 512 else 4096

/-- 512-byte blocks of one LBA. -/
def NsEntry.blocksPerLba (n : NsEntry) : Nat := lbaBytes n.flbas / 512

/-- The namespace with an identifier. -/
def State.ns? (s : State) (nsid : Nat) : Option NsEntry := tget s.nvme.nss nsid

/-- An active namespace: allocated and attached (R496). -/
def State.nsActive (s : State) (nsid : Nat) : Bool :=
  match s.ns? nsid with
  | some n => n.attached
  | none => false

/-- Blocks of 512 bytes in a chunk. -/
def chunkBlocks : Nat := 256

/-- The blocks lo to hi - 1 of a chunk as a mask. -/
def blockMask (lo hi : Nat) : BitVec 256 := BitVec.ofNat 256 (2 ^ hi - 2 ^ lo)

/-- The chunk entries of the blocks b0 to b1 - 1 of a namespace (R67, R72). -/
def chunkEnts (nsid b0 b1 : Nat) : List ChunkEnt :=
  if b0 < b1 then
    (List.range ((b1 - 1) / chunkBlocks - b0 / chunkBlocks + 1)).map fun i =>
      let k := b0 / chunkBlocks + i
      { nsid := nsid, lcn := k, blks := blockMask (max b0 (k * chunkBlocks) - k * chunkBlocks) (min b1 ((k + 1) * chunkBlocks) - k * chunkBlocks) }
  else []

/-- Units (of 32) of a chunk touched by a block mask. -/
def unitsOf (m : BitVec 256) : Nat := listMask ((List.range 32).filter fun u => bits m.toNat (8 * u) 8 != 0)

/-- Units of a chunk that a block mask covers whole. -/
def wholeUnits (m : BitVec 256) : Nat := listMask ((List.range 32).filter fun u => bits m.toNat (8 * u) 8 == 255)

/-- I/O commands of R494. -/
def ioSupported (op : Nat) : Bool := [0x00, 0x01, 0x02, 0x05, 0x08, 0x09, 0x0C, 0x86, 0x8A].contains op

/-- Admin commands of R493. -/
def adminSupported (op : Nat) : Bool :=
  [0x00, 0x01, 0x02, 0x04, 0x05, 0x06, 0x08, 0x09, 0x0A, 0x0C, 0x0D, 0x10, 0x11, 0x14, 0x15, 0x19, 0x1A, 0x80, 0x84, 0xC0, 0xC4, 0xC8].contains op

/-- Commands with an LBA range in CDW10 to CDW12 and a 0's based block count. -/
def hasRange (op : Nat) : Bool := [0x01, 0x02, 0x05, 0x08, 0x0C].contains op

/-- Starting LBA of a command. -/
def slbaOf (cdw : List Dword) : Nat := (cdw.getD 0 0).toNat + 2 ^ 32 * (cdw.getD 1 0).toNat

/-- The blocks that an I/O command touches, as (first, end) ranges: its LBA range, the chunks of Raw-through Read and
Placement Query, or the ranges of Dataset Management (R72). -/
def ioBlocks (n : NsEntry) (op : Nat) (cdw : List Dword) (ranges : List (Nat × Nat)) : List (Nat × Nat) :=
  let k := n.blocksPerLba
  let slba := slbaOf cdw
  let d12 := (cdw.getD 2 0).toNat
  if hasRange op then [(slba * k, (slba + bits d12 0 16 + 1) * k)]
  else if op = 0x86 || op = 0x8A then
    let c0 := slba * k / chunkBlocks
    [(c0 * chunkBlocks, (c0 + bits d12 0 12 + 1) * chunkBlocks)]
  else if op = 0x09 && bitAt (cdw.getD 1 0).toNat 2 then ranges.map fun r => (r.1 * k, (r.1 + r.2) * k)
  else []

/-- Merge the entries of one chunk that several ranges name. -/
def mergeEnts (l : List ChunkEnt) : List ChunkEnt :=
  l.foldl (fun acc e =>
    if acc.any fun x => x.lcn == e.lcn then acc.map fun x => if x.lcn = e.lcn then { x with blks := x.blks ||| e.blks } else x
    else acc ++ [e]) []

/-- Ordering class of an I/O command (R72); `n` is how many chunks it touches. -/
def ioClass (op : Nat) (n : Nat) : OrdClass :=
  if op = 0x02 || op = 0x05 || op = 0x0C || op = 0x86 || op = 0x8A then .read
  else if op = 0x01 || op = 0x08 then .write
  else if op = 0x09 then (if n = 0 then .none else if n ≤ 4096 then .write else .barrier)
  else .none

/-- Ordering class of an admin command (R72): Format NVM, Sanitize, namespace deletion and detach, and a Set of a stream
format are barriers. -/
def adminClass (op d10 : Nat) : OrdClass :=
  if op = 0x80 || op = 0x84 || (op = 0x0D && bits d10 0 4 = 1) || (op = 0x15 && bits d10 0 4 = 1) ||
     (op = 0x09 && bits d10 0 8 = 0xC0) then .barrier
  else .none

/-- A barrier bears on a chunk: Sanitize on every one, a Stream Format barrier on its windows, the others on the namespace
they name (R72). -/
def Ctx.bars (c : Ctx) (nsid lcn : Nat) : Bool :=
  decide (c.cls = .barrier) &&
    (if c.isAdmin && c.opcode.toNat == 0x84 then true
     else if c.isAdmin && c.opcode.toNat == 0x09 then c.wins.any fun w => w.1 == nsid && decide (w.2.1 ≤ lcn) && decide (lcn < w.2.1 + w.2.2)
     else c.nsid == nsid)

/-- Two contexts meet: the second is a barrier on a chunk of the first, or both are barriers on one namespace (R78). -/
def Ctx.meets (c b : Ctx) : Bool :=
  c.ents.any (fun e => b.bars e.nsid e.lcn) ||
    (decide (c.cls = .barrier) && decide (b.cls = .barrier) &&
      (c.nsid == b.nsid || c.opcode.toNat == 0x84 || b.opcode.toNat == 0x84))

/-- A barrier may act: every command fetched before it that touches what it bears on has been posted (R78). -/
def State.barrierClear (s : State) (b : Ctx) : Bool :=
  !(s.contexts.any fun c => decide (c.stamp < b.stamp) && c.meets b)

/-- A command waits for a barrier fetched before it (R78). -/
def State.behindBarrier (s : State) (c : Ctx) : Bool :=
  s.contexts.any fun b => decide (b.stamp < c.stamp) && c.meets b

/-- Act on the admin command with a stamp and an opcode, if it is held and not yet posted; otherwise nothing happens. -/
def State.onAdmin (s : State) (st op : Nat) (f : Ctx → State) : Host.Outcome State Fault Refusal :=
  match s.ctx? st with
  | some c => if c.isAdmin && c.opcode.toNat == op && !s.behindBarrier c then .next (f c) else .next s
  | none => .next s

/-- Write-class commands wait in Waiting until the bank's first check or the limit of the hold (R620). -/
def State.writesHeld (s : State) : Bool := s.pwr.hold.isSome

/-- Act on the I/O command with a stamp and an opcode; a write-class command waits while the write hold is in force. -/
def State.onIo (s : State) (st op : Nat) (f : Ctx → State) : Host.Outcome State Fault Refusal :=
  match s.ctx? st with
  | some c => if c.isIo && c.opcode.toNat == op && !s.behindBarrier c && !(s.writesHeld && c.cls == .write) then .next (f c) else .next s
  | none => .next s

/-- Act on a Set Features of one feature: SV set completes with status 0x0D (R501). -/
def State.onSet (s : State) (st fid : Nat) (f : Ctx → State) : Host.Outcome State Fault Refusal :=
  s.onAdmin st 0x09 fun c =>
    if bits (c.dw 10) 0 8 ≠ fid then s else if bitAt (c.dw 10) 31 then s.complete st 0x0D 0 else f c

/-- Act on a Get Features of one feature; `f` is given SEL. SEL 3 reports capabilities: changeable, not saveable (R501). -/
def State.onGet (s : State) (st fid : Nat) (f : Ctx → Nat → State) : Host.Outcome State Fault Refusal :=
  s.onAdmin st 0x0A fun c =>
    if bits (c.dw 10) 0 8 ≠ fid then s
    else if bits (c.dw 10) 8 3 = 3 then s.complete st 0 4
    else f c (bits (c.dw 10) 8 3)

/-- Transfer data of an admin command to where it came from: host memory, or the management endpoint (R87, R519). -/
def State.giveData (s : State) (c : Ctx) (len : Nat) (fields : List (Nat × Nat × Nat)) : State :=
  match c.origin with
  | .mgmt tag => s.send (.miData tag len fields)
  | _ => s.hostWrite (.data c.stamp len fields)

end Sys2Proof.Machine
end

