-- ==== Sys2Proof/Machine/MapOps.lean ====
section
/-!
DEFINITION. The map engine's operations: descriptors, unit states and sub-map blocks, write sequence numbers, journal entries
being formed, the crumbs that the map keeps valid, and the marking of lost units (R95, R96, R102 to R122).
-/
namespace Sys2Proof.Machine
open Sys2Proof

/-! Descriptors -/

/-- The key of a chunk's descriptor: namespace index and LCN (R102). -/
def chunkKey (nsid lcn : Nat) : Nat := (nsid - 1) * 2 ^ 34 + lcn

/-- The namespace and LCN of a key. -/
def keyNs (k : Nat) : Nat := k / 2 ^ 34 + 1
def keyLcn (k : Nat) : Nat := k % 2 ^ 34

/-- The map page of a chunk (R102): 256 descriptors. -/
def mapPage (nsid lcn : Nat) : Nat := chunkKey nsid lcn / 256

/-- The descriptor of a chunk: a change held for a spilled page, the spilled page, or the map in DRAM (R102, R131). -/
def State.desc (s : State) (nsid lcn : Nat) : Desc :=
  let k := chunkKey nsid lcn
  match s.map.spillPend.find? fun e => e.1 == k with
  | some e => e.2
  | none =>
    if s.map.spilled.contains (k / 256) then (((tgetD s.media.spill (k / 256) []).find? fun e => e.1 == k).map (·.2)).getD {}
    else tgetD s.map.map k {}

/-- Write a descriptor in one operation (R103). A change to a spilled page is held in the spill pending table (R131). -/
def State.putDesc (s : State) (nsid lcn : Nat) (d : Desc) : State :=
  let k := chunkKey nsid lcn
  if s.map.spilled.contains (k / 256) then
    s.modMap fun m => { m with spillPend := (m.spillPend.filter fun e => e.1 != k) ++ [(k, d)], dirty := true }
  else s.modMap fun m => { m with map := if d = {} then tdel m.map k else tput m.map k d, dirty := true }

/-- The page of a chunk is in DRAM, so that a lookup does not stall (R130, R131). -/
def State.resident (s : State) (nsid lcn : Nat) : Bool :=
  !(s.map.absent.contains (mapPage nsid lcn) || s.map.spilled.contains (mapPage nsid lcn))

/-- A change of the descriptor must wait, the spill pending table being full (R131). -/
def State.changeWaits (s : State) (nsid lcn : Nat) : Bool :=
  s.map.spilled.contains (mapPage nsid lcn) && decide (65536 ≤ s.map.spillPend.length) &&
    !(s.map.spillPend.any fun e => e.1 == chunkKey nsid lcn)

/-- Every descriptor that differs from a never-written one, by key. -/
def State.descs (s : State) : List (Nat × Desc) :=
  let sp := (s.media.spill.filter fun e => s.map.spilled.contains e.1).flatMap (·.2)
  s.map.map ++ (sp.filter fun e => !(s.map.spillPend.any fun x => x.1 == e.1)) ++ s.map.spillPend

/-- Every descriptor of a namespace becomes UNMAPPED, with its sub-map blocks returned (R143). -/
def State.dropNs (s : State) (nsid : Nat) : State :=
  let mine (k : Nat) : Bool := keyNs k == nsid
  let subs := (s.map.map.filter fun e => mine e.1 && e.2.split).map (·.2.sub)
  s.modMap fun m => { m with
    map := m.map.filter fun e => !mine e.1
    subs := m.subs.filter fun e => !subs.contains e.1
    subFree := m.subFree + subs.length
    spillPend := m.spillPend.filter fun e => !mine e.1
    spilled := m.spilled.filter fun p => !mine (p * 256)
    absent := m.absent.filter fun p => !mine (p * 256)
    dirty := true }

/-! Units of a chunk (R105, R109, R110) -/

/-- The location of one unit of a whole payload: its own 8 crumbs when raw, the whole payload when coded (R109). -/
def unitLoc (l : Loc) (u : Nat) : Loc := if l.coded then l else { l with offset := l.offset + 8 * u, crumbs := 8 }

/-- The 32 unit states of a descriptor. -/
def State.unitStates (s : State) (d : Desc) : List UState :=
  match d.state with
  | .mapped => if d.split then tgetD s.map.subs d.sub [] else (List.range 32).map fun u => .mapped (unitLoc d.loc u)
  | .unmapped => List.replicate 32 .dealloc
  | .dealloc => List.replicate 32 .dealloc
  | .zero => List.replicate 32 .zero
  | .lost => List.replicate 32 .unreadable

/-- The location that a unit state names. -/
def UState.loc? : UState → Option Loc
  | .mapped l => some l
  | _ => none

/-- A descriptor with nothing stored: its stamps stay, its location, split and KEPT bits go (R105). -/
def Desc.bare (d : Desc) (st : ChunkState) : Desc :=
  { d with state := st, loc := {}, split := false, sub := 0, kept := false, format := 0, ddur := false }

/-- A free sub-map block for a change; unreadable markings may take the reserve (R111). -/
def State.subGrant (s : State) (reserve : Bool) : Option (Nat × State) :=
  let ix := ((List.range (s.map.subs.length + s.map.subHeld.length + 1)).find? fun i =>
    !(thas s.map.subs i) && !(s.map.subHeld.any fun h => h.2.2 == i)).getD 0
  if 0 < s.map.subFree then some (ix, s.modMap fun m => { m with subFree := m.subFree - 1 })
  else if reserve && decide (0 < s.map.subReserve) then some (ix, s.modMap fun m => { m with subReserve := m.subReserve - 1 })
  else none

/-- A sub-map block returns to the pool, its reserve first. -/
def State.subReturn (s : State) (ix : Nat) : State :=
  s.modMap fun m =>
    let m := { m with subs := tdel m.subs ix }
    if m.subReserve < 4096 then { m with subReserve := m.subReserve + 1 } else { m with subFree := m.subFree + 1 }

/-- The tier that holds the most of the mapped units, the lowest number on a tie (R104). -/
def mostTier (us : List UState) : Tier :=
  let n (t : Tier) : Nat := (us.filter fun u => match u with | .mapped l => decide (l.tier = t) | _ => false).length
  if n .proof = 0 && n .bake = 0 && n .rack = 0 then .none
  else if n .proof ≥ n .bake && n .proof ≥ n .rack then .proof
  else if n .bake ≥ n .rack then .bake else .rack

/-- Give a chunk new unit states (R108, R112): whole again when they agree, split otherwise in the block `ix`. A block that is
not used, or no longer used, returns. -/
def State.setUnits (s : State) (nsid lcn : Nat) (us : List UState) (ix : Nat) (had : Bool) : State :=
  let d := s.desc nsid lcn
  let back (s : State) : State := if d.split then s.subReturn d.sub else if had then s.subReturn ix else s
  let bare (st : ChunkState) : Desc := d.bare st
  if us.all (· == .unreadable) then back (s.putDesc nsid lcn (bare .lost))
  else if us.all (· == .zero) then back (s.putDesc nsid lcn (bare .zero))
  else if us.all (· == .dealloc) then
    let keep := ((s.unitStates d).filterMap UState.loc?).headD {}
    back (s.putDesc nsid lcn { bare .dealloc with loc := keep })
  else
    let b := if d.split then d.sub else ix
    (s.modMap fun m => { m with subs := tput m.subs b us }).putDesc nsid lcn
      { d with state := .mapped, split := true, sub := b, loc := { d.loc with tier := mostTier us, span := 0, offset := 0, crumbs := 1 } }

/-- The unit states with those of a mask replaced. -/
def maskUnits (us : List UState) (m : Nat) (v : UState) : List UState :=
  (us.zipIdx).map fun (u, i) => if bitAt m i then v else u

/-! Write sequence numbers and journal entries (R116, R120) -/

/-- The next write sequence number. -/
def State.nextWsn (s : State) : Nat × State := (s.map.wsn + 1, s.modMap fun m => { m with wsn := m.wsn + 1 })

/-- A deallocation entry, which no command waits on (R123). -/
def JBody.isDealloc : JBody → Bool
  | .deallocRange _ => true
  | .deallocUnits _ => true
  | _ => false

/-- Form a journal entry: it takes the next WSN and waits to be programmed (R116, R122). -/
def State.jform (s : State) (nsid lcn : Nat) (b : JBody) : Nat × State :=
  let (w, s) := s.nextWsn
  (w, s.modMap fun m => { m with
    pendJ := m.pendJ ++ [{ wsn := w, nsid := nsid, lcn := lcn, body := b }]
    jDelay := if b.isDealloc && m.jDelay.isNone then some s.now else m.jDelay })

/-- The same, where nothing needs the number. -/
def State.journal (s : State) (nsid lcn : Nat) (b : JBody) : State := (s.jform nsid lcn b).2

/-- A formed entry of this kind is not yet durable. -/
def State.jpending (s : State) (p : JBody → Bool) : Bool := s.map.pendJ.any fun e => p e.body

/-- The span's SPAN_OPEN entry is not yet durable (R122). -/
def State.openPending (s : State) (n : Nat) : Bool := s.jpending fun b => match b with | .spanOpen k _ => k == n | _ => false

/-! Roots (R124 to R128) -/

/-- The root that the structures in DRAM give now. -/
def State.formRoot (s : State) (clean : Bool) (horizon : Nat) : Root :=
  { clean := clean, ckseq := s.map.ckseq + 1, horizon := horizon, wsnHigh := s.map.wsn, epoch := s.place.epoch, ts := s.stamp
    map := s.map.map, subs := s.map.subs, spans := s.flash.spans, stackTab := s.rack.stackTab, blocks := s.flash.blocks, nss := s.nvme.nss
    formats := s.coder.formats, hints := s.place.hints, fencedDies := s.place.fencedDies, fenceHead := s.place.fenceHead
    deferred := s.host.deferred, streams := s.place.streams, nsStreams := s.place.nsStreams
    spilled := s.map.spilled, pend := s.map.spillPend }

/-- Write a root into the root span that does not hold the newest one (R125). -/
def State.writeRoot (s : State) (r : Root) : State :=
  let aNewer : Bool := match s.media.rootA, s.media.rootB with
    | some a, some b => decide (b.ckseq < a.ckseq)
    | some _, none => true
    | none, _ => false
  let s := s.modMedia fun m => if aNewer then { m with rootB := some r } else { m with rootA := some r }
  s.modMap fun m => { m with ckseq := r.ckseq, horizon := r.horizon, cleanNow := r.clean }

/-- The valid flash root: the higher CKSEQ (R125). -/
def State.flashRoot (s : State) : Option Root :=
  match s.media.rootA, s.media.rootB with
  | some a, some b => some (if a.ckseq < b.ckseq then b else a)
  | some a, none => some a
  | none, b => b

/-- Before the first program, band write or journal entry after a clean root, a further root with CLEAN 0 is made durable, with
the same contents and a CKSEQ one greater (R128). -/
def State.unclean (s : State) : State :=
  if s.map.cleanNow then
    match s.flashRoot with
    | some r => s.writeRoot { r with clean := false, ckseq := r.ckseq + 1 }
    | none => s
  else s

/-- Lowest WSN not yet taken effect or failed, minus 1 (R126). -/
def State.ckHorizon (s : State) : Nat :=
  let ws := (s.host.versions.filterMap fun v => if v.wsn = 0 then none else some v.wsn) ++ s.map.pendJ.map (·.wsn)
  ws.foldl (fun h w => min h (w - 1)) s.map.wsn

/-! Valid crumbs (R22, R276, R328) -/

/-- Crumbs of a descriptor that lie in a span: a mapped payload, the runs of a split one, or a deallocated version whose entry
is not yet durable (R105). -/
def State.crumbsIn (s : State) (tier : Tier) (span : Nat) (d : Desc) : Nat :=
  let here (l : Loc) : Bool := decide (l.tier = tier) && l.span == span
  match d.state with
  | .mapped =>
    if d.split then
      let ls := ((s.unitStates d).filterMap UState.loc?).filter here
      match ls with
      | l :: _ => if l.coded then l.crumbs else 8 * ls.length
      | [] => 0
    else if here d.loc then d.loc.crumbs else 0
  | .dealloc => if !d.ddur && here d.loc then d.loc.crumbs else 0
  | _ => 0

/-- Valid crumbs of a span or stack: what the map names there. -/
def State.validCrumbs (s : State) (tier : Tier) (span : Nat) : Nat :=
  s.descs.foldl (fun n e => n + s.crumbsIn tier span e.2) 0

/-- The chunks (namespace, LCN) with a mapped crumb in a span or stack. -/
def State.chunksIn (s : State) (tier : Tier) (span : Nat) : List (Nat × Nat) :=
  (s.descs.filter fun e => decide (e.2.state = .mapped) && decide (0 < s.crumbsIn tier span e.2)).map fun e => (keyNs e.1, keyLcn e.1)

/-- The stored copy that a location lies in. -/
def State.copyAt (s : State) (l : Loc) : Option Copy :=
  s.media.copies.find? fun c => decide (c.loc.tier = l.tier) && c.loc.span == l.span && decide (c.loc.offset ≤ l.offset) &&
    decide (l.offset < c.loc.offset + c.payload.length)

/-- A descriptor names a location (R132): its own, or for a split chunk that of any unit within the payload. -/
def State.names (s : State) (d : Desc) (src : Loc) : Bool :=
  decide (d.state = .mapped) &&
    if d.split then ((s.unitStates d).filterMap UState.loc?).any fun l =>
      decide (l.tier = src.tier) && l.span == src.span && decide (src.offset ≤ l.offset) && decide (l.offset < src.offset + src.crumbs)
    else decide (d.loc.tier = src.tier) && d.loc.span == src.span && d.loc.offset == src.offset

/-- The payload location of a chunk: its own, or for a split chunk the span of crumbs from its first to its last mapped unit. -/
def State.payloadLoc (s : State) (d : Desc) : Loc :=
  if d.split then
    let ls := (s.unitStates d).filterMap UState.loc?
    match ls with
    | [] => {}
    | l :: _ =>
      if l.coded then l
      else { l with crumbs := (ls.foldl (fun n x => max n (x.offset + 8)) 0) - l.offset }
  else d.loc

/-! Lost units (R95, R96, R111) -/

/-- Runs of consecutive set bits among the 32 units: (first, length) (R100). -/
def unitRuns (m : Nat) : List (Nat × Nat) :=
  (List.range 32).foldl (fun rs u =>
    if !bitAt m u then rs
    else match rs.getLast? with
      | some (f, n) => if f + n = u then rs.dropLast ++ [(f, n + 1)] else rs ++ [(u, 1)]
      | none => [(u, 1)]) []

/-- LBAs of a unit in a namespace: 1 in a 4 KiB format, 8 in a 512-byte format. -/
def NsEntry.lbasPerUnit (n : NsEntry) : Nat := 8 / n.blocksPerLba

/-- Code of a tier in the logs. -/
def Tier.code : Tier → Nat
  | .none => 0
  | .proof => 1
  | .bake => 2
  | .rack => 3

/-- Mark units of a chunk unreadable (R84, R95, R111): a block is taken where the chunk is whole, with the reserve; with the
reserve exhausted too the whole chunk becomes LOST. Answers the units that are lost. -/
def State.markUnreadable (s : State) (nsid lcn m : Nat) : Nat × State :=
  let d := s.desc nsid lcn
  let us := maskUnits (s.unitStates d) m .unreadable
  if us.all (· == .unreadable) then (m, s.setUnits nsid lcn us 0 false)
  else if d.split then (m, s.setUnits nsid lcn us d.sub false)
  else match s.subGrant true with
    | some (ix, s) => (m, s.setUnits nsid lcn us ix true)
    | none => (2 ^ 32 - 1, s.setUnits nsid lcn (List.replicate 32 .unreadable) 0 false)

/-- A run of lost units as a Deferred Error log entry, with its event record 0x3002 (R100, R606). -/
def State.defEntry (s : State) (nsid lcn cause : Nat) (tier : Tier) (wsn : Nat) (r : Nat × Nat) : DefEntry × State :=
  let k := ((s.ns? nsid).getD {}).lbasPerUnit
  let slba := (lcn * 32 + r.1) * k
  let seq := s.evt.nextSeq
  ({ slba := BitVec.ofNat 64 slba, units := BitVec.ofNat 16 r.2, cause := BitVec.ofNat 4 cause, tier := BitVec.ofNat 2 tier.code
     evSeq := seq, ts := BitVec.ofNat 64 s.stamp, wsn := BitVec.ofNat 64 wsn },
   s.note 0x3002 0 0 [nsid - 1, slba, r.2, cause])

/-- The entries of every run of lost units, oldest first. -/
def State.defEntries (s : State) (nsid lcn cause : Nat) (tier : Tier) (wsn m : Nat) : List DefEntry × State :=
  (unitRuns m).foldl (fun acc r =>
    let (e, s) := acc.2.defEntry nsid lcn cause tier wsn r
    (acc.1 ++ [e], s)) ([], s)

/-- Steps 2 of R96 for lost units of the copy at `src`: mark them and form the UNREADABLE entry; the log entries wait for it
to be durable. Cause 0 is a host read, which enters no deferred-error state (R94). Answers the WSN of the entry. -/
def State.loseUnits (s : State) (nsid lcn m cause : Nat) (src : Loc) (from_ : Tier) (wsn : Nat) : Nat × State :=
  let (m, s) := s.markUnreadable nsid lcn m
  let (w, s) := s.jform nsid lcn (.unreadable (BitVec.ofNat 32 m) src cause)
  if cause = 0 then (w, s)
  else
    let (es, s) := s.defEntries nsid lcn cause from_ wsn m
    (w, s.modHost fun h => { h with defPend := h.defPend ++ [(w, nsid, es)] })

/-- Step 3 of R96 for one entry: append it, or count it as LOST. -/
def Deferred.add (d : Deferred) (e : DefEntry) : Deferred :=
  if d.entries.length < 126 then { d with entries := d.entries ++ [e] } else { d with lost := satInc d.lost }

/-- Steps 3 and 4 of R96: the entries are appended and the namespace enters the state; the change is journalled, and its
durability raises the event. -/
def State.enterDeferred (s : State) (nsid : Nat) (es : List DefEntry) : State :=
  let d := es.foldl Deferred.add (tgetD s.host.deferred nsid {})
  let d := if d.inState then d else { d with inState := true, reported := false }
  (s.modHost fun h => { h with deferred := tput h.deferred nsid d }).journal nsid 0 (.side (.deferred nsid d))

end Sys2Proof.Machine
end

