-- ==== Sys2Proof/Machine/PlaceOps.lean ====
section
/-!
DEFINITION. The placement engine's operations: classification, member sets and span choice, reservations in batches, free
fractions, engine dispatch and fencing (R32 to R55, R273 to R287, R300 to R303).
-/
namespace Sys2Proof.Machine
open Sys2Proof

/-! Classification (R35 to R38) -/

/-- Epochs since the last host write of a chunk. -/
def State.age (s : State) (d : Desc) : Nat := (s.place.epoch.toNat + 65536 - d.we.toNat) % 65536

/-- Decay, step 1 of R35. -/
def State.decay (s : State) (d : Desc) : Desc :=
  let n := (s.place.epoch.toNat + 256 - d.rs.toNat) % 256
  { d with rc := d.rc >>> min n 6, wc := d.wc >>> min n 4, rs := BitVec.ofNat 8 s.place.epoch.toNat }

/-- lifetime(x) of R37. -/
def State.lifetime (s : State) (x : Nat) : Nat :=
  if x < s.keyN 0x0205 0 4 then 0 else if x < s.keyN 0x0205 4 4 then 1 else if x < s.keyN 0x0205 8 4 then 2 else 3

/-- The heat class of R36 for a decayed descriptor. -/
def State.heat (s : State) (d : Desc) : Nat :=
  let hs := s.key2 0x0202 * min 6 (Nat.log2 (d.rc.toNat + 1)) + s.key2 0x0203 * Nat.log2 (d.wc.toNat + 1)
  ((List.range 7).filter fun k => decide (s.keyN 0x0204 (2 * k) 2 ≤ hs)).length

/-- Classification outside a host write: decay, heat class, and the longer of the stored lifetime class and that of the age. -/
def State.classify (s : State) (d : Desc) : Desc :=
  let d := s.decay d
  { d with hc := BitVec.ofNat 3 (s.heat d), lc := BitVec.ofNat 2 (max d.lc.toNat (s.lifetime (s.age d))) }

/-- Steps 3 and 4 of R35 with the estimate of the stream that applies, and the classification of the write. -/
def State.hostWriteFields (s : State) (d : Desc) (est : Nat) : Desc :=
  let d := s.decay d
  let we := BitVec.ofNat 16 s.place.epoch.toNat
  let d := match d.state with
    | .mapped => { d with lc := BitVec.ofNat 2 (s.lifetime (s.age d)), wc := satInc d.wc, we := we }
    | .lost => { d with lc := BitVec.ofNat 2 (s.lifetime (s.age d)), wc := satInc d.wc, we := we }
    | _ => { d with rc := 0, wc := 0, lc := BitVec.ofNat 2 (s.lifetime est), we := we }
  { d with hc := BitVec.ofNat 3 (s.heat d) }

/-- Whether a host write of the chunk feeds the stream estimator: the chunk is mapped (R35 step 3). -/
def Desc.feeds (d : Desc) : Bool := decide (d.state = .mapped) || decide (d.state = .lost)

/-- Slot of a classified chunk (R38). -/
def State.slotOf (s : State) (d : Desc) : Nat := 2 * d.lc.toNat + b2n (decide (s.key2 0x0208 ≤ d.hc.toNat))

/-- The stream record that a command selects: an open identifier of its namespace, else the namespace's default record (R34).
Default records follow the 4,096 stream records, numbered by namespace. -/
def State.streamOf (s : State) (c : Ctx) : Nat :=
  let dflt := 4096 + c.nsid
  if c.opcode.toNat = 1 && c.isIo && bits (c.dw 12) 20 4 = 1 then
    match s.place.streams.find? fun e => e.2.bind == some (c.nsid, bits (c.dw 13) 16 16) with
    | some e => e.1
    | none => dflt
  else dflt

/-- EST of a record. -/
def State.est (s : State) (k : Nat) : Nat :=
  if k < 4096 then (tgetD s.place.streams k { est := BitVec.ofNat 32 (s.key4 0x0207) }).est.toNat
  else (tgetD s.place.nsStreams (k - 4096) (BitVec.ofNat 32 (s.key4 0x0207))).toNat

/-- Step 5 of R35: EST plus (I - EST) / 2^n, rounded toward zero. -/
def State.feedStream (s : State) (k i : Nat) : State :=
  let e := s.est k
  let n := 2 ^ s.key2 0x0206
  let e' := if e ≤ i then e + (i - e) / n else e - (e - i) / n
  s.modPlace fun p =>
    if k < 4096 then { p with streams := tupd p.streams k fun r => { r with est := BitVec.ofNat 32 e' } }
    else { p with nsStreams := tput p.nsStreams (k - 4096) (BitVec.ofNat 32 e') }

/-! Hint ranges (R57) -/

/-- A chunk lies in a hint range of a kind, the range widened to whole chunks. -/
def State.inHint (s : State) (kind : HintKind) (nsid lcn : Nat) : Bool :=
  let k := ((s.ns? nsid).getD {}).blocksPerLba
  s.place.hints.any fun h => decide (h.kind = kind) && h.nsid == nsid && decide (h.slba * k / chunkBlocks ≤ lcn) &&
    decide (lcn * chunkBlocks < (h.slba + h.nlb) * k)

/-! Dies, member sets and spans (R219, R273 to R278) -/

/-- The state of a die. -/
def State.die (s : State) (d : Nat) : DieSt := tgetD s.flashIf.dies d {}

/-- A die takes new work: usable, not failed, not fenced, its channel not fenced. -/
def State.dieOk (s : State) (d : Nat) : Bool :=
  let x := s.die d
  x.usable && !x.failed && !s.place.fencedDies.contains d && !bitAt s.place.fenceCh.toNat (d / 32)

/-- The members of member set m, in channel order (R274). -/
def State.memberSet (s : State) (m : Nat) : List Nat := ((List.range 32).map fun ch => 32 * ch + m).filter s.dieOk

/-- A set opens spans only with 3 members. -/
def State.setOpens (s : State) (m : Nat) : Bool := decide (3 ≤ (s.memberSet m).length)

/-- The member sets that open spans. -/
def State.openSets (s : State) : List Nat := (List.range 32).filter s.setOpens

/-- Reserve blocks of a die, and span indices of a set (R275). -/
def State.reserveBlocks (s : State) : Nat := ceilDiv (s.key2 0x0130 * s.flashIf.geo.blocks) 100
def State.spanIndices (s : State) : Nat := s.flashIf.geo.blocks - s.reserveBlocks

/-- Span number (R275). -/
def spanNo (m b : Nat) : Nat := 524288 * m + b

/-- A block of a die. -/
def State.block (s : State) (d b : Nat) : BlockSt := tgetD s.flash.blocks (d * 2 ^ 22 + b) {}

/-- Change a block. -/
def State.modBlock (s : State) (d b : Nat) (f : BlockSt → BlockSt) : State :=
  s.modFlash fun x => { x with blocks := tmod x.blocks (d * 2 ^ 22 + b) {} f }

/-- Bits per cell of the Bake tier (R288) and wordlines of a paired-page group (R289). -/
def State.bakeBits (s : State) : Nat := s.key2 0x0120
def State.groupWl (s : State) : Nat := if s.key2 0x0121 = 1 then 2 else 1

/-- Crumbs of a member page-group (R278): 32 to a record page. -/
def State.groupCrumbs (s : State) (dense : Bool) : Nat :=
  32 * s.flashIf.geo.planes * (if dense then s.bakeBits * s.groupWl else 1)

/-- Batches of a span. -/
def State.batchCount (s : State) (dense : Bool) : Nat := if dense then s.flashIf.geo.wordlines / s.groupWl else s.flashIf.geo.wordlines

/-- Crumbs of a block. -/
def State.blockCrumbs (s : State) (dense : Bool) : Nat := s.groupCrumbs dense * s.batchCount dense

/-- Data crumbs of a batch of width w, one member being parity (R281). -/
def State.batchData (s : State) (dense : Bool) (w : Nat) : Nat := (w - 1) * s.groupCrumbs dense

/-- Data space of a span, crumbs. -/
def State.spanData (s : State) (sp : SpanSt) : Nat := s.batchData sp.dense sp.members.length * s.batchCount sp.dense

/-- Width of a full-width span: the largest member set. -/
def State.fullWidth (s : State) : Nat := (List.range 32).foldl (fun n m => max n (s.memberSet m).length) 0

/-- Data space of a full-width span. -/
def State.fullData (s : State) (dense : Bool) : Nat := s.batchData dense s.fullWidth * s.batchCount dense

/-- The span table entry. -/
def State.span (s : State) (n : Nat) : SpanSt := tgetD s.flash.spans n {}

/-- Change a span table entry. -/
def State.modSpan (s : State) (n : Nat) (f : SpanSt → SpanSt) : State := s.modFlash fun x => { x with spans := tmod x.spans n {} f }

/-- The two root spans (R287). -/
def State.rootSpans (s : State) : List Nat := if s.setOpens 1 then [spanNo 0 0, spanNo 1 0] else [spanNo 0 0, spanNo 0 1]

/-- The free and erased spans of a member set. -/
def State.freeSpans (s : State) (m : Nat) : List Nat :=
  if s.setOpens m then
    (List.range s.spanIndices).filterMap fun b =>
      let n := spanNo m b
      if (s.span n).phase = .free && !s.rootSpans.contains n then some n else none
  else []

/-- Spans of a kind that are open or closed. -/
def State.liveSpans (s : State) (p : SpanSt → Bool) : Nat :=
  (s.flash.spans.filter fun e => (decide (e.2.phase = .opened) || decide (e.2.phase = .closed)) && p e.2).length

/-! Capacities and free fractions (R43, R284, R285, R287) -/

/-- Usable dies. -/
def State.usableDies (s : State) : Nat := ((List.range 1024).filter s.dieOk).length

/-- Proof data capacity in crumbs: key 0x0122 in GB, by default 5 % of the dense raw capacity, whole GB, at least 1 (R322). -/
def State.proofCap (s : State) : Nat :=
  let dflt := max 1 (s.usableDies * s.flashIf.geo.blocks * s.blockCrumbs true * 512 * 5 / 100 / 1000000000)
  (if s.cfg.img.present 0x0122 then s.key4 0x0122 else dflt) * 1000000000 / 512

/-- Proof span limit (R284). -/
def State.proofLimit (s : State) : Nat := if s.fullData false = 0 then 0 else ceilDiv s.proofCap (s.fullData false)

/-- Proof spans open or closed. -/
def State.proofSpans (s : State) : Nat := s.liveSpans fun x => decide (x.tier = .proof)

/-- Crumbs already taken in a span's batches. -/
def SpanSt.taken (x : SpanSt) : Nat := x.batches.foldl (fun n b => n + b.used) 0

/-- Free Proof crumbs: erased data space and the unwritten data space of open spans (R43, R284). -/
def State.proofFree (s : State) : Nat :=
  (s.proofLimit - s.proofSpans) * s.fullData false +
    s.flash.spans.foldl (fun n e => if e.2.tier = .proof && e.2.phase = .opened then n + (s.spanData e.2 - e.2.taken) else n) 0

/-- F is below a percentage. -/
def State.proofBelow (s : State) (pct : Nat) : Bool := decide (s.proofFree * 100 < pct * s.proofCap)

/-- Spans of every set, and the Bake data capacity in crumbs for a map-area span limit (R285). -/
def State.allSpans (s : State) : Nat := s.openSets.length * s.spanIndices
def State.bakeCapFor (s : State) (mapLimit : Nat) : Nat :=
  (s.allSpans - s.proofLimit - mapLimit - s.keyN 0x012B 0 2 * s.openSets.length) * s.fullData true

/-- Bake data capacity in crumbs. -/
def State.bakeCap (s : State) : Nat := s.bakeCapFor s.flash.mapLimit

/-- Bake data space in use: closed Bake spans whole, open ones as far as taken (by analogy with F; assumption log 21). -/
def State.bakeUsed (s : State) : Nat :=
  s.flash.spans.foldl (fun n e =>
    if e.2.tier ≠ .bake then n
    else if e.2.phase = .opened then n + e.2.taken
    else if e.2.phase = .closed || e.2.phase = .releasing then n + s.spanData e.2 else n) 0

/-- The Bake free fraction is below a percentage. -/
def State.bakeBelow (s : State) (pct : Nat) : Bool := decide ((s.bakeCap - s.bakeUsed) * 100 < pct * s.bakeCap)

/-- Free spans of a set that the Proof tier and the map area reserve (R285). -/
def State.setShare (s : State) : Nat :=
  let m := s.openSets.length
  if m = 0 then 0
  else ceilDiv (s.proofLimit - s.proofSpans) m + ceilDiv (s.flash.mapLimit - s.liveSpans (·.mapArea)) m

/-! Opening a span (R39, R275, R285, R301, R303) -/

/-- Queued die operations of a member set. -/
def State.setLoad (s : State) (m : Nat) : Nat :=
  (s.memberSet m).foldl (fun n d =>
    n + b2n (s.die d).op.isSome + (((tgetD s.seqs.seqs (d / 32) {}).queue).filter fun r => r.die.toNat == m).length) 0

/-- Wear limits (R300). -/
def State.denseLimit (s : State) : Nat := 4 * s.keyN 0x0129 0 4
def State.oneBitLimit (s : State) : Nat := s.keyN 0x0129 4 4 * s.key2 0x0128

/-- The lowest replacement block of a die's reserve that is not in use (R275). -/
def State.replacement (s : State) (d : Nat) : Option Nat :=
  let used := (s.flash.blocks.filter fun e => e.1 / 2 ^ 22 == d).filterMap (·.2.repl)
  ((List.range s.reserveBlocks).map (s.spanIndices + ·)).find? fun b =>
    !used.contains b && !(s.block d b).retired && !s.flash.factoryBad.contains (d, b)

/-- The block that a member gives to span index b: its own, or a replacement where it is bad; none when the reserve is
empty. -/
def State.memberBlock (s : State) (d b : Nat) : Option Nat :=
  let own := s.block d b
  let cur := own.repl.getD b
  if (s.block d cur).retired || s.flash.factoryBad.contains (d, cur) then s.replacement d else some cur

/-- The members of a span that opens on index b of set m. -/
def State.spanMembers (s : State) (m b : Nat) : List (Nat × Nat) :=
  (s.memberSet m).filterMap fun d => (s.memberBlock d b).map fun k => (d, k)

/-- Mean wear of a span's members, in 1/1,000 of a unit. -/
def State.meanWear (s : State) (n : Nat) : Nat :=
  let ms := s.spanMembers (n / 524288) (n % 524288)
  if ms.isEmpty then 0 else (ms.foldl (fun w e => w + (s.block e.1 e.2).wear) 0) * 1000 / ms.length

/-- A span may open in a mode: all members below the limit of the mode (R301, R303). -/
def State.wearOk (s : State) (n : Nat) (dense : Bool) : Bool :=
  (s.spanMembers (n / 524288) (n % 524288)).all fun e =>
    decide ((s.block e.1 e.2).wear < if dense then s.denseLimit else s.oneBitLimit)

/-- The first element of a list with the least measure. -/
def leastBy (f : Nat → Nat) : List Nat → Option Nat
  | [] => none
  | a :: t => some (t.foldl (fun b x => if f x < f b then x else b) a)

/-- The first element of a list with the greatest measure. -/
def mostBy (f : Nat → Nat) : List Nat → Option Nat
  | [] => none
  | a :: t => some (t.foldl (fun b x => if f b < f x then x else b) a)

/-- The free spans that a tier may open in a set (R284, R285). -/
def State.openable (s : State) (m : Nat) (tier : Tier) : List Nat :=
  let fr := (s.freeSpans m).filter fun n => s.wearOk n (decide (tier = .bake)) && decide (3 ≤ (s.spanMembers m (n % 524288)).length)
  if tier = .proof then (if s.proofSpans < s.proofLimit then fr else [])
  else if tier = .bake then (if s.setShare < (s.freeSpans m).length then fr else [])
  else fr

/-- The span that a slot of a tier opens next (R39, R301). -/
def State.chooseSpan (s : State) (tier : Tier) (slot : Nat) : Option Nat :=
  match leastBy s.setLoad (s.openSets.filter fun m => !(s.openable m tier).isEmpty) with
  | none => none
  | some m => if tier = .bake && slot ≥ 4 then mostBy s.meanWear (s.openable m tier) else leastBy s.meanWear (s.openable m tier)

/-- Open a span for a slot of a tier: members fixed, first batch begun, SPAN_OPEN formed (R121, R276, R277). -/
def State.openSpanFor (s : State) (tier : Tier) (slot : Nat) (mapArea : Bool) (n : Nat) : State :=
  let ms := s.spanMembers (n / 524288) (n % 524288)
  let s := ms.foldl (fun s e => s.modBlock e.1 (n % 524288) fun b => if e.2 = n % 524288 then b else { b with repl := some e.2 }) s
  let s := s.modSpan n fun _ =>
    { tier := if mapArea then .none else tier, mapArea := mapArea, phase := .opened, dense := decide (tier = .bake) && !mapArea, slot := slot,
      members := ms, batches := [{}] }
  s.journal 1 0 (.spanOpen n (if mapArea then 4 else tier.code))

/-- Key of the open span of a tier's slot. -/
def openKey (tier : Tier) (slot : Nat) : Nat := if tier = .bake then 8 + slot else slot

/-! Reservations and crumbs (R40, R41, R118) -/

/-- Change one batch of a span. -/
def State.modBatch (s : State) (n b : Nat) (f : Batch → Batch) : State := s.modSpan n fun x => { x with batches := lmod x.batches b f }

/-- Crumbs of a batch that are neither taken nor reserved. -/
def State.unreserved (s : State) (sp : SpanSt) (b : Batch) : Nat := s.batchData sp.dense sp.members.length - b.used - 256 * b.reserved.length

/-- The tail of a batch that takes nothing more is written as zero crumbs (R40). -/
def State.fillTail (s : State) (n : Nat) : State :=
  let sp := s.span n
  let cap := s.batchData sp.dense sp.members.length
  s.modSpan n fun x => { x with batches := (x.batches.zipIdx).map fun (b, i) =>
    if b.reserved.isEmpty && (decide (i + 1 < x.batches.length) || decide (cap - b.used < 256)) then { b with used := cap } else b }

/-- Reserve 256 crumbs for a chunk in the current batch of its slot's open span, opening the next batch or span where the
current one accepts no more (R40). None: no erased span is available (R45). -/
def State.reserveIn (s : State) (tier : Tier) (slot id : Nat) : Option (Nat × Nat × State) :=
  let take (s : State) (n : Nat) : Option (Nat × Nat × State) :=
    let i := (s.span n).batches.length - 1
    some (n, i, s.modBatch n i fun b => { b with reserved := b.reserved ++ [id] })
  let fresh (s : State) : Option (Nat × Nat × State) :=
    match s.chooseSpan tier slot with
    | none => none
    | some n => take ((s.openSpanFor tier slot false n).modFlash fun f => { f with openSpan := tput f.openSpan (openKey tier slot) n }) n
  match tget s.flash.openSpan (openKey tier slot) with
  | none => fresh s
  | some n =>
    let sp := s.span n
    if s.unreserved sp (sp.batches.getLastD {}) ≥ 256 then take s n
    else if sp.batches.length < s.batchCount sp.dense then
      take ((s.modSpan n fun x => { x with batches := x.batches ++ [{ ix := x.batches.length }] }).fillTail n) n
    else fresh ((s.fillTail n).modFlash fun f => { f with openSpan := tdel f.openSpan (openKey tier slot) })

/-- Give a reservation back. -/
def State.unreserve (s : State) (n b id : Nat) : State :=
  (s.modBatch n b fun x => { x with reserved := x.reserved.filter (· != id) }).fillTail n

/-- Where a payload would start in a batch, and the record-page bounds after it: it starts in a record page only if the WSNs
starting there differ by at most 2,047 (R118). -/
def Batch.startAt (b : Batch) (wsn : Nat) : Nat × (Nat × Nat × Nat) :=
  let p := b.used / 32
  match b.rp with
  | some (q, lo, hi) =>
    if q = p then
      if max hi wsn - min lo wsn ≤ 2047 then (b.used, p, min lo wsn, max hi wsn) else (32 * (p + 1), p + 1, wsn, wsn)
    else (b.used, p, wsn, wsn)
  | none => (b.used, p, wsn, wsn)

/-- Take the next free crumbs of the batch that holds a reservation; none when they do not fit. Answers the offset in the
span's data space (R40, R106). -/
def State.takeIn (s : State) (n b id crumbs wsn : Nat) : Option (Nat × State) :=
  let sp := s.span n
  let bt := sp.batches.getD b {}
  let cap := s.batchData sp.dense sp.members.length
  let st := bt.startAt wsn
  if st.1 + crumbs ≤ cap then
    some (b * cap + st.1,
      (s.modBatch n b fun x => { x with used := st.1 + crumbs, rp := some st.2, reserved := x.reserved.filter (· != id) }).fillTail n)
  else none

/-- The member page-groups (0, 1, ...) of a batch that hold crumbs from `off` on. -/
def State.groupsOf (s : State) (sp : SpanSt) (off crumbs : Nat) : List Nat :=
  let cap := s.batchData sp.dense sp.members.length
  let g := s.groupCrumbs sp.dense
  if cap = 0 || g = 0 || crumbs = 0 then []
  else
    let a := off % cap / g
    (List.range ((off % cap + crumbs - 1) / g - a + 1)).map (a + ·)

/-- Every member page-group that holds a payload has been programmed with good status. -/
def State.allProgrammed (s : State) (n b off crumbs : Nat) : Bool :=
  let sp := s.span n
  (s.groupsOf sp off crumbs).all fun g => (sp.batches.getD b {}).prog.contains g

/-- Member position of data member i of batch k (R281). -/
def memberPos (w k i : Nat) : Nat := if i < k % w then i else i + 1

/-! Engine dispatch (R52, R54) -/

/-- The instance with the least queued work among those not fenced, ties round-robin from the last chosen. -/
def EngineQ.pick (q : EngineQ) (n : Nat) (fenced : Nat) : Option Nat :=
  leastBy (fun i => tgetD q.queued i 0) (((List.range n).map fun i => (q.last + 1 + i) % n).filter fun i => !bitAt fenced i)

/-- Queue work on an instance. -/
def EngineQ.push (q : EngineQ) (i w : Nat) : EngineQ := { q with queued := tmod q.queued i 0 (· + w), last := i }

/-- Work of an instance ends. -/
def EngineQ.pop (q : EngineQ) (i w : Nat) : EngineQ :=
  let r := tgetD q.queued i 0 - w
  { q with queued := if r = 0 then tdel q.queued i else tput q.queued i r }

/-- Coder engines that may be active at once: the power state's number (R622), lowered by the governor (R624). A job is never left without an
engine (log 36). -/
def State.coderLimit (s : State) : Nat := max 1 (min s.pwr.limCoders ([16, 10, 4].getD s.pwr.ps 0))

/-- Highest OP that a power state lets run (R622). -/
def stateOp (ps : Nat) : Nat := min ps 3

/-- The OP that state, governor and ceiling ask for; a higher number is a slower OP (R622, R624, R640). -/
def State.wantOp (s : State) : Nat := max (max s.pwr.limOp (stateOp s.pwr.ps)) s.pwr.ceiling

/-- Ask for an OP: a transition starts, or the request is taken after the one in progress (R628). -/
def State.requestOp (s : State) (o : Nat) : State :=
  s.modPwr fun p => match p.opTarget with
    | some t => { p with opNext := if t = o then none else some o }
    | none => if p.op = o then p else { p with opTarget := some o }

/-- Ask for the OP that the state, governor and ceiling give. -/
def State.retuneOp (s : State) : State := s.requestOp s.wantOp

/-- Fenced engines, and those beyond the limit. -/
def State.coderMask (s : State) : Nat :=
  let live := ((List.range 16).filter fun i => !bitAt s.place.fenceCoder.toNat i).take s.coderLimit
  listMask ((List.range 16).filter fun i => !live.contains i)

/-- Queue a coder job of 131,072 uncompressed bytes; none with every coder engine fenced (R54). -/
def State.queueCoder (s : State) : Option (Nat × State) :=
  (s.place.coderQ.pick 16 s.coderMask).map fun i => (i, s.modPlace fun p => { p with coderQ := p.coderQ.push i 131072 })

/-- Queue a media cipher job. -/
def State.queueCipher (s : State) (bytes : Nat) : Option (Nat × State) :=
  (s.place.cipherQ.pick 8 s.place.fenceCipher.toNat).map fun i => (i, s.modPlace fun p => { p with cipherQ := p.cipherQ.push i bytes })

/-- Queue codewords on a hard-decision decoder. -/
def State.queueHard (s : State) (n : Nat) : Option (Nat × State) :=
  (s.place.hardQ.pick 32 s.place.fenceHard.toNat).map fun i => (i, s.modPlace fun p => { p with hardQ := p.hardQ.push i n })

/-- Queue codewords on a soft-decision decoder. -/
def State.queueSoft (s : State) (n : Nat) : Option (Nat × State) :=
  (s.place.softQ.pick 8 s.place.fenceSoft.toNat).map fun i => (i, s.modPlace fun p => { p with softQ := p.softQ.push i n })

/-- A coder engine ends a job: its last 64 jobs show which kind it ran (R53). -/
def State.coderDone (s : State) (i : Nat) (dec : Bool) : State :=
  s.modPlace fun p => { p with coderQ := p.coderQ.pop i 131072, coderHist := tmod p.coderHist i [] fun h => (h ++ [dec]).drop (h.length + 1 - 64) }

/-- With both kinds waiting, an engine runs a decode job next while the decode jobs among its last jobs fall below the share of
key 0x0230 (R53). -/
def State.decodeNext (s : State) (i : Nat) : Bool :=
  let h := tgetD s.place.coderHist i []
  let share := s.key2 0x0230
  if h.isEmpty then decide (share ≠ 0) else decide ((h.filter id).length * 100 < share * h.length)

/-! Fencing (R55) -/

/-- Jobs queued on a fenced coder engine go to other engines in queue order; with every engine fenced an encode job goes on raw
and a decode job fails (R54, R55). -/
def State.redispatchCoder (s : State) (n : Nat) : State :=
  let s := s.modPlace fun p => { p with coderQ := { p.coderQ with queued := tdel p.coderQ.queued n } }
  let vs := (s.host.versions.filter fun v => decide (v.phase = .encoding) && v.engine == n).map (·.id)
  let js := (s.flash.jobs.filter fun j => decide (j.phase = .coder) && j.engine == n).map (·.id)
  let s := vs.foldl (fun s id => match s.queueCoder with
    | some (e, s) => s.modHost fun h => { h with versions := h.versions.map fun v => if v.id = id then { v with engine := e } else v }
    | none => s) s
  js.foldl (fun s id => match s.queueCoder with
    | some (e, s) => s.modFlash fun f => { f with jobs := f.jobs.map fun j => if j.id = id then { j with engine := e } else j }
    | none => s) s

/-- Jobs queued on a fenced cipher engine go to other engines. -/
def State.redispatchCipher (s : State) (n : Nat) : State :=
  let w := tgetD s.place.cipherQ.queued n 0
  let s := s.modPlace fun p => { p with cipherQ := { p.cipherQ with queued := tdel p.cipherQ.queued n } }
  match s.queueCipher w with
  | none => s
  | some (e, s) =>
    let s := s.modHost fun h => { h with versions := h.versions.map fun v => if v.phase = .ciphering && v.engine = n then { v with engine := e } else v }
    s.modFlash fun f => { f with jobs := f.jobs.map fun j => if j.phase = .cipher && j.engine = n then { j with engine := e } else j }

/-- Fence a channel: its dies leave their member sets (R55, R274). -/
def State.fenceChannel (s : State) (ch : Nat) : State :=
  s.modPlace fun p => { p with fenceCh := p.fenceCh ||| BitVec.ofNat 32 (2 ^ ch) }

/-- Every media cipher engine fenced is a fatal fault (R54); so is every decoder (R317). -/
def State.allFenced (s : State) (cipher : Bool) : State :=
  if cipher then (if s.place.fenceCipher = BitVec.allOnes 8 then s.raise 0x141 else s)
  else if s.place.fenceHard = BitVec.allOnes 32 && s.place.fenceSoft = BitVec.allOnes 8 then s.raise 0x140 else s

/-- Fence a coder engine. -/
def State.fenceCoderN (s : State) (n : Nat) : State :=
  (s.modPlace fun p => { p with fenceCoder := p.fenceCoder ||| BitVec.ofNat 16 (2 ^ n) }).redispatchCoder n

/-- Fence a media cipher engine. -/
def State.fenceCipherN (s : State) (n : Nat) : State :=
  ((s.modPlace fun p => { p with fenceCipher := p.fenceCipher ||| BitVec.ofNat 8 (2 ^ n) }).redispatchCipher n).allFenced true

/-- Fence a hard-decision decoder: its codewords are decoded again elsewhere. -/
def State.fenceHardN (s : State) (n : Nat) : State :=
  let w := tgetD s.place.hardQ.queued n 0
  let s := s.modPlace fun p => { p with fenceHard := p.fenceHard ||| BitVec.ofNat 32 (2 ^ n), hardQ := { p.hardQ with queued := tdel p.hardQ.queued n } }
  (((s.queueHard w).map (·.2)).getD s).allFenced false

/-- Fence a soft-decision decoder. -/
def State.fenceSoftN (s : State) (n : Nat) : State :=
  let w := tgetD s.place.softQ.queued n 0
  let s := s.modPlace fun p => { p with fenceSoft := p.fenceSoft ||| BitVec.ofNat 8 (2 ^ n), softQ := { p.softQ with queued := tdel p.softQ.queued n } }
  (((s.queueSoft w).map (·.2)).getD s).allFenced false

/-- Fence the block behind a fabric port (R55). -/
def State.fencePort (s : State) (p : Port) : State :=
  match p with
  | .coder n => s.fenceCoderN n
  | .cipher n => s.fenceCipherN n
  | .hard n => s.fenceHardN n
  | .soft n => s.fenceSoftN n
  | .flash ch => s.fenceChannel ch
  | .dfs n => s.modPlace fun x => { x with fenceAct := x.fenceAct ||| BitVec.ofNat 2 (2 ^ n), fencePorts := x.fencePorts ++ [p] }
  | _ => s.modPlace fun x => { x with fencePorts := if x.fencePorts.contains p then x.fencePorts else x.fencePorts ++ [p] }

/-- Raise a source with the fence that R55 attaches to it: channels, decoders, coder and cipher engines, actuators. -/
def State.fault (s : State) (id : Nat) (detail : List Nat := []) : State :=
  let s := s.raise id detail
  if s.faultClass id = 0 || (s.src id).masked then s
  else if 0x040 ≤ id && id ≤ 0x05F then s.fenceChannel (id - 0x040)
  else if 0x060 ≤ id && id ≤ 0x07F then s.fenceChannel (id - 0x060)
  else if 0x0E0 ≤ id && id ≤ 0x0FF then s.fenceChannel (id - 0x0E0)
  else if 0x100 ≤ id && id ≤ 0x11F then s.fenceHardN (id - 0x100)
  else if 0x120 ≤ id && id ≤ 0x127 then s.fenceSoftN (id - 0x120)
  else if 0x128 ≤ id && id ≤ 0x137 then s.fenceCoderN (id - 0x128)
  else if 0x138 ≤ id && id ≤ 0x13F then s.fenceCipherN (id - 0x138)
  else s

end Sys2Proof.Machine
end

