-- ==== Sys2Proof/Machine/Coder.lean ====
section
/-!
DEFINITION. The Residue Coder: stream format windows, sample positions, and the YRC stream, encoded and decoded to the last
bit (R186 to R206).
-/
namespace Sys2Proof.Machine
open Sys2Proof

/-! Formats and windows (R186, R190, R191) -/

/-- Frame stride in chunks. -/
def FormatRec.stride (f : FormatRec) : Nat := ceilDiv (f.width.toNat * f.height.toNat * 2) 131072

/-- The threshold shift in effect. -/
def FormatRec.shift (f : FormatRec) : Nat := if f.thr = 15 then f.bits.toNat - 8 else f.thr.toNat

/-- First chunk of a window. -/
def FormatRec.firstChunk (f : FormatRec) (lba : Nat) : Nat := f.base.toNat * lba / 131072

/-- A chunk lies in the window of a defined format. -/
def State.inWindow (s : State) (f : FormatRec) (nsid lcn : Nat) : Bool :=
  let c0 := f.firstChunk (lbaBytes ((s.ns? nsid).getD {}).flbas)
  f.valid && f.nsid.toNat == nsid && decide (c0 ≤ lcn) && decide (lcn < c0 + f.chunks.toNat)

/-- The format whose window holds a chunk. -/
def State.formatOf (s : State) (nsid lcn : Nat) : Option Nat := (s.coder.formats.find? fun e => s.inWindow e.2 nsid lcn).map (·.1)

/-! Sample geometry (R191, R192, R196) -/

/-- What the coding rules use: layout, bits, threshold shift, width, and the linear position of the first sample. -/
structure YrcGeo where
  /-- 0 monochrome, 1 mosaic. -/
  layout : Nat
  bits : Nat
  shift : Nat
  width : Nat
  lin0 : Nat
  deriving DecidableEq, Repr, Inhabited

/-- The geometry of a chunk under a format. -/
def FormatRec.geo (f : FormatRec) (c0 lcn : Nat) : YrcGeo :=
  { layout := f.layout.toNat, bits := f.bits.toNat, shift := f.shift, width := f.width.toNat
    lin0 := if f.stride = 0 then 0 else 65536 * ((lcn - c0) % f.stride) }

/-- Distance of samples of one colour. -/
def YrcGeo.dist (g : YrcGeo) : Nat := if g.layout = 1 then 2 else 1

/-- Line and column of sample i. -/
def YrcGeo.line (g : YrcGeo) (i : Nat) : Nat := (g.lin0 + i) / g.width
def YrcGeo.col (g : YrcGeo) (i : Nat) : Nat := (g.lin0 + i) % g.width

/-- Sample index of the t-th sample of a lane. -/
def YrcGeo.laneIx (g : YrcGeo) (lane t : Nat) : Nat := if g.layout = 1 then 2 * t + lane else 32768 * lane + t

/-- Plane of a sample within its lane: 0, or in a mosaic the parity of the line. -/
def YrcGeo.plane (g : YrcGeo) (i : Nat) : Nat := if g.layout = 1 then g.line i % 2 else 0

/-- The sample at a line and column of the same chunk and lane, if it is available. -/
def YrcGeo.at? (g : YrcGeo) (lane : Nat) (xs : Array Nat) (y x : Nat) : Option Nat :=
  let p := y * g.width + x
  if x < g.width && g.lin0 ≤ p && p < g.lin0 + 65536 && (g.layout = 1 || (p - g.lin0) / 32768 = lane) then some (xs.getD (p - g.lin0) 0)
  else none

/-- Neighbours a, b, c and d of sample i (R196). -/
def YrcGeo.neighbours (g : YrcGeo) (lane : Nat) (xs : Array Nat) (i : Nat) : Nat × Nat × Nat × Nat :=
  let s := g.dist
  let y := g.line i
  let x := g.col i
  let left (y : Nat) : Option Nat := if s ≤ x then g.at? lane xs y (x - s) else none
  match if s ≤ y then g.at? lane xs (y - s) x else none with
  | some b => ((left y).getD b, b, (left (y - s)).getD b, (g.at? lane xs (y - s) (x + s)).getD b)
  | none => let a := (left y).getD (2 ^ (g.bits - 1)); (a, a, a, a)

/-- Samples of the lane on the line of sample i, from i on. -/
def YrcGeo.lineLeft (g : YrcGeo) (lane i : Nat) : Nat :=
  if g.layout = 1 then min ((g.width - 1 - g.col i) / 2 + 1) ((65535 - i) / 2 + 1)
  else min (g.width - g.col i) (32768 * (lane + 1) - i)

/-! Contexts (R197 to R199) -/

/-- Context record (R198). -/
structure YrcCtx where
  a : Nat
  n : Nat
  bs : Int
  c : Int
  deriving DecidableEq, Repr, Inhabited

/-- The state of a lane: context records (41 for each plane), run index, run in progress, bits written (newest first). -/
structure YrcLane where
  ctxs : Array YrcCtx
  ri : Nat := 0
  /-- Run value, and the samples of it not yet coded. -/
  run : Option (Nat × Nat) := none
  bits : List Bool := []
  len : Nat := 0
  deriving Repr, Inhabited

/-- The state at the start of a lane. -/
def YrcGeo.start (g : YrcGeo) : YrcLane :=
  { ctxs := (List.replicate 82 { a := max 2 ((2 ^ g.bits + 32) / 64), n := 1, bs := 0, c := 0 : YrcCtx }).toArray }

/-- The quantiser (R197). -/
def YrcGeo.quant (g : YrcGeo) (v : Int) : Int :=
  let m := v.natAbs
  let t := 2 ^ g.shift
  let l : Int := if m = 0 then 0 else if m < t then 1 else if m < 4 * t then 2 else if m < 16 * t then 3 else 4
  if v < 0 then -l else l

/-- Context number and sign (R197). -/
def YrcGeo.context (g : YrcGeo) (a b c d : Nat) : Nat × Int :=
  let q1 := g.quant ((d : Int) - b)
  let q2 := g.quant ((a : Int) - c)
  if q1 < 0 || (q1 = 0 && q2 < 0) then ((9 * -q1 + -q2).toNat, -1) else ((9 * q1 + q2).toNat, 1)

/-- Middle of three. -/
def median3 (x y z : Int) : Int := max (min x y) (min (max x y) z)

/-- The Rice parameter: the least k up to 16 with N << k not below A. -/
def riceK (n a : Nat) : Nat := ((List.range 16).find? fun k => decide (a ≤ n * 2 ^ k)).getD 16

/-- update(st, e) of R199. -/
def YrcCtx.update (st : YrcCtx) (e : Int) : YrcCtx :=
  let bs := st.bs + e
  let a := (st.a + e.natAbs) % 2 ^ 32
  let (a, bs, n) := if st.n = 64 then (a / 2, Int.fdiv bs 2, 32) else (a, bs, st.n)
  let n := n + 1
  if bs ≤ -(n : Int) then
    let bs := bs + n
    { a := a, n := n, bs := if bs ≤ -(n : Int) then -(n : Int) + 1 else bs, c := if st.c > -128 then st.c - 1 else st.c }
  else if 0 < bs then
    let bs := bs - n
    { a := a, n := n, bs := if 0 < bs then 0 else bs, c := if st.c < 127 then st.c + 1 else st.c }
  else { a := a, n := n, bs := bs, c := st.c }

/-- put(v, n): the n low bits of v, most significant first. -/
def YrcLane.put (l : YrcLane) (v n : Nat) : YrcLane :=
  { l with bits := (List.range n).foldl (fun b i => bitAt v (n - 1 - i) :: b) l.bits, len := l.len + n }

/-- Place of a context record. -/
def YrcGeo.slot (g : YrcGeo) (i k : Nat) : Nat := 41 * g.plane i + k

/-- The prediction of a sample: context place, sign, record and px (R199). -/
def YrcGeo.predict (g : YrcGeo) (l : YrcLane) (i a b c d : Nat) : Nat × Int × YrcCtx × Int :=
  let (k, sg) := g.context a b c d
  let p := g.slot i k
  let st := l.ctxs.getD p default
  (p, sg, st, clampI 0 ((2 : Int) ^ g.bits - 1) (median3 a b ((a : Int) + b - c) + sg * st.c))

/-- regular(y, x) of R199. -/
def YrcGeo.regular (g : YrcGeo) (l : YrcLane) (i v a b c d : Nat) : YrcLane :=
  let (p, sg, st, px) := g.predict l i a b c d
  let full : Int := 2 ^ g.bits
  let e := sg * ((v : Int) - px)
  let e := if e < -(full / 2) then e + full else e
  let e := if e ≥ full / 2 then e - full else e
  let m := (if e ≥ 0 then 2 * e else -2 * e - 1).toNat
  let k := riceK st.n st.a
  let l := if m / 2 ^ k < 24 then ((l.put 0 (m / 2 ^ k)).put 1 1).put m k else (l.put 0 24).put m g.bits
  { l with ctxs := l.ctxs.setIfInBounds p (st.update e) }

/-! Encoding (R201, R202) -/

/-- One sample of a lane in one FAB cycle: a run begins, goes on or ends, or the sample is coded in regular mode. A block of
2^J(ri) run samples is coded as soon as it is complete. -/
def YrcGeo.encStep (g : YrcGeo) (lane : Nat) (xs : Array Nat) (l : YrcLane) (i : Nat) : YrcLane :=
  let v := xs.getD i 0
  let (a, b, c, d) := g.neighbours lane xs i
  let run := match l.run with
    | some r => some r
    | none => if d = b && a = c && a = b then some (a, 0) else none
  match run with
  | none => g.regular l i v a b c d
  | some (ra, n) =>
    if v = ra then
      let n := n + 1
      let l := if n = 2 ^ (l.ri / 2) then { l.put 1 1 with ri := min 31 (l.ri + 1), run := some (ra, 0) } else { l with run := some (ra, n) }
      if g.lineLeft lane i = 1 then
        let l := match l.run with | some (_, 0) => l | some _ => l.put 1 1 | none => l
        { l with run := none }
      else l
    else
      let l := (l.put 0 1).put n (l.ri / 2)
      g.regular { l with ri := l.ri - 1, run := none } i v a b c d

/-- Outcome of an encode job (R202). -/
inductive EncOut where
  | coded (payload : List Crumb)
  | limit
  | range
  deriving DecidableEq, Repr

/-- Eight bits, most significant first, to a byte; a last partial byte is padded with 0 bits. -/
def bitsBytes : List Bool → List Byte
  | b7 :: b6 :: b5 :: b4 :: b3 :: b2 :: b1 :: b0 :: t =>
    BitVec.ofNat 8 (128 * b2n b7 + 64 * b2n b6 + 32 * b2n b5 + 16 * b2n b4 + 8 * b2n b3 + 4 * b2n b2 + 2 * b2n b1 + b2n b0) :: bitsBytes t
  | [] => []
  | t => [BitVec.ofNat 8 ((t.zipIdx).foldl (fun n x => n + 2 ^ (7 - x.2) * b2n x.1) 0)]

/-- Bytes to bits, most significant first. -/
def bytesBits (bs : List Byte) : List Bool := bs.flatMap fun b => (List.range 8).map fun i => bitAt b.toNat (7 - i)

/-- The 256 samples of a block. -/
def crumbSamples (c : Crumb) : List Nat := (List.range 256).map fun j => bits c.toNat (16 * j) 16

/-- The cycles of a job from cycle t on: both lanes advance by one sample; the limit row applies before the range row in a
cycle (R202). -/
def YrcGeo.encRun (g : YrcGeo) (limit : Nat) (xs : Array Nat) : Nat → Nat → YrcLane → YrcLane → Except EncOut (YrcLane × YrcLane)
  | 0, _, l0, l1 => .ok (l0, l1)
  | fuel + 1, t, l0, l1 =>
    let i0 := g.laneIx 0 t
    let i1 := g.laneIx 1 t
    let bad (i : Nat) : Bool := decide (2 ^ g.bits ≤ xs.getD i 0)
    let l0 := if bad i0 then l0 else g.encStep 0 xs l0 i0
    let l1 := if bad i1 then l1 else g.encStep 1 xs l1 i1
    if 20 + ceilDiv l0.len 8 + ceilDiv l1.len 8 > limit * 512 then .error .limit
    else if bad i0 || bad i1 then .error .range
    else g.encRun limit xs fuel (t + 1) l0 l1

/-- The header of a stream (R194). -/
def YrcGeo.header (g : YrcGeo) (lane1 format : Nat) : List Byte :=
  beBytes 2 0x5943 ++ [BitVec.ofNat 8 (0x10 + g.layout), BitVec.ofNat 8 (16 * (g.bits - 1) + g.shift)] ++ beBytes 2 g.width ++
    beBytes 2 (g.lin0 % g.width) ++ beBytes 2 (g.lin0 / g.width) ++ beBytes 3 lane1 ++ [BitVec.ofNat 8 format, 0, 0]

/-- Crumbs of bytes, the last one padded with zero bytes. -/
def bytesCrumbs (bs : List Byte) : List Crumb := (chunksOf 512 bs).map bytesCrumb

/-- Encode a chunk of 256 blocks under a geometry (R193, R202). -/
def YrcGeo.encode (g : YrcGeo) (limit format : Nat) (data : List Crumb) : EncOut :=
  match g.encRun limit (data.flatMap crumbSamples).toArray 32768 0 g.start g.start with
  | .error e => e
  | .ok (l0, l1) =>
    let b0 := bitsBytes l0.bits.reverse
    let b1 := bitsBytes l1.bits.reverse
    let crc := crc32c (data.flatMap crumbBytes)
    .coded (bytesCrumbs (g.header (16 + b0.length) format ++ b0 ++ b1 ++ beBytes 4 crc.toNat))

/-! Decoding (R200, R201, R204) -/

/-- n bits, most significant first. -/
def takeBits : Nat → Nat → List Bool → Option (Nat × List Bool)
  | 0, v, bs => some (v, bs)
  | _ + 1, _, [] => none
  | n + 1, v, b :: bs => takeBits n (2 * v + b2n b) bs

/-- Count 0 bits up to the first 1 bit, which is taken, or up to 24 zeros. -/
def countZeros : Nat → Nat → List Bool → Option (Nat × List Bool)
  | 0, n, bs => some (n, bs)
  | _ + 1, _, [] => none
  | _ + 1, n, true :: bs => some (n, bs)
  | f + 1, n, false :: bs => countZeros f (n + 1) bs

/-- get_run of R201: samples of the run value, whether the run ended at the end of the line, the run index, the rest. -/
def getRun : Nat → Nat → Nat → Nat → List Bool → Option (Nat × Bool × Nat × List Bool)
  | 0, _, _, _, _ => none
  | f + 1, n, left, ri, bs =>
    if left = 0 then some (n, true, ri, bs)
    else match bs with
      | [] => none
      | true :: bs =>
        let r := 2 ^ (ri / 2)
        if left ≥ r then getRun f (n + r) (left - r) (min 31 (ri + 1)) bs else some (n + left, true, ri, bs)
      | false :: bs => match takeBits (ri / 2) 0 bs with
        | none => none
        | some (k, bs) => if k ≥ left then none else some (n + k, false, ri - 1, bs)

/-- Decode one sample in regular mode (R200). -/
def YrcGeo.decRegular (g : YrcGeo) (lane : Nat) (xs : Array Nat) (l : YrcLane) (i : Nat) (bs : List Bool) :
    Option (Nat × YrcLane × List Bool) :=
  let (a, b, c, d) := g.neighbours lane xs i
  let (p, sg, st, px) := g.predict l i a b c d
  let k := riceK st.n st.a
  match countZeros 24 0 bs with
  | none => none
  | some (z, bs) =>
    match if z < 24 then takeBits k z bs else takeBits g.bits 0 bs with
    | none => none
    | some (m, bs) =>
      let e : Int := if m % 2 = 0 then (m : Int) / 2 else -(((m : Int) + 1) / 2)
      let v := ((px + sg * e) % (2 : Int) ^ g.bits).toNat
      some (v, { l with ctxs := l.ctxs.setIfInBounds p (st.update e) }, bs)

/-- Decode a lane from its t-th sample on; `fuel` bounds the code words left. -/
def YrcGeo.decLane (g : YrcGeo) (lane : Nat) : Nat → Nat → Array Nat → YrcLane → List Bool → Option (Array Nat × List Bool)
  | 0, _, xs, _, bs => some (xs, bs)
  | fuel + 1, t, xs, l, bs =>
    if t ≥ 32768 then some (xs, bs)
    else
      let one (t : Nat) (xs : Array Nat) (l : YrcLane) (bs : List Bool) : Option (Array Nat × List Bool) :=
        match g.decRegular lane xs l (g.laneIx lane t) bs with
        | none => none
        | some (v, l, bs) => g.decLane lane fuel (t + 1) (xs.setIfInBounds (g.laneIx lane t) v) l bs
      let i := g.laneIx lane t
      let (a, b, c, d) := g.neighbours lane xs i
      if d = b && a = c && a = b then
        match getRun 32769 0 (g.lineLeft lane i) l.ri bs with
        | none => none
        | some (n, eol, ri, bs) =>
          let xs := (List.range n).foldl (fun xs k => xs.setIfInBounds (g.laneIx lane (t + k)) a) xs
          let l := { l with ri := ri }
          if eol then g.decLane lane fuel (t + n) xs l bs else one (t + n) xs l bs
      else one t xs l bs

/-- A byte of a stream. -/
def byteAt (bs : List Byte) (i : Nat) : Nat := (bs.getD i 0).toNat

/-- Big-endian field of a stream. -/
def beAt (bs : List Byte) (i n : Nat) : Nat := ((bs.drop i).take n).foldl (fun v b => 256 * v + b.toNat) 0

/-- Two bytes of a sample, little-endian, for 256 samples: one block. -/
def samplesCrumb (l : List Nat) : Crumb := BitVec.ofNat 4096 (l.foldr (fun v n => v + 65536 * n) 0)

/-- The geometry that a stream's header gives, unless the header is malformed (R204). -/
def yrcHeader (bs : List Byte) (format : Nat) : Option (YrcGeo × Nat) :=
  let layout := byteAt bs 2 % 16
  let bm1 := byteAt bs 3 / 16
  let thr := byteAt bs 3 % 16
  let w := beAt bs 4 2
  let x0 := beAt bs 6 2
  let y0 := beAt bs 8 2
  let g : YrcGeo := { layout := layout, bits := bm1 + 1, shift := thr, width := w, lin0 := y0 * w + x0 }
  if beAt bs 0 2 ≠ 0x5943 || byteAt bs 2 / 16 ≠ 1 || layout > 1 || bm1 < 7 || thr > 12 || byteAt bs 14 ≠ 0 || byteAt bs 15 ≠ 0 ||
      byteAt bs 13 ≠ format || x0 ≥ w || (y0 * w + x0) % 65536 ≠ 0 then none
  else some (g, beAt bs 10 3)

/-- Decode a stored payload to its 256 blocks; none for a malformed stream or a check value that differs (R204, R205). -/
def yrcDecode (format : Nat) (payload : List Crumb) : Option (List Crumb) :=
  let bs := payload.flatMap crumbBytes
  match yrcHeader bs format with
  | none => none
  | some (g, lane1) =>
    if lane1 < 16 || lane1 > bs.length then none
    else match g.decLane 0 32769 0 (List.replicate 65536 0).toArray g.start (bytesBits ((bs.drop 16).take (lane1 - 16))) with
      | none => none
      | some (xs, r0) =>
        if r0.length ≥ 8 || r0.any id then none
        else match g.decLane 1 32769 0 xs g.start (bytesBits (bs.drop lane1)) with
          | none => none
          | some (xs, r1) =>
            let pad := r1.take (r1.length % 8)
            let rest := bs.drop (bs.length - r1.length / 8)
            let data := (chunksOf 256 xs.toList).map samplesCrumb
            if pad.any id || rest.length < 4 || (rest.drop 4).any (· != 0) then none
            else if beAt rest 0 4 ≠ (crc32c (data.flatMap crumbBytes)).toNat then none
            else some data

/-! The record that Set Features transfers (R186, R187) -/

/-- The record of 64 bytes. -/
def formatOfBytes (bs : List Byte) : FormatRec :=
  let w0 := fieldAt bs 0 4
  { valid := bitAt w0 0, layout := BitVec.ofNat 4 (bits w0 4 4), bits := BitVec.ofNat 5 (bits w0 8 5), packing := BitVec.ofNat 8 (bits w0 16 8)
    thr := BitVec.ofNat 4 (bits w0 24 4), width := BitVec.ofNat 16 (fieldAt bs 4 2), height := BitVec.ofNat 16 (fieldAt bs 6 2)
    nsid := BitVec.ofNat 32 (fieldAt bs 8 4), base := BitVec.ofNat 64 (fieldAt bs 16 8), chunks := BitVec.ofNat 64 (fieldAt bs 24 8)
    limit := BitVec.ofNat 8 (fieldAt bs 32 1), written := true }

/-- A reserved field of the 64 bytes is not 0. -/
def formatReserved (bs : List Byte) : Bool :=
  let w0 := fieldAt bs 0 4
  decide (bits w0 1 3 ≠ 0) || decide (bits w0 13 3 ≠ 0) || decide (bits w0 28 4 ≠ 0) || decide (fieldAt bs 12 4 ≠ 0) ||
    decide (fieldAt bs 33 3 ≠ 0) || decide (fieldAt bs 36 4 ≠ 0) || decide (fieldAt bs 52 12 ≠ 0)

/-- Sample width of a source packing: 1, 2 and 3 pack 10, 12 and 14 bits (R169, R187). -/
def packingBits (p : Nat) : Nat := if p = 1 then 10 else if p = 2 then 12 else if p = 3 then 14 else 0

/-- R187: a record with VALID 1 for an index is accepted. -/
def State.formatOk (s : State) (ix : Nat) (f : FormatRec) (rsv : Bool) : Bool :=
  let w := f.width.toNat
  match s.ns? f.nsid.toNat with
  | none => false
  | some n =>
    let lba := lbaBytes n.flbas
    let end_ := f.base.toNat * lba + f.chunks.toNat * 131072
    let c0 := f.firstChunk lba
    let overlap := s.coder.formats.any fun e =>
      e.1 != ix && e.2.valid && e.2.nsid == f.nsid && decide (c0 < e.2.firstChunk lba + e.2.chunks.toNat) &&
        decide (e.2.firstChunk lba < c0 + f.chunks.toNat)
    !rsv && n.attached && decide (f.layout.toNat ≤ 1) && decide (8 ≤ f.bits.toNat) && decide (f.bits.toNat ≤ 16) && decide (f.packing.toNat ≤ 3) &&
      decide (packingBits f.packing.toNat ≤ f.bits.toNat) && decide (f.thr.toNat ≠ 13) && decide (f.thr.toNat ≠ 14) &&
      decide (2 ≤ w) && !(decide (f.layout.toNat = 1) && decide (w % 2 = 1)) && decide (f.height.toNat ≠ 0) &&
      decide (f.base.toNat * lba % 131072 = 0) && decide (f.stride ≤ f.chunks.toNat) && decide (end_ ≤ n.nsze * lba) && !overlap &&
      (decide (f.limit.toNat = 0) || decide (64 ≤ f.limit.toNat))

/-- The fields of a record as Get Features returns it. -/
def FormatRec.fields (f : FormatRec) (c : FormatCnt) : List (Nat × Nat × Nat) :=
  [(0, 4, b2n f.valid + 16 * f.layout.toNat + 2 ^ 8 * f.bits.toNat + 2 ^ 16 * f.packing.toNat + 2 ^ 24 * f.thr.toNat),
   (4, 2, f.width.toNat), (6, 2, f.height.toNat), (8, 4, f.nsid.toNat), (0x10, 8, f.base.toNat), (0x18, 8, f.chunks.toNat),
   (0x20, 1, f.limit.toNat), (0x28, 4, c.coded.toNat), (0x2C, 4, c.rawLimit.toNat), (0x30, 4, c.rawRange.toNat)]

/-- The coded limit of a format in crumbs. -/
def State.codedLimit (s : State) (f : FormatRec) : Nat := if f.limit = 0 then s.key2 0x0302 else f.limit.toNat

end Sys2Proof.Machine
end

