-- ==== Sys2Proof/Machine/Versions.lean ====
section
/-!
DEFINITION. The overlap tracker at work: chunk versions that are joined, sealed and merged, reads that start once earlier
writes have settled, and what follows when a version takes effect or fails (R73 to R86, R95, R352).
-/
namespace Sys2Proof.Machine
open Sys2Proof

/-! The tracker -/

/-- The 512-byte blocks of a mask. -/
def blockList (m : BitVec 256) : List Nat := (List.range 256).filter fun b => bitAt m.toNat b

/-- Every block that an entry of a write touches has arrived in the buffer pool. -/
def ChunkEnt.full (e : ChunkEnt) : Bool := (blockList e.blks).all fun b => thas e.data b

/-- An entry is on a chunk. -/
def ChunkEnt.on (e : ChunkEnt) (nsid lcn : Nat) : Bool := e.nsid == nsid && e.lcn == lcn

/-- An entry of a write-class command that has neither taken effect nor failed. -/
def Ctx.writesTo (c : Ctx) (nsid lcn : Nat) : Bool :=
  decide (c.cls = .write) && c.ents.any fun e => e.on nsid lcn && decide (e.res = .pending)

/-- A read-class command that still needs a chunk: step 3 of R18 not done (R76). -/
def Ctx.needs (c : Ctx) (nsid lcn : Nat) : Bool :=
  decide (c.cls = .read) && !c.aborted && c.ents.any fun e => e.on nsid lcn && decide (e.res = .pending) && !e.decoded

/-- Some write-class command fetched earlier is still to settle on a chunk (R74, R75). -/
def State.earlierWrite (s : State) (st nsid lcn : Nat) : Bool := s.host.ctxs.any fun c => decide (c.stamp < st) && c.writesTo nsid lcn

/-- Some read-class command fetched earlier still needs a chunk (R76). -/
def State.earlierRead (s : State) (st nsid lcn : Nat) : Bool := s.host.ctxs.any fun c => decide (c.stamp < st) && c.needs nsid lcn

/-- An entry that takes its effect through the write path: of a Write, Peel or push command, or of a Write Zeroes that covers
part of a unit in the chunk (R142). -/
def Ctx.viaVersion (c : Ctx) (e : ChunkEnt) : Bool :=
  decide (c.cls = .write) && (decide (c.opcode.toNat = 1) || (decide (c.opcode.toNat = 8) && (e.lone || decide (unitsOf e.blks ≠ wholeUnits e.blks))))

/-- Change the entry of a context on a chunk. -/
def State.modEnt (s : State) (st nsid lcn : Nat) (f : ChunkEnt → ChunkEnt) : State :=
  s.modCtx st fun c => { c with ents := c.ents.map fun e => if e.on nsid lcn then f e else e }

/-- The version of a chunk that has neither taken effect nor failed: there is at most one (R80). -/
def State.versionOf (s : State) (nsid lcn : Nat) : Option Version := s.host.versions.find? fun v => v.nsid == nsid && v.lcn == lcn

/-- A version by identifier. -/
def State.version? (s : State) (id : Nat) : Option Version := s.host.versions.find? fun v => v.id == id

/-- Change a version. -/
def State.modVersion (s : State) (id : Nat) (f : Version → Version) : State :=
  s.modHost fun h => { h with versions := h.versions.map fun v => if v.id = id then f v else v }

/-- Remove a version. -/
def State.dropVersion (s : State) (id : Nat) : State := s.modHost fun h => { h with versions := h.versions.filter fun v => v.id != id }

/-! Joining and opening (R80) -/

/-- Attach an entry of a write to a version: it joins the open one, opens the next one, or goes on waiting. -/
def State.attach (s : State) (c : Ctx) (e : ChunkEnt) : State :=
  if s.writesHeld || !c.viaVersion e || e.vid.isSome || e.res ≠ .pending || s.behindBarrier c then s
  else match s.versionOf e.nsid e.lcn with
    | some v =>
      let others := s.host.ctxs.any fun x => decide (x.stamp < c.stamp) && x.ents.any fun y => y.on e.nsid e.lcn &&
        decide (x.cls = .write) && decide (y.res = .pending) && y.vid != some v.id
      if v.phase = .opened && !v.lone && c.opcode.toNat = 1 && !others then
        (s.modVersion v.id fun v => { v with joiners := v.joiners ++ [c.stamp], lastJoin := s.now }).modEnt c.stamp e.nsid e.lcn
          fun y => { y with vid := some v.id }
      else s
    | none =>
      if s.earlierWrite c.stamp e.nsid e.lcn then s
      else
        let id := s.host.nextVid
        let v : Version := { id := id, nsid := e.nsid, lcn := e.lcn, joiners := [c.stamp], lone := decide (c.opcode.toNat = 8), lastJoin := s.now }
        (s.modHost fun h => { h with versions := h.versions ++ [v], nextVid := id + 1 }).modEnt c.stamp e.nsid e.lcn
          fun y => { y with vid := some id }

/-! Completion of write-class commands (R85) -/

/-- Status of a command from its chunks: that of the first chunk that failed, else success. -/
def Ctx.outcome (c : Ctx) : Nat :=
  match c.ents.find? fun e => match e.res with | .failed _ => true | _ => false with
  | some e => match e.res with | .failed st => st | _ => 0
  | none => 0

/-- Host bytes of a command. -/
def Ctx.hostBytes (c : Ctx) : Nat := 512 * c.ents.foldl (fun n e => n + (blockList e.blks).length) 0

/-- Every write-class command whose chunks have all taken effect or failed posts its completion (R85). -/
def State.finishWrites (s : State) : State :=
  s.host.ctxs.foldl (fun s c =>
    if c.cls = .write && !c.ents.isEmpty && c.ents.all (fun e => decide (e.res ≠ .pending)) then
      let st := c.outcome
      let s := if c.opcode.toNat = 1 && st = 0 then
        s.modNvme fun n => { n with dataWritten := n.dataWritten + c.hostBytes, cmdsWritten := n.cmdsWritten + 1 } else s
      s.complete c.stamp st 0
    else s) s

/-! The Rack tier as commands meet it (R351, R352) -/

/-- Spin-up is allowed and the supply is there, not above 18.5 V (R351, R669). -/
def State.maySpin (s : State) : Bool := s.rack.spinAllowed && decide (10800 ≤ s.pwr.vinMain) && !s.pins.overvolt

/-- The Rack temperature lies within the window of key 0x0413 that starts at a byte offset: 0 writes, 4 reads (R373). -/
def State.rackWindow (s : State) (off : Nat) : Bool :=
  decide (8 * signed 16 (s.keyN 0x0413 off 2) ≤ s.chan.rackTemp) && decide (s.chan.rackTemp ≤ 8 * signed 16 (s.keyN 0x0413 (off + 2) 2))

/-- A demand for spin-up: from STOPPED or REDUCED it starts, in SPINDOWN it follows (R351, R352, R354). -/
def State.demandSpin (s : State) : State :=
  match s.rack.spin with
  | .stopped => if s.maySpin && !s.rack.retryWait then
      (s.modRack fun r => { r with spin := .spinup, spinupAt := s.now, toReduced := false }).modServo fun v =>
        { v with spindle := { v.spindle with state := .sense, attempts := 0, stageAt := s.now } } else s
  | .reduced => if s.maySpin then
      (s.modRack fun r => { r with spin := .spinup, spinupAt := s.now, toReduced := false }).modServo fun v =>
        { v with spindle := { v.spindle with state := .bemf, attempts := 0, stageAt := s.now } } else s
  | .spindown => if s.maySpin then s.modRack fun r => { r with demand := true } else s
  | _ => s

/-- What a chunk on the Rack tier meets: served, waiting, or vendor status 0xC1 (R352). `merge`: a write that must merge waits in
LOWV. -/
inductive RackAccess where
  | serve
  | wait
  | refuse
  deriving DecidableEq, Repr

/-- R352. `act` is the actuator that holds the chunk. Outside the read window every read is refused as on a fenced actuator (R343, R373). -/
def State.rackAccess (s : State) (act : Nat) (merge : Bool) : RackAccess :=
  if !s.rackWindow 4 then .refuse
  else match s.rack.spin with
  | .ready => if bitAt s.place.fenceAct.toNat act then .refuse else .serve
  | .spinup => .wait
  | .stopped => if s.rack.spinAllowed then .wait else .refuse
  | .reduced => if s.rack.spinAllowed then .wait else .refuse
  | .spindown => if s.rack.spinAllowed then .wait else .refuse
  | .lowv => if merge then .wait else .refuse
  | .failed => .refuse
  | .absent => .refuse

/-- Actuator of a Rack span number (R106). -/
def rackAct (span : Nat) : Nat := span / 2 ^ 23

/-- Give back whatever reservation a version holds. -/
def State.releaseVersion (s : State) (v : Version) : State :=
  if ((s.span v.span).batches.getD v.batch {}).reserved.contains (2 * v.id) then s.unreserve v.span v.batch (2 * v.id) else s

/-- The joiners' entries get their result and the version is gone. -/
def State.closeVersion (s : State) (v : Version) (res : ChunkRes) : State :=
  let s := v.joiners.foldl (fun s st => s.modEnt st v.nsid v.lcn fun e => if e.vid = some v.id then { e with res := res } else e) s
  (s.dropVersion v.id).finishWrites

/-! Sealing and merging (R81, R84) -/

/-- The entries that join a version, in stamp order. -/
def State.joinerEnts (s : State) (v : Version) : List ChunkEnt :=
  v.joiners.filterMap fun st => match s.ctx? st with
    | some c => c.ents.find? fun e => e.on v.nsid v.lcn && e.vid == some v.id
    | none => none

/-- All data of a version's joiners has arrived. -/
def State.joinersFull (s : State) (v : Version) : Bool := (s.joinerEnts v).all ChunkEnt.full

/-- The blocks that its joiners supply. -/
def State.supplied (s : State) (v : Version) : BitVec 256 := (s.joinerEnts v).foldl (fun m e => m ||| e.blks) 0

/-- Seal an open version with the stamp that seals it: it takes the format bound at that stamp, if a coder engine is not fenced
(R81, R190). -/
def State.seal (s : State) (id st : Nat) : State :=
  s.modVersion id fun v =>
    if v.phase = .opened then
      { v with phase := .sealed, sealStamp := st
               fmt := if s.place.fenceCoder = BitVec.allOnes 16 then none else s.formatOf v.nsid v.lcn }
    else v

/-- Seal every open version of the chunks that a read-class or barrier command touches (R81 event 3). -/
def State.sealFor (s : State) (c : Ctx) : State :=
  s.host.versions.foldl (fun s v =>
    if c.bars v.nsid v.lcn || (decide (c.cls = .read) && c.ents.any fun e => e.on v.nsid v.lcn) then s.seal v.id c.stamp else s) s

/-- The blocks of units in a mask that a descriptor gives: stored data, or zeros (R18, R109, R206). -/
def State.readBlocks (s : State) (d : Desc) (units : Nat) : Tab Crumb :=
  let us := s.unitStates d
  let unknown : Crumb := Config.freeValue 4096 s.free
  let whole : List Crumb := match (us.filterMap UState.loc?).find? (·.coded) with
    | some l => match s.copyAt l with
      | some c => (yrcDecode d.format.toNat c.payload).getD []
      | none => []
    | none => []
  (List.range 32).flatMap fun u =>
    if !bitAt units u then []
    else (List.range 8).map fun k =>
      (8 * u + k, match us.getD u .dealloc with
        | .mapped l =>
          if l.coded then whole.getD (8 * u + k) unknown
          else match s.copyAt l with
            | some c => c.payload.getD (l.offset - c.loc.offset + k) unknown
            | none => unknown
        | _ => 0)

/-- Units of a mask in a state that the test accepts. -/
def unitsWhere (us : List UState) (units : Nat) (p : UState → Bool) : Nat :=
  listMask ((List.range 32).filter fun u => bitAt units u && p (us.getD u .dealloc))

/-- A new read job for units of a chunk. -/
def State.addJob (s : State) (j : ReadJob) : State :=
  s.modFlash fun f => { f with jobs := f.jobs ++ [{ j with id := f.nextJob }], nextJob := f.nextJob + 1 }

/-- A sealed version whose data is all there goes on: units that no joiner wrote are merged from the mapped version, by a read
where they are stored, and are marked unreadable where they already are (R81, R84). -/
def State.mergeVersion (s : State) (v : Version) : State :=
  if v.phase ≠ .sealed || !s.joinersFull v then s
  else
    let missing := unitsOf (~~~ (s.supplied v))
    if missing = 0 then s.modVersion v.id fun v => { v with phase := .ready }
    else if !s.resident v.nsid v.lcn then s
    else
      let d := s.desc v.nsid v.lcn
      let us := s.unitStates d
      let stored := unitsWhere us missing fun u => u.loc?.isSome
      let lost := unitsWhere us missing fun u => u == .unreadable
      if stored = 0 then s.modVersion v.id fun v => { v with phase := .ready, unread := BitVec.ofNat 32 lost }
      else
        let l := s.payloadLoc d
        let job : ReadJob := { nsid := v.nsid, lcn := v.lcn, loc := l, units := BitVec.ofNat 32 stored, flow := 9, ref := v.id }
        let go (s : State) (p : ReadPhase) : State :=
          (s.addJob { job with phase := p }).modVersion v.id fun v => { v with phase := .merging, unread := BitVec.ofNat 32 lost }
        if l.tier = .rack then
          match s.rackAccess (rackAct l.span) true with
          | .serve => go s .rackWait
          | .wait => go s.demandSpin .rackWait
          | .refuse => (s.releaseVersion v).closeVersion v (.failed (vendor 0xC1))
        else go s .fetch

/-- An open version with all 32 units present is sealed (R81 event 1). -/
def State.sealIfWhole (s : State) (v : Version) : State :=
  if v.phase = .opened && s.supplied v = BitVec.allOnes 256 && s.joinersFull v then s.seal v.id (v.joiners.getLastD 0) else s

/-! Reads (R18, R74, R352) -/

/-- A read of a chunk begins: it counts for classification once, looks the map up, and either has its units at once or starts
the read path (R18, R35, R74). -/
def State.startRead (s : State) (c : Ctx) (e : ChunkEnt) : State :=
  if c.cls ≠ .read || c.opcode.toNat = 0x8A || !c.isIo || e.started || e.res ≠ .pending || s.behindBarrier c || !s.resident e.nsid e.lcn ||
      s.earlierWrite c.stamp e.nsid e.lcn then s
  else
    let d := s.decay (s.desc e.nsid e.lcn)
    let d := s.classify { d with rc := satInc d.rc }
    let s := (s.putDesc e.nsid e.lcn d).modEnt c.stamp e.nsid e.lcn fun y => { y with started := true }
    let units := if c.opcode.toNat = 0x86 then 2 ^ 32 - 1 else unitsOf e.blks
    let us := s.unitStates d
    if unitsWhere us units (· == .unreadable) ≠ 0 then
      s.modEnt c.stamp e.nsid e.lcn fun y => { y with decoded := true, res := .failed scUnrecovered }
    else
      let stored := unitsWhere us units fun u => u.loc?.isSome
      if stored = 0 then
        s.modEnt c.stamp e.nsid e.lcn fun y =>
          if c.opcode.toNat = 0x86 then { y with decoded := true, res := .served, rawKind := 0, rawZ := BitVec.allOnes 32 }
          else { y with decoded := true, res := .served, data := s.readBlocks d units }
      else
        let l := s.payloadLoc d
        let job : ReadJob := { stamp := c.stamp, nsid := e.nsid, lcn := e.lcn, loc := l, units := BitVec.ofNat 32 stored, phase := .fetch }
        if l.tier = .rack then
          match s.rackAccess (rackAct l.span) false with
          | .serve => s.addJob { job with phase := .rackWait }
          | .wait => (s.addJob { job with phase := .rackWait }).demandSpin
          | .refuse => s.modEnt c.stamp e.nsid e.lcn fun y => { y with decoded := true, res := .failed (vendor 0xC1) }
        else s.addJob job

/-- Everything that can go on does, in stamp order: writes attach to versions, whole versions are sealed, sealed ones merge, reads
start. -/
def State.settleOnce (s : State) : State :=
  let s := s.host.ctxs.foldl (fun s c => c.ents.foldl (fun s e => s.attach c e) s) s
  let s := s.host.versions.foldl (fun s v => s.sealIfWhole v) s
  let s := s.host.versions.foldl (fun s v => s.mergeVersion v) s
  s.host.ctxs.foldl (fun s c => c.ents.foldl (fun s e => s.startRead c e) s) s

/-- Twice, for what a version refused by the Rack tier releases. -/
def State.settle (s : State) : State := s.settleOnce.settleOnce

/-! A version takes effect or fails (R13, R75, R82, R84) -/

/-- The joiners' entries get their result, the version is gone, and what waited goes on. -/
def State.endVersion (s : State) (v : Version) (res : ChunkRes) : State :=
  (s.closeVersion v res).settle

/-- A chunk fails: the map keeps its previous contents and every joiner's command has the status (R13, R82). -/
def State.failVersion (s : State) (v : Version) (status : Nat) : State := (s.releaseVersion v).endVersion v (.failed status)

/-- Where a placed version lies. -/
def Version.loc (v : Version) : Loc := { tier := v.tier, span := v.span, offset := v.offset, crumbs := v.crumbs, coded := v.coded }

/-- A programmed version takes effect (R35, R75, R82): descriptor and counters; units that the merge could not read are marked, and
the version then waits for the UNREADABLE entry (R84). -/
def State.effectVersion (s : State) (v : Version) : State :=
  let d := s.desc v.nsid v.lcn
  let est := s.est (v.streams.getLastD (4096 + v.nsid))
  let i := s.age d
  let keys := v.streams.foldl (fun l k => if l.contains k then l else l ++ [k]) []
  let d' := { s.hostWriteFields d est with
    state := .mapped, loc := v.loc, split := false, sub := 0, kept := false, ddur := false
    format := if v.coded then BitVec.ofNat 8 (v.fmt.getD 0) else 0 }
  let s := if d.feeds then keys.foldl (fun s k => s.feedStream k i) s else s
  let s := s.modPlace fun p => { p with
    hostLogical := p.hostLogical + BitVec.ofNat 64 v.logical
    hostStored := p.hostStored + BitVec.ofNat 64 (512 * v.crumbs)
    dbBytes := if v.tier = .bake then p.dbBytes + BitVec.ofNat 64 (512 * v.crumbs) else p.dbBytes }
  let oldWsn := ((s.copyAt (s.payloadLoc d)).map (·.wsn)).getD 0
  let s := (if d.split then s.subReturn d.sub else s).putDesc v.nsid v.lcn d'
  if v.unread = 0 then s.endVersion v .effected
  else
    let (w, s) := s.loseUnits v.nsid v.lcn v.unread.toNat 9 v.loc d.loc.tier oldWsn
    s.modVersion v.id fun v => { v with phase := .journalling, jwait := some w }

/-- A version whose pages are programmed is mapped unless an earlier read still needs the chunk (R76) or the change must wait for a
spilled page (R131). -/
def State.tryEffect (s : State) (v : Version) : State :=
  if s.earlierRead (v.joiners.headD 0) v.nsid v.lcn || s.changeWaits v.nsid v.lcn then s.modVersion v.id fun v => { v with phase := .parked }
  else s.effectVersion v

/-- Versions that waited under R76 take effect once they may. -/
def State.effectParked (s : State) : State :=
  s.host.versions.foldl (fun s v => if v.phase = .parked then s.tryEffect v else s) s

/-- A version whose whole payload is programmed with good status is on media, with its record (R17, R113). -/
def State.storeVersion (s : State) (v : Version) : State :=
  let key := ((s.ns? v.nsid).getD {}).keyGen
  (s.modMedia fun m => { m with
    copies := m.copies ++ [{ wsn := v.wsn, nsid := v.nsid, lcn := v.lcn, key := key, loc := v.loc, payload := v.payload }]
    recs := m.recs ++ [{ wsn := v.wsn, nsid := v.nsid, lcn := v.lcn, loc := v.loc }] }).tryEffect v

/-- The 256 blocks of a version: each joiner's data over the merged base, in stamp order (R80, R81). -/
def State.versionData (s : State) (v : Version) : List Crumb :=
  let es := s.joinerEnts v
  (List.range 256).map fun b =>
    match (es.filter fun e => thas e.data b).getLast? with
    | some e => tgetD e.data b 0
    | none => tgetD v.base b 0

/-! Work that is given up (R88, R91) -/

/-- Codewords that cover a location: 8 crumbs each (R279). -/
def Loc.codewords (l : Loc) : Nat := if l.crumbs = 0 then 0 else (l.offset + l.crumbs - 1) / 8 - l.offset / 8 + 1

/-- The engine on which a read job waits is rid of it. -/
def State.unqueueJob (s : State) (j : ReadJob) : State :=
  match j.phase with
  | .decode => s.modPlace fun p => if j.step = 3 then { p with softQ := p.softQ.pop j.engine j.loc.codewords } else { p with hardQ := p.hardQ.pop j.engine j.loc.codewords }
  | .cipher => s.modPlace fun p => { p with cipherQ := p.cipherQ.pop j.engine (512 * j.loc.crumbs) }
  | .coder => s.modPlace fun p => { p with coderQ := p.coderQ.pop j.engine 131072 }
  | _ => s

/-- Read jobs whose results would be discarded are gone, with their work (R88, R91). -/
def State.cancelReads (s : State) (gone : ReadJob → Bool) : State :=
  ((s.flash.jobs.filter gone).foldl (fun s j => s.unqueueJob j) s).modFlash fun f => { f with jobs := f.jobs.filter fun j => !gone j }

/-- The engine on which a version waits is rid of it. -/
def State.unqueueVersion (s : State) (v : Version) : State :=
  match v.phase with
  | .encoding => s.modPlace fun p => { p with coderQ := p.coderQ.pop v.engine 131072 }
  | .ciphering => s.modPlace fun p => { p with cipherQ := p.cipherQ.pop v.engine (512 * v.crumbs) }
  | _ => s

/-! Abort of a write before its chunks start programming (R91) -/

/-- Drop a command from the versions that it joins and that have not started programming: a version without joiners is gone, one with others keeps their units. -/
def State.leaveVersions (s : State) (st : Nat) : State :=
  s.host.versions.foldl (fun s v =>
    if !v.joiners.contains st || v.wsn ≠ 0 then s
    else
      let s := s.unqueueVersion v
      let js := v.joiners.filter (· != st)
      if js.isEmpty then (s.releaseVersion v).dropVersion v.id
      else (s.releaseVersion v).modVersion v.id fun v =>
        { v with joiners := js, base := [], unread := 0, phase := if v.phase = .opened then .opened else .sealed }) s

/-- Some chunk of a command has started programming: its payload has taken its crumbs (R90). -/
def State.startedProgramming (s : State) (c : Ctx) : Bool :=
  c.ents.any fun e => e.res == .effected ||
    match e.vid with
    | some id => match s.version? id with
      | some v => decide (v.wsn ≠ 0)
      | none => false
    | none => false

end Sys2Proof.Machine
end

