-- ==== Sys2Proof/Machine/FlashOps.lean ====
section
/-!
DEFINITION. What flash media management does on the way: placing payloads, retired blocks and failed dies, read counts and refresh
flags, closing and releasing spans, read-only mode (R40, R275 to R282, R296, R300 to R321).
-/
namespace Sys2Proof.Machine
open Sys2Proof

/-- An event of a group that R606 gives no identifier: its tag is a free value (assumption log 4). -/
def State.noteOther (s : State) (group kind index : Nat) : State :=
  let (a, s) := s.fresh 64
  let (b, s) := s.fresh 64
  let (c, s) := s.fresh 64
  let (d, s) := s.fresh 64
  s.noteTag group kind index [a.toNat, b.toNat, c.toNat, d.toNat]

/-- No new program or erase is issued: the safe state is in force, or the power-loss sequence runs (R261, R295, R585). -/
def State.mediaStopped (s : State) : Bool := s.safeState || s.pwr.pl.running

/-- Background flows do not take a step: the media are stopped, or the power state pauses them (R622, R623). -/
def State.flowsPaused (s : State) : Bool := s.mediaStopped || decide (3 ≤ s.pwr.ps)

/-! Placing payloads (R40, R116) -/

/-- A payload that is ready takes its crumbs: in the batch that holds its reservation, else in the next batch of its slot's open
span. Its first placing gives it its WSN; a repeat keeps it (R40, R116, R118). It waits where no erased span is available. -/
def State.placeVersion (s : State) (id : Nat) : State :=
  match s.version? id with
  | none => s
  | some v =>
    if v.phase ≠ .waiting || v.jwait.isSome then s
    else
      let held := ((s.span v.span).batches.getD v.batch {}).reserved.contains (2 * id)
      let (w, s1) := if v.wsn = 0 then s.nextWsn else (v.wsn, s)
      let put (s : State) (n b : Nat) (r : Nat × State) : State :=
        let ks := if v.wsn = 0 then (v.joiners.filterMap s.ctx?).map s.streamOf else v.streams
        let bytes := if v.wsn = 0 then 512 * ((s.joinerEnts v).foldl (fun n e => n + (blockList e.blks).length) 0) else v.logical
        r.2.modVersion id fun v =>
          { v with wsn := w, span := n, batch := b, offset := r.1, phase := .placed, placedAt := s.now, streams := ks, logical := bytes }
      let again (s0 : State) : State :=
        match s0.reserveIn v.tier v.slot (2 * id) with
        | none => s.modFlash fun f => { f with stalled := if f.stalled.contains id then f.stalled else f.stalled ++ [id] }
        | some (n, b, s2) => match s2.takeIn n b (2 * id) v.crumbs w with
          | some r => put s n b r
          | none => s
      if held then
        match s1.takeIn v.span v.batch (2 * id) v.crumbs w with
        | some r => put s v.span v.batch r
        | none => again (s1.unreserve v.span v.batch (2 * id))
      else again s1

/-- Payloads that wait for crumbs try again, in order of readiness. -/
def State.placeWaiting (s : State) : State :=
  (s.host.versions.filter fun v => decide (v.phase = .waiting)).foldl (fun s v => s.placeVersion v.id) (s.modFlash fun f => { f with stalled := [] })

/-- A copy that has been read takes its crumbs at its target, with a new WSN (R21, R40). -/
def State.placeCopy (s : State) (c : CopyStep) : State :=
  let id := 2 * c.id + 1
  let tier : Tier := if c.kind = .keep then .proof else if c.kind = .fold then .bake else c.src.tier
  match s.reserveIn tier c.slot id with
  | none => s
  | some (n, b, s) =>
    let (w, s1) := s.nextWsn
    match s1.takeIn n b id c.payload.length w with
    | none => s.unreserve n b id
    | some (off, s) =>
      s.modPlace fun p => { p with copies := p.copies.map fun x =>
        if x.id = c.id then { x with dst := { c.src with tier := tier, span := n, offset := off, crumbs := c.payload.length }, batch := b, wsn := w, phase := .programming, placedAt := s.now }
        else x }

/-! Failures of blocks and dies (R317, R318, R319, R321) -/

/-- A data member page-group of a batch fails: host chunks in it go back to step 5 of R14 on another batch once the BLOCK_RETIRE
entry `w` is durable, copy steps are redone from their source. -/
def State.redoGroup (s : State) (n b i : Nat) (w : Option Nat) : State :=
  let sp := s.span n
  let inGroup (span batch off crumbs : Nat) : Bool := span == n && batch == b && (s.groupsOf sp off crumbs).contains i
  let s := s.modBatch n b fun x => { x with bad := if x.bad.contains i then x.bad else x.bad ++ [i] }
  let s := s.modHost fun h => { h with
    versions := h.versions.map fun v =>
      if v.phase = .placed && inGroup v.span v.batch v.offset v.crumbs then { v with phase := .waiting, placedBad := v.placedBad + 1, jwait := w } else v }
  s.modPlace fun p => { p with
    copies := p.copies.map fun c =>
      if (c.phase = .programming || c.phase = .verifying) && inGroup c.dst.span c.batch c.dst.offset c.payload.length then { c with phase := .reading, wsn := 0 } else c }

/-- The fence table of dies and heads, as a journal entry (R121, R318, R382). -/
def State.journalFences (s : State) : State := s.journal 1 0 (.side (.fences s.place.fencedDies s.place.fenceHead))

/-- Flag every span with a member on a die (R319). -/
def State.flagRebuild (s : State) (die : Nat) : State :=
  s.modFlash fun f => { f with spans := f.spans.map fun e => if e.2.members.any (·.1 == die) then (e.1, { e.2 with rebuildDue := true }) else e }

/-- The unprogrammed groups of open batches on a die are redone elsewhere (R321). -/
def State.redoDie (s : State) (die : Nat) : State :=
  s.flash.spans.foldl (fun s e =>
    if e.2.phase ≠ .opened then s
    else
      let w := e.2.members.length
      (e.2.batches.zipIdx).foldl (fun s (bt, b) =>
        (List.range (w - 1)).foldl (fun s i =>
          if ((e.2.members.getD (memberPos w b i) (0, 0)).1 == die) && !bt.prog.contains i && !bt.bad.contains i then s.redoGroup e.1 b i none else s)
          (if bt.prot = .opened && (e.2.members.getD (b % w) (0, 0)).1 = die then s.modBatch e.1 b fun x => { x with prot := .unprotected } else s)) s) s

/-- Declare a die failed (R318): permanent fence, journalled, contained fault, critical warning bit 2. -/
def State.dieFailed (s : State) (die : Nat) : State :=
  if (s.die die).failed then s
  else
    let s := s.modFlashIf fun f => { f with dies := tmod f.dies die {} fun d => { d with failed := true, op := none } }
    let s := s.modPlace fun p => { p with fencedDies := if p.fencedDies.contains die then p.fencedDies else p.fencedDies ++ [die] }
    ((((s.journalFences).fault (0x080 + die / 32)).warnBit 2).flagRebuild die).redoDie die

/-- Percentage Used: mean wear of the blocks not retired against the dense limit (R303). -/
def State.percentUsed (s : State) : Nat :=
  let total := (s.flashIf.dies.filter (·.2.present)).length * s.flashIf.geo.blocks
  let retired := (s.flash.blocks.filter (·.2.retired)).length
  let wear := s.flash.blocks.foldl (fun n e => if e.2.retired then n else n + e.2.wear) 0
  if s.denseLimit = 0 || total - retired = 0 then 0 else min 255 (wear * 100 / ((total - retired) * s.denseLimit))

/-- Available Spare: the unused share of all reserves, in percent (R303). -/
def State.availableSpare (s : State) : Nat :=
  let total := (s.flashIf.dies.filter (·.2.present)).length * s.reserveBlocks
  let used := (s.flash.blocks.filter fun e => decide (s.spanIndices ≤ e.1 % 2 ^ 22) && e.2.retired).length +
    (s.flash.blocks.filter fun e => match e.2.repl with | some k => !(s.block (e.1 / 2 ^ 22) k).retired | none => false).length
  if total = 0 then 100 else (total - used) * 100 / total

/-- What follows from wear and spare: critical warning bit 0, and the early warnings of the device (R514, R595). -/
def State.spareUpdate (s : State) : State :=
  let sp := s.availableSpare
  let s := if sp < 10 then s.warnBit 0 else s.clearWarnBit 0
  let s := if sp ≤ 20 then s.healthWarn 7 0 7 sp 20 else s
  if s.percentUsed ≥ 80 then s.healthWarn 7 0 6 s.percentUsed 80 else s

/-- Retire a block of a die (R121, R275): BLOCK_RETIRE is formed, its WSN answered; too many retired blocks fail the die (R318). -/
def State.retireBlock (s : State) (die blk : Nat) : Nat × State :=
  let (w, s) := s.jform 1 0 (.blockRetire die blk)
  let s := (s.modBlock die blk fun b => { b with retired := true }).note 0x4003 3 die [die, blk]
  let s := s.modFlashIf fun f => { f with dies := tmod f.dies die {} fun d => { d with retiredBlocks := d.retiredBlocks + 1 } }
  let n := (s.die die).retiredBlocks
  let s := if n * 1000 ≥ 8 * s.key2 0x0131 * s.flashIf.geo.blocks then
    s.healthWarn 2 die 5 (n * 1000 / s.flashIf.geo.blocks : Nat) (8 * s.key2 0x0131 : Nat) else s
  let s := s.spareUpdate
  (w, if (s.die die).retiredBlocks * 100 > s.key2 0x0131 * s.flashIf.geo.blocks then s.dieFailed die else s)

/-- A member of a span fails a program or erase: corrected fault of its channel, block retired. -/
def State.memberFailed (s : State) (die blk : Nat) : Nat × State := (s.fault (0x0A0 + die / 32) [die, blk]).retireBlock die blk

/-! Reads of blocks (R304, R308, R310) -/

/-- The (die, block) pairs that a location's crumbs lie on. -/
def State.blocksOf (s : State) (l : Loc) : List (Nat × Nat) :=
  let sp := s.span l.span
  let cap := s.batchData sp.dense sp.members.length
  if cap = 0 then []
  else
    let k := l.offset / cap
    (s.groupsOf sp l.offset l.crumbs).map fun i => sp.members.getD (memberPos sp.members.length k i) (0, 0)

/-- Flag a span refresh-due. -/
def State.flagRefresh (s : State) (n : Nat) : State := s.modFlash fun f => { f with spans := tupd f.spans n fun x => { x with refreshDue := true } }

/-- Array reads of blocks of a span count; the limit makes it refresh-due, twice the limit before the refresh has begun moves it
ahead (R304, R308). -/
def State.countReads (s : State) (n : Nat) (bs : List (Nat × Nat)) : State :=
  let lim := if (s.span n).dense then s.key4 0x0125 else s.key4 0x0126
  bs.foldl (fun s e =>
    let s := s.modBlock e.1 e.2 fun b => { b with reads := b.reads + 1 }
    let r := (s.block e.1 e.2).reads
    let s := if r ≥ lim then s.flagRefresh n else s
    if r ≥ 2 * lim && !s.flash.kneadSpans.contains n then
      s.modFlash fun f => { f with spans := tupd f.spans n fun x => { x with urgent := true } } else s) s

/-- The retry entry that decoded becomes the tracked entry of the blocks (R310). -/
def State.trackEntry (s : State) (bs : List (Nat × Nat)) (entry : Nat) : State :=
  bs.foldl (fun s e => s.modBlock e.1 e.2 fun b => { b with entry := entry }) s

/-- A record page needed die-parity rebuild: more than 16 in one epoch fail the die (R318). -/
def State.countStep4 (s : State) (bs : List (Nat × Nat)) : State :=
  bs.foldl (fun s e =>
    let s := s.modFlashIf fun f => { f with dies := tmod f.dies e.1 {} fun d => { d with step4 := d.step4 + 1 } }
    if (s.die e.1).step4 > 16 then s.dieFailed e.1 else s) s

/-! Closing and releasing (R22, R277, R297) -/

/-- Every batch of a span has its parity, or is past having one. -/
def SpanSt.parityDone (x : SpanSt) : Bool := x.batches.all fun b => decide (b.prot ≠ .opened)

/-- Close a span whose last batch has its parity and that takes no more (R277). -/
def State.closeIfDone (s : State) (n : Nat) : State :=
  let sp := s.span n
  if sp.phase = .opened && sp.parityDone && !(s.flash.openSpan.any fun e => e.2 == n) then
    (s.modSpan n fun x => { x with phase := .closed, closeSeq := s.flash.closeSeq, closeEpoch := s.place.epoch, scrubbed := s.now }).modFlash
      fun f => { f with closeSeq := f.closeSeq + 1 }
  else s

/-- Copies in flight whose source or target lies in a span. -/
def State.copiesOn (s : State) (n : Nat) : Bool :=
  s.place.copies.any fun c => (c.src.tier ≠ .rack && c.src.span == n) || (c.dst.tier ≠ .rack && c.dst.tier ≠ .none && c.dst.span == n)

/-- A closed span of host data with no valid crumb and no copy step on it is released: SPAN_RELEASE is formed (R277, R297). -/
def State.releaseEmpty (s : State) : State :=
  s.flash.spans.foldl (fun s e =>
    if e.2.phase = .closed && !e.2.mapArea && s.validCrumbs e.2.tier e.1 = 0 && !s.copiesOn e.1 then
      (s.modSpan e.1 fun x => { x with phase := .releasing }).journal 1 0 (.spanRelease e.1)
    else s) s

/-! Knead thresholds and read-only mode (R285, R296, R320) -/

/-- Free erased spans of a set less its share of the reservations. -/
def State.kneadFree (s : State) (m : Nat) : Nat := (s.freeSpans m).length - s.setShare

/-- Low and high thresholds. -/
def State.kneadLow (s : State) : Nat := s.keyN 0x012B 0 2
def State.kneadHigh (s : State) : Nat := s.keyN 0x012B 2 2

/-- Where Knead runs: it starts below the low threshold and stops at the high one (R296). -/
def State.kneadUpdate (s : State) : State :=
  let run (m : Nat) : Bool := decide (s.kneadFree m < s.kneadLow) || (s.flash.kneading.contains m && decide (s.kneadFree m < s.kneadHigh))
  s.modFlash fun f => { f with kneading := s.openSets.filter run }

/-- Every set is below half the low threshold: new host chunks wait (R296). -/
def State.kneadPressed (s : State) : Bool := !s.openSets.isEmpty && s.openSets.all fun m => decide (2 * s.kneadFree m < s.kneadLow)

/-- Migration cannot relieve the flash: no Rack tier, a full one, or one offline for more than 60 s (R320). `offline` is how long
it has been offline, ns. -/
def State.noRelief (s : State) (offline : Nat) (full : Bool) : Bool :=
  decide (s.rack.spin = .absent) || full || (decide (s.rack.spin ≠ .ready) && decide (60 * sec < offline))

/-- Media read-only mode is entered when Knead cannot restore the low threshold in any set, the valid data exceeding the space,
and migration cannot relieve it; it ends when every set has its high threshold (R320). -/
def State.readOnlyUpdate (s : State) (offline : Nat) (full : Bool) : State :=
  let stuck := !s.openSets.isEmpty && s.openSets.all fun m => decide (s.kneadFree m < s.kneadLow)
  let valid := s.flash.spans.foldl (fun n e => if e.2.tier = .bake then n + s.validCrumbs .bake e.1 else n) 0
  if !s.flash.readOnly && stuck && decide (s.bakeCap ≤ valid) && s.noRelief offline full then
    ((s.modFlash fun f => { f with readOnly := true }).warnBit 3).note 0x4007 0 0 [1]
  else if s.flash.readOnly && s.openSets.all fun m => decide (s.kneadHigh ≤ s.kneadFree m) then
    ((s.modFlash fun f => { f with readOnly := false }).clearWarnBit 3).note 0x4007 0 0 [0]
  else s

/-! The replay window (R126, R127) -/

/-- Replay window in bytes: key 0x0141 for each attached die. -/
def State.replayWindow (s : State) : Nat := s.key2 0x0141 * 1048576 * (s.flashIf.dies.filter (·.2.present)).length

/-- Stored data has been programmed: the whole window reached makes new host chunks wait (R127). -/
def State.countProgrammed (s : State) (crumbs : Nat) : State :=
  s.modMap fun m =>
    let n := m.sinceHorizon + 512 * crumbs
    { m with sinceHorizon := n, windowFull := m.windowFull || decide (s.replayWindow ≤ n) }

/-! The end of a block-erase Sanitize (R316, R356, R498) -/

/-- A block-erase Sanitize in progress ends once every Proof and Bake span is erased and the Rack bands are overwritten, which waits for
READY and spins up even if spin-up is not allowed. In FAILED or LOWV it fails. -/
def State.sanitizeCheck (s : State) : State :=
  if s.nvme.sanitize ≠ 2 then s
  else
    let done (s : State) : State :=
      if s.flash.spans.any fun e => !e.2.mapArea then s
      else
        let s := (s.modMedia fun m => { m with copies := [], recs := [], rackRoot := [], spill := [] }).modRack fun r => { r with stackTab := [], rootCopied := 0 }
        let s := s.writeRoot (s.formRoot false s.ckHorizon)
        (s.modNvme fun n => { n with sanitize := 1, sanFailed := false }).raiseEvent 2 3 0x81
    match s.rack.spin with
    | .absent => done s
    | .ready => done s
    | .failed => s.modNvme fun n => { n with sanitize := 3, sanFailed := true }
    | .lowv => s.modNvme fun n => { n with sanitize := 3, sanFailed := true }
    | .stopped => (s.modRack fun r => { r with spin := .spinup, spinupAt := s.now }).modServo fun v => { v with spindle := { v.spindle with state := .sense } }
    | .reduced => (s.modRack fun r => { r with spin := .spinup, spinupAt := s.now }).modServo fun v => { v with spindle := { v.spindle with state := .bemf } }
    | _ => s

end Sys2Proof.Machine
end

