-- ==== Sys2Proof/Machine/WritePath.lean ====
section
/-!
DEFINITION. The write path from a sealed version to its program status (R14, R40 to R45, R81, R190, R202, R277, R282, R289,
R317).
-/
namespace Sys2Proof.Machine
open Sys2Proof

/-- R81 event 2: 20 µs after the last joiner, an open version whose joiners have all their data is sealed. -/
def execVersionIdleTimeout (vid : Nat) (s : State) : Host.Outcome State Fault Refusal :=
  match s.version? vid with
  | none => .next s
  | some v =>
    if v.phase = .opened && s.joinersFull v then
      .next (((s.reach (v.lastJoin + 20 * us)).seal vid (v.joiners.getLastD 0)).settle)
    else .next s

/-- The Proof-exhaustion switch, evaluated at a write assignment (R43). -/
def State.evalDirect (s : State) : State :=
  let permille := if s.proofCap = 0 then 0 else s.proofFree * 1000 / s.proofCap
  if !s.place.directBake && s.proofBelow (s.key2 0x0210) then
    (s.modPlace fun p => { p with directBake := true, dbEntries := p.dbEntries + 1 }).note 0x2001 0 0 [permille]
  else if s.place.directBake && !s.proofBelow (s.key2 0x0211) then
    (s.modPlace fun p => { p with directBake := false, dbExits := p.dbExits + 1 }).note 0x2002 0 0 [permille]
  else s

/-- The slot of a version's chunk, from the classification of its write (R35, R38). -/
def State.writeSlot (s : State) (v : Version) : Nat :=
  let est := match (v.joiners.filterMap s.ctx?).getLast? with | some c => s.est (s.streamOf c) | none => s.est (4096 + v.nsid)
  s.slotOf (s.hostWriteFields (s.desc v.nsid v.lcn) est)

/-- A version whose stored payload is known goes to the media cipher (R14 step 4). -/
def State.toCipher (s : State) (vid : Nat) (payload : List Crumb) (coded : Bool) : State :=
  let set (e : Nat) (s : State) : State := s.modVersion vid fun v =>
    { v with payload := payload, coded := coded, crumbs := payload.length, phase := .ciphering, engine := e }
  match s.queueCipher (512 * payload.length) with
  | some (e, s) => set e s
  | none => set 0 s

/-- R14 step 2: a version that is whole is assigned to a tier, slot, span and batch, and then coded or stored raw. It waits while
no erased span is available, while the replay window is full and while Knead needs the space (R40, R43, R45, R127, R296). -/
def execWriteAssignment (vid : Nat) (s : State) : Host.Outcome State Fault Refusal :=
  match s.version? vid with
  | none => .next s
  | some v =>
    if v.phase ≠ .ready || s.map.windowFull || s.kneadPressed || s.mediaStopped then .next s
    else
      let s := s.evalDirect
      let tier : Tier := if s.place.directBake then .bake else .proof
      let slot := s.writeSlot v
      match s.reserveIn tier slot (2 * vid) with
      | none => .next (s.modFlash fun f => { f with stalled := if f.stalled.contains vid then f.stalled else f.stalled ++ [vid] })
      | some (n, b, s) =>
        let s := s.modFlash fun f => { f with stalled := f.stalled.filter (· != vid) }
        let s := s.modVersion vid fun v => { v with tier := tier, slot := slot, span := n, batch := b }
        match v.fmt with
        | some _ => match s.queueCoder with
          | some (e, s) => .next (s.modVersion vid fun v => { v with phase := .encoding, engine := e })
          | none => .next (s.toCipher vid (s.versionData v) false)
        | none => .next (s.toCipher vid (s.versionData v) false)

/-- Count an outcome of R202 in a format's counters. -/
def State.countFormat (s : State) (ix : Nat) (f : FormatCnt → FormatCnt) : State :=
  s.modCoder fun c => { c with counts := tmod c.counts ix {} f }

/-- R202: an encode job ends coded, raw by the limit, raw by the range, or in an internal parity error, which fences the engine
and fails the chunk (R13, R55). -/
def execEncodeJobEnd (vid : Nat) (parity : Bool) (s : State) : Host.Outcome State Fault Refusal :=
  match s.version? vid with
  | none => .next s
  | some v =>
    if v.phase ≠ .encoding then .next s
    else if parity then .next ((s.coderDone v.engine false).failVersion v scInternal |>.fault (0x128 + v.engine))
    else
      let ix := v.fmt.getD 0
      let f := tgetD s.coder.formats ix {}
      let data := s.versionData v
      let s := s.coderDone v.engine false
      match (f.geo (f.firstChunk (lbaBytes ((s.ns? v.nsid).getD {}).flbas)) v.lcn).encode (s.codedLimit f) ix data with
      | .coded p => .next ((s.countFormat ix fun c => { c with coded := satInc c.coded }).toCipher vid p true)
      | .limit => .next ((s.countFormat ix fun c => { c with rawLimit := satInc c.rawLimit }).toCipher vid data false)
      | .range => .next ((s.countFormat ix fun c => { c with rawRange := satInc c.rawRange }).toCipher vid data false)

/-- Encryption of a version ends: the ciphertext is ready and takes its crumbs (R14 step 4, R40); a parity error fences the engine
and fails the chunk. -/
def State.encrypted (s : State) (v : Version) (parity : Bool) : State :=
  let s := s.modPlace fun p => { p with cipherQ := p.cipherQ.pop v.engine (512 * v.crumbs) }
  if parity then (s.failVersion v scInternal).fault (0x138 + v.engine)
  else ((s.modVersion v.id fun v => { v with phase := .waiting }).placeVersion v.id).settle

/-- The payloads placed in a batch with crumbs in a member page-group that is not programmed: their earliest placing (R41). -/
def State.oldestPlaced (s : State) (n b : Nat) : Option Nat :=
  let open_ (off crumbs : Nat) : Bool := !s.allProgrammed n b off crumbs
  let vs := (s.host.versions.filter fun v => decide (v.phase = .placed) && v.span == n && v.batch == b && open_ v.offset v.crumbs).map (·.placedAt)
  let cs := (s.place.copies.filter fun c => decide (c.phase = .programming) && c.dst.span == n && c.batch == b &&
    open_ c.dst.offset c.payload.length).map (·.placedAt)
  (vs ++ cs).min?

/-- R41: the oldest placed crumb of a batch has waited for the batch close time: its member page-group is padded with zero crumbs
and is programmed. -/
def execBatchCloseTimeout (span batch : Nat) (s : State) : Host.Outcome State Fault Refusal :=
  let sp := s.span span
  let g := s.groupCrumbs sp.dense
  match s.oldestPlaced span batch with
  | none => .next s
  | some t =>
    if sp.phase ≠ .opened || g = 0 then .next s
    else
      let s := s.reach (t + s.key4 0x0212 * us)
      .next ((s.modBatch span batch fun b => { b with used := min (ceilDiv b.used g * g) (s.batchData sp.dense sp.members.length) }).fillTail span)

/-- After a program in a batch: versions wholly programmed are stored, copies wholly programmed go to read-verify. -/
def State.afterProgram (s : State) (n b : Nat) : State :=
  let s := s.modPlace fun p => { p with
    copies := p.copies.map fun c =>
      if c.phase = .programming && c.dst.tier ≠ .rack && c.dst.span = n && c.batch = b && s.allProgrammed n b c.dst.offset c.payload.length
      then { c with phase := .verifying } else c }
  s.host.versions.foldl (fun s v =>
    if v.phase = .placed && v.span = n && v.batch = b && s.allProgrammed n b v.offset v.crumbs then s.storeVersion v else s) s

/-- Every data member of a batch has been programmed, or has failed. -/
def Batch.dataDone (b : Batch) (w : Nat) : Bool := (List.range (w - 1)).all fun i => b.prog.contains i || b.bad.contains i

/-- R41, R282, R289, R317: a member page-group's program reports its status. Member positions 0 to W - 2 are the data members in
order, W - 1 the parity member. A dense step other than the last of its group changes nothing yet. The program is possible only
for a group that is full, in a span whose SPAN_OPEN is durable, after the same member's earlier groups of a dense span. -/
def execProgramComplete (span batch member : Nat) (good last : Bool) (s : State) : Host.Outcome State Fault Refusal :=
  let sp := s.span span
  let w := sp.members.length
  let bt := sp.batches.getD batch {}
  let g := s.groupCrumbs sp.dense
  let isData := decide (member + 1 < w)
  let earlier := (List.range batch).all fun k => let x := sp.batches.getD k {}
    if isData then x.prog.contains member || x.bad.contains member else true
  let ready := if isData then decide ((member + 1) * g ≤ bt.used) && !bt.prog.contains member && !bt.bad.contains member && (earlier || !sp.dense)
    else decide (member + 1 = w) && bt.dataDone w && decide (bt.prot = .opened)
  if sp.phase ≠ .opened || batch ≥ sp.batches.length || s.openPending span || !ready || (s.safeState && s.flt.entryDone) || (good && !last) then .next s
  else
    let s := s.unclean
    let m := sp.members.getD (if isData then memberPos w batch member else batch % w) (0, 0)
    if isData then
      if good then
        .next (((s.modBatch span batch fun x => { x with prog := x.prog ++ [member] }).countProgrammed g).afterProgram span batch)
      else
        let (r, s) := s.memberFailed m.1 m.2
        .next (((s.redoGroup span batch member (some r)).modSpan span fun x => { x with rebuildDue := true }).settle)
    else if good then .next ((s.modBatch span batch fun x => { x with prot := .full }).closeIfDone span)
    else
      let (_, s) := s.memberFailed m.1 m.2
      .next (((s.modBatch span batch fun x => { x with prot := .spilled }).noteOther 4 4 span).closeIfDone span)

/-- R277, R300, R303, R317: the erase of a released span ends on its members. A member whose erase failed, or that has reached the
greater wear limit, is retired; the span is free again. -/
def execEraseComplete (span : Nat) (failed : List Nat) (s : State) : Host.Outcome State Fault Refusal :=
  let sp := s.span span
  if sp.phase ≠ .released || (s.safeState && s.flt.entryDone) then .next s
  else
    let unit := if sp.dense then 4 else s.key2 0x0128
    let s := sp.members.foldl (fun s m =>
      let s := s.modBlock m.1 m.2 fun b => { b with wear := b.wear + unit, reads := 0, entry := 0 }
      if failed.contains m.1 then (s.memberFailed m.1 m.2).2
      else if max s.denseLimit s.oneBitLimit ≤ (s.block m.1 m.2).wear then (s.retireBlock m.1 m.2).2 else s) s
    let here (l : Loc) : Bool := decide (l.tier ≠ .rack) && l.span == span
    let s := s.modMedia fun m => { m with copies := m.copies.filter fun c => !here c.loc, recs := m.recs.filter fun r => !here r.loc }
    .next ((s.modFlash fun f => { f with spans := tdel f.spans span, kneadSpans := f.kneadSpans.filter (· != span) }).kneadUpdate.placeWaiting.sanitizeCheck)

end Sys2Proof.Machine
end

