-- ==== Sys2Proof/Machine/ReadPath.lean ====
section
/-!
DEFINITION. The read path of a chunk: flash read, ladder, decryption and coder decode (R18, R95, R205, R304 to R311, R317).
-/
namespace Sys2Proof.Machine
open Sys2Proof

/-- A read job by identifier. -/
def State.job? (s : State) (id : Nat) : Option ReadJob := s.flash.jobs.find? fun j => j.id == id

/-- Change a read job. -/
def State.modJob (s : State) (id : Nat) (f : ReadJob → ReadJob) : State :=
  s.modFlash fun x => { x with jobs := x.jobs.map fun j => if j.id = id then f j else j }

/-- Remove a read job. -/
def State.dropJob (s : State) (id : Nat) : State := s.modFlash fun x => { x with jobs := x.jobs.filter fun j => j.id != id }

/-- Cause of an internal read, and the copy that it read. -/
def State.jobWsn (s : State) (j : ReadJob) : Nat := ((s.copyAt j.loc).map (·.wsn)).getD 0

/-- What a Raw-through Read keeps of a chunk once it has been read: the kind of record, the units that read as zeros, and the
plaintext blocks of a raw chunk or the stored crumbs of a coded one (R211, R212). -/
def State.rawEnt (s : State) (d : Desc) (e : ChunkEnt) : ChunkEnt :=
  let us := s.unitStates d
  let l := s.payloadLoc d
  let z := unitsWhere us (2 ^ 32 - 1) fun u => u.loc?.isNone
  let e := { e with decoded := true, res := .served, rawSplit := d.split, rawZ := BitVec.ofNat 32 z }
  if z = 2 ^ 32 - 1 then { e with rawKind := 0, rawSplit := false }
  else if l.coded then
    { e with rawKind := 2, rawFmt := d.format.toNat, data := (((((s.copyAt l).map (·.payload)).getD []).zipIdx).map fun (c, i) => (i, c)) }
  else { e with rawKind := 1, data := s.readBlocks d (2 ^ 32 - 1) }

/-- Deliver the blocks of a job to the command or the merge that it serves. -/
def State.deliverJob (s : State) (j : ReadJob) : State :=
  let d := s.desc j.nsid j.lcn
  let s := s.dropJob j.id
  if j.flow = 0 then
    let raw := match s.ctx? j.stamp with | some c => decide (c.opcode.toNat = 0x86) | none => false
    ((s.modEnt j.stamp j.nsid j.lcn fun e =>
      if raw then s.rawEnt d e else { e with decoded := true, res := .served, data := s.readBlocks d (unitsOf e.blks) }).effectParked).settle
  else
    (s.modVersion j.ref fun v => if v.phase = .merging then { v with phase := .ready, base := s.readBlocks d (2 ^ 32 - 1 - v.unread.toNat) } else v).settle

/-- The read of a job fails with a status and without a loss of data (R13, R54, R352). -/
def State.failJob (s : State) (j : ReadJob) (status : Nat) : State :=
  let s := s.dropJob j.id
  if j.flow = 0 then
    ((s.modEnt j.stamp j.nsid j.lcn fun e => { e with decoded := true, res := .failed status }).effectParked).settle
  else match s.version? j.ref with
    | some v => s.failVersion v status
    | none => s

/-- The whole ladder failed for units of a chunk: a host read marks them and completes with 0x281; a merge stores the new version
with those units unreadable (R84, R94, R95, R317). -/
def State.loseJob (s : State) (j : ReadJob) (units : Nat) : State :=
  let s := if j.loc.tier = .rack then s else s.warnBit 2
  if j.flow = 0 then
    let s := if s.names (s.desc j.nsid j.lcn) j.loc then (s.loseUnits j.nsid j.lcn units 0 j.loc j.loc.tier (s.jobWsn j)).2 else s
    s.failJob j scUnrecovered
  else
    let d := s.desc j.nsid j.lcn
    let s := s.dropJob j.id
    (s.modVersion j.ref fun v =>
      if v.phase = .merging then
        let un := v.unread ||| BitVec.ofNat 32 units
        { v with phase := .ready, unread := un, base := s.readBlocks d (2 ^ 32 - 1 - un.toNat) }
      else v).settle

/-- R18 steps 2 and 3: a flash read delivers its codewords, to a hard-decision decoder or in step 3 of the ladder to a soft one;
each array read counts (R304). -/
def execFlashReadComplete (job : Nat) (s : State) : Host.Outcome State Fault Refusal :=
  match s.job? job with
  | none => .next s
  | some j =>
    if j.phase ≠ .fetch || j.loc.tier = .rack then .next s
    else
      let s := s.countReads j.loc.span (s.blocksOf j.loc)
      match if j.step = 3 then s.queueSoft j.loc.codewords else s.queueHard j.loc.codewords with
      | some (e, s) => .next (s.modJob job fun x => { x with phase := .decode, engine := e })
      | none => .next (s.modJob job fun x => { x with phase := .decode })

/-- The next step of the ladder for a job: retry needs a table, soft decode an unfenced decoder, steps 1 to 3 a die that works
(R309). -/
def State.nextStep (s : State) (j : ReadJob) : Nat :=
  let dead := (s.blocksOf j.loc).any fun b => !s.dieOk b.1
  let retry := !(s.key 0x012D).isEmpty
  let soft := decide (s.place.fenceSoft ≠ BitVec.allOnes 8)
  if dead then (if j.step < 4 then 4 else 5)
  else if j.step < 2 && retry then 2
  else if j.step < 3 && soft then 3
  else if j.step < 4 then 4 else 5

/-- The next step of the Rack ladder: soft decode needs an unfenced decoder (R339, R380). -/
def State.rackNextStep (s : State) (j : ReadJob) : Nat := if j.step = 2 ∧ s.place.fenceSoft = BitVec.allOnes 8 then 4 else j.step + 1

/-- A job goes down the ladder of its tier, or its units are lost at its end. For a coded chunk every unit is lost (R309, R317, R339). -/
def State.ladder (s : State) (j : ReadJob) (lost : Nat) : State :=
  let rack := decide (j.loc.tier = .rack)
  let n := if rack then s.rackNextStep j else s.nextStep j
  if n ≤ 4 then s.modJob j.id fun x => { x with step := n, phase := if rack then .rackWait else .fetch }
  else
    let all := unitsWhere (s.unitStates (s.desc j.nsid j.lcn)) (2 ^ 32 - 1) fun u => u.loc?.isSome
    s.loseJob j (if j.loc.coded || lost &&& j.units.toNat = 0 then all else lost &&& all)

/-- R18 step 3, R308 to R311: the decode of a job's codewords ends. `maxBits` is the most bits corrected, `entry` the retry entry
that decoded, `lost` the units whose codewords failed. -/
def execCodewordDecodeEnd (job : Nat) (good : Bool) (maxBits entry lost : Nat) (s : State) : Host.Outcome State Fault Refusal :=
  match s.job? job with
  | none => .next s
  | some j =>
    if j.phase ≠ .decode then .next s
    else
      let n := j.loc.codewords
      let s := s.modPlace fun p => if j.step = 3 then { p with softQ := p.softQ.pop j.engine n } else { p with hardQ := p.hardQ.pop j.engine n }
      let bs := s.blocksOf j.loc
      if !good then .next (s.ladder j lost)
      else
        let s := if j.step ≥ 3 || maxBits ≥ s.key2 0x012E then s.flagRefresh j.loc.span else s
        let s := if j.step = 2 || j.step = 3 then s.trackEntry bs entry else s
        let s := if j.step = 4 then s.countStep4 (bs.take 1) else s
        match s.queueCipher (512 * j.loc.crumbs) with
        | some (e, s) => .next (s.modJob job fun x => { x with phase := .cipher, engine := e })
        | none => .next (s.modJob job fun x => { x with phase := .cipher })

/-- A job that fails inside the device starts again from the media once, then fails with 0x281 (R13). -/
def State.retryJob (s : State) (j : ReadJob) : State :=
  let key := (if j.flow = 0 then j.stamp else j.ref, j.lcn)
  if s.fab.readRetried.contains key then s.failJob j (if j.flow = 0 then scUnrecovered else scInternal)
  else (s.modFab fun f => { f with readRetried := f.readRetried ++ [key] }).modJob j.id fun x =>
    { x with step := 1, phase := if x.loc.tier = .rack then .rackWait else .fetch }

/-- Decryption of a job ends (R18 step 4): a coded chunk goes to a coder engine, unless the command returns stored payloads
(R19); with every engine fenced it fails (R54). -/
def State.decrypted (s : State) (j : ReadJob) (parity : Bool) : State :=
  let s := s.modPlace fun p => { p with cipherQ := p.cipherQ.pop j.engine (512 * j.loc.crumbs) }
  if parity then (s.retryJob j).fault (0x138 + j.engine)
  else
    let raw := match s.ctx? j.stamp with | some c => decide (j.flow = 0) && decide (c.opcode.toNat = 0x86) | none => false
    if j.loc.coded && !raw then
      match s.queueCoder with
      | some (e, s) => s.modJob j.id fun x => { x with phase := .coder, engine := e }
      | none => s.failJob j scUnrecovered
    else s.deliverJob j

/-- R14 step 4 and R18 step 4: a media cipher job ends: `id` names a version when encrypting, a read job when decrypting. -/
def execCipherJobEnd (encrypt : Bool) (id : Nat) (parity : Bool) (s : State) : Host.Outcome State Fault Refusal :=
  if encrypt then
    match s.version? id with
    | some v => .next (if v.phase = .ciphering then s.encrypted v parity else s)
    | none => .next s
  else
    match s.job? id with
    | some j => .next (if j.phase = .cipher then s.decrypted j parity else s)
    | none => .next s

/-- R204, R205: a coder decode ends. A malformed stream or a check value that differs sends the chunk to the next step of the
ladder; `mismatch` says that the decoded bytes were not those stored. -/
def execDecodeJobEnd (job : Nat) (parity mismatch : Bool) (s : State) : Host.Outcome State Fault Refusal :=
  match s.job? job with
  | none => .next s
  | some j =>
    if j.phase ≠ .coder then .next s
    else
      let s := s.coderDone j.engine true
      let d := s.desc j.nsid j.lcn
      let fmt := d.format.toNat
      let ok := match s.copyAt j.loc with | some c => (yrcDecode fmt c.payload).isSome | none => false
      if parity then .next ((s.retryJob j).fault (0x128 + j.engine))
      else if mismatch || !ok then .next (s.ladder j 0)
      else .next (s.deliverJob j)

end Sys2Proof.Machine
end

