-- ==== Sys2Proof/Machine/IoCmds.lean ====
section
/-!
DEFINITION. I/O commands: what each does once its context is held (R59 to R61, R73, R85, R140 to R142, R208 to R212).
-/
namespace Sys2Proof.Machine
open Sys2Proof

/-- First 512-byte block of a command. -/
def State.firstBlock (s : State) (c : Ctx) : Nat := c.slba * ((s.ns? c.nsid).getD {}).blocksPerLba

/-- The blocks of a command in order: (chunk, block within the chunk). -/
def Ctx.blockOrder (c : Ctx) : List (Nat × Nat) := c.ents.flatMap fun e => (blockList e.blks).map fun b => (e.lcn, b)

/-- The data of a read-class command in block order. -/
def Ctx.readData (c : Ctx) : List Crumb := c.ents.flatMap fun e => (blockList e.blks).map fun b => tgetD e.data b 0

/-- All chunks of a command are decided. -/
def Ctx.decided (c : Ctx) : Bool := c.ents.all fun e => decide (e.res ≠ .pending)

/-- The data of a write arrives in the buffer pool: each entry takes its blocks (R14 step 1, R81). -/
def State.takeData (s : State) (c : Ctx) (data : List Crumb) : State :=
  let order := c.blockOrder.zip data
  s.modCtx c.stamp fun c => { c with
    xferred := true, phase := .media
    ents := c.ents.map fun e => { e with data := (order.filter fun x => x.1.1 == e.lcn).foldl (fun t x => tput t x.1.2 x.2) e.data } }

/-- R14, R85: the data of the command's blocks arrives, one 512-byte block each; its versions seal when whole. -/
def execWrite (stamp : Nat) (data : List Crumb) (s : State) : Host.Outcome State Fault Refusal :=
  s.onIo stamp 0x01 fun c => if c.xferred || data.length ≠ c.blockOrder.length then s else (s.takeData c data).settle

/-- Complete a read-class command that moved data for the host. -/
def State.countRead (s : State) (c : Ctx) : State :=
  s.modNvme fun n => { n with dataRead := n.dataRead + c.hostBytes, cmdsRead := n.cmdsRead + 1 }

/-- R18 step 6, R85: once every chunk has been read, the data goes to host memory and the command completes; a chunk that failed
gives the command its status (R20). -/
def execRead (stamp : Nat) (s : State) : Host.Outcome State Fault Refusal :=
  s.onIo stamp 0x02 fun c =>
    if !c.decided then s
    else if c.outcome ≠ 0 then s.complete stamp c.outcome 0
    else ((s.hostWrite (.blocks stamp (s.firstBlock c) c.readData)).countRead c).complete stamp 0 0

/-- Status of a Compare: units in order; the first that differs gives 0x285, one that cannot be read its own status (R85). -/
def Ctx.compareWith (c : Ctx) (data : List Crumb) : Nat :=
  let cells := c.ents.flatMap fun e => (blockList e.blks).map fun b => (e.res, tgetD e.data b 0)
  ((cells.zip data).findSome? fun x =>
    match x.1.1 with
    | .failed st => some st
    | _ => if x.1.2 = x.2 then none else some scCompareFailure).getD 0

/-- R85: every unit is read and compared with the host's data. -/
def execCompare (stamp : Nat) (data : List Crumb) (s : State) : Host.Outcome State Fault Refusal :=
  s.onIo stamp 0x05 fun c =>
    if !c.decided || data.length ≠ c.blockOrder.length then s
    else
      let s := s.modNvme fun n => { n with cmdsRead := n.cmdsRead + 1 }
      s.complete stamp (c.compareWith data) 0

/-- R85: every unit read and decoded, nothing transferred. -/
def execVerify (stamp : Nat) (s : State) : Host.Outcome State Fault Refusal :=
  s.onIo stamp 0x0C fun c => if c.decided then s.complete stamp c.outcome 0 else s

/-- R85: nothing to wait for. -/
def execFlush (stamp : Nat) (s : State) : Host.Outcome State Fault Refusal :=
  s.onIo stamp 0x00 fun _ => s.complete stamp 0 0

/-! Write Zeroes and deallocate (R111, R140 to R142) -/

/-- A change to a chunk discards the copy steps on it whose MOVE is not yet formed (R56). -/
def State.dropCopies (s : State) (nsid lcn : Nat) : State :=
  let gone := (s.place.copies.filter fun c => c.nsid == nsid && c.lcn == lcn && decide (c.phase ≠ .journalling)).map fun c => (c.dst.span, c.batch, 2 * c.id + 1)
  let s := s.modPlace fun p => { p with copies := p.copies.filter fun c => !(c.nsid == nsid && c.lcn == lcn && decide (c.phase ≠ .journalling)) }
  gone.foldl (fun s g => if ((s.span g.1).batches.getD g.2.1 {}).reserved.contains g.2.2 then s.unreserve g.1 g.2.1 g.2.2 else s) s

/-- The whole of a chunk becomes ZERO or DEALLOC; a deallocated version's location stays until the entry is durable (R105, R140,
R142). -/
def State.wholeState (s : State) (nsid lcn : Nat) (st : ChunkState) : State :=
  let d := s.desc nsid lcn
  let keep := if st = .dealloc then (if d.state = .mapped then s.payloadLoc d else if d.state = .dealloc && !d.ddur then d.loc else {}) else {}
  let s := if d.split then s.subReturn d.sub else s
  s.putDesc nsid lcn { d.bare st with loc := keep, ddur := false }

/-- Units of a chunk become ZERO or DEALLOC, in a sub-map block that is granted where the chunk is whole. Chunks that read as zeros
whole stay as they are (R108). None: no block is free (R111). -/
def State.partState (s : State) (nsid lcn m : Nat) (v : UState) : Option State :=
  let d := s.desc nsid lcn
  match d.state with
  | .mapped =>
    let us := maskUnits (s.unitStates d) m v
    if d.split then some (s.setUnits nsid lcn us d.sub false)
    else (s.subGrant false).map fun g => g.2.setUnits nsid lcn us g.1 true
  | .lost =>
    let us := maskUnits (s.unitStates d) m v
    (s.subGrant false).map fun g => g.2.setUnits nsid lcn us g.1 true
  | _ => some s

/-- A change of a chunk may be made now: nothing fetched earlier still writes or needs it, and it need not wait for a spilled page
(R74 to R76, R131). -/
def State.changeClear (s : State) (st nsid lcn : Nat) : Bool :=
  !s.earlierWrite st nsid lcn && !s.earlierRead st nsid lcn && !s.changeWaits nsid lcn && s.resident nsid lcn

/-- One chunk of a Write Zeroes: ZERO_RANGE for a whole chunk, ZERO_UNITS for whole units, a version with zeros otherwise (R142,
R111). The entry's result comes with the durable journal entry (R85). -/
def State.zeroChunk (s : State) (st : Nat) (e : ChunkEnt) : State :=
  if e.res ≠ .pending || e.started then s
  else
    let m := unitsOf e.blks
    let zeros : Tab Crumb := (blockList e.blks).map fun b => (b, 0)
    let asVersion (s : State) : State := s.modEnt st e.nsid e.lcn fun y => { y with lone := true, started := true, data := zeros }
    if m ≠ wholeUnits e.blks then asVersion s
    else if !s.changeClear st e.nsid e.lcn then s
    else
      let mark (s : State) : State := s.modEnt st e.nsid e.lcn fun y => { y with started := true }
      let s := s.unclean
      if e.blks = BitVec.allOnes 256 then
        mark (((s.dropCopies e.nsid e.lcn).wholeState e.nsid e.lcn .zero).journal e.nsid e.lcn (.zeroRange 0))
      else match (s.dropCopies e.nsid e.lcn).partState e.nsid e.lcn m .zero with
        | some s => mark (s.journal e.nsid e.lcn (.zeroUnits (BitVec.ofNat 32 m)))
        | none => asVersion s

/-- R142: every chunk that may change does; the command completes with the last durable entry or version (R85). -/
def execWriteZeroes (stamp : Nat) (s : State) : Host.Outcome State Fault Refusal :=
  s.onIo stamp 0x08 fun c =>
    (c.ents.foldl (fun s e => s.zeroChunk stamp e) (s.modCtx stamp fun c => { c with begun := true, phase := .media })).settle

/-- Deallocate blocks of one chunk: the whole chunk, or its whole units; less than a unit is ignored, and so is a part for which no
sub-map block is free (R111, R140). -/
def State.deallocChunk (s : State) (nsid lcn : Nat) (blks : BitVec 256) : State :=
  let m := wholeUnits blks
  if blks = BitVec.allOnes 256 then
    (((s.unclean.dropCopies nsid lcn).wholeState nsid lcn .dealloc).journal nsid lcn (.deallocRange 0))
  else if m = 0 then s
  else match s.partState nsid lcn m .dealloc with
    | some s' => ((s'.unclean.dropCopies nsid lcn).journal nsid lcn (.deallocUnits (BitVec.ofNat 32 m)))
    | none => s

/-- The blocks of a chunk that lie in block ranges. -/
def rangeMask (rs : List (Nat × Nat)) (lcn : Nat) : BitVec 256 :=
  rs.foldl (fun m r =>
    let a := max r.1 (lcn * chunkBlocks)
    let b := min r.2 ((lcn + 1) * chunkBlocks)
    if a < b then m ||| blockMask (a - lcn * chunkBlocks) (b - lcn * chunkBlocks) else m) 0

/-- R85, R140: chunks change in the map in DRAM, their entries follow under R123, and the command completes once every chunk has
changed. As a barrier it acts on every chunk of its ranges at once (R72). -/
def execDeallocate (stamp : Nat) (s : State) : Host.Outcome State Fault Refusal :=
  s.onIo stamp 0x09 fun c =>
    if !bitAt (c.dw 11) 2 then s
    else if c.cls = .barrier then
      if s.barrierClear c then
        ((s.descs.filter fun e => keyNs e.1 == c.nsid).foldl (fun s e => s.deallocChunk c.nsid (keyLcn e.1) (rangeMask c.ranges (keyLcn e.1))) s).complete stamp 0 0 |>.settle
      else s
    else
      let s := c.ents.foldl (fun s e =>
        if e.res = .pending && s.changeClear stamp e.nsid e.lcn then
          (s.deallocChunk e.nsid e.lcn e.blks).modEnt stamp e.nsid e.lcn fun y => { y with res := .effected }
        else s) (s.modCtx stamp fun c => { c with begun := true, phase := .media })
      let s := if c.ents.isEmpty then s.complete stamp 0 0 else s
      (s.finishWrites).settle

/-- R85: Dataset Management without the deallocate attribute completes after fetch. -/
def execDatasetManagementHint (stamp : Nat) (s : State) : Host.Outcome State Fault Refusal :=
  s.onIo stamp 0x09 fun c => if bitAt (c.dw 11) 2 then s else s.complete stamp 0 0

/-! Raw-through Read (R210, R211) -/

/-- The fields of one record at a buffer offset, and its length. -/
def ChunkEnt.rawRecord (e : ChunkEnt) (lbasPerChunk o : Nat) : List (Nat × Nat × Nat) × Nat :=
  let crumbs := if e.rawKind = 2 then e.data.length else if e.rawKind = 1 then 256 else 0
  let w := e.rawKind + 4 * b2n e.rawSplit + (if e.rawKind = 2 then 2 ^ 8 * e.rawFmt + 2 ^ 16 * crumbs else 0)
  ([(o, 8, e.lcn * lbasPerChunk), (o + 8, 4, w), (o + 0xC, 4, 512 * crumbs), (o + 0x10, 4, e.rawZ.toNat)] ++
    e.data.map fun x => (o + 32 + 512 * x.1, 512, x.2.toNat), 32 + 512 * crumbs)

/-- Records in chunk order until one does not fit: fields, bytes used, records written. -/
def rawRecords (lbasPerChunk buflen : Nat) : List ChunkEnt → Nat → List (Nat × Nat × Nat) × Nat × Nat
  | [], o => ([], o, 0)
  | e :: t, o =>
    let r := e.rawRecord lbasPerChunk o
    if o + r.2 > buflen then ([], o, 0)
    else
      let x := rawRecords lbasPerChunk buflen t (o + r.2)
      (r.1 ++ x.1, x.2.1, x.2.2 + 1)

/-- R210 to R212: once every chunk has been read, the records that fit are written; completion Dword 0 counts them. -/
def execRawThroughRead (stamp : Nat) (s : State) : Host.Outcome State Fault Refusal :=
  s.onIo stamp 0x86 fun c =>
    if !c.decided then s
    else if c.outcome ≠ 0 then s.complete stamp c.outcome 0
    else
      let r := rawRecords (chunkBlocks / ((s.ns? c.nsid).getD {}).blocksPerLba) (c.dw 13) c.ents 0
      (s.hostWrite (.data stamp r.2.1 r.1)).complete stamp 0 (BitVec.ofNat 32 r.2.2)

/-! Placement Query (R60, R61) -/

/-- A copy step for the chunk has started and its map update is not yet durable. -/
def State.moving (s : State) (nsid lcn : Nat) : Bool :=
  (s.place.copies.any fun c => c.nsid == nsid && c.lcn == lcn) ||
    s.rack.acts.any fun a => (a.placed.any fun p => p.nsid == nsid && p.lcn == lcn) || a.staging.any fun p => p.nsid == nsid && p.lcn == lcn

/-- The 16-byte entry of a chunk, at a buffer offset. -/
def State.queryFields (s : State) (nsid lcn lbasPerChunk o : Nat) : List (Nat × Nat × Nat) :=
  let d := s.decay (s.desc nsid lcn)
  let us := s.unitStates d
  let tier := if d.state = .mapped then (if d.split then mostTier us else d.loc.tier) else .none
  let hints := 16 * b2n (s.inHint .hold nsid lcn) + 32 * b2n (s.inHint .drain nsid lcn)
  if tier = .none then [(o, 8, lcn * lbasPerChunk), (o + 8, 8, hints)]
  else
    let l := s.payloadLoc d
    let w := tier.code + 4 * b2n l.coded + 8 * b2n d.split + hints + 2 ^ 6 * b2n (s.moving nsid lcn) + 2 ^ 7 * b2n d.kept + 2 ^ 8 * d.hc.toNat +
      2 ^ 11 * d.lc.toNat + 2 ^ 13 * (if tier = .rack then rackAct l.span else 0) + 2 ^ 16 * (if d.split then 0 else l.crumbs) +
      2 ^ 32 * (if l.coded then d.format.toNat else 0) + 2 ^ 40 * d.rc.toNat + 2 ^ 48 * min 16383 (s.age d)
    [(o, 8, lcn * lbasPerChunk), (o + 8, 8, w)]

/-- R60: one entry for each chunk, once every earlier write to it has settled. -/
def execPlacementQuery (stamp : Nat) (s : State) : Host.Outcome State Fault Refusal :=
  s.onIo stamp 0x8A fun c =>
    if c.ents.any fun e => s.earlierWrite stamp e.nsid e.lcn || !s.resident e.nsid e.lcn then s
    else
      let k := chunkBlocks / ((s.ns? c.nsid).getD {}).blocksPerLba
      let fs := (c.ents.zipIdx).flatMap fun (e, i) => s.queryFields e.nsid e.lcn k (16 * i)
      (((s.hostWrite (.data stamp (16 * c.ents.length) fs)).complete stamp 0 0).effectParked).settle

end Sys2Proof.Machine
end

