-- ==== Sys2Proof/Machine/Ring.lean ====
section
/-!
DEFINITION. The event ring's clears, and the staging buffer's records once the ring takes them (R600, R603, R605).
-/
namespace Sys2Proof.Machine
open Sys2Proof

/-! Clears (R600, R603) -/

/-- a precedes b (R600). -/
def seqBefore (a b : BitVec 32) : Bool := decide (1 ≤ (b - a).toNat) && decide ((b - a).toNat < 2 ^ 31)

/-- Records that a clear passes: all of them, or those at HEAD whose SEQ is UPTO or precedes it. -/
def EvtSt.passed (e : EvtSt) (upto : Option (BitVec 32)) : List (Nat × Rec) :=
  match upto with
  | none => e.recs
  | some u => e.recs.takeWhile fun r => r.2.seq == u || seqBefore r.2.seq u

/-- Clear the ring and its mirror, then write the clear record; answers the number of records passed. -/
def State.clearRecords (s : State) (who : Nat) (upto : Option (BitVec 32)) : Nat × State :=
  let gone := s.evt.passed upto
  let left := s.evt.recs.drop gone.length
  let seqs := gone.map (·.2.seq)
  let s := s.modEvt fun e => { e with
    recs := left
    head := match left with | [] => e.tail | r :: _ => r.1
    firstSeq := match left with | [] => e.nextSeq | r :: _ => r.2.seq
    pend := e.pend.filter fun r => !seqs.contains r.seq
    mirror := { e.mirror with recs := e.mirror.recs.filter fun r => !seqs.contains r.seq } }
  (gone.length, s.note 0x0003 0 0 [who, match upto with | some u => u.toNat | none => 0, gone.length])

/-- The clears that waited are applied in order. -/
def State.runClears (s : State) : State :=
  s.evt.clears.foldl (fun s e =>
    let r := s.clearRecords e.1 e.2.1
    match e.2.2 with
    | some st => r.2.complete st 0 (BitVec.ofNat 32 r.1)
    | none => r.2) (s.modEvt fun e => { e with clears := [] })

/-! The staging buffer (R605) -/

/-- A staged record that has taken its SEQ: the source or the health warning that it belongs to names it (R593, R594). -/
def State.namedBy (s : State) (r : Rec) : State :=
  let seq := s.evt.nextSeq - 1
  if r.detail.isSome then s.modSrc (r.id - 0x1000) fun x => { x with lastSeq := seq }
  else if r.id = 0x9001 then
    s.modEvt fun e => { e with warns := e.warns.map fun w => if w.kind = r.kind && w.index = r.index && w.measure = r.args.headD 0 then { w with seq := seq } else w }
  else s

/-- The staged records are appended, then the lost record where some were dropped, and the clears that waited are applied. -/
def State.flushStaged (s : State) : State :=
  let staged := s.evt.staged
  let dropped := s.evt.dropped
  let s := s.modEvt fun e => { e with staged := [], dropped := 0 }
  let s := staged.foldl (fun s r =>
    (s.modEvt fun e =>
      let e' := e.append r
      { e' with pend := e'.pend ++ [{ r with seq := e'.nextSeq - 1 }], pendSince := if e'.pend.isEmpty then s.now else e'.pendSince }).namedBy r) s
  let s := if dropped = 0 then s else (s.note 0x0004 0 0 [dropped, s.evt.nextSeq.toNat + 1]).raise 0x2C0 []
  s.runClears

end Sys2Proof.Machine
end

