-- ==== Sys2Proof/Machine/Logs.lean ====
section
/-!
DEFINITION. Get Log Page: the transfer rules of R512 and the pages that show the command interface, the fault collector,
the event recorder and ageing (R98, R100, R511, R569, R593, R594, R597, R602, R642). A page is a list of fields (byte
offset, bytes, value); every byte that no field names is 0.
-/
namespace Sys2Proof.Machine
open Sys2Proof

/-- The part of a page from byte `off`, `len` bytes long, with offsets from `off`. -/
def sliceFields (fs : List (Nat × Nat × Nat)) (off len : Nat) : List (Nat × Nat × Nat) :=
  fs.filterMap fun f =>
    let a := max f.1 off
    let b := min (f.1 + f.2.1) (off + len)
    if a < b then some (a - off, b - a, f.2.2 / 256 ^ (a - f.1) % 256 ^ (b - a)) else none

/-- Log page identifier, RAE, length in bytes and offset of a Get Log Page. -/
def Ctx.lid (c : Ctx) : Nat := bits (c.dw 10) 0 8
def Ctx.rae (c : Ctx) : Bool := bitAt (c.dw 10) 15
def Ctx.logLen (c : Ctx) : Nat := (bits (c.dw 10) 16 16 + 65536 * bits (c.dw 11) 0 16 + 1) * 4
def Ctx.logOff (c : Ctx) : Nat := c.dw 12 + 2 ^ 32 * c.dw 13

/-- Serve a log page: an offset that is not a multiple of 4, or at or beyond the page's size, completes with status 0x02 and
transfers nothing; otherwise the slice is transferred, `after` is applied, and the command completes (R512). -/
def State.onLog (s : State) (st lid size : Nat) (page : Ctx → List (Nat × Nat × Nat)) (after : Ctx → State → State) :
    Host.Outcome State Fault Refusal :=
  s.onAdmin st 0x02 fun c =>
    if c.lid ≠ lid then s
    else if c.logOff % 4 ≠ 0 || c.logOff ≥ size then s.complete st scInvalidField 0
    else (after c (s.giveData c c.logLen (sliceFields (page c) c.logOff c.logLen))).complete st 0 0

/-- With RAE 0 the read clears the event of a type and log. -/
def clearUnlessRae (ty log : Nat) (c : Ctx) (s : State) : State := if c.rae then s else s.clearEvent ty log

/-- The log pages of R511. -/
def logPages : List Nat := [0x00, 0x01, 0x02, 0x03, 0x04, 0x05, 0x06, 0x81, 0xC0, 0xC1, 0xC2, 0xC3, 0xC4, 0xC5, 0xC6]

/-- R511: one dword for each identifier, bit 0 for a supported page. -/
def execGetLogSupportedPages (stamp : Nat) (s : State) : Host.Outcome State Fault Refusal :=
  s.onLog stamp 0x00 1024 (fun _ => logPages.map fun l => (4 * l, 4, 1)) fun _ s => s

/-- R511: 64 entries, newest first: error count, queue, command identifier, status field. -/
def execGetLogErrorInformation (stamp : Nat) (s : State) : Host.Outcome State Fault Refusal :=
  s.onLog stamp 0x01 4096
    (fun _ => (s.nvme.errLog.zipIdx).flatMap fun (e, i) =>
      [(64 * i, 8, s.nvme.errCount - i), (64 * i + 8, 2, e.1), (64 * i + 10, 2, e.2.1), (64 * i + 12, 2, 2 * e.2.2)])
    fun _ s => s

/-- R511: the changed namespaces, and with RAE 0 the list is emptied and the event cleared. -/
def execGetLogChangedNamespaces (stamp : Nat) (s : State) : Host.Outcome State Fault Refusal :=
  s.onLog stamp 0x04 4096 (fun _ => (s.nvme.changedNs.zipIdx).map fun (n, i) => (4 * i, 4, n)) fun c s =>
    if c.rae then s else (s.modNvme fun n => { n with changedNs := [] }).clearEvent 2 0x04

/-- Commands Supported and Effects of an admin command: bit 0 supported, bit 1 logical block content change, bit 2 namespace
capability change, bit 3 namespace inventory change (NVMe). -/
def adminEffects (op : Nat) : Nat :=
  if !adminSupported op then 0
  else 1 + (if op = 0x80 || op = 0x84 then 2 else 0) + (if op = 0x80 then 4 else 0) + (if op = 0x0D || op = 0x15 then 8 else 0)

/-- The same of an I/O command: Write, Write Zeroes and Dataset Management change logical block content. -/
def ioEffects (op : Nat) : Nat :=
  if !ioSupported op then 0 else 1 + (if op = 0x01 || op = 0x08 || op = 0x09 then 2 else 0)

/-- R511: admin commands from offset 0, I/O commands from offset 1,024, four bytes each. -/
def execGetLogCommandsEffects (stamp : Nat) (s : State) : Host.Outcome State Fault Refusal :=
  s.onLog stamp 0x05 4096
    (fun _ => ((List.range 256).map fun op => (4 * op, 4, adminEffects op)) ++ ((List.range 256).map fun op => (1024 + 4 * op, 4, ioEffects op)))
    fun _ s => s

/-- R511: no operation in progress (assumption log 22), and up to 20 results, newest first: kind in bits 7:4, result in bits 3:0. -/
def execGetLogDeviceSelfTest (stamp : Nat) (s : State) : Host.Outcome State Fault Refusal :=
  s.onLog stamp 0x06 564
    (fun _ => (0, 1, 0) ::
      ((List.range 20).map fun i => (4 + 28 * i, 1, match s.nvme.selfTest.results[i]? with | some r => 16 * r.1 + r.2 | none => 0x0F)))
    fun _ s => s

/-- R498: Sanitize Status: progress, status (0 never, 1 completed, 2 in progress, 3 failed), the action that runs or ran. -/
def execGetLogSanitizeStatus (stamp : Nat) (s : State) : Host.Outcome State Fault Refusal :=
  s.onLog stamp 0x81 512
    (fun _ => [(0, 2, if s.nvme.sanitize = 2 then 0 else 0xFFFF), (2, 2, s.nvme.sanitize), (4, 4, s.nvme.sanAction)])
    (clearUnlessRae 2 0x81)

/-- Eight upper-case hexadecimal ASCII digits, most significant first, as the bytes of a little-endian field (R556). -/
def hexField (digits v : Nat) : Nat :=
  leNat ((List.range digits).map fun i =>
    let d := v / 16 ^ (digits - 1 - i) % 16
    BitVec.ofNat 8 (if d < 10 then 48 + d else 55 + d))

/-- R569: AFI, and for each slot the CORE version of its set, or eight zero bytes. -/
def execGetLogFirmwareSlot (stamp : Nat) (s : State) : Host.Outcome State Fault Refusal :=
  let core := (tgetD s.fw.running 2 {}).version.toNat
  let other := match s.fw.act with
    | some a => (tget a.comps 2).map (·.version.toNat)
    | none => (tget s.fw.other 2).map (·.version.toNat)
  let frs (slot : Nat) : Nat :=
    if slot = s.fw.runSlot then (if thas s.fw.running 2 then hexField 8 core else 0)
    else match other with | some v => hexField 8 v | none => 0
  s.onLog stamp 0x03 512
    (fun _ => [(0, 1, s.fw.runSlot + 16 * s.fw.nextSlot), (8, 8, frs 1), (16, 8, frs 2)])
    (clearUnlessRae 2 0)

/-! Deferred Error log (R98, R100) -/

/-- The fields of one entry at a page offset. -/
def DefEntry.fields (e : DefEntry) (o : Nat) : List (Nat × Nat × Nat) :=
  [(o, 8, e.slba.toNat), (o + 8, 4, e.units.toNat + e.cause.toNat * 2 ^ 16 + e.tier.toNat * 2 ^ 20), (o + 0xC, 4, e.evSeq.toNat),
   (o + 0x10, 8, e.ts.toNat), (o + 0x18, 8, e.wsn.toNat)]

/-- The whole page of a namespace (R100). -/
def Deferred.page (d : Deferred) (nsid : Nat) : List (Nat × Nat × Nat) :=
  [(0, 1, 1), (1, 1, b2n d.inState + 2 * b2n d.reported), (4, 4, nsid), (8, 2, d.entries.length), (0xC, 4, d.lost.toNat),
   (0x10, 8, (d.entries.headD {}).ts.toNat)] ++ (d.entries.zipIdx).flatMap fun (e, i) => e.fields (0x40 + 0x20 * i)

/-- The entries that a read of `len` bytes from offset 0 transfers whole. -/
def wholeEntries (len : Nat) : Nat := (len - 0x40) / 0x20

/-- R98: a read with RAE 0 at offset 0 clears each entry that it transfers whole, and LOST when it transfers bytes 0x00C to
0x00F; with no entry left the namespace leaves the state. -/
def Deferred.afterRead (d : Deferred) (len : Nat) : Deferred :=
  let es := d.entries.drop (wholeEntries len)
  { entries := es, lost := if len ≥ 0x10 then 0 else d.lost, inState := d.inState && !es.isEmpty, reported := d.reported && !es.isEmpty }

/-- Raise the event for log 0xC2 while some namespace is in the deferred-error state (R96, R515). -/
def State.announceDeferred (s : State) : State := if s.host.deferred.any (·.2.inState) then s.raiseEvent 7 0 0xC2 else s

/-- R98: the page of one active namespace; identifier 0xFFFF_FFFF completes with 0x02, any other that is not active with
0x0B. -/
def execGetLogDeferredError (stamp : Nat) (s : State) : Host.Outcome State Fault Refusal :=
  s.onAdmin stamp 0x02 fun c =>
    if c.lid ≠ 0xC2 then s
    else if c.logOff % 4 ≠ 0 || c.logOff ≥ 4096 || c.nsid = 0xFFFFFFFF then s.complete stamp scInvalidField 0
    else if !s.nsActive c.nsid then s.complete stamp scInvalidNs 0
    else
      let d := tgetD s.host.deferred c.nsid {}
      let s := s.giveData c c.logLen (sliceFields (d.page c.nsid) c.logOff c.logLen)
      let s := if c.rae || c.logOff ≠ 0 then s
        else ((s.modHost fun h => { h with deferred := tput h.deferred c.nsid (d.afterRead c.logLen) }).clearEvent 7 0xC2).announceDeferred
      s.complete stamp 0 0

/-! Fault Status log (R593) -/

/-- Code of the collector state (R592). -/
def FltState.code : FltState → Nat
  | .normal => 0
  | .safe => 1
  | .latched => 2
  | .recovering => 3

/-- Milliseconds left of the quiet period; 0 outside the safe state and while latched (R593). -/
def State.quietLeft (s : State) : Nat :=
  if s.flt.state = .safe then (s.flt.quietStart + s.flt.quietMs.toNat * ms - s.now) / ms else 0

/-- Entry of one source. -/
def State.srcFields (s : State) (id : Nat) : List (Nat × Nat × Nat) :=
  let x := s.src id
  let w := s.faultClass id + 4 * b2n x.pending + 8 * b2n x.force + 16 * b2n (thas s.flt.raised id) + 32 * b2n x.masked
  [(0x40 + 16 * id, 4, w), (0x44 + 16 * id, 4, x.count.toNat), (0x48 + 16 * id, 4, x.lastSeq.toNat),
   (0x4C + 16 * id, 4, if x.pending then (s.now - x.pendAt) / ms else 0)]

/-- The header of the Fault Status log. -/
def State.faultHeader (s : State) : List (Nat × Nat × Nat) :=
  [(0, 4, 1 + 2 ^ 8 * s.flt.state.code + 2 ^ 10 * b2n s.cfg.testMode + 2 ^ 11 * b2n (!s.flt.faultN)),
   (4, 4, s.flt.cause.toNat + 2 ^ 10 * b2n s.flt.escalated + 2 ^ 16 * 565),
   (8, 4, (s.flt.srcs.filter (·.2.pending)).length + 2 ^ 16 * s.recovHour), (0xC, 4, s.flt.recovTotal.toNat),
   (0x10, 4, s.quietLeft), (0x14, 2, s.flt.reactionMs.toNat), (0x18, 4, s.flt.quietMs.toNat), (0x1C, 4, s.flt.entries.toNat),
   (0x20, 8, s.flt.entryTs.toNat)]

/-- R593. -/
def execGetLogFaultStatus (stamp : Nat) (s : State) : Host.Outcome State Fault Refusal :=
  s.onLog stamp 0xC3 16448 (fun _ => s.faultHeader ++ (List.range 1024).flatMap s.srcFields) (clearUnlessRae 7 0xC3)

/-! Health Early Warning log (R594, R596) -/

/-- Fields of one warning at a page offset. -/
def Warn.fields (w : Warn) (o : Nat) : List (Nat × Nat × Nat) :=
  [(o, 4, w.kind + w.index * 2 ^ 8 + w.measure * 2 ^ 24), (o + 4, 4, pattern 32 w.value), (o + 8, 4, pattern 32 w.limit),
   (o + 0xC, 4, w.seq.toNat), (o + 0x10, 8, w.ts), (o + 0x18, 4, b2n w.seen)]

/-- R596: a read with RAE 0 at offset 0 marks every entry that it returns as seen and clears the event. -/
def execGetLogHealthEarlyWarning (stamp : Nat) (s : State) : Host.Outcome State Fault Refusal :=
  s.onLog stamp 0xC4 4096
    (fun _ => [(0, 1, 1), (8, 2, s.evt.warns.length), (0xC, 4, s.evt.warnLost.toNat)] ++ (s.evt.warns.zipIdx).flatMap fun (w, i) => w.fields (0x40 + 0x20 * i))
    fun c s =>
      if c.rae || c.logOff ≠ 0 then s
      else (s.modEvt fun e => { e with warns := (e.warns.zipIdx).map fun (w, i) => if 0x40 + 0x20 * i < c.logLen then { w with seen := true } else w }).clearEvent 7 0xC4

/-! The image of the event ring (R597, R598, R602) -/

/-- Fields of one record at a ring offset (R598, R606, R607). -/
def Rec.fields (r : Rec) (o : Nat) : List (Nat × Nat × Nat) :=
  [(o, 2, r.id), (o + 2, 2, r.len + 2 ^ 15), (o + 4, 4, r.seq.toNat), (o + 8, 8, r.time)] ++
  (if r.id = 0 then [] else match r.detail with
    | some d => [(o + 0x10, 4, d.1), (o + 0x14, 4, d.2)] ++ (r.args.zipIdx).map fun (a, i) => (o + 0x18 + 4 * i, 4, a)
    | none => (o + 0x10, 4, r.kind + 2 ^ 8 * r.index) :: (r.args.zipIdx).map fun (a, i) => (o + 0x18 + 8 * i, 8, a))

/-- The ring header (R597). -/
def State.ringHeader (s : State) : List (Nat × Nat × Nat) :=
  [(0, 4, 0x52454B59), (4, 2, 1), (8, 4, s.evt.firstSeq.toNat), (0xC, 4, s.evt.nextSeq.toNat), (0x10, 4, s.evt.head), (0x14, 4, s.evt.tail),
   (0x18, 4, s.evt.lost.toNat), (0x1C, 4, s.evt.bootCount.toNat), (0x20, 8, s.time)]

/-- R602: log offset n returns ring byte n. -/
def execGetLogEventRecorder (stamp : Nat) (s : State) : Host.Outcome State Fault Refusal :=
  s.onLog stamp 0xC1 ringEnd (fun _ => s.ringHeader ++ s.evt.recs.flatMap fun e => e.2.fields e.1) fun _ s => s

/-! Ageing log (R642) -/

/-- Mean tracked retry entry of a die over the blocks that the model lists, rounded up (R310, R639). -/
def State.dieEntry (s : State) (d : Nat) : Nat :=
  let bs := s.flash.blocks.filter fun e => e.1 / 2 ^ 22 == d
  if bs.isEmpty then 0 else ceilDiv (bs.foldl (fun n e => n + e.2.entry) 0) bs.length

/-- Field of one channel: highest mean entry, that die's address, retired blocks of the channel. -/
def State.ageFlash (s : State) (ch : Nat) : Nat :=
  let best := (List.range 32).foldl (fun b a => if s.dieEntry (32 * ch + a) > b.1 then (s.dieEntry (32 * ch + a), a) else b) (0, 0)
  let ret := (s.flashIf.dies.filter fun e => e.1 / 32 == ch).foldl (fun n e => n + e.2.retiredBlocks) 0
  best.1 + 2 ^ 8 * best.2 + 2 ^ 16 * ret

/-- Field of one surface. -/
def State.ageHead (s : State) (f : Nat) : Nat :=
  let fenced := bitAt (s.place.fenceHead.getD (f / 12) 0).toNat (f % 12)
  match (tgetD s.chan.heads f {}).cal with
  | none => 2 ^ 48 * b2n fenced
  | some r =>
    let e := r.entries.getD s.chan.band {}
    (if r.baseAssist = 0 then 0 else e.assist.toNat * 1000 / r.baseAssist.toNat % 2 ^ 16) + 2 ^ 16 * r.lastRres.toNat +
      2 ^ 32 * (r.calCount.toNat % 2 ^ 16) + 2 ^ 48 * b2n fenced + 2 ^ 49

/-- Energy that must be usable from VIN_BKUP, mJ (R616). -/
def State.eRequired (s : State) : Nat := (if s.keyN 0x0401 0 2 = 0 then 600 else 1500) + s.key2 0x0607

/-- R642. -/
def execGetLogAgeing (stamp : Nat) (s : State) : Host.Outcome State Fault Refusal :=
  let p := s.pwr
  let first := p.cpmFirst.getD []
  s.onLog stamp 0xC5 512
    (fun _ =>
      [(0, 4, 1 + 2 ^ 8 * p.ceiling + 2 ^ 16 * p.ageOffset), (4, 4, p.replanEpoch.toNat), (8, 8, p.replanTs)] ++
      ((List.range 8).map fun i => (0x10 + 4 * i, 4, pattern 16 (p.cpm.getD i 0) + 2 ^ 16 * pattern 16 (first.getD i 0))) ++
      [(0x30, 2, s.key2 0x0606), (0x34, 4, p.trips.toNat), (0x38, 4, p.bank.c), (0x3C, 2, p.bank.esr), (0x3E, 2, p.bank.margin),
       (0x40, 4, p.bank.eUsable), (0x44, 4, s.eRequired), (0x48, 8, p.bank.ts)] ++
      ((List.range 4).map fun i =>
        let u := s.dram.subs.getD i {}
        (0x50 + 4 * i, 4, u.minEyeR + 2 ^ 8 * u.minEyeW + 2 ^ 16 * u.minMvR + 2 ^ 24 * u.minMvW)) ++
      ((List.range 32).map fun ch => (0x80 + 4 * ch, 4, s.ageFlash ch)) ++
      ((List.range 24).map fun f => (0x100 + 8 * f, 8, s.ageHead f)))
    (clearUnlessRae 7 0xC5)

end Sys2Proof.Machine
end

