-- ==== Sys2Proof/Machine/Ageing.lean ====
section
/-!
DEFINITION. Ageing: re-planning of margins at each start and once per epoch, and the measures that an epoch reports (R32, R429, R595, R639 to R642).
-/
namespace Sys2Proof.Machine
open Sys2Proof

/-- The smallest of some margins; the target itself where none is given. -/
def leastMargin (t : Int) (l : List Int) : Int := match l with
  | [] => t
  | a :: r => r.foldl min a

/-- Steps 1 and 2 of R640: each round gives, for OP0 to OP3, the margins of the 8 monitors; OPs above the ceiling are not tried. Answers the
ageing offset, the margins at the ceiling OP, the smallest margin, and whether every OP met the target. -/
def replanRounds (ceiling : Nat) (target : Int) : Nat → List (List (List Int)) → Nat × List Int × Int × Bool
  | off, [] => (off, [], target, true)
  | off, r :: rest =>
    let tried := (List.range 4).filter fun o => decide (ceiling ≤ o)
    let low := leastMargin target (tried.flatMap fun o => r.getD o [])
    if target ≤ low then (off, r.getD ceiling [], low, true)
    else if rest.isEmpty || 50 ≤ off then (off, r.getD ceiling [], low, false)
    else replanRounds ceiling target (off + 5) rest

/-- OP0 of the last round missed the target. -/
def op0Low (target : Int) (rounds : List (List (List Int))) : Bool :=
  match rounds.getLast? with
  | some r => decide (leastMargin target (r.getD 0 []) < target)
  | none => false

/-- R640: re-planning. The ageing offset never falls; at 50 mV with OP0 still below target OP0 is withdrawn for life. Offset and ceiling are kept in
the recorder partition. Without a measurement (an empty list) nothing is re-planned. -/
def State.replan (s : State) (rounds : List (List (List Int))) : State :=
  if rounds.isEmpty then s
  else
    let target : Int := s.key2 0x0606
    let ceil0 := max s.pwr.ceiling s.evt.mirror.ceiling
    let (off, cpm, low, met) := replanRounds ceil0 target (max s.pwr.ageOffset s.evt.mirror.ageOffset) rounds
    let ceil := if !met && 50 ≤ off && ceil0 = 0 && op0Low target rounds then 1 else ceil0
    let changed := decide (off ≠ s.pwr.ageOffset) || decide (ceil ≠ s.pwr.ceiling)
    let s := s.modPwr fun p => { p with
      ageOffset := off, ceiling := ceil, cpm := if cpm.isEmpty then p.cpm else cpm
      cpmFirst := if p.cpmFirst.isSome || cpm.isEmpty then p.cpmFirst else some cpm
      replanEpoch := s.place.epoch, replanTs := s.stamp }
    let s := (s.modEvt fun e => { e with mirror := { e.mirror with ageOffset := off, ceiling := ceil } }).retuneOp
    let s := if changed then s.note 0x910A 0 0 [off, ceil] else s
    if 4 * low ≤ 5 * target then s.healthWarn 5 ((cpm.findIdx? (· == low)).getD 0) 9 low (5 * target / 4) else s

/-- A subchannel after a measurement of its eyes: its smallest margins (R429). -/
def SubCh.eyes (x : SubCh) (e : Nat × Nat × Nat × Nat) : SubCh := { x with minEyeR := e.1, minEyeW := e.2.1, minMvR := e.2.2.1, minMvW := e.2.2.2 }

/-- The health measures of an epoch: DRAM eyes against key 0x0154 (measure 8), and each die's mean tracked retry entry (measure 11). -/
def State.epochHealth (s : State) : State :=
  let t := s.keyN 0x0154 0 2
  let v := s.keyN 0x0154 2 2
  let s := (List.range 4).foldl (fun s i =>
    let u := s.dram.subs.getD i {}
    let rel (m k : Nat) : Nat := if k = 0 then 0 else 1000 * m / k
    let least := min (min (rel u.minEyeR t) (rel u.minEyeW t)) (min (rel u.minMvR v) (rel u.minMvW v))
    if least ≤ 1250 then s.healthWarn 4 i 8 least 1250 else s) s
  s.flashIf.dies.foldl (fun s e =>
    let n := ((s.key 0x012D).length / 16)
    if 3 * n ≤ 4 * s.dieEntry e.1 && n ≠ 0 then s.healthWarn 2 e.1 11 (s.dieEntry e.1) (3 * n / 4 : Nat) else s) s

/-- R32, R429, R639, R640: the epoch count advances after each key 0x0201 seconds of powered time; the die counts of one epoch start again (R318).
`margins`: the rounds of re-planning. `eyes`: the DRAM margins measured in the epoch, none while DRAM is not in use. -/
def execEpochAdvance (margins : List (List (List Int))) (eyes : List (Nat × Nat × Nat × Nat)) (s : State) : Host.Outcome State Fault Refusal :=
  if s.pwr.crst then .next s
  else
  let s := s.reach (s.place.epochStart + s.key4 0x0201 * sec)
  let s := s.modPlace fun p => { p with epoch := p.epoch + 1, epochStart := s.now }
  let s := s.modFlashIf fun f => { f with dies := f.dies.map fun e => (e.1, { e.2 with step4 := 0 }) }
  let s := s.replan margins
  if eyes.isEmpty then .next s
  else .next (s.modDram fun d => { d with subs := (d.subs.zipIdx).map fun (x, i) => x.eyes (eyes.getD i (0, 0, 0, 0)) }).epochHealth

end Sys2Proof.Machine
end

