-- ==== Sys2Proof/Machine/Garek.lean ====
section
/-!
DEFINITION. The Garek image: its bytes parsed and checked (R522 to R532, and the conditions that the key tables of the other chapters
set), and what its events are.
-/
namespace Sys2Proof.Machine
open Sys2Proof

/-! Records and sections (R524) -/

/-- Round a length up to a multiple of 4. -/
def up4 (n : Nat) : Nat := ceilDiv n 4 * 4

/-- The records of a section, with fuel for as many records as it could hold; none where it does not parse. -/
def parseRecs : Nat → List Byte → Option (List (Nat × List Byte))
  | 0, bs => if bs.isEmpty then some [] else none
  | n + 1, bs =>
    if bs.isEmpty then some []
    else
      let k := fieldAt bs 0 2
      let len := fieldAt bs 2 2
      let body := (bs.drop 4).take (up4 len)
      if bs.length < 4 + up4 len || k = 0 || k ≥ 0xFF00 || (body.drop len).any (· != 0) then none
      else (parseRecs n (bs.drop (4 + up4 len))).map fun t => (k, body.take len) :: t

/-- A section at an offset. -/
def parseSection (bs : List Byte) (off len : Nat) : Option (List (Nat × List Byte)) := parseRecs (len / 4) ((bs.drop off).take len)

/-- A table of the records of a section, without key 0x0301. -/
def recTab (l : List (Nat × List Byte)) : Tab (List Byte) := (l.filter fun r => r.1 != 0x0301).foldl (fun t r => tput t r.1 r.2) []

/-- No key twice in a section; key 0x0301 once for each index, and only where `common` allows it (R526). -/
def recsUnique (common : Bool) (l : List (Nat × List Byte)) : Bool :=
  let ks := (l.filter fun r => r.1 != 0x0301).map (·.1)
  let ix := (l.filter fun r => r.1 == 0x0301).map fun r => fieldAt r.2 0 1
  decide ks.Nodup && decide ix.Nodup && (common || ix.isEmpty)

/-! The header (R523, R526) -/

/-- Dwords of the header. -/
def hdr (bs : List Byte) (off : Nat) : Nat := fieldAt bs off 4

/-- The header fields hold, the sections lie in order, the CRC is right. -/
def garekHeader (bs : List Byte) : Bool :=
  let len := hdr bs 8
  let w := hdr bs 0x10
  let body := if bitAt w 16 then len - 96 else len
  decide (128 ≤ bs.length) && decide (hdr bs 0 = 0x4B455247) && decide (hdr bs 4 = 0x00800001) && decide (bits w 0 16 = 0x7400) &&
    decide (bits w 19 13 = 0) && ((bs.drop 0x38).take 0x44).all (· == 0) && decide (len ≤ 1048576) && decide (len ≤ bs.length) &&
    decide (hdr bs 0x14 = 0x80) && decide (hdr bs 0x1C = 0x80 + hdr bs 0x18) && decide (hdr bs 0x24 = hdr bs 0x1C + hdr bs 0x20) &&
    decide (hdr bs 0x24 + hdr bs 0x28 = body) && decide (hdr bs 0x18 % 4 = 0) && decide (hdr bs 0x20 % 4 = 0) && decide (hdr bs 0x28 % 4 = 0) &&
    decide ((crc32c ((bs.take 0x7C) ++ [0, 0, 0, 0] ++ (bs.take body).drop 128)).toNat = hdr bs 0x7C)

/-! Values (R526, R527) -/

/-- The value that an image gives a key for a profile, where it gives one and uses it. -/
def Image.given (img : Image) (drain : Bool) (r : KeyRow) (k : Nat) : Option (List Byte) :=
  if r.prof then (tget (if drain then img.drain else img.capture) k).orElse fun _ => tget img.common k else tget img.common k

/-- The fields of a value lie in their ranges. -/
def fieldsOk : List (Nat × Int × Int) → List Byte → Bool
  | [], _ => true
  | f :: t, bs =>
    let x := leNat (bs.take f.1)
    let v : Int := if f.2.1 < 0 then signed (8 * f.1) x else x
    decide (f.2.1 ≤ v) && decide (v ≤ f.2.2) && fieldsOk t (bs.drop f.1)

/-- The length and the ranges of every value used by a profile. -/
def Image.valuesOk (img : Image) (drain : Bool) : Bool :=
  keyRows.all fun r => (List.range (r.hi - r.lo + 1)).all fun i =>
    match img.given drain r (r.lo + i) with
    | none => true
    | some v => decide (r.minLen ≤ v.length) && decide (v.length ≤ r.maxLen) && fieldsOk r.fields v

/-- A product with a Rack tier. -/
def Image.rack (img : Image) : Bool := decide (fieldAt (img.value false 0x0401) 0 2 ≠ 0)

/-- Every required key is present; those of the Rack tier only on a product with one. -/
def Image.requiredOk (img : Image) : Bool :=
  keyRows.all fun r => (List.range (r.hi - r.lo + 1)).all fun i =>
    let need := r.req || r.lo == 0x0402 || r.lo == 0x0508
    !need || ((0x0400 ≤ r.lo && r.lo < 0x0600) && !img.rack) || thas img.common (r.lo + i)

/-! Conditions across values -/

/-- Values of w bytes. -/
def valuesOf (w : Nat) (bs : List Byte) : List Nat := (chunksOf w bs).map leNat

/-- Rising, strictly or not. -/
def rising (strict : Bool) : List Nat → Bool
  | a :: b :: t => (if strict then decide (a < b) else decide (a ≤ b)) && rising strict (b :: t)
  | _ => true

/-- Media, interface and memory keys (R215, R237, R322, R422, R440, R443, R455). -/
def Image.mediaOk (img : Image) : Bool :=
  let v (k off w : Nat) : Nat := fieldAt (img.value false k) off w
  let flashRates := [800, 1200, 1600, 2400, 3200, 3600, 4000, 4800]
  let dramRates := [3200, 4000, 4800, 5600, 6400, 7200, 8000]
  let pool (p : Nat) : Nat := v 0x0150 (2 * p) 2
  let named := [1, 3, 4, 5, 6, 7, 8, 9, 10, 11]
  let dev := v 0x0153 0 1
  let gib := 4 * v 0x0153 2 1 * (32 / dev) * v 0x0153 1 1 / 8
  let rate := ((chunksOf 12 (img.value false 0x0402)).map fun z => fieldAt z 10 2).foldl max 0
  flashRates.contains (v 0x0101 0 2) && flashRates.contains (v 0x0102 0 2) && decide (v 0x0102 0 2 ≤ v 0x0101 0 2) &&
    [0, 50, 75, 100, 150].contains (v 0x0105 0 2) && (valuesOf 2 (img.value false 0x0107)).all (fun x => x == 0 || (10 ≤ x && x ≤ 2000)) &&
    decide (v 0x012B 0 2 < v 0x012B 2 2) && decide ((img.value false 0x012D).length % 16 = 0) && decide (v 0x0140 0 4 ≤ gib * 64) &&
    dramRates.contains (v 0x0151 0 2) && dramRates.contains (v 0x0152 0 2) && decide (v 0x0152 0 2 ≤ v 0x0151 0 2) &&
    (dev == 8 || dev == 16) && [16, 24, 32, 64].contains (v 0x0153 1 1) && decide ((16 : Nat) ≤ gib) && decide (gib ≤ 128) &&
    decide ((named.map pool).sum ≤ 7936) && named.all (fun p => 64 ≤ pool p) && [0, 2, 12, 13, 14, 15].all (fun p => pool p == 0) &&
    decide (v 0x0156 0 2 < v 0x0156 2 2) && decide (v 0x0156 4 2 < v 0x0156 6 2) && decide (v 0x0156 8 2 < v 0x0156 10 2) &&
    decide (4 * rate ≤ v 0x0156 0 2) && decide (4 * rate ≤ v 0x0156 4 2)

/-- Placement keys of a profile (R63). -/
def Image.placementOk (img : Image) (drain : Bool) : Bool :=
  let val (k : Nat) : List Byte := img.value drain k
  rising false (valuesOf 2 (val 0x0204)) && rising true (valuesOf 4 (val 0x0205)) && decide (fieldAt (val 0x0210) 0 2 < fieldAt (val 0x0211) 0 2) &&
    (let t := fieldAt (val 0x0405) 0 4; t == 0 || 10 ≤ t)

/-- A notch biquad has a DC gain of 1 within 2^-20 of Q2.30 (R397). -/
def biquadOk (bs : List Byte) : Bool :=
  let c (i : Nat) : Int := signed 32 (fieldAt bs (4 * i) 4)
  decide (((c 0 + c 1 + c 2) - (2 ^ 30 + c 3 + c 4)).natAbs ≤ 2 ^ 10)

/-- The bank key of an actuator (R397, R398): 24 records, then 8 notch sets of 12 biquads. -/
def bankOk (bs : List Byte) : Bool :=
  ((List.range 24).all fun i =>
    let w := fieldAt bs (64 * i + 0x30) 4
    decide (bits w 0 4 ≤ 12) && decide (bits w 4 4 ≤ 12) && !(i % 3 == 0 && bitAt w 8) && decide (bits w 10 22 = 0) && decide (fieldAt bs (64 * i + 0x38) 8 = 0)) &&
  (List.range 8).all fun i =>
    ((List.range 12).all fun j => biquadOk ((bs.drop (1536 + 256 * i + 20 * j)).take 20)) && decide (fieldAt bs (1536 + 256 * i + 240) 16 = 0)

/-- Rack, channel and servo keys of a product with a Rack tier (R323, R324, R347, R358, R360, R385, R421). -/
def Image.rackOk (img : Image) : Bool :=
  let v (k off w : Nat) : Nat := fieldAt (img.value false k) off w
  let sg (k off : Nat) : Int := Sys2Proof.Machine.signed 16 (v k off 2)
  let h (a : Nat) : Nat := v 0x0401 (2 * a) 2
  let zones := chunksOf 12 (img.value false 0x0402)
  let bands := (zones.map fun z => fieldAt z 0 4).sum
  let stroke (a : Nat) : List Nat := valuesOf 4 ((img.value false 0x0501).drop (32 * a))
  !img.rack && decide (h 1 = 0) || img.rack && (decide (3 ≤ h 0) && decide (3 ≤ h 1) && decide (v 0x0407 0 2 < v 0x0407 2 2) &&
    decide ((img.value false 0x0402).length % 12 = 0) && decide (bands ≤ 8388608) &&
    zones.all (fun z => 4096 ≤ fieldAt z 4 4 && fieldAt z 4 4 ≤ 65536 && 100 ≤ fieldAt z 10 2 && fieldAt z 10 2 ≤ 930) &&
    decide (66 * 1048576 + bands * 524288 + 64 * 1048576 ≤ v 0x0403 0 2 * 2 ^ 30) &&
    decide ((img.value false 0x0414).length = 40 * (h 0 + h 1)) && decide (sg 0x0413 0 < sg 0x0413 2) && decide (sg 0x0413 4 < sg 0x0413 6) &&
    decide (sg 0x0413 4 ≤ sg 0x0413 0) && decide (sg 0x0413 2 ≤ sg 0x0413 6) && decide (v 0x0415 0 2 ≤ 10000) && decide (100 ≤ v 0x0415 2 2) &&
    decide (v 0x0415 2 2 ≤ 2000) && decide (v 0x0416 0 2 < v 0x0416 2 2) && decide ((img.value false 0x0418).length % 8 = 0) &&
    [0, 1].all (fun a =>
      let ta := (stroke a).headD 0
      let bs := ((stroke a).drop 1).take 7
      rising true bs && bs.all fun b => 1 ≤ b && b < ta) &&
    bankOk (img.value false 0x0502) && bankOk (img.value false 0x0503) && decide (v 0x050C 4 4 < (stroke 0).getD 1 0) && decide (v 0x050C 4 4 < (stroke 1).getD 1 0))

/-- A thermistor that key 0x0704 marks as fitted. -/
def Image.fitted (img : Image) (i : Nat) : Bool := decide (fieldAt (img.value false 0x0704) (8 * i + 6) 2 = 1)

/-- Power, thermal, identity, fault and boot NVM keys (R484, R554, R584, R645, R646); `nvm` is the size of the boot NVM. -/
def Image.otherOk (img : Image) (nvm : Nat) : Bool :=
  let v (k off w : Nat) : Nat := fieldAt (img.value false k) off w
  let prot := img.value false 0x0B01
  decide (v 0x0701 0 2 < v 0x0702 0 2) && decide (v 0x0706 0 2 < v 0x0706 2 2) &&
    (img.value false 0x0703).all (fun b => b == 0xFF || (decide (b.toNat ≤ 3) && img.fitted b.toNat)) && (!img.rack || img.fitted (v 0x0412 0 2)) &&
    (List.range 4).all (fun i => v 0x0704 (8 * i + 6) 2 ≤ 1 &&
      (!img.fitted i || (1000 ≤ v 0x0704 (8 * i) 4 && v 0x0704 (8 * i) 4 ≤ 100000 && 2500 ≤ v 0x0704 (8 * i + 4) 2 && v 0x0704 (8 * i + 4) 2 ≤ 5000))) &&
    [1, 2, 4, 8].contains (v 0x0804 0 2) && (decide (v 0x0806 0 2 ≤ 15) || v 0x0806 0 2 == 0xFFFF) && decide ((img.value false 0x0902).length % 4 = 0) &&
    (chunksOf 4 (img.value false 0x0902)).all (fun e =>
      let id := fieldAt e 0 2
      let c := fieldAt e 2 2
      8 ≤ id && defaultClass id ≠ 0 && defaultClass id < c && c ≤ 3) &&
    ((prot.zipIdx).all fun (b, i) => (List.range 8).all fun j => !bitAt b.toNat j || decide ((8 * i + j) * 65536 < nvm))

/-- The signature rules of R531 against the key register. `good` is the verdict of the security block on the signature and on the key of
0x0A01 as a point of P-384. -/
def Image.signOk (img : Image) (digest : BitVec 384) (good : Bool) : Bool :=
  let key := img.common.find? fun e => e.1 == 0x0A01
  if img.signed then
    match key with
    | some k => good && (digest == 0 || digest == Config.sha384 k.2)
    | none => false
  else digest == 0 && decide (fieldAt (img.value false 0x0A02) 0 2 = 0) && (key.isNone || good)

/-- The image that bytes hold, if it is valid (R526). -/
def parseGarek (bs : List Byte) (digest : BitVec 384) (good : Bool) (nvm : Nat) : Option Image :=
  match parseSection bs 0x80 (hdr bs 0x18), parseSection bs (hdr bs 0x1C) (hdr bs 0x20), parseSection bs (hdr bs 0x24) (hdr bs 0x28) with
  | some c, some k, some d =>
    let w := hdr bs 0x10
    let img : Image :=
      { len := hdr bs 8, version := BitVec.ofNat 32 (hdr bs 0xC), signed := bitAt w 16, pinEn := bitAt w 17, bootDrain := bitAt w 18
        builder := BitVec.ofNat 32 (hdr bs 0x2C), buildTime := BitVec.ofNat 64 (fieldAt bs 0x30 8), common := recTab c, capture := recTab k, drain := recTab d
        formats := (c.filter fun r => r.1 == 0x0301).foldl (fun t r => tput t (fieldAt r.2 0 1) (r.2.drop 4)) [] }
    if garekHeader bs && recsUnique true c && recsUnique false k && recsUnique false d && (c.all fun r => r.1 != 0x0301 || r.2.length == 68) &&
       img.valuesOk false && img.valuesOk true && img.requiredOk && img.mediaOk && img.placementOk false && img.placementOk true && img.rackOk &&
       img.otherOk nvm && img.signOk digest good then some img else none
  | _, _, _ => none

/-! Events of an image at start (R63, R528, R532) -/

/-- One event for each unknown key, and for each global key in a profile section: (event, key, section). -/
def Image.events (img : Image) : List (Nat × Nat × Nat) :=
  let unknown (sec : Nat) (t : Tab (List Byte)) : List (Nat × Nat × Nat) := (t.filter fun e => (keyRow? e.1).isNone).map fun e => (0x0005, e.1, sec)
  let global (sec : Nat) (t : Tab (List Byte)) : List (Nat × Nat × Nat) :=
    (t.filter fun e => match keyRow? e.1 with | some r => !r.prof | none => false).map fun e => (0x0006, e.1, sec)
  unknown 0 img.common ++ unknown 1 img.capture ++ unknown 2 img.drain ++ global 1 img.capture ++ global 2 img.drain

/-- Test mode is unlocked by a signed image with key 0x0A03 equal to the die's unique ID (R532). -/
def Image.unlocks (img : Image) (uid : BitVec 64) : Bool :=
  img.signed && img.present 0x0A03 && decide (fieldAt (img.value false 0x0A03) 0 8 = uid.toNat)

/-- Classes raised by key 0x0902. -/
def Image.classRaises (img : Image) : Tab Nat := (chunksOf 4 (img.value false 0x0902)).foldl (fun t e => tput t (fieldAt e 0 2) (fieldAt e 2 2)) []

/-- Record the events of an image. -/
def State.noteImage (s : State) (img : Image) : State :=
  let s := img.events.foldl (fun s e => s.note e.1 0 0 [e.2.1, e.2.2]) s
  if img.present 0x0A03 && !img.unlocks s.cfg.factoryUid then s.note 0x8005 0 0 [] else s

end Sys2Proof.Machine
end

