-- ==== Sys2Proof/Machine/RackOps.lean ====
section
/-!
DEFINITION. The Rack tier's operations: geometry, capacities and write rates, stacks from opening to discard, heads that are lost,
and the spin states (R323 to R357, R381, R382).
-/
namespace Sys2Proof.Machine
open Sys2Proof

/-! Geometry (R323 to R331, R337) -/

/-- Heads that key 0x0401 gives an actuator. -/
def State.rackHeads (s : State) (a : Nat) : Nat := s.keyN 0x0401 (2 * a) 2

/-- A Rack tier is configured. -/
def State.rackPresent (s : State) : Bool := decide (s.rackHeads 0 ≠ 0)

/-- Heads of an actuator that are not retired. -/
def State.liveHeads (s : State) (a : Nat) : List Nat :=
  (List.range (s.rackHeads a)).filter fun h => !bitAt (s.place.fenceHead.getD a 0).toNat h && !(tgetD s.chan.heads (12 * a + h) {}).retiring

/-- W of stacks opened now. -/
def State.rackW (s : State) (a : Nat) : Nat := (s.liveHeads a).length

/-- The zones as (bands, sectors, rate) (R324). -/
def State.zones (s : State) : List (Nat × Nat × Nat) :=
  (chunksOf 12 (s.key 0x0402)).map fun b => (fieldAt b 0 4, fieldAt b 4 4, fieldAt b 10 2)

/-- The zone of a band index. -/
def zoneOf : List (Nat × Nat × Nat) → Nat → Nat × Nat × Nat
  | [], _ => (0, 0, 0)
  | z :: t, b => if b < z.1 then z else zoneOf t (b - z.1)

/-- Sectors of a band and rate of its zone in MB/s. -/
def State.bandSectors (s : State) (b : Nat) : Nat := (zoneOf s.zones b).2.1
def State.bandRate (s : State) (b : Nat) : Nat := (zoneOf s.zones b).2.2

/-- Stack indices of an actuator. -/
def State.stackIndices (s : State) : Nat := s.zones.foldl (fun n z => n + z.1) 0

/-- Data space of stack b at member count w, crumbs (R327). -/
def State.stackData (s : State) (b w : Nat) : Nat := 8 * s.bandSectors b * (w - 1)

/-- Band sectors of the stacks with index below n. -/
def sectorsBelow : List (Nat × Nat × Nat) → Nat → Nat
  | [], _ => 0
  | z :: t, n => min n z.1 * z.2.1 + sectorsBelow t (n - z.1)

/-- Rack data capacity in crumbs (R331). -/
def State.rackCap (s : State) : Nat :=
  if s.rackPresent then
    ([0, 1].map fun a => 8 * (s.rackW a - 1) * sectorsBelow s.zones (s.stackIndices - s.keyN 0x0407 0 2)).sum
  else 0

/-- The record of a stack: index b of actuator a. -/
def stackNo (a b : Nat) : Nat := a * 2 ^ 23 + b
def State.stack (s : State) (n : Nat) : StackSt := tgetD s.rack.stackTab n {}
def State.modStack (s : State) (n : Nat) (f : StackSt → StackSt) : State := s.modRack fun r => { r with stackTab := tmod r.stackTab n {} f }

/-- Change an actuator. -/
def State.act (s : State) (a : Nat) : ActSt := s.rack.acts.getD a {}
def State.modAct (s : State) (a : Nat) (f : ActSt → ActSt) : State := s.modRack fun r => { r with acts := lmod r.acts a f }

/-- The free stack with the lowest index (R330). -/
def State.freeStack (s : State) (a : Nat) : Option Nat :=
  (List.range (s.rack.stackTab.length + 1)).find? fun b =>
    decide (b < s.stackIndices) && decide ((s.stack (stackNo a b)).phase = .free) && !(s.stack (stackNo a b)).resetDue

/-- Free stacks of an actuator. -/
def State.freeStacks (s : State) (a : Nat) : Nat :=
  s.stackIndices - (s.rack.stackTab.filter fun e => e.1 / 2 ^ 23 == a && (decide (e.2.phase ≠ .free) || e.2.resetDue)).length

/-- Rack data space in use: stacks open as far as placed, closed ones whole (by analogy with F; assumption log 21). -/
def State.rackUsed (s : State) : Nat :=
  s.rack.stackTab.foldl (fun n e =>
    let a := e.1 / 2 ^ 23
    if e.2.phase = .closed || e.2.phase = .closing then n + s.stackData (e.1 % 2 ^ 23) e.2.members.length
    else if e.2.phase = .opened then n + (s.act a).used else n) 0

/-- rack_online (R350). -/
def State.rackOnline (s : State) : Bool := decide (s.rack.spin = .ready)

/-- An actuator is fenced. -/
def State.actFenced (s : State) (a : Nat) : Bool := bitAt s.place.fenceAct.toNat a

/-- Queued bytes of an actuator's migration queue. -/
def State.queueBytes (s : State) (a : Nat) : Nat := ((s.place.queues.getD a []).filter (!·.knead)).foldl (fun n q => n + 512 * q.crumbs) 0

/-- usable(a) of R51. -/
def State.usable (s : State) (a : Nat) : Bool :=
  s.rackOnline && !s.actFenced a && ((s.act a).openStack.isSome || (s.freeStack a).isSome) && decide (3 ≤ s.rackW a)

/-- The stack whose zone sets an actuator's write rate. -/
def State.rateStack (s : State) (a : Nat) : Nat := ((s.act a).openStack.orElse fun _ => s.freeStack a).getD 0

/-- Time to write one stack, and its data bytes, both scaled alike: numerator and denominator of seconds for one byte, times
1,000,000,000 (R337). -/
def State.byteTime (s : State) (a : Nat) : Nat × Nat :=
  let b := s.rateStack a
  let w := s.rackW a
  let sec4 := s.bandSectors b * 4096
  let rate := s.bandRate b
  (3000 * (w + 1) * sec4 + rate * (25000000 * (w - 1) + 3000000 * w), 3 * rate * (w - 1) * sec4)

/-- backlog(a) > backlog(b) + IMBALANCE (R51). -/
def State.backlogAbove (s : State) (a b : Nat) : Bool :=
  let x := s.byteTime a
  let y := s.byteTime b
  decide (s.queueBytes b * y.1 * x.2 + s.key2 0x0229 * 1000000 * y.2 * x.2 < s.queueBytes a * x.1 * y.2)

/-- choose_actuator of R51. -/
def State.chooseActuator (s : State) (nsid lcn : Nat) : Option Nat :=
  let pref := (lcn / s.key2 0x0228 + nsid) % 2
  let other := 1 - pref
  if !s.usable pref && !s.usable other then none
  else if !s.usable pref then some other
  else if !s.usable other then some pref
  else if s.backlogAbove pref other then some other else some pref

/-- Migration is allowed (R48). -/
def State.migAllowed (s : State) : Bool :=
  s.rackPresent && s.rackOnline && !(s.actFenced 0 && s.actFenced 1) && (decide (s.key2 0x0220 = 1) || s.bakeBelow (s.key2 0x0224))

/-- Emergency migration starts below the critical level and ends at twice it (R50). -/
def State.evalEmergency (s : State) : State :=
  let permille := if s.bakeCap = 0 then 0 else (s.bakeCap - s.bakeUsed) * 1000 / s.bakeCap
  if !s.rackPresent then s
  else if !s.place.emergency && s.bakeBelow (s.key2 0x0224) then
    (s.modPlace fun p => { p with emergency := true }).note 0x2003 0 0 [permille]
  else if s.place.emergency && !s.bakeBelow (2 * s.key2 0x0224) then
    (s.modPlace fun p => { p with emergency := false }).note 0x2004 0 0 [permille]
  else s

/-! Parameters of a head (R372, R374, R375) -/

def State.rw (s : State) (a : Nat) : RwSt := s.chan.rw.getD a {}
def State.modRw (s : State) (a : Nat) (f : RwSt → RwSt) : State := s.modChan fun c => { c with rw := lmod c.rw a f }

/-- The calibration record of a surface. -/
def State.calRec (s : State) (surface : Nat) : Option CalRec := (tgetD s.chan.heads surface {}).cal

/-- A surface's initial set for a band: 8 bytes in the order of R374 (key 0x0414). -/
def State.initialSet (s : State) (surface band : Nat) : CalEntry :=
  let n := if surface < 12 then surface else s.rackHeads 0 + surface - 12
  let bs := ((s.key 0x0414).drop (40 * n + 8 * band)).take 8
  { assist := BitVec.ofNat 16 (fieldAt bs 0 2), wcur := BitVec.ofNat 8 (fieldAt bs 2 1), wos := BitVec.ofNat 8 (fieldAt bs 3 1)
    whtr := BitVec.ofNat 16 (fieldAt bs 4 2), rhtr := BitVec.ofNat 16 (fieldAt bs 6 2) }

/-- The parameter set in force before the temperature correction (R374, R376). -/
def State.paramSet (s : State) (surface : Nat) : CalEntry :=
  match (s.calRec surface).bind fun r => r.entries[s.chan.band]? with
  | some e => if e.valid then e else s.initialSet surface s.chan.band
  | none => s.initialSet surface s.chan.band

/-- The set as it is applied: both heater codes less the coefficient of key 0x041D times the change of Rack temperature since the set was calibrated, to
nearest and within the heater range (R374). The initial sets name no temperature and are applied as they are (assumption log 41). -/
def State.appliedSet (s : State) (surface : Nat) : CalEntry :=
  let e := s.paramSet surface
  let less : Int := if e.valid then (signed 16 (s.key2 0x041D) * (s.chan.rackTemp - 8 * e.temp.toInt) + 64) / 128 else 0
  let r := Config.heaterRange (s.key 0x0411)
  let code (x : BitVec 16) : BitVec 16 := BitVec.ofInt 16 (max r.1 (min r.2 ((x.toNat : Int) - less)))
  { e with whtr := code e.whtr, rhtr := code e.rhtr }

/-- The set of the head in use is loaded. -/
def State.loadSet (s : State) (a : Nat) : State :=
  s.modRw a fun w => { w with params := s.appliedSet (12 * a + (s.servo.acts.getD a {}).head.toNat) }

/-- Heaters and assist are turned off (R384). -/
def State.heatersOff (s : State) (a : Nat) : State := s.modRw a fun w => { w with params := { w.params with assist := 0, whtr := 0, rhtr := 0 } }

/-- A change of the Rack band reaches the reads at once and a band being written at its end (R375). -/
def State.bandParams (s : State) : State :=
  (List.range 2).foldl (fun s a => if (s.rw a).writing.isNone && (s.servo.acts.getD a {}).mode ≠ .parked then s.loadSet a else s) s

/-! Pending work and spin-up (R351, R354) -/

/-- Some stack is rebuild-due, or an actuator's free stacks are below the low threshold. -/
def State.rackKneadDue (s : State) (a : Nat) : Bool :=
  (s.rack.stackTab.any fun e => e.1 / 2 ^ 23 == a && decide (e.2.phase = .closed) && (!e.2.rebuildDue.isEmpty || e.2.refreshDue)) ||
    (s.act a).kneading || decide (s.freeStacks a < s.keyN 0x0407 0 2)

/-- Rack work is pending (R351). -/
def State.rackWork (s : State) : Bool :=
  s.rackPresent && ([0, 1].any fun a =>
    !(s.place.queues.getD a []).isEmpty || !(s.act a).staging.isEmpty ||
    (s.rack.stackTab.any fun e => e.1 / 2 ^ 23 == a && decide (e.2.phase = .closed) && !e.2.rebuildDue.isEmpty) ||
    (s.act a).kneading || decide (s.freeStacks a < s.keyN 0x0407 0 2))

/-- Migration, Rack Knead and rebuild demand spin-up, except after action 2 (R354). -/
def State.flowDemand (s : State) : State := if s.rack.demandHeld then s else s.demandSpin

/-- In SPINDOWN, once no head is off its ramp the spindle brakes: by reverse torque at the braking current limit of key 0x0508 (R416). -/
def State.brakeWhenParked (s : State) : State :=
  if s.rack.spin = .spindown && s.servo.acts.all (fun a => decide (a.mode = .parked) || decide (a.mode = .fenced)) then
    s.modServo fun v => { v with spindle := { v.spindle with state := .braking, srvLock := false, cmd := -(s.keyN 0x0508 6 2 : Int) } }
  else s

/-- Heads that are off their ramps unload. -/
def ServoSt.unloadAll (v : ServoSt) : ServoSt :=
  { v with acts := v.acts.map fun a => if a.mode = .fenced || a.mode = .parked then a else { a with mode := .unloading, locked := false, uM := 0, hand := none } }

/-- SPINDOWN is entered: calibrations end, heads unload. -/
def State.enterSpindown (s : State) (reduced lowv : Bool) : State :=
  (((s.modRack fun r => { r with spin := .spindown, toReduced := reduced, lowv := lowv, demand := false }).modChan fun c =>
    { c with rw := c.rw.map fun w => { w with calib := none } }).modServo ServoSt.unloadAll).brakeWhenParked

/-- The assembly spins down: heads park, then the spindle brakes (R351, R416). -/
def State.spinDown (s : State) (reduced lowv : Bool) : State :=
  match s.rack.spin with
  | .ready => s.enterSpindown reduced lowv
  | .spinup => s.enterSpindown reduced lowv
  | .reduced => if lowv then (s.modRack fun r => { r with spin := .spindown, lowv := true }).brakeWhenParked else s
  | .spindown => if lowv then s.modRack fun r => { r with lowv := true } else s
  | .stopped => if lowv then s.modRack fun r => { r with spin := .lowv } else s
  | .failed => if lowv then s.modRack fun r => { r with spin := .lowv } else s
  | _ => s

/-- Reads and merges that wait for the Rack tier complete with vendor status 0xC1 (R351, R357). -/
def State.refuseRackJobs (s : State) (act : Nat → Bool) (merges : Bool) : State :=
  (s.flash.jobs.filter fun j => decide (j.phase = .rackWait) && act (rackAct j.loc.span) && (j.flow == 0 || merges)).foldl (fun s j =>
    let s := s.modFlash fun f => { f with jobs := f.jobs.filter (·.id != j.id) }
    if j.flow = 0 then ((s.modEnt j.stamp j.nsid j.lcn fun e => { e with decoded := true, res := .failed (vendor 0xC1) }).effectParked).settle
    else match s.version? j.ref with
      | some v => s.failVersion v (vendor 0xC1)
      | none => s) s

/-- VMOT, rail 13: on while VIN_MAIN is 10.8 V or more, not switched off for overvoltage, and the Rack tier present (R653, R669). -/
def State.vmotUpdate (s : State) : State :=
  let on := s.rackPresent && decide (10800 ≤ s.pwr.vinMain) && decide (s.pwr.vinMain < 19000)
  (s.modPwr fun p => { p with rails := p.rails.filter (· != 13) ++ (if on then [13] else []) }).modServo fun v => { v with vmot := on }

/-- READY once the loops have locked: attempts and waits end (R351). -/
def State.rackReady (s : State) : State :=
  let s := s.modRack fun r => { r with spin := .ready, attempts := 0, retryWait := false, lastWork := s.now }
  (s.modRack fun r => { r with stackTab := r.stackTab.map fun e =>
    if e.2.resetDue then (e.1, { e.2 with resetDue := false, phase := if e.2.phase = .discarded then .free else e.2.phase }) else e }).sanitizeCheck

/-- During SPINUP, READY follows when both loops are locked (R351). -/
def State.rackLockCheck (s : State) : State :=
  if s.rack.spin = .spinup && s.servo.spindle.srvLock && s.servo.acts.all (·.locked) then s.rackReady else s

/-! Stacks (R329, R332, R334, R341) -/

/-- Open a stack: STACK_OPEN is formed; it is OPEN once that is durable (R329, R332). No stack opens while a head's retirement is
being journalled (R382). -/
def State.openStackOn (s : State) (a : Nat) : State :=
  if (List.range 12).any fun h => (tgetD s.chan.heads (12 * a + h) {}).retiring then s
  else if s.rackW a < 3 then s
  else match s.freeStack a with
    | none => s
    | some b =>
      let (w, s) := s.jform 1 0 (.stackOpen a b)
      let s := s.modStack (stackNo a b) fun _ => { phase := .opening, members := s.liveHeads a, openWsn := w }
      s.modAct a fun x => { x with openStack := some b, step := .filling, placed := [], used := 0, checked := 0, parityTries := 0, accum := true, closing := false,
                                   lastPlace := s.now, sumBad := 0 }

/-- Payloads held in a stack. -/
def inStack (n : Nat) (l : Loc) : Bool := decide (l.tier = .rack) && l.span == n

/-- A stack becomes DISCARDED once STACK_DISCARD is durable; its payloads are of no use (R329). -/
def State.discardStack (s : State) (n : Nat) : State :=
  ((s.modStack n fun x => { x with phase := .discarding }).modMedia fun m => { m with copies := m.copies.filter fun c => !inStack n c.loc }).journal 1 0
    (.stackDiscard (n / 2 ^ 23) (n % 2 ^ 23))

/-- The open stack of an actuator is discarded, its chunks going back to the front of the queue (R334, R341). `row` is the row of
R334 for the event record, 0 where the discard is no write failure. -/
def State.dropOpenStack (s : State) (a row : Nat) : State :=
  match (s.act a).openStack with
  | none => s
  | some b =>
    let back := (s.act a).placed.map fun p => ({ nsid := p.nsid, lcn := p.lcn, crumbs := p.dst.crumbs, src := p.src, knead := p.knead
                                                 lc := (s.desc p.nsid p.lcn).lc.toNat } : MigItem)
    let s := s.modPlace fun p => { p with queues := lmod p.queues a fun q => back ++ q }
    let s := (s.modAct a fun x => { x with openStack := none, step := .none, placed := [], used := 0, accum := false }).discardStack (stackNo a b)
    s.note 0x5001 7 (stackNo a b) [a, b, row]

/-- One data sector's band and head: locate of R327. -/
def State.headOf (s : State) (n : Nat) (c : Nat) : Nat :=
  let x := s.stack n
  let sec := s.bandSectors (n % 2 ^ 23)
  let d := if sec = 0 then 0 else c / 8 / sec
  let p := if x.members.length = 0 then 0 else n % 2 ^ 23 % x.members.length
  x.members.getD (if d < p then d else d + 1) 0

/-- A location has a crumb on one of the heads. -/
def State.onHeads (s : State) (l : Loc) (hs : List Nat) : Bool :=
  (List.range l.crumbs).any fun i => hs.contains (s.headOf l.span (l.offset + i))

/-- Two members of a stack are lost: chunks with a crumb on either are lost, with cause 6 (R341). -/
def State.loseStackChunks (s : State) (n : Nat) (hs : List Nat) : State :=
  (s.chunksIn .rack n).foldl (fun s c =>
    let d := s.desc c.1 c.2
    let us := s.unitStates d
    let m := unitsWhere us (2 ^ 32 - 1) fun u => match u with | .mapped l => inStack n l && s.onHeads l hs | _ => false
    if m = 0 then s else (s.loseUnits c.1 c.2 m 6 (s.payloadLoc d) .rack 0).2) s

/-- The outcomes of R341 once a head's retirement is durable. -/
def State.headLost (s : State) (a h : Nat) : State :=
  let mine (e : Nat × StackSt) : Bool := e.1 / 2 ^ 23 == a && decide (e.2.phase = .closed) && e.2.members.contains h
  let s := (s.rack.stackTab.filter mine).foldl (fun s e =>
    let s := if e.2.rebuildDue.isEmpty then s else s.loseStackChunks e.1 (h :: e.2.rebuildDue)
    s.modStack e.1 fun x => { x with rebuildDue := x.rebuildDue ++ [h] }) s
  let s := s.modRack fun r => { r with lostHeads := r.lostHeads ++ [(a, h)] }
  let s := s.warnBit 2
  if s.rackW a < 3 then s.noteOther 5 5 a else s

/-- Retire a head: its writes stop, the fence entry is formed, the event is recorded (R382). -/
def State.retireHead (s : State) (surface measure : Nat) : State :=
  let a := surface / 12
  let h := surface % 12
  if bitAt (s.place.fenceHead.getD a 0).toNat h || (tgetD s.chan.heads surface {}).retiring then s
  else
    let inOpen := match (s.act a).openStack with | some b => (s.stack (stackNo a b)).members.contains h | none => false
    let s := if inOpen then s.dropOpenStack a 0 else s
    let s := s.modChan fun c => { c with heads := tmod c.heads surface {} fun x => { x with retiring := true }
                                         rw := lmod c.rw a fun w => { w with calib := match w.calib with | some r => if r.head = h then none else some r | none => none } }
    (s.journal 1 0 (.side (.fences s.place.fencedDies (lmod s.place.fenceHead a (· ||| BitVec.ofNat 12 (2 ^ h)))))).note 0x5002 6 surface [surface, measure]

/-- A fault charged to a head: the corrected fault of its surface, warning at 2 and retirement at the limit of key 0x041B within
24 h (R371, R381). -/
def State.chargeHead (s : State) (surface : Nat) : State :=
  let s := (s.fault (0x220 + surface) [surface]).modChan fun c => { c with heads := tmod c.heads surface {} fun x =>
    { x with calDue := true, faults := (x.faults.filter fun t => decide (s.time < t + 24 * hour)) ++ [s.time] } }
  let n := (tgetD s.chan.heads surface {}).faults.length
  let s := if n ≥ 2 then s.healthWarn 1 surface 4 n 2 else s
  if n ≥ s.key2 0x041B then s.retireHead surface 4 else s

/-- A write fault of the band being written by a head: the stack is discarded and the head charged (R334). -/
def State.writeFault (s : State) (a row : Nat) (charge : Option Nat) : State :=
  let s := s.dropOpenStack a row
  match charge with
  | some h => s.chargeHead (12 * a + h)
  | none => s

/-- Fence an actuator (R55, R343): a seek of a band write fails and is a write fault (R401, R420), its calibration ends. -/
def State.fenceActuator (s : State) (a : Nat) : State :=
  let z := s.servo.acts.getD a {}
  let s := if z.seekActive && z.seekOp = 1 then s.writeFault a 1 none else s
  let s := (s.modPlace fun p => { p with fenceAct := p.fenceAct ||| BitVec.ofNat 2 (2 ^ a) }).modRw a fun w => { w with calib := none }
  (s.modServo fun v => { v with acts := lmod v.acts a fun x =>
    { x with mode := .fenced, locked := false, seekActive := false, hand := none, seekFail := if x.seekActive then satInc x.seekFail else x.seekFail } }).refuseRackJobs (· == a) true

end Sys2Proof.Machine
end

