-- ==== Sys2Proof/Machine/CopyOps.lean ====
section
/-!
DEFINITION. Copy steps: what a copy carries, the conditional map update, the choice of R48, and where Knead takes its spans (R21,
R22, R46 to R48, R56, R110, R132, R293 to R299).
-/
namespace Sys2Proof.Machine
open Sys2Proof

/-! What a copy carries (R21, R110) -/

/-- Units of a chunk that are stored. -/
def State.storedUnits (s : State) (d : Desc) : Nat := unitsWhere (s.unitStates d) (2 ^ 32 - 1) fun u => u.loc?.isSome

/-- Stored length of a chunk in crumbs: the payload, or for a split raw chunk its mapped runs (R48, R110). -/
def State.storedCrumbs (s : State) (d : Desc) : Nat :=
  if d.state ≠ .mapped then 0
  else if d.split && !(s.payloadLoc d).coded then 8 * (maskList 32 (s.storedUnits d)).length else (s.payloadLoc d).crumbs

/-- The payload that a copy carries, its units and the key that it is encrypted under (R21, R110). -/
def State.carry (s : State) (d : Desc) : List Crumb × Nat × Nat :=
  let l := s.payloadLoc d
  let (pay, key) := match s.copyAt l with | some c => (c.payload.drop (l.offset - c.loc.offset), c.key) | none => ([], 0)
  if d.split && !l.coded then
    let us := s.unitStates d
    let m := s.storedUnits d
    ((maskList 32 m).flatMap fun u => match us.getD u .dealloc with
      | .mapped x => (pay.drop (x.offset - l.offset)).take 8
      | _ => [], m, key)
  else (pay.take l.crumbs, 2 ^ 32 - 1, key)

/-- A location of unit u in a copy at `dst` that carries the units of a mask: whole for a coded payload, its own run otherwise. -/
def carriedLoc (dst : Loc) (units u : Nat) : Loc :=
  if dst.coded then dst else { dst with offset := dst.offset + 8 * ((maskList 32 units).filter (· < u)).length, crumbs := 8 }

/-- The conditional map update of a MOVE: it takes effect only where the descriptor still names the source, per unit if the chunk
is split. `kept` is the KEPT bit that it leaves. Answers whether it took effect (R56, R132). -/
def State.relocate (s : State) (nsid lcn : Nat) (src dst : Loc) (kept : Bool) : Bool × State :=
  let d := s.desc nsid lcn
  if !s.names d src then (false, s)
  else if d.split then
    let units := ((s.copyAt dst).map (·.units.toNat)).getD (2 ^ 32 - 1)
    let us := ((s.unitStates d).zipIdx).map fun (u, i) => match u with
      | .mapped _ => UState.mapped (carriedLoc dst units i)
      | x => x
    (true, (s.modMap fun m => { m with subs := tput m.subs d.sub us }).putDesc nsid lcn { d with kept := kept, loc := { d.loc with tier := mostTier us } })
  else (true, s.putDesc nsid lcn { d with loc := { dst with coded := d.loc.coded }, kept := kept })

/-- Start a copy step of a chunk (R31, R56): its source read is issued. -/
def State.startCopy (s : State) (kind : CopyKind) (nsid lcn : Nat) : State :=
  let d := s.classify (s.desc nsid lcn)
  let c : CopyStep := { id := s.place.nextCopy, kind := kind, nsid := nsid, lcn := lcn, src := s.payloadLoc d, profile := b2n s.cfg.drainActive
                        lc := d.lc.toNat, slot := s.slotOf d }
  (s.putDesc nsid lcn d).modPlace fun p => { p with copies := p.copies ++ [c], nextCopy := p.nextCopy + 1 }

/-- A copy step of a chunk is in flight. -/
def State.copying (s : State) (nsid lcn : Nat) : Bool := s.place.copies.any fun c => c.nsid == nsid && c.lcn == lcn

/-- A copy step by identifier, changed or ended. -/
def State.copy? (s : State) (id : Nat) : Option CopyStep := s.place.copies.find? fun c => c.id == id
def State.modCopy (s : State) (id : Nat) (f : CopyStep → CopyStep) : State :=
  s.modPlace fun p => { p with copies := p.copies.map fun c => if c.id = id then f c else c }
def State.endCopy (s : State) (id : Nat) : State :=
  let s := match s.copy? id with
    | some c => if ((s.span c.dst.span).batches.getD c.batch {}).reserved.contains (2 * id + 1) then s.unreserve c.dst.span c.batch (2 * id + 1) else s
    | none => s
  s.modPlace fun p => { p with copies := p.copies.filter fun c => c.id != id }

/-- Cause code of a copy flow (R100). -/
def CopyKind.cause : CopyKind → Nat
  | .fold => 1
  | .keep => 2
  | .knead => 3
  | .migrate => 4
  | .refresh => 5
  | .rebuild => 3
  | .rackKnead => 3

/-- The units of a chunk that the ladder could not recover: lost, and the copy step abandoned (R56, R96). For a coded payload every
unit is lost. -/
def State.loseSource (s : State) (nsid lcn lost cause : Nat) (src : Loc) : State :=
  let d := s.desc nsid lcn
  if !s.names d src then s
  else
    let all := s.storedUnits d
    let m := if src.coded || lost &&& all = 0 then all else lost &&& all
    (s.loseUnits nsid lcn m cause src src.tier (((s.copyAt src).map (·.wsn)).getD 0)).2

/-! Evacuation (R46 to R48) -/

/-- A condition of R46 for the whole Proof tier holds. -/
def State.proofPressure (s : State) : Bool :=
  decide (s.proofCap * s.key2 0x0219 < (s.proofCap - s.proofFree) * 100) || s.place.directBake || s.proofBelow (s.key2 0x0211)

/-- A span holds a chunk in a drain range. -/
def State.spanDrained (s : State) (tier : Tier) (n : Nat) : Bool := (s.chunksIn tier n).any fun c => s.inHint .drain c.1 c.2

/-- Closed spans of a tier, in the order in which they closed. -/
def State.closedSpans (s : State) (tier : Tier) : List Nat :=
  ((s.flash.spans.filter fun e => decide (e.2.phase = .closed) && decide (e.2.tier = tier)).mergeSort fun a b => decide (a.2.closeSeq ≤ b.2.closeSeq)).map (·.1)

/-- The Proof spans under evacuation: at most one for each member set, oldest first (R46). -/
def State.evalEvacuation (s : State) : State :=
  let cand := (s.closedSpans .proof).filter fun n => s.proofPressure || s.spanDrained .proof n
  let keep := s.place.evacuating.filter fun e => cand.contains e.2
  let all := cand.foldl (fun l n => if l.any (fun e => e.1 == n / 524288) || s.flash.kneadSpans.contains n then l else l ++ [(n / 524288, n)]) keep
  s.modPlace fun p => { p with evacuating := all }

/-- Bake-to-Rack migration runs from above the target fill until 5 points below it (R47). -/
def State.evalMigration (s : State) : State :=
  let used := s.bakeUsed * 100
  let t := s.key2 0x0223
  let on : Bool := s.migAllowed && (decide (s.bakeCap * t < used) || (s.place.migrating && decide (s.bakeCap * (t - 5) < used)))
  s.modPlace fun p => { p with migrating := on }

/-- The closed Bake span of a slot with h = 0 that is the oldest with a chunk not yet passed over. -/
def State.migrationSpan (s : State) (n : Nat) : Bool :=
  let sp := s.span n
  decide (sp.phase = .closed) && decide (sp.tier = .bake) && s.place.migrating && sp.slot % 2 == 0

/-- keep_bytes of R48, in crumbs. -/
def State.keepCrumbs (s : State) : Nat :=
  s.descs.foldl (fun n e => if e.2.kept then n + s.storedCrumbs e.2 else n) 0 +
    (s.place.copies.filter fun c => decide (c.kind = .keep)).foldl (fun n c => n + s.storedCrumbs (s.desc c.nsid c.lcn)) 0

/-- Outcome of choose() (R48). -/
inductive Choice where
  | keep
  | fold
  | migrate
  | stay
  deriving DecidableEq, Repr

/-- choose(c) of R48 for a classified descriptor. -/
def State.choose (s : State) (nsid lcn : Nat) (d : Desc) : Choice :=
  let held := s.inHint .hold nsid lcn
  let drained := s.inHint .drain nsid lcn && !held
  let proof := decide ((s.payloadLoc d).tier = .proof)
  if s.migAllowed && drained then .migrate
  else if proof && !drained && d.lc.toNat = 0 && d.hc.toNat ≥ s.key2 0x0214 &&
      (s.keepCrumbs + s.storedCrumbs d) * 100 ≤ s.key2 0x0213 * s.proofCap then .keep
  else if s.migAllowed && !held && d.hc.toNat ≤ s.key2 0x0221 && d.lc.toNat ≥ s.key2 0x0222 then .migrate
  else if proof then .fold else .stay

/-- Queue limit of an actuator, bytes. -/
def State.queueLimit (s : State) : Nat := s.keyN 0x0225 0 4 * 1048576

/-- Queue a chunk for an actuator (R42). -/
def State.enqueue (s : State) (a : Nat) (m : MigItem) : State :=
  (s.modPlace fun p => { p with queues := lmod p.queues a fun q => q ++ [m] }).flowDemand

/-- The migration item of a chunk. -/
def State.migItem (s : State) (nsid lcn : Nat) (d : Desc) (knead : Bool) : MigItem :=
  { nsid := nsid, lcn := lcn, lc := d.lc.toNat, crumbs := s.storedCrumbs d, src := s.payloadLoc d, knead := knead }

/-- A chunk is queued, waiting or placed for the Rack tier. -/
def State.queued (s : State) (nsid lcn : Nat) : Bool :=
  (s.place.queues.any fun q => q.any fun m => m.nsid == nsid && m.lcn == lcn) || s.place.waitEvac.any (fun m => m.2.nsid == nsid && m.2.lcn == lcn) ||
    s.rack.acts.any fun a => (a.placed.any fun p => p.nsid == nsid && p.lcn == lcn) || a.staging.any fun p => p.nsid == nsid && p.lcn == lcn

/-! Knead in flash (R296 to R298, R302) -/

/-- Valid fraction and score of a span by cross-multiplication: score(a) ≥ score(b), with (1 - u)(age + 1)/(1 + u) = (D - v)(age + 1)/(D + v). -/
def scoreGe (va da ea vb db eb : Nat) : Bool := decide ((db - vb) * (eb + 1) * (da + va) ≤ (da - va) * (ea + 1) * (db + vb))

/-- Epochs since a span closed, capped at 16,383. -/
def State.sinceClose (s : State) (e : BitVec 32) : Nat := min 16383 (s.place.epoch - e).toNat

/-- Priority of a span for Knead: 0 urgent, 1 unprotected, 2 rebuild-due, 3 refresh-due, 4 wear-move; none of them: 5 (R297, R308). -/
def SpanSt.priority (x : SpanSt) : Nat :=
  if x.urgent then 0
  else if x.batches.any fun b => decide (b.prot = .unprotected) then 1
  else if x.rebuildDue then 2
  else if x.refreshDue then 3
  else if x.wearMove then 4 else 5

/-- Spans that Knead may take: closed, not under evacuation, not under Knead. -/
def State.kneadable (s : State) : List (Nat × SpanSt) :=
  s.flash.spans.filter fun e => decide (e.2.phase = .closed) && !e.2.mapArea && !(s.place.evacuating.any fun v => v.2 == e.1) && !(s.flash.kneadSpans.contains e.1 && s.copiesOn e.1)

/-- The better of two spans within priority 5. -/
def State.betterScore (s : State) (a b : Nat × SpanSt) : Nat × SpanSt :=
  let va := s.validCrumbs a.2.tier a.1
  let vb := s.validCrumbs b.2.tier b.1
  let da := s.spanData a.2
  let db := s.spanData b.2
  let ge := scoreGe va da (s.sinceClose a.2.closeEpoch) vb db (s.sinceClose b.2.closeEpoch)
  let le := scoreGe vb db (s.sinceClose b.2.closeEpoch) va da (s.sinceClose a.2.closeEpoch)
  if ge && le then (if a.2.closeSeq ≤ b.2.closeSeq then a else b) else if ge then a else b

/-- The span that Knead takes next (R297). -/
def State.kneadPick (s : State) : Option Nat :=
  let ks := s.kneadable
  let flagged := ks.filter fun e => decide (e.2.priority < 5)
  match flagged with
  | e :: t => some ((t.foldl (fun b x => if x.2.priority < b.2.priority || (x.2.priority = b.2.priority && x.2.closeSeq < b.2.closeSeq) then x else b) e).1)
  | [] =>
    match ks.filter fun e => decide (e.2.tier = .bake) && s.flash.kneading.contains (e.1 / 524288) with
    | e :: t => some ((t.foldl (fun b x => s.betterScore b x) e).1)
    | [] => none

/-- Flag the least worn closed Bake span of each set wear-move where the wear differs too much (R302). -/
def State.flagWear (s : State) : State :=
  s.openSets.foldl (fun s m =>
    let free := s.freeSpans m
    let closed := (s.closedSpans .bake).filter fun n => n / 524288 == m
    match mostBy s.meanWear free, leastBy s.meanWear closed with
    | some f, some c => if s.key2 0x012A * 1000 < s.meanWear f - s.meanWear c then s.modSpan c fun x => { x with wearMove := true } else s
    | _, _ => s) s

end Sys2Proof.Machine
end

