-- ==== Sys2Proof/Machine/Rack.lean ====
section
/-!
DEFINITION. The Rack tier as commands: spin-up and spin-down, staging, band writes, parity, summaries, reads, Knead, scrub and root
copies (R332 to R357).
-/
namespace Sys2Proof.Machine
open Sys2Proof

/-! Spin states (R351) -/

/-- R351: 15 s after SPINUP both loops, one or neither have locked: READY, READY with the other actuator fenced, or SPINDOWN. -/
def execRackSpinupTimeout (s : State) : Host.Outcome State Fault Refusal :=
  if s.rack.spin ≠ .spinup then .next s
  else
    let s := s.reach (s.rack.spinupAt + 15 * sec)
    let l (a : Nat) : Bool := s.servo.spindle.srvLock && (s.servo.acts.getD a {}).locked
    if l 0 && l 1 then .next s.rackReady
    else if l 0 then .next ((s.rackReady).fenceActuator 1)
    else if l 1 then .next ((s.rackReady).fenceActuator 0)
    else
      let s := s.modRack fun r => { r with attempts := r.attempts + 1, retryWait := true }
      .next ((s.note 0x5003 0 0 [s.rack.attempts]).spinDown false false)

/-- R351: the 10 s wait in STOPPED after a failed spin-up ends: SPINUP again, or FAILED after the attempts of key 0x0406, when waiting
reads complete with vendor status 0xC1. -/
def execSpinupRetryWait (s : State) : Host.Outcome State Fault Refusal :=
  if s.rack.spin ≠ .stopped || !s.rack.retryWait then .next s
  else
    let s := (s.reach (s.rack.spinupAt + 10 * sec)).modRack fun r => { r with retryWait := false }
    if s.rack.attempts ≥ s.key2 0x0406 then .next (((s.modRack fun r => { r with spin := .failed }).refuseRackJobs (fun _ => true) true).sanitizeCheck)
    else .next s.demandSpin

/-- Standby time in seconds; 0 for none (R353). -/
def State.standby (s : State) : Nat := match s.rack.standby with | some v => v.toNat | none => s.key4 0x0405

/-- R351: the standby time has elapsed with no Rack work pending. -/
def execRackStandbyTimeout (s : State) : Host.Outcome State Fault Refusal :=
  if (s.rack.spin = .ready || s.rack.spin = .spinup) && s.standby ≠ 0 && !s.rackWork then
    .next ((s.reach (s.rack.lastWork + s.standby * sec)).spinDown false false)
  else .next s

/-- R351: the spindle has stopped, or idles at reduced speed: STOPPED, REDUCED or LOWV. A demand made in SPINDOWN is met then (R352). -/
def execSpindleStopped (s : State) : Host.Outcome State Fault Refusal :=
  if s.rack.spin ≠ .spindown then .next s
  else
    let r := s.rack
    let spin : Spin := if r.lowv then .lowv else if r.toReduced then .reduced else .stopped
    let s := (s.modRack fun r => { r with spin := spin, lowv := false, toReduced := false, demand := false, spinupAt := s.now }).modServo fun v =>
      { v with
        acts := v.acts.map fun a => if a.mode = .fenced then a else { a with mode := .parked, locked := false }
        spindle := { v.spindle with state := if spin = .reduced then .reduced else .stopped, srvLock := false } }
    .next ((if r.demand && spin ≠ .lowv then s.demandSpin else s).sanitizeCheck)

/-! Staging (R42, R332) -/

/-- Lifetime class that an actuator's stack takes next: its own while it has chunks, else the nearest, the longer on a tie; with no
stack open the class with the most queued bytes (R42). -/
def State.nextClass (s : State) (a : Nat) : Nat :=
  let q := (s.place.queues.getD a []).filter (!·.knead)
  let size (c : Nat) : Nat := (q.filter (·.lc == c)).foldl (fun n m => n + m.crumbs) 0
  let cs := (List.range 4).filter fun c => q.any (·.lc == c)
  let lc := (s.act a).lc
  if (s.act a).openStack.isNone then (mostBy size cs).getD lc
  else (leastBy (fun c => 2 * (max c lc - min c lc) + b2n (decide (c < lc))) cs).getD lc

/-- The next chunk in queue order: Knead and rebuild first, then migration while it is allowed (R332). -/
def State.nextItem (s : State) (a : Nat) : Option MigItem :=
  let q := s.place.queues.getD a []
  match q.find? (·.knead) with
  | some m => some m
  | none => if s.migAllowed then q.find? fun m => m.lc == s.nextClass a else none

/-- Place the staged chunk in the open stack: it takes its crumbs and its WSN (R332 step 3). Without room the stack closes; without a
stack one opens. -/
def State.placeStaged (s : State) (a : Nat) : State :=
  let x := s.act a
  match x.staging, x.openStack with
  | [], _ => s
  | _ :: _, none => s.openStackOn a
  | m :: _, some b =>
    let n := stackNo a b
    let st := s.stack n
    if st.phase ≠ .opened || x.closing then s
    else
      let d := s.desc m.nsid m.lcn
      if !s.names d m.src then s.modAct a fun x => { x with staging := x.staging.drop 1 }
      else
        let (pay, units, key) := s.carry d
        if s.stackData b st.members.length - x.used < pay.length then
          let band := 8 * s.bandSectors b
          s.modAct a fun x => { x with closing := true, used := ceilDiv x.used band * band
                                       step := if ceilDiv x.used band ≤ x.checked then .parityWrite else x.step }
        else
          let (w, s) := s.nextWsn
          let dst : Loc := { m.src with tier := .rack, span := n, offset := x.used, crumbs := pay.length }
          let p : Placed := { nsid := m.nsid, lcn := m.lcn, src := m.src, dst := dst, wsn := w, knead := m.knead }
          let s := s.modMedia fun md => { md with
            copies := md.copies ++ [{ wsn := w, nsid := m.nsid, lcn := m.lcn, key := key, loc := dst, payload := pay, units := BitVec.ofNat 32 units }] }
          s.modAct a fun x => { x with staging := x.staging.drop 1, placed := x.placed ++ [p], used := x.used + pay.length, lastPlace := s.now, lc := m.lc }

/-! Calibration due (R376) -/

/-- Powered seconds since an entry was calibrated. -/
def State.calAge (s : State) (e : CalEntry) : Nat := (s.place.epoch.toNat + 2 ^ 32 - e.epoch.toNat) % 2 ^ 32 * s.key4 0x0201

/-- A head is due: no record, no valid entry for the band, an old one, or a fault charged to it (R376). -/
def State.calNeeded (s : State) (surface : Nat) : Bool :=
  (tgetD s.chan.heads surface {}).calDue ||
  match s.calRec surface with
  | none => true
  | some r => let e := r.entries.getD s.chan.band {}; !e.valid || decide (s.keyN 0x0416 4 4 * 3600 < s.calAge e)

/-- A due calibration of a head goes before migration, Rack Knead and rebuild on its actuator. -/
def State.calDueOn (s : State) (a : Nat) : Bool := (s.liveHeads a).any fun h => s.calNeeded (12 * a + h)

/-- The actuator may write: READY, not fenced, nothing stopped. -/
def State.actRuns (s : State) (a : Nat) : Bool := s.rackOnline && !s.actFenced a && !s.flowsPaused

/-- R332 step 2: the source of the next chunk in queue order has been read into staging, and the chunk is placed in the open stack. A
chunk whose descriptor no longer names its source is dropped; one that the whole ladder could not read is lost (R96). -/
def execStagingReadEnd (act : Nat) (good : Bool) (lost : Nat) (s : State) : Host.Outcome State Fault Refusal :=
  let x := s.act act
  if act > 1 || !s.actRuns act || !s.rackWindow 0 || s.calDueOn act || !x.staging.isEmpty || x.closing then .next s
  else match s.nextItem act with
    | none => .next s
    | some m =>
      let s := s.modPlace fun p => { p with queues := lmod p.queues act fun q => q.erase m }
      let s := s.modRack fun r => { r with lastWork := s.now }
      let d := s.desc m.nsid m.lcn
      let rebuild := m.src.tier == .rack && !(s.stack m.src.span).rebuildDue.isEmpty
      if !s.names d m.src then .next s
      else if !good then .next (s.loseSource m.nsid m.lcn lost (if rebuild then 6 else if m.knead then 3 else 4) m.src)
      else
        let s := if m.src.tier = .rack then s else s.countReads m.src.span (s.blocksOf m.src)
        .next ((s.modAct act fun x => { x with staging := [m] }).placeStaged act)

/-! Writing a stack (R332 to R335) -/

/-- The open stack of an actuator in a step, with its number and band size in crumbs. -/
def State.openOn (s : State) (a : Nat) (st : StackStep) : Option (Nat × Nat) :=
  match (s.act a).openStack with
  | some b => if (s.act a).step = st && (s.stack (stackNo a b)).phase = .opened && s.actRuns a then some (b, 8 * s.bandSectors b) else none
  | none => none

/-- Head of data band k, and of the parity band (R326, R327). -/
def State.bandHead (s : State) (a b k : Nat) : Nat := s.headOf (stackNo a b) (k * 8 * s.bandSectors b)
def State.parityHead (s : State) (a b : Nat) : Nat := let m := (s.stack (stackNo a b)).members; m.getD (b % m.length) 0

/-- R332 step 4, R334: the last sector of a data band is written, or the write failed with a preamplifier or assist fault or at the read of a squeezed
track, which a rewrite owes (R370); `charge` says that the fault counts against the head. -/
def execBandWriteEnd (act : Nat) (good charge : Bool) (s : State) : Host.Outcome State Fault Refusal :=
  match s.openOn act .filling with
  | none => .next s
  | some (b, band) =>
    let k := (s.stack (stackNo act b)).bands
    let t := s.modRw act fun w => { w with squeezeCheck := false }
    if !good then .next (t.writeFault act 1 (if charge then some (s.bandHead act b k) else none))
    else if (s.act act).used < (k + 1) * band || band = 0 then .next s
    else .next ((t.unclean.modStack (stackNo act b) fun x => { x with bands := k + 1, wptr := band / 8 }).modAct act fun x => { x with step := .lastTrack })

/-- R333: the last-track check of a data band ends. -/
def execLastTrackCheckEnd (act : Nat) (good charge : Bool) (s : State) : Host.Outcome State Fault Refusal :=
  match s.openOn act .lastTrack with
  | none => .next s
  | some (b, band) =>
    let k := (s.act act).checked
    if !good then .next (s.writeFault act 2 (if charge then some (s.bandHead act b k) else none))
    else .next (s.modAct act fun x => { x with
      checked := k + 1
      step := if (x.closing || s.stackData b (s.stack (stackNo act b)).members.length ≤ x.used) && x.used ≤ (k + 1) * band then .parityWrite else .filling })

/-- R332 step 6, R333, R334: the parity band has been written from the accumulator and read back. It is written again once. -/
def execParityBandReadbackEnd (act : Nat) (good charge : Bool) (s : State) : Host.Outcome State Fault Refusal :=
  match s.openOn act .parityWrite with
  | none => .next s
  | some (b, _) =>
    let h := if charge then some (s.parityHead act b) else none
    if good then
      .next ((s.modStack (stackNo act b) fun x => { x with parity := true }).modAct act fun x => { x with step := .summary })
    else if (s.act act).parityTries = 0 then
      let s := s.modAct act fun x => { x with parityTries := 1 }
      match h with
      | some h => .next (s.chargeHead (12 * act + h))
      | none => .next s
    else .next (s.writeFault act 3 h)

/-- R332 steps 7 and 8, R334, R345: the summary is written with `copies` good copies, and STACK_CLOSE is formed. -/
def execStackSummaryWriteEnd (act copies : Nat) (s : State) : Host.Outcome State Fault Refusal :=
  match s.openOn act .summary with
  | none => .next s
  | some (b, _) =>
    let s := if copies < 2 then s.noteOther 5 7 (stackNo act b) else s
    let inc := decide (copies = 0) || decide (65535 < (s.act act).placed.length)
    let s := s.modStack (stackNo act b) fun x => { x with phase := .closing, sumIncomplete := inc }
    .next ((s.modAct act fun x => { x with step := .close, sumBad := 2 - copies }).journal 1 0 (.stackClose act b))

/-- R335: while migration is allowed, an open stack that has placed nothing for the time of key 0x0409 closes from its parity band on. -/
def execStackIdleCloseTimeout (act : Nat) (s : State) : Host.Outcome State Fault Refusal :=
  match s.openOn act .filling with
  | none => .next s
  | some _ =>
    if !s.migAllowed then .next s
    else
      let s := s.reach ((s.act act).lastPlace + s.key2 0x0409 * sec)
      .next (s.modAct act fun x => { x with closing := true, step := .parityWrite })

/-! Reads (R338 to R340) -/

/-- A location has a crumb on the surface of a retired head of its actuator, so parity reconstructs it (R340). -/
def State.onLostHead (s : State) (l : Loc) : Bool := s.onHeads l ((s.rack.lostHeads.filter (·.1 == rackAct l.span)).map (·.2))

/-- The codewords of a Rack read pass through a hard-decision decoder in steps 1 and 2 and a soft-decision one in step 3 (R52, R339, R361). -/
def State.rackDecoded (s : State) (j : ReadJob) : State :=
  let n := j.loc.codewords
  match (if j.step = 3 then s.queueSoft n else if j.step < 3 then s.queueHard n else none) with
  | some (e, t) => t.modPlace fun p => if j.step = 3 then { p with softQ := p.softQ.pop e n } else { p with hardQ := p.hardQ.pop e n }
  | none => s

/-- R339: a step of the Rack ladder ends for the sectors of a chunk: they decode with at most `bits` corrected, or the next step runs; after
the fourth the units `lost` are unrecoverable. -/
def execRackSectorReadEnd (job : Nat) (good : Bool) (bits lost : Nat) (s : State) : Host.Outcome State Fault Refusal :=
  match s.flash.jobs.find? fun j => j.id == job with
  | none => .next s
  | some j =>
    if j.phase ≠ .rackWait || j.loc.tier ≠ .rack || !s.rackOnline || s.actFenced (rackAct j.loc.span) then .next s
    else
      let s := (s.modRack fun r => { r with lastWork := s.now }).rackDecoded j
      let mod (s : State) (f : ReadJob → ReadJob) : State := s.modFlash fun x => { x with jobs := x.jobs.map fun y => if y.id = job then f y else y }
      if good then
        let s := if j.step ≥ 3 || bits ≥ s.key2 0x040A || s.onLostHead j.loc then s.modStack j.loc.span fun x => { x with refreshDue := true } else s
        match s.queueCipher (512 * j.loc.crumbs) with
        | some (e, s) => .next (mod s fun x => { x with phase := .cipher, engine := e })
        | none => .next (mod s fun x => { x with phase := .cipher })
      else .next (s.ladder j lost)

/-! Rack Knead, scrub, root copies (R342 to R348) -/

/-- A stack under Knead that holds no valid chunk is discarded (R342, R344). -/
def State.releaseRack (s : State) (a : Nat) : State :=
  match (s.act a).rackKnead with
  | none => s
  | some b =>
    let n := stackNo a b
    if (s.stack n).phase = .closed && s.validCrumbs .rack n = 0 then (s.discardStack n).modAct a fun x => { x with rackKnead := none } else s

/-- Rack Knead runs from the low threshold up to the high one (R344). -/
def State.rackKneadUpdate (s : State) (a : Nat) : State :=
  let f := s.freeStacks a
  s.modAct a fun x => { x with kneading := decide (f < s.keyN 0x0407 0 2) || (x.kneading && decide (f < s.keyN 0x0407 2 2)) }

/-- The stack that Rack Knead takes next: rebuild-due, refresh-due, then by score (R344). -/
def State.rackKneadPick (s : State) (a : Nat) : Option Nat :=
  let cs := s.rack.stackTab.filter fun e => e.1 / 2 ^ 23 == a && decide (e.2.phase = .closed)
  let dat (e : Nat × StackSt) : Nat := s.stackData (e.1 % 2 ^ 23) e.2.members.length
  let better (x y : Nat × StackSt) : Nat × StackSt :=
    if scoreGe (s.validCrumbs .rack x.1) (dat x) (s.sinceClose x.2.closeEpoch) (s.validCrumbs .rack y.1) (dat y) (s.sinceClose y.2.closeEpoch) then x else y
  match cs.find? fun e => !e.2.rebuildDue.isEmpty with
  | some e => some e.1
  | none => match cs.find? fun e => e.2.refreshDue with
    | some e => some e.1
    | none => match (if (s.act a).kneading then cs else []) with
      | e :: t => some ((t.foldl better e).1)
      | [] => none

/-- R342, R344: Rack Knead picks a stack of an actuator; its chunks go ahead of any migration chunk, and a stack with none is discarded
without any copy. -/
def execRackKneadSelection (act : Nat) (s : State) : Host.Outcome State Fault Refusal :=
  if act > 1 then .next s
  else
    let s := (s.releaseRack act).rackKneadUpdate act
    if (s.act act).rackKnead.isSome || s.flowsPaused || !s.rackWindow 0 || s.calDueOn act then .next s
    else match s.rackKneadPick act with
      | none => .next s
      | some n =>
        let s := s.flowDemand.modAct act fun x => { x with rackKnead := some (n % 2 ^ 23) }
        let items := ((s.chunksIn .rack n).filter fun c => !s.queued c.1 c.2).map fun c => s.migItem c.1 c.2 (s.desc c.1 c.2) true
        .next ((s.modPlace fun p => { p with queues := lmod p.queues act fun q => q ++ items }).releaseRack act)

/-- R346: scrub reads written sectors of a closed stack: a finding makes it refresh-due, units that no step recovers are lost with cause 7,
and `last` ends the pass. -/
def execRackScrubRead (act index bits : Nat) (ladder : Bool) (nsid lcn lost : Nat) (last : Bool) (s : State) : Host.Outcome State Fault Refusal :=
  let n := stackNo act index
  if (s.stack n).phase ≠ .closed || !s.rackOnline || s.actFenced act then .next s
  else
    let s := if ladder || bits ≥ s.key2 0x040A then s.modStack n fun x => { x with refreshDue := true } else s
    let d := s.desc nsid lcn
    let l := s.payloadLoc d
    let s := if lost ≠ 0 && d.state = .mapped && inStack n l then s.loseSource nsid lcn lost 7 l else s
    .next (if last then s.modStack n fun x => { x with scrubbed := s.now } else s)

/-- R348: a root that is durable in flash is written to slot CKSEQ mod 2 of every surface whose head is not retired. -/
def execRootCopyToRack (s : State) : Host.Outcome State Fault Refusal :=
  match s.flashRoot with
  | none => .next s
  | some r =>
    if !s.rackOnline || !s.rackWindow 0 || r.ckseq ≤ s.rack.rootCopied then .next s
    else
      let s := s.modMedia fun m => { m with rackRoot := (m.rackRoot.filter fun e => e.1 != r.ckseq % 2) ++ [(r.ckseq % 2, r)] }
      .next (s.modRack fun x => { x with rootCopied := r.ckseq })

end Sys2Proof.Machine
end

