-- ==== Sys2Proof/Machine/Journal.lean ====
section
/-!
DEFINITION. Journal pages, checkpoint rounds and map paging: what follows when an entry is durable (R96, R121 to R131, R349, R487).
-/
namespace Sys2Proof.Machine
open Sys2Proof

/-- A MOVE of a flash copy step is durable: the conditional update, its counter, the end of the step (R22, R48, R56, R62). -/
def State.moveCopy (s : State) (c : CopyStep) : State :=
  let d := s.desc c.nsid c.lcn
  let kept := if c.kind = .keep then true else if c.kind = .fold then false else d.kept
  let (ok, s) := s.relocate c.nsid c.lcn c.src c.dst kept
  let n := BitVec.ofNat 64 (512 * c.payload.length)
  let s := if ok then s.modPlace fun p =>
    { p with
      foldBytes := if c.kind = .fold then p.foldBytes + n else p.foldBytes
      keepBytes := if c.kind = .keep then p.keepBytes + n else p.keepBytes }
    else s
  s.endCopy c.id

/-- A MOVE of a chunk placed in a stack is durable (R332 step 9). -/
def State.movePlaced (s : State) (a : Nat) (p : Placed) : State :=
  let d := s.desc p.nsid p.lcn
  let (ok, s) := s.relocate p.nsid p.lcn p.src p.dst (p.knead && d.kept)
  let s := if ok && !p.knead then s.modPlace fun x => { x with migBytes := lmod x.migBytes a (· + BitVec.ofNat 64 (512 * p.dst.crumbs)) } else s
  (s.modAct a fun x => { x with placed := x.placed.filter (· != p) }).releaseRack a

/-- A MOVE entry is durable. -/
def State.moveDurable (s : State) (w : Nat) (nsid lcn : Nat) (dst : Loc) : State :=
  if dst.tier = .rack then
    let a := rackAct dst.span
    match (s.act a).placed.find? fun p => p.nsid == nsid && p.lcn == lcn && p.dst == dst with
    | some p => s.movePlaced a p
    | none => s
  else match s.place.copies.find? fun c => decide (c.phase = .journalling) && c.moveWsn == w with
    | some c => s.moveCopy c
    | none => s

/-- A Write Zeroes entry is durable: the earliest command whose change of the chunk it records has its result (R85, R122). -/
def State.zeroDurable (s : State) (nsid lcn : Nat) : State :=
  match s.host.ctxs.find? fun c => decide (c.opcode.toNat = 8) && c.isIo && c.ents.any fun e => e.on nsid lcn && e.started && !e.lone && e.vid.isNone && decide (e.res = .pending) with
  | some c => (s.modEnt c.stamp nsid lcn fun e => { e with res := .effected }).finishWrites
  | none => s

/-- A deallocation entry is durable: DDUR is set and the old location goes (R105). -/
def State.deallocDurable (s : State) (nsid lcn : Nat) : State :=
  let d := s.desc nsid lcn
  if d.state = .dealloc then s.putDesc nsid lcn { d with ddur := true, loc := {} } else s

/-- An UNREADABLE entry is durable: the namespace's log takes its losses, and a merge that stored unreadable units is complete (R84,
R96, R122). -/
def State.unreadableDurable (s : State) (w : Nat) : State :=
  let mine := s.host.defPend.filter fun e => e.1 == w
  let s := s.modHost fun h => { h with defPend := h.defPend.filter fun e => e.1 != w }
  let s := mine.foldl (fun s e => s.enterDeferred e.2.1 e.2.2) s
  s.host.versions.foldl (fun s v => if v.phase = .journalling && v.jwait = some w then s.endVersion v .effected else s) s

/-- STACK_CLOSE is durable: the stack is CLOSED, the accumulator is released, and a MOVE is formed for each chunk (R332). -/
def State.stackClosed (s : State) (a b : Nat) : State :=
  let s := s.modStack (stackNo a b) fun x => { x with phase := .closed, closeEpoch := s.place.epoch, scrubbed := s.now }
  let s := s.modAct a fun x => { x with openStack := none, step := .none, accum := false, closing := false }
  ((s.act a).placed.foldl (fun s p => s.journal p.nsid p.lcn (.move p.src p.dst)) s).placeStaged a

/-- The fence table is durable: heads in it are retired (R382). -/
def State.fencesDurable (s : State) (heads : List (BitVec 12)) : State :=
  (List.range 24).foldl (fun s f =>
    let a := f / 12
    let h := f % 12
    if bitAt (heads.getD a 0).toNat h && !bitAt (s.place.fenceHead.getD a 0).toNat h then
      let s := s.modPlace fun p => { p with fenceHead := lmod p.fenceHead a (· ||| BitVec.ofNat 12 (2 ^ h)) }
      (s.modChan fun c => { c with heads := tmod c.heads f {} fun x => { x with retiring := false } }).headLost a h
    else s) s

/-- The acts that wait on one entry (R122). -/
def State.entryDurable (s : State) (e : JEntry) : State :=
  match e.body with
  | .move _ dst => s.moveDurable e.wsn e.nsid e.lcn dst
  | .zeroRange _ => s.zeroDurable e.nsid e.lcn
  | .zeroUnits _ => s.zeroDurable e.nsid e.lcn
  | .deallocRange _ => s.deallocDurable e.nsid e.lcn
  | .deallocUnits _ => s.deallocDurable e.nsid e.lcn
  | .unreadable _ _ _ => s.unreadableDurable e.wsn
  | .spanOpen _ _ => s
  | .spanRelease n => s.modSpan n fun x => if x.phase = .releasing then { x with phase := .released } else x
  | .blockRetire _ _ => s.modHost fun h => { h with versions := h.versions.map fun v => if v.phase = .waiting && v.jwait = some e.wsn then { v with jwait := none } else v }
  | .stackOpen a b => (s.modStack (stackNo a b) fun x => if x.phase = .opening then { x with phase := .opened } else x).placeStaged a
  | .stackClose a b => s.stackClosed a b
  | .stackDiscard a b => if (s.stack (stackNo a b)).phase = .discarding then s.modRack fun r => { r with stackTab := tdel r.stackTab (stackNo a b) } else s
  | .side (.deferred _ _) => s.announceDeferred
  | .side (.fences _ heads) => s.fencesDurable heads
  | .side _ => s
  | .nsReset => s

/-- Commands whose completion waits on entries up to a WSN complete with the status that they hold (R122). -/
def State.completeWaiting (s : State) (w : Nat) : State :=
  s.host.ctxs.foldl (fun s c => match c.jwait with
    | some k => if k ≤ w then s.complete c.stamp (c.status.getD 0) c.dw0 else s
    | none => s) s

/-- Up to 512 entries, in WSN order, are on media (R120, R122). -/
def State.journalDurable (s : State) : State :=
  let page := s.map.pendJ.take 512
  match page.getLast? with
  | none => s
  | some l =>
    let s := s.unclean
    let s := s.modMedia fun m => { m with journal := m.journal ++ page }
    let s := s.modMap fun m => { m with pendJ := m.pendJ.drop 512, jDelay := if (m.pendJ.drop 512).any (·.body.isDealloc) then m.jDelay else none }
    let s := page.foldl (fun s e => s.entryDurable e) s
    ((s.completeWaiting l.wsn).releaseEmpty.placeWaiting).settle

/-- R122: a journal page has been programmed, and the acts that wait on its entries proceed. With bad status the block of the page is
retired and the page is programmed again (R317). -/
def execJournalPageProgramComplete (good : Bool) (die block : Nat) (s : State) : Host.Outcome State Fault Refusal :=
  if good then .next s.journalDurable else .next (s.memberFailed die block).2

/-- R123: pending deallocation entries reach the delay of key 0x0142 and are programmed. -/
def execDeallocationJournalDelay (s : State) : Host.Outcome State Fault Refusal :=
  match s.map.jDelay with
  | none => .next s
  | some t => .next ((s.reach (t + s.key2 0x0142 * ms)).journalDurable)

/-! Checkpoint rounds (R126 to R128) -/

/-- R126: a round starts at half the replay window, after the interval when the map has changed, or at a shutdown. -/
def execCheckpointRoundStart (s : State) : Host.Outcome State Fault Refusal :=
  let half := decide (s.replayWindow ≤ 2 * s.map.sinceHorizon) && decide (0 < s.map.sinceHorizon)
  let shut := decide (s.nvme.shn ≠ 0)
  if s.map.ckActive.isSome || !s.map.mounted || !(half || shut || s.map.dirty) then .next s
  else
    let s := if half || shut then s else s.reach (s.map.lastRound + s.key2 0x0143 * sec)
    .next (s.modMap fun m => { m with ckActive := some s.ckHorizon, lastRound := s.now, dirty := false })

/-- Nothing of the host is in flight, so that the root of a shutdown may be clean (R128). -/
def State.quiet (s : State) : Bool := s.host.versions.isEmpty && s.map.pendJ.isEmpty && s.place.copies.isEmpty

/-- Peel channels and slots hold nothing that a shutdown waits for (R168, R183). -/
def State.ingestQuiet (s : State) : Bool :=
  s.win.peel.all (fun c => c.2.jobs.isEmpty && (decide (c.2.state = .idle) || decide (c.2.state = .halted))) &&
    s.win.slots.all fun p => p.2.queue.isEmpty && p.2.active.isEmpty

/-- CSTS.SHST reads 0b10 once a clean root is written, ingest has ended and both actuators are parked (R487). -/
def State.shutdownCheck (s : State) : State :=
  if s.nvme.shn ≠ 0 && s.map.cleanNow && s.ingestQuiet && s.servo.acts.all (fun a => decide (a.mode = .parked) || decide (a.mode = .fenced)) then
    s.modNvme fun n => { n with shst := 2 }
  else s

/-- R126, R127: the round's root is durable: the horizon moves and writes that waited on the replay window go on. During a shutdown the
root is clean (R128). -/
def execCheckpointRootDurable (s : State) : Host.Outcome State Fault Refusal :=
  match s.map.ckActive with
  | none => .next s
  | some h =>
    let s := s.writeRoot (s.formRoot (decide (s.nvme.shn ≠ 0) && s.quiet) h)
    let since := s.media.copies.foldl (fun n c => if h < c.wsn && c.loc.tier ≠ .rack then n + 512 * c.payload.length else n) 0
    .next ((s.modMap fun m => { m with ckActive := none, sinceHorizon := since, windowFull := false }).shutdownCheck)

/-! Map paging (R130, R131, R349) -/

/-- Data capacity of the DRAM in GiB (R422, key 0x0153). -/
def State.dramGib (s : State) : Nat :=
  let dev := s.keyN 0x0153 0 1
  if dev = 0 then 0 else 4 * s.keyN 0x0153 2 1 * (32 / dev) * s.keyN 0x0153 1 1 / 8

/-- Map pages that the budget holds, seven-eighths of the DRAM (R129). -/
def State.mapBudget (s : State) : Nat := s.dramGib * 2 ^ 30 * 7 / 8 / 4096

/-- The pages in DRAM other than one. -/
def State.residents (s : State) (page : Nat) : List Nat :=
  ((s.map.map.map fun e => e.1 / 256).eraseDups).filter fun p => p != page && !s.map.absent.contains p && !s.map.spilled.contains p

/-- One page is evicted. The rule names a clock policy and not its choice, which is free (R130; assumption log 29). -/
def State.evictOne (s : State) (page : Nat) : State :=
  match s.residents page with
  | [] => s
  | p :: ps =>
    let r := s.fresh 32
    r.2.modMap fun m => { m with absent := m.absent ++ [(p :: ps).getD (r.1.toNat % (ps.length + 1)) p] }

/-- A page read into a paged map takes the place of evicted ones, until the budget holds them all (R130). -/
def State.evict (s : State) (page : Nat) : State :=
  if s.map.paged then (List.range ((s.residents page).length + 1 - s.mapBudget)).foldl (fun s _ => s.evictOne page) s else s

/-- R130, R131, R349: a map page has been read in; changes held for a spilled page are merged, and stalled lookups proceed. A spilled page
of which both copies fail makes its descriptors LOST, with cause 6. In a full paged map others make room. -/
def execMapPageLoadComplete (page : Nat) (good : Bool) (s : State) : Host.Outcome State Fault Refusal :=
  if s.map.absent.contains page then .next ((((s.modMap fun m => { m with absent := m.absent.filter (· != page) }).evict page).effectParked).settle)
  else if s.map.spilled.contains page && s.rackOnline then
    let held := tgetD s.media.spill page []
    let mine := s.map.spillPend.filter fun e => e.1 / 256 == page
    let s := s.modMap fun m => { m with spilled := m.spilled.filter (· != page), spillPend := m.spillPend.filter fun e => e.1 / 256 != page }
    let s := if good then held.foldl (fun s e => s.putDesc (keyNs e.1) (keyLcn e.1) e.2) s
      else held.foldl (fun s e => if e.2.state = .mapped then
        ((s.putDesc (keyNs e.1) (keyLcn e.1) e.2).loseUnits (keyNs e.1) (keyLcn e.1) (2 ^ 32 - 1) 6 e.2.loc .rack 0).2 else s.putDesc (keyNs e.1) (keyLcn e.1) e.2) s
    .next ((((mine.foldl (fun s e => s.putDesc (keyNs e.1) (keyLcn e.1) e.2) s).evict page).effectParked).settle)
  else .next s

/-- R131: an eligible map page is written to the conventional region: no descriptor split, every mapped one in the Rack tier. -/
def execMapPageSpill (page : Nat) (s : State) : Host.Outcome State Fault Refusal :=
  let ds := s.map.map.filter fun e => e.1 / 256 == page
  let ok := !ds.isEmpty && ds.all fun e => !e.2.split && (decide (e.2.state ≠ .mapped) || decide (e.2.loc.tier = .rack))
  if s.key2 0x0144 = 1 && s.rackOnline && ok && !s.map.spilled.contains page && !s.map.absent.contains page then
    .next ((s.modMedia fun m => { m with spill := tput m.spill page ds }).modMap fun m =>
      { m with map := m.map.filter fun e => e.1 / 256 != page, spilled := m.spilled ++ [page] })
  else .next s

end Sys2Proof.Machine
end

