-- ==== Sys2Proof/Machine/Admin.lean ====
section
/-!
DEFINITION. Admin commands on queues, namespaces and streams: Identify, queue creation and deletion, Abort, Asynchronous Event Request,
Namespace Management and Attachment, Format NVM, Sanitize, Device Self-test, directives (R88 to R92, R143, R313 to R316, R488 to R499,
R515).
-/
namespace Sys2Proof.Machine
open Sys2Proof

/-! Identify (R488 to R491) -/

/-- ASCII text at an offset, padded with spaces to a length. -/
def asciiField (off len : Nat) (bs : List Nat) : Nat × Nat × Nat :=
  (off, len, leNat ((List.range len).map fun i => BitVec.ofNat 8 (bs.getD i 32)))

/-- Upper-case hexadecimal digits of a value as ASCII codes, most significant first. -/
def hexCodes (digits v : Nat) : List Nat :=
  (List.range digits).map fun i => let d := v / 16 ^ (digits - 1 - i) % 16; if d < 10 then 48 + d else 55 + d

/-- ASCII codes of a text. -/
def codes (t : String) : List Nat := t.toList.map Char.toNat

/-- The serial number: 16 hexadecimal digits of key 0x0803. -/
def State.serial (s : State) : List Nat := hexCodes 16 (s.keyN 0x0803 0 8)

/-- Power state descriptors of R489: MP in 0.01 W, NOPS, ENLAT, EXLAT, relative figures. -/
def psdFields : List (Nat × Nat × Nat) :=
  [(3000, 0, 0, 0, 0), (2000, 0, 10, 10, 1), (1200, 0, 100, 100, 2), (250, 1, 20000, 10000, 3), (40, 1, 100000, 50000, 4)].zipIdx.flatMap
    fun (p, i) =>
      let o := 0x800 + 32 * i
      [(o, 2, p.1), (o + 3, 1, 2 * p.2.1), (o + 4, 4, p.2.2.1), (o + 8, 4, p.2.2.2.1), (o + 12, 1, p.2.2.2.2), (o + 13, 1, p.2.2.2.2),
       (o + 14, 1, p.2.2.2.2), (o + 15, 1, p.2.2.2.2)]

/-- The Identify Controller structure (R488). -/
def State.identifyCtrl (s : State) : List (Nat × Nat × Nat) :=
  let core := (tgetD s.fw.running 2 {}).version.toNat
  [(0x000, 2, 0x1F4B), (0x002, 2, s.key2 0x0801), asciiField 0x004 20 s.serial, asciiField 0x018 40 (codes "YH7400"),
   asciiField 0x040 8 (hexCodes 8 core), (0x048, 1, 6), (0x04D, 1, 11), (0x050, 4, 0x00020000), (0x054, 4, 4000000), (0x058, 4, 2000000),
   (0x05C, 4, 0x300), (0x100, 2, 0x3E), (0x102, 1, 15), (0x103, 1, 15), (0x104, 1, 0x14), (0x105, 1, 6), (0x106, 1, 63), (0x107, 1, 4),
   (0x108, 1, 1), (0x10A, 2, s.key2 0x0701), (0x10C, 2, s.key2 0x0702), (0x10E, 2, 20), (0x13C, 2, s.nvme.edstt), (0x148, 4, 0x80000003),
   (0x200, 1, 0x66), (0x201, 1, 0x44), (0x204, 4, 64), (0x208, 2, 0xCD), (0x20C, 1, 4), (0x20E, 2, 255), (0x210, 2, 255), (0x218, 4, 1),
   asciiField 0x300 256 (codes "nqn.2023-04.com.krytand:yh7400:" ++ s.serial ++ List.replicate 221 0)] ++ psdFields

/-- R488. -/
def execIdentifyController (stamp : Nat) (s : State) : Host.Outcome State Fault Refusal :=
  s.onAdmin stamp 0x06 fun c =>
    if bits (c.dw 10) 0 8 = 0x01 then (s.giveData c 4096 s.identifyCtrl).complete stamp 0 0 else s

/-- NGUID of a namespace: serial number and identifier, most significant byte first, then zeros (R490). -/
def State.nguid (s : State) (nsid : Nat) : Nat := leNat (beBytes 8 (s.keyN 0x0803 0 8) ++ beBytes 4 nsid)

/-- The Identify Namespace structure (R83, R490); all zeros for a namespace that is not there. -/
def State.identifyNs (s : State) (nsid : Nat) (n : NsEntry) : List (Nat × Nat × Nat) :=
  let g := if n.flbas = 1 then 255 else 31
  [(0, 8, n.nsze), (8, 8, n.nsze), (16, 8, n.nsze), (24, 1, 0x12), (25, 1, 1), (26, 1, n.flbas), (33, 1, 8), (34, 2, g), (36, 2, g), (40, 2, g), (44, 2, g),
   (64, 2, g), (66, 2, g), (68, 2, g), (70, 2, g), (72, 2, g), (104, 16, s.nguid nsid), (128, 4, 0x000C0000), (132, 4, 0x02090000)]

/-- R490: CNS 0x00 for an active namespace, CNS 0x11 for an allocated one. -/
def execIdentifyNamespace (stamp : Nat) (s : State) : Host.Outcome State Fault Refusal :=
  s.onAdmin stamp 0x06 fun c =>
    let cns := bits (c.dw 10) 0 8
    if cns ≠ 0x00 && cns ≠ 0x11 then s
    else if c.nsid = 0 || c.nsid > 64 then s.complete stamp scInvalidNs 0
    else
      let page := match s.ns? c.nsid with
        | some n => if cns = 0x11 || n.attached then s.identifyNs c.nsid n else []
        | none => []
      (s.giveData c 4096 page).complete stamp 0 0

/-- Namespace identifiers above one, as a list of dwords. -/
def nsList (l : List Nat) (above : Nat) : List (Nat × Nat × Nat) := ((l.filter (above < ·)).zipIdx).map fun (n, i) => (4 * i, 4, n)

/-- R491: the other structures: lists of active and allocated namespaces, of controllers, namespace descriptors, and the command-set
structures, all zeros for the NVM command set. Any other CNS was turned away at fetch. -/
def execIdentifyLists (stamp : Nat) (s : State) : Host.Outcome State Fault Refusal :=
  s.onAdmin stamp 0x06 fun c =>
    let cns := bits (c.dw 10) 0 8
    let give (p : List (Nat × Nat × Nat)) : State := (s.giveData c 4096 p).complete stamp 0 0
    if cns = 0x00 || cns = 0x01 || cns = 0x11 then s
    else if cns = 0x02 then give (nsList ((s.nvme.nss.filter (·.2.attached)).map (·.1)) c.nsid)
    else if cns = 0x10 then give (nsList (s.nvme.nss.map (·.1)) c.nsid)
    else if cns = 0x13 then give [(0, 2, if bits (c.dw 10) 16 16 = 0 then 1 else 0)]
    else if cns = 0x12 then give [(0, 2, if s.nsActive c.nsid && decide (bits (c.dw 10) 16 16 = 0) then 1 else 0)]
    else if cns = 0x03 then
      if s.nsActive c.nsid then give [(0, 1, 2), (1, 1, 16), (4, 16, s.nguid c.nsid)] else s.complete stamp scInvalidNs 0
    else give []

/-! Queues (R88, R459, R485, R492) -/

/-- Checks of a queue creation: identifier, then size; an entry size of CC that is not set is an invalid field. -/
def queueStatus (used : Bool) (qid size0 : Nat) (esOk : Bool) : Nat :=
  if qid = 0 || qid > 1024 || used then 0x101 else if size0 = 0 then 0x102 else if !esOk then scInvalidField else 0

/-- R492: creates an I/O completion queue; a vector out of range completes with 0x108. -/
def execCreateIoCompletionQueue (stamp : Nat) (s : State) : Host.Outcome State Fault Refusal :=
  s.onAdmin stamp 0x05 fun c =>
    let qid := bits (c.dw 10) 0 16
    let n0 := bits (c.dw 10) 16 16
    let v := bits (c.dw 11) 16 16
    let st := queueStatus (thas s.nvme.cqs qid) qid n0 (decide (s.nvme.iocqes = 4))
    if st ≠ 0 then s.complete stamp st 0
    else if v > 1024 then s.complete stamp 0x108 0
    else if !bitAt (c.dw 11) 0 then s.complete stamp scInvalidField 0
    else
      let q : CqSt := { size := n0 + 1, vector := v, ien := bitAt (c.dw 11) 1, base := c.prp }
      (s.modNvme fun n => { n with cqs := tput n.cqs qid q }).complete stamp 0 0

/-- R492: creates an I/O submission queue with its priority class on an existing completion queue. -/
def execCreateIoSubmissionQueue (stamp : Nat) (s : State) : Host.Outcome State Fault Refusal :=
  s.onAdmin stamp 0x01 fun c =>
    let qid := bits (c.dw 10) 0 16
    let n0 := bits (c.dw 10) 16 16
    let cq := bits (c.dw 11) 16 16
    let st := queueStatus (thas s.nvme.sqs qid) qid n0 (decide (s.nvme.iosqes = 6))
    if st ≠ 0 then s.complete stamp st 0
    else if cq = 0 || !thas s.nvme.cqs cq then s.complete stamp 0x100 0
    else if !bitAt (c.dw 11) 0 then s.complete stamp scInvalidField 0
    else
      let q : SqSt := { size := n0 + 1, cqid := cq, prio := bits (c.dw 11) 1 2, base := c.prp }
      (s.modNvme fun n => { n with sqs := tput n.sqs qid q }).complete stamp 0 0

/-- Whether an abort at this instant catches a command: the rows of R91. A change of the map has begun with the first chunk that has changed, or
whose version has started programming. -/
def State.catches (s : State) (c : Ctx) : Bool :=
  if c.isAdmin then (if c.opcode.toNat = 0x08 then false else if c.opcode.toNat = 0x0C then true else !c.begun)
  else match c.opcode.toNat with
    | 0x01 => !s.startedProgramming c
    | 0x08 => !(c.ents.any fun e => e.started && !e.lone) && !s.startedProgramming c
    | 0x09 => c.cls ≠ .none && !(c.ents.any fun e => decide (e.res ≠ .pending))
    | 0x00 => false
    | _ => true

/-- End a caught command: its reads are discarded, it leaves the versions that it joined, and it completes with a status (R91). -/
def State.catchCmd (s : State) (c : Ctx) (status : Nat) : State :=
  let s := s.cancelReads fun j => j.flow == 0 && j.stamp == c.stamp
  let s := if c.cls = .write then s.leaveVersions c.stamp else s
  let s := s.modNvme fun n => { n with aers := n.aers.filter (· != c.stamp) }
  (s.complete c.stamp status 0).effectParked

/-- R88: contexts of the queue that R90 would catch complete with 0x08, the others run to completion, and the delete completes after
them. -/
def execDeleteIoSubmissionQueue (stamp : Nat) (s : State) : Host.Outcome State Fault Refusal :=
  s.onAdmin stamp 0x00 fun c =>
    let qid := bits (c.dw 10) 0 16
    match tget s.nvme.sqs qid with
    | none => s.complete stamp 0x101 0
    | some q =>
      if qid = 0 then s.complete stamp 0x101 0
      else if q.deleting.isSome then s
      else
        let s := (s.modNvme fun n => { n with sqs := tput n.sqs qid { q with deleting := some stamp } }).dropReq (.sqFetch qid)
        let s := s.modCtx stamp fun c => { c with begun := true }
        let mine := s.host.ctxs.filter fun x => match x.origin with | .sq k _ => k == qid | _ => false
        ((mine.foldl (fun s x => if s.catches x then s.catchCmd x scAbortSqDeleted else s) s).finishDeletes).settle

/-- R492: deletes an I/O completion queue; while a submission queue uses it, status 0x10C. -/
def execDeleteIoCompletionQueue (stamp : Nat) (s : State) : Host.Outcome State Fault Refusal :=
  s.onAdmin stamp 0x04 fun c =>
    let qid := bits (c.dw 10) 0 16
    if qid = 0 || !thas s.nvme.cqs qid then s.complete stamp 0x101 0
    else if s.nvme.sqs.any fun e => e.2.cqid == qid then s.complete stamp 0x10C 0
    else (s.modNvme fun n => { n with cqs := tdel n.cqs qid }).complete stamp 0 0

/-! Abort and Asynchronous Event Request (R89 to R92, R515) -/

/-- R89 to R92: the abort point: the named command is caught, and its completion precedes the Abort's own, or it is not. A 17th
outstanding Abort completes with 0x103. -/
def execAbort (stamp : Nat) (s : State) : Host.Outcome State Fault Refusal :=
  s.onAdmin stamp 0x08 fun c =>
    if (s.contexts.filter fun x => x.isAdmin && decide (x.opcode.toNat = 0x08) && decide (x.stamp < stamp)).length ≥ 16 then s.complete stamp 0x103 0
    else
      let org := Origin.sq (bits (c.dw 10) 0 16) (bits (c.dw 10) 16 16)
      match s.host.ctxs.find? fun x => x.origin == org with
      | some x => if s.catches x then ((s.catchCmd x scAbortRequested).complete stamp 0 0).settle else s.complete stamp 0 1
      | none => s.complete stamp 0 1

/-- R515: the request stays outstanding until an event is raised; an event that waits completes it at once. A 17th completes with
0x105. -/
def execAsynchronousEventRequest (stamp : Nat) (s : State) : Host.Outcome State Fault Refusal :=
  s.onAdmin stamp 0x0C fun _ =>
    if s.nvme.aers.contains stamp then s
    else if s.nvme.aers.length ≥ 16 then s.complete stamp 0x105 0
    else
      let s := s.modNvme fun n => { n with aers := n.aers ++ [stamp] }
      match s.nvme.waitingEv with
      | e :: rest => (s.modNvme fun n => { n with waitingEv := rest }).deliver e.1 e.2.1 e.2.2
      | [] => s

/-! Namespaces (R143, R189, R285, R313, R496) -/

/-- Capacity available to namespaces in bytes (R285). -/
def State.nsCap (s : State) : Nat := 512 * (s.bakeCap * (100 - s.key2 0x0124) / 100 + s.rackCap)

/-- Bytes of all namespaces. -/
def State.nsTotal (s : State) : Nat := s.nvme.nss.foldl (fun n e => n + e.2.nsze * lbaBytes e.2.flbas) 0

/-- A namespace attribute has changed (R515). -/
def State.nsChanged (s : State) (nsid : Nat) : State :=
  (s.modNvme fun n => { n with changedNs := if n.changedNs.contains nsid then n.changedNs else n.changedNs ++ [nsid] }).raiseEvent 2 0 0x04

/-- A new key pair for a namespace (R313). -/
def State.newKey (s : State) (nsid : Nat) : Nat × State :=
  let g := s.flash.keyGen + 1
  (g, s.modFlash fun f => { f with keyGen := g, keys := tput f.keys (nsid - 1) { gen := g, loaded := true } })

/-- The command completes once the last entry formed is durable (R122). -/
def State.awaitJournal (s : State) (st : Nat) (dw0 : Dword) : State :=
  s.modCtx st fun c => { c with begun := true, jwait := some s.map.wsn, dw0 := dw0, status := some 0 }

/-- R496: create: the lowest free identifier, a new key, NS_RESET; not attached. `nsze`, `ncap` and `flbas` are those of its data. -/
def execNamespaceCreate (stamp nsze ncap flbas : Nat) (s : State) : Host.Outcome State Fault Refusal :=
  s.onAdmin stamp 0x0D fun c =>
    if bits (c.dw 10) 0 4 ≠ 0 || c.jwait.isSome then s
    else if flbas > 1 || nsze ≠ ncap || nsze = 0 then s.complete stamp scInvalidField 0
    else match (List.range 64).find? fun i => !thas s.nvme.nss (i + 1) with
      | none => s.complete stamp 0x116 0
      | some i =>
        if s.nsTotal + nsze * lbaBytes flbas > s.nsCap then s.complete stamp 0x115 0
        else
          let nsid := i + 1
          let (g, s) := s.newKey nsid
          let e : NsEntry := { nsze := nsze, flbas := flbas, keyGen := g }
          let s := s.modNvme fun n => { n with nss := tput n.nss nsid e }
          ((s.journal nsid 0 (.side (.ns (some e)))).journal nsid 0 .nsReset).awaitJournal stamp (BitVec.ofNat 32 nsid)

/-- Copies, queued and staged chunks of a namespace are dropped (R56, R315, R357). -/
def State.dropNsCopies (s : State) (nsid : Nat) : State :=
  let s := (s.place.copies.filter fun c => c.nsid == nsid && decide (c.phase ≠ .journalling)).foldl (fun s c => s.endCopy c.id) s
  let keep (l : List MigItem) : List MigItem := l.filter fun m => m.nsid != nsid
  let s := s.modPlace fun p => { p with queues := p.queues.map keep, waitEvac := p.waitEvac.filter fun w => w.2.nsid != nsid }
  s.modRack fun r => { r with acts := r.acts.map fun a => { a with staging := keep a.staging } }

/-- NS_RESET of a namespace: every descriptor UNMAPPED, its deferred-error state and log cleared, its streams released (R98, R143, R499). -/
def State.resetNs (s : State) (nsid : Nat) : State :=
  let s := ((s.unclean.dropNsCopies nsid).dropNs nsid).modHost fun h => { h with deferred := tdel h.deferred nsid, defPend := h.defPend.filter fun e => e.2.1 != nsid }
  let s := s.modPlace fun p => { p with streams := p.streams.filter fun e => (e.2.bind.map (·.1)) != some nsid, nsStreams := tdel p.nsStreams nsid, granted := tdel p.granted nsid }
  s.journal nsid 0 .nsReset

/-- R496: delete, as a barrier: the map, the deferred-error state, the stream formats, the hints and the streams of the namespace go. -/
def execNamespaceDelete (stamp : Nat) (s : State) : Host.Outcome State Fault Refusal :=
  s.onAdmin stamp 0x0D fun c =>
    if bits (c.dw 10) 0 4 ≠ 1 || !s.barrierClear c || c.jwait.isSome then s
    else if !thas s.nvme.nss c.nsid then s.complete stamp scInvalidNs 0
    else
      let s := s.resetNs c.nsid
      let s := s.modNvme fun n => { n with nss := tdel n.nss c.nsid }
      let s := s.modFlash fun f => { f with keys := tdel f.keys (c.nsid - 1) }
      let mine := s.coder.formats.filter fun e => e.2.valid && e.2.nsid.toNat == c.nsid
      let s := s.modCoder fun k => { k with formats := k.formats.map fun e => if e.2.valid && e.2.nsid.toNat = c.nsid then (e.1, { written := true }) else e }
      let s := mine.foldl (fun s e => s.journal 1 0 (.side (.format e.1 { written := true }))) s
      let s := s.modPlace fun p => { p with hints := p.hints.filter fun h => h.nsid != c.nsid }
      let s := (s.journal 1 0 (.side (.hints s.place.hints))).journal c.nsid 0 (.side (.ns none))
      (s.nsChanged c.nsid).awaitJournal stamp 0

/-- R496: attach to controller 0. `ctrls` is the controller list of its data; one that names any other completes with 0x11C. -/
def execNamespaceAttach (stamp : Nat) (ctrls : List Nat) (s : State) : Host.Outcome State Fault Refusal :=
  s.onAdmin stamp 0x15 fun c =>
    if bits (c.dw 10) 0 4 ≠ 0 then s
    else match s.ns? c.nsid with
      | none => s.complete stamp scInvalidNs 0
      | some n =>
        if ctrls ≠ [0] then s.complete stamp 0x11C 0
        else if n.attached then s.complete stamp 0x118 0
        else
          let e := { n with attached := true }
          (((s.modNvme fun x => { x with nss := tput x.nss c.nsid e }).journal c.nsid 0 (.side (.ns (some e)))).nsChanged c.nsid).complete stamp 0 0

/-- R496: detach, as a barrier. -/
def execNamespaceDetach (stamp : Nat) (ctrls : List Nat) (s : State) : Host.Outcome State Fault Refusal :=
  s.onAdmin stamp 0x15 fun c =>
    if bits (c.dw 10) 0 4 ≠ 1 || !s.barrierClear c then s
    else match s.ns? c.nsid with
      | none => s.complete stamp scInvalidNs 0
      | some n =>
        if ctrls ≠ [0] then s.complete stamp 0x11C 0
        else if !n.attached then s.complete stamp 0x11A 0
        else
          let e := { n with attached := false }
          ((((s.modNvme fun x => { x with nss := tput x.nss c.nsid e }).journal c.nsid 0 (.side (.ns (some e)))).nsChanged c.nsid).complete stamp 0 0).settle

/-! Format and Sanitize (R143, R315, R316, R356, R497, R498) -/

/-- A number of LBAs rescaled from one LBA size to another. -/
def rescale (x old new : Nat) : Nat := x * old / new

/-- The format of a namespace with a new LBA format: sizes, stream format bases and hint ranges rescaled, the contents reset (R497). -/
def State.formatNs (s : State) (nsid : Nat) (n : NsEntry) (lbaf : Nat) : State :=
  let o := lbaBytes n.flbas
  let w := lbaBytes lbaf
  let e := { n with flbas := lbaf, nsze := rescale n.nsze o w }
  let s := (s.modNvme fun x => { x with nss := tput x.nss nsid e }).journal nsid 0 (.side (.ns (some e)))
  let s := if o = w then s else
    let mine (f : FormatRec) : Bool := f.valid && f.nsid.toNat == nsid
    let s := s.modCoder fun k => { k with
      formats := k.formats.map fun f => if mine f.2 then (f.1, { f.2 with base := BitVec.ofNat 64 (rescale f.2.base.toNat o w) }) else f }
    let s := (s.coder.formats.filter fun f => mine f.2).foldl (fun s f => s.journal 1 0 (.side (.format f.1 f.2))) s
    let s := s.modPlace fun p => { p with
      hints := p.hints.map fun h => if h.nsid = nsid then { h with slba := rescale h.slba o w, nlb := rescale h.nlb o w } else h }
    s.journal 1 0 (.side (.hints s.place.hints))
  (s.resetNs nsid).nsChanged nsid

/-- Status with which Format NVM is turned away, 0 for none. -/
def formatStatus (d10 : Nat) : Nat :=
  let ses := bits d10 9 3
  if (ses ≠ 0 && ses ≠ 2) || bits d10 0 4 > 1 || bits d10 12 2 ≠ 0 then scInvalidField
  else if bits d10 4 5 ≠ 0 then 0x0A else 0

/-- R497: Format NVM without a crypto erase, a barrier on its namespace. -/
def execFormatNvm (stamp : Nat) (s : State) : Host.Outcome State Fault Refusal :=
  s.onAdmin stamp 0x80 fun c =>
    if bits (c.dw 10) 9 3 = 2 || !s.barrierClear c || c.jwait.isSome then s
    else if formatStatus (c.dw 10) ≠ 0 then s.complete stamp (formatStatus (c.dw 10)) 0
    else match s.ns? c.nsid with
      | none => s.complete stamp scInvalidNs 0
      | some n => (s.formatNs c.nsid n (bits (c.dw 10) 0 4)).awaitJournal stamp 0

/-- Every formed entry is programmed now. -/
def State.drainJournal (s : State) : State := (List.range (ceilDiv s.map.pendJ.length 512)).foldl (fun s _ => s.journalDurable) s

/-- Steps 2 to 4 of a crypto erase (R315): new key, two rounds, and the entries and root copies that hold the old one are gone. -/
def State.cryptoErase (s : State) (nsid : Nat) : State :=
  match s.ns? nsid with
  | none => s
  | some n =>
    let (g, s) := s.newKey nsid
    let e := { n with keyGen := g }
    let s := ((s.modNvme fun x => { x with nss := tput x.nss nsid e }).journal nsid 0 (.side (.ns (some e)))).drainJournal
    let s := s.writeRoot (s.formRoot false s.ckHorizon)
    let s := s.writeRoot (s.formRoot false s.ckHorizon)
    let s := s.modMap fun m => { m with ckActive := none, sinceHorizon := 0, windowFull := false }
    let s := s.modMedia fun m => { m with
      journal := m.journal.filter fun j => !(j.nsid == nsid && (match j.body with | .side (.ns _) => true | _ => false))
      rackRoot := if s.rackOnline then [] else m.rackRoot }
    s.modRack fun r => if r.spin = .ready then { r with rootCopied := 0 } else r

/-- R315, R497: Format NVM with Secure Erase Settings 2: as a format, and then a crypto erase before it completes. -/
def execFormatNvmCryptoErase (stamp : Nat) (s : State) : Host.Outcome State Fault Refusal :=
  s.onAdmin stamp 0x80 fun c =>
    if bits (c.dw 10) 9 3 ≠ 2 || !s.barrierClear c then s
    else if formatStatus (c.dw 10) ≠ 0 then s.complete stamp (formatStatus (c.dw 10)) 0
    else match s.ns? c.nsid with
      | none => s.complete stamp scInvalidNs 0
      | some n => ((((s.formatNs c.nsid n (bits (c.dw 10) 0 4)).drainJournal.cryptoErase c.nsid)).complete stamp 0 0).settle

/-- R498: action 1 leaves the failure mode. -/
def execSanitizeExitFailure (stamp : Nat) (s : State) : Host.Outcome State Fault Refusal :=
  s.onAdmin stamp 0x84 fun c =>
    if bits (c.dw 10) 0 3 ≠ 1 || !s.barrierClear c then s
    else ((s.modNvme fun n => { n with sanFailed := false }).complete stamp 0 0).settle

/-- Every namespace is reset (R498). -/
def State.resetAll (s : State) : State := s.nvme.nss.foldl (fun s e => s.resetNs e.1) s

/-- R316, R356, R498: action 2: the command completes once the operation has started: contents reset, every Proof and Bake span to be
erased, the Rack tier demanded. The operation ends with the last erase and the overwrite of the Rack bands. -/
def execSanitizeBlockErase (stamp : Nat) (s : State) : Host.Outcome State Fault Refusal :=
  s.onAdmin stamp 0x84 fun c =>
    if bits (c.dw 10) 0 3 ≠ 2 || !s.barrierClear c then s
    else
      let s := (s.modNvme fun n => { n with sanitize := 2, sanAction := 2 }).complete stamp 0 0
      let s := s.resetAll.drainJournal
      let s := [0, 1].foldl (fun s a => if (s.act a).openStack.isSome then s.dropOpenStack a 0 else s) s
      let s := s.modFlash fun f => { f with
        openSpan := [], kneading := [], kneadSpans := []
        spans := f.spans.map fun e => if e.2.phase = .opened || e.2.phase = .closed || e.2.phase = .releasing then (e.1, { e.2 with phase := .released, batches := [] }) else e }
      let s := s.modPlace fun p => { p with evacuating := [], copies := [] }
      (s.drainJournal.sanitizeCheck).settle

/-- R315, R498: action 4: a crypto erase of every namespace; the command completes and the completed operation is reported. -/
def execSanitizeCryptoErase (stamp : Nat) (s : State) : Host.Outcome State Fault Refusal :=
  s.onAdmin stamp 0x84 fun c =>
    if bits (c.dw 10) 0 3 ≠ 4 || !s.barrierClear c then s
    else
      let s := s.complete stamp 0 0
      let s := (s.nvme.nss.map (·.1)).foldl (fun s n => s.cryptoErase n) (s.resetAll.drainJournal)
      ((s.modNvme fun n => { n with sanitize := 1, sanAction := 4, sanFailed := false }).raiseEvent 2 3 0x81).settle

/-! Device Self-test (R493, R511) -/

/-- A self-test ends with a result code, newest first. -/
def State.testDone (s : State) (kind result : Nat) : State :=
  s.modNvme fun n => { n with selfTest := { n.selfTest with results := ((kind, result) :: n.selfTest.results).take 20 } }

/-- R493: the short test, or 0xF to abort one: the command completes and the test runs; `result` is its NVMe result code. -/
def execDeviceSelfTestShort (stamp result : Nat) (s : State) : Host.Outcome State Fault Refusal :=
  s.onAdmin stamp 0x14 fun c =>
    let stc := bits (c.dw 10) 0 4
    if stc = 0xF then s.complete stamp 0 0
    else if stc = 1 then (s.complete stamp 0 0).testDone 1 (result % 16) else s

/-- R493, R307, R346: the extended test: one scrub pass over both tiers, whose losses `lost` (namespace, chunk, units) enter the
deferred-error flow with cause 7. -/
def execDeviceSelfTestExtended (stamp result : Nat) (lost : List (Nat × Nat × Nat)) (s : State) : Host.Outcome State Fault Refusal :=
  s.onAdmin stamp 0x14 fun c =>
    if bits (c.dw 10) 0 4 ≠ 2 then s
    else
      let s := (s.complete stamp 0 0).testDone 2 (result % 16)
      let s := s.modFlash fun f => { f with spans := f.spans.map fun e => if e.2.phase = .closed then (e.1, { e.2 with scrubbed := s.now, scrubSoon := false }) else e }
      let s := s.modRack fun r => { r with stackTab := r.stackTab.map fun e => if e.2.phase = .closed && r.spin = .ready then (e.1, { e.2 with scrubbed := s.now }) else e }
      lost.foldl (fun s x => let d := s.desc x.1 x.2.1
        if d.state = .mapped then s.loseSource x.1 x.2.1 x.2.2 7 (s.payloadLoc d) else s) s

/-! Directives (R34, R499) -/

/-- Type and operation of a directive. -/
def Ctx.dir (c : Ctx) : Nat × Nat := (bits (c.dw 11) 8 8, bits (c.dw 11) 0 8)

/-- Stream records that serve no identifier and are not allocated to another namespace. -/
def State.freeStreams (s : State) (nsid : Nat) : Nat :=
  let opened (n : Nat) : Nat := (s.place.streams.filter fun e => (e.2.bind.map (·.1)) == some n).length
  4096 - (s.place.streams.filter (·.2.bind.isSome)).length - (s.place.granted.filter (·.1 != nsid)).foldl (fun k e => k + (e.2 - opened e.1)) 0

/-- R499: Allocate Resources grants identifiers up to those still free; completion Dword 0 gives how many. -/
def execStreamsAllocateResources (stamp : Nat) (s : State) : Host.Outcome State Fault Refusal :=
  s.onAdmin stamp 0x1A fun c =>
    if c.dir ≠ (1, 3) then s
    else if !s.nsActive c.nsid then s.complete stamp scInvalidNs 0
    else
      let n := min (bits (c.dw 12) 0 16) (s.freeStreams c.nsid)
      (s.modPlace fun p => { p with granted := tput p.granted c.nsid n }).complete stamp 0 (BitVec.ofNat 32 n)

/-- R499: Directive Send: Release Identifier closes an identifier; Release Resources gives up an allocation; the Identify directive's
Enable completes without an effect, both directives being always on. -/
def execStreamsReleaseIdentifier (stamp : Nat) (s : State) : Host.Outcome State Fault Refusal :=
  s.onAdmin stamp 0x19 fun c =>
    if c.dir = (0, 1) then s.complete stamp 0 0
    else if !s.nsActive c.nsid then s.complete stamp scInvalidNs 0
    else if c.dir = (1, 2) then (s.modPlace fun p => { p with granted := tdel p.granted c.nsid }).complete stamp 0 0
    else
      let id := bits (c.dw 11) 16 16
      (s.modPlace fun p => { p with streams := p.streams.filter fun e => e.2.bind != some (c.nsid, id) }).complete stamp 0 0

/-- R499: Directive Receive: stream parameters, the open identifiers, or the directives that are supported. -/
def execStreamsReturnParameters (stamp : Nat) (s : State) : Host.Outcome State Fault Refusal :=
  s.onAdmin stamp 0x1A fun c =>
    let n := (s.ns? c.nsid).getD {}
    let ids := s.place.streams.filterMap fun e => match e.2.bind with | some (k, i) => if k = c.nsid then some i else none | none => none
    if c.dir = (1, 3) then s
    else if c.dir = (0, 1) then (s.giveData c 4096 [(0, 1, 3), (32, 1, 3)]).complete stamp 0 0
    else if !s.nsActive c.nsid then s.complete stamp scInvalidNs 0
    else if c.dir = (1, 2) then
      (s.giveData c (2 + 2 * ids.length) ((0, 2, ids.length) :: (ids.zipIdx).map fun (x, i) => (2 + 2 * i, 2, x))).complete stamp 0 0
    else
      (s.giveData c 32 [(0, 2, 4096), (2, 2, 4096), (4, 2, 0), (16, 4, if n.flbas = 1 then 256 else 32), (20, 2, 1),
        (22, 2, tgetD s.place.granted c.nsid 0), (24, 2, ids.length)]).complete stamp 0 0

end Sys2Proof.Machine
end

