-- ==== Sys2Proof/Machine/Config.lean ====
section
/-!
DEFINITION. Profiles and the boot NVM: triggers, swap points, the RECORD pin, the schedule, Profile Swap and Profile Control, and
the OSPI controller (R28, R503, R508, R533 to R541, R547 to R553).
-/
namespace Sys2Proof.Machine
open Sys2Proof

/-! Profile swaps -/

/-- Trigger code of record 0x2005 (R606). -/
def Trigger.code : Trigger → Nat
  | .pin => 1
  | .host => 2
  | .mgmt => 3
  | .schedule => 4
  | .cfg => 5

/-- The Profile Swap commands that wait complete: Dword 0 bit 0 is the active profile, bit 1 whether a swap took place (R508). -/
def State.completeSwaps (s : State) (swapped : Bool) : State :=
  let d := BitVec.ofNat 32 (b2n s.cfg.drainActive + 2 * b2n swapped)
  s.cfg.waiters.foldl (fun s st => s.complete st 0 d) (s.modCfg fun c => { c with waiters := [] })

/-- A trigger toward a profile (R536): ignored during the power-loss sequence (R541); it joins a pending swap to the same profile;
one toward the active profile cancels a pending swap. -/
def State.trigger (s : State) (drain : Bool) (t : Trigger) : State :=
  if s.pwr.pl.running then s
  else match s.cfg.swap with
    | none => if drain = s.cfg.drainActive then s else s.modCfg fun c => { c with swap := some { drain := drain, trig := t, trigAt := s.now } }
    | some p =>
      if p.drain = drain then s
      else if drain = s.cfg.drainActive then (s.modCfg fun c => { c with swap := none }).completeSwaps false
      else s.modCfg fun c => { c with swap := some { drain := drain, trig := t, trigAt := s.now } }

/-- Chunks staged for a migration that is no longer allowed are dropped from DRAM (R56). -/
def State.dropStaged (s : State) : State :=
  if s.migAllowed then s else s.modRack fun r => { r with acts := r.acts.map fun a => { a with staging := a.staging.filter (·.knead) } }

/-- The active profile becomes another one, with the record of a swap point (R534). -/
def State.swapTo (s : State) (drain : Bool) (t : Trigger) : State :=
  let s := (s.modCfg fun c => { c with drainActive := drain, swap := none }).note 0x2005 0 0 [b2n drain, t.code]
  (s.dropStaged.evalMigration).completeSwaps true

/-- The swap point (R534, R535): none in the safe state, during an activation pause, or once the power-loss sequence has begun. -/
def State.swapNow (s : State) : State :=
  match s.cfg.swap with
  | none => s
  | some p => if s.safeState || s.nvme.pp || s.pwr.pl.running then s else s.swapTo p.drain p.trig

/-- R535: a batch boundary after the trigger. No placement decision is ever in progress between two commands. -/
def execSwapPoint (s : State) : Host.Outcome State Fault Refusal := .next s.swapNow

/-- R535: no batch boundary within 400 µs of the trigger, or of the end of a recovery or pause that held it. -/
def execSwapFallbackTimeout (s : State) : Host.Outcome State Fault Refusal :=
  match s.cfg.swap with
  | none => .next s
  | some p =>
    if s.safeState || s.nvme.pp || s.pwr.pl.running then .next s
    else .next (s.reach (max p.trigAt s.cfg.swapBlockedAt + 400 * us)).swapNow

/-- Profile that a level of RECORD selects: high Capture, low Drain. -/
def pinDrain (level : Bool) : Bool := !level

/-- R537: a change of level starts the 10 µs count anew. RECORD is sampled in the AON domain. -/
def execRecordPinChange (level : Bool) (s : State) : Host.Outcome State Fault Refusal :=
  if level = s.cfg.record then .next s else .next (s.modCfg fun c => { c with record := level, recordSince := s.now })

/-- R537: the level has held for 10 µs: it counts, and with PIN_EN 1 it triggers. -/
def execRecordDebounceComplete (s : State) : Host.Outcome State Fault Refusal :=
  if s.cfg.record = s.cfg.recordDeb || !s.pwr.aon then .next s
  else
    let s := (s.reach (s.cfg.recordSince + 10 * us)).modCfg fun c => { c with recordDeb := c.record }
    .next (if s.cfg.pinEn then s.trigger (pinDrain s.cfg.recordDeb) .pin else s)

/-- A live Profile Swap order of this arbitration cycle that names a profile (R540). -/
def State.swapOrder (s : State) (drain : Bool) : Bool := s.nvme.cycle.any fun o => o.op.toNat == 0xC0 && bitAt (o.cdw.getD 0 0).toNat 0 == drain

/-- The schedule triggers and disarms; a live order of the same cycle that names the other profile wins (R539, R540). -/
def State.schedule (s : State) : State :=
  let d := s.cfg.schedDrain
  let s := s.modCfg fun c => { c with schedEn := false }
  if s.swapOrder (!d) then s.note 0x2006 0 0 [b2n d] else s.trigger d .schedule

/-- R539: the 1 ms comparison of SCHED_TIME with the Timestamp. -/
def execScheduledSwapCompare (s : State) : Host.Outcome State Fault Refusal :=
  if s.cfg.schedEn && s.nvme.tsBase.isSome && decide (s.cfg.schedTime.toNat ≤ s.stamp) then .next s.schedule else .next s

/-- Trigger of an order by who sent it. -/
def Ctx.trig (c : Ctx) : Trigger := if c.isMgmt then .mgmt else .host

/-- R508, R536, R538: Profile Swap; it waits during an activation pause (R521). -/
def execProfileSwap (stamp : Nat) (s : State) : Host.Outcome State Fault Refusal :=
  s.onAdmin stamp 0xC0 fun c =>
    let d := bitAt (c.dw 10) 0
    if s.nvme.pp || s.pwr.pl.running || s.cfg.waiters.contains stamp then s
    else if bits (c.dw 10) 1 31 ≠ 0 then s.complete stamp scInvalidField 0
    else if s.cfg.pinEn && d ≠ pinDrain s.cfg.recordDeb then s.complete stamp (vendor 0xC2) 0
    else
      let s := s.trigger d c.trig
      if s.cfg.swap.isSome then (s.modCfg fun x => { x with waiters := x.waiters ++ [stamp] }).modCtx stamp fun x => { x with begun := true }
      else s.complete stamp 0 (BitVec.ofNat 32 (b2n s.cfg.drainActive))

/-- R503, R538: `data` is the 16 bytes of the feature. Checks: reserved fields, the pin, the Timestamp. A change of PIN_EN from 0 to 1 is
a trigger, and a scheduled time already past triggers at once. -/
def execSetProfileControl (stamp : Nat) (data : List Byte) (s : State) : Host.Outcome State Fault Refusal :=
  s.onSet stamp 0xC1 fun c =>
    let w := fieldAt data 0 4
    let t := fieldAt data 8 8
    if bits w 3 5 ≠ 0 || bits w 11 21 ≠ 0 || fieldAt data 4 4 ≠ 0 || bits t 48 16 ≠ 0 then s.complete stamp scInvalidField 0
    else if bitAt w 0 && bitAt w 1 then s.complete stamp (vendor 0xC2) 0
    else if bitAt w 1 && s.nvme.tsBase.isNone then s.complete stamp scInvalidField 0
    else
      let rise := bitAt w 0 && !s.cfg.pinEn
      let s := s.modCfg fun x => { x with pinEn := bitAt w 0, schedEn := bitAt w 1, schedDrain := bitAt w 2, schedTime := BitVec.ofNat 64 t }
      let s := if rise then s.trigger (pinDrain s.cfg.recordDeb) c.trig else s
      let s := if s.cfg.schedEn && decide (t ≤ s.stamp) then s.schedule else s
      s.complete stamp 0 0

/-- The 16 bytes of Profile Control; `dflt` gives the values after controller enable (R486, R503). -/
def State.profileControl (s : State) (dflt : Bool) : List (Nat × Nat × Nat) :=
  let c := s.cfg
  let w := (if dflt then b2n c.img.pinEn else b2n c.pinEn + 2 * b2n c.schedEn + 4 * b2n c.schedDrain) +
    2 ^ 8 * b2n c.drainActive + 2 ^ 9 * b2n c.recordDeb + 2 ^ 10 * b2n c.swap.isSome
  [(0, 4, w), (8, 6, if dflt then 0 else c.schedTime.toNat)]

/-- R503. -/
def execGetProfileControl (stamp : Nat) (s : State) : Host.Outcome State Fault Refusal :=
  s.onGet stamp 0xC1 fun c sel => (s.giveData c 16 (s.profileControl (sel = 1))).complete stamp 0 0

/-! The OSPI controller -/

/-- What an unlisted byte of the boot NVM reads as: erased. -/
def nvmFill : Byte := 0xFF

/-- n bytes of the boot NVM. -/
def State.nvmBytes (s : State) (a n : Nat) : List Byte := mreadN nvmFill s.ospi.nvm a n

/-- Write consecutive bytes in place of what their addresses held, keeping the canonical form. -/
def mfill (d : Byte) (m : List Host.Cell) (a : Nat) (bs : List Byte) : List Host.Cell :=
  (m.filter fun c => c.1 < a) ++ ((bs.zipIdx a).filterMap fun (b, i) => if b = d then none else some (i, b)) ++
    m.filter fun c => a + bs.length ≤ c.1

/-- The content of a sector becomes undefined: 65,536 free bytes (R549, R553). -/
def State.loseSector (s : State) (a : Nat) : State :=
  let base := a / 65536 * 65536
  let bs := (List.range 65536).map fun i => Config.freeValue 8 (s.free + i)
  { s with free := s.free + 65536 }.modOspi fun o => { o with nvm := mfill nvmFill o.nvm base bs }

/-- Bank of an NVM address. -/
def State.bankOf (s : State) (a : Nat) : Nat := a / s.ospi.bankSize

/-- A sector is protected (R550). -/
def OspiSt.sectorLocked (o : OspiSt) (n : Nat) : Bool := o.prot.contains n || (o.aspEn && o.aprot.contains n)

/-- The result of the checks of R548 on an operation, in their order: 0 when all pass. -/
def State.ospiCheck (s : State) (erase : Bool) (a len : Nat) : Nat :=
  let o := s.ospi
  if a ≥ 2 * o.bankSize || (erase && a % 65536 ≠ 0) || (!erase && (len = 0 || len > 256 || a % 256 + len > 256)) then 4
  else if (o.busy.getD (s.bankOf a) none).isSome then 3
  else if o.sectorLocked (a / 65536) then 2
  else if !erase && (s.nvmBytes a len).any (· ≠ nvmFill) then 1
  else 0

/-- GO: a check that fails ends the operation with its result; otherwise the device is commanded and the bank is busy. -/
def State.ospiGo (s : State) (erase : Bool) (a len : Nat) (bs : List Byte) : State :=
  let r := s.ospiCheck erase a len
  if r ≠ 0 then s.modOspi fun o => { o with done := true, result := BitVec.ofNat 4 r }
  else
    let op : OspiOp := { erase := erase, addr := a, bytes := bs.take len, start := s.now }
    s.modOspi fun o => { o with busy := o.busy.set (s.bankOf a) (some op) }

/-- R547 to R549: CC0 writes ADDR, LEN and DATA and starts a PROGRAM. -/
def execOspiProgram (addr len : Nat) (data : List Byte) (s : State) : Host.Outcome State Fault Refusal :=
  let s := s.modOspi fun o =>
    { o with addr := BitVec.ofNat 32 addr, len := BitVec.ofNat 9 len, data := mwriteN 0 o.data 0 (data.take 256) }
  .next (s.ospiGo false s.ospi.addr.toNat s.ospi.len.toNat (mreadN 0 s.ospi.data 0 256))

/-- R547, R548: CC0 writes ADDR and starts an ERASE. -/
def execOspiErase (addr : Nat) (s : State) : Host.Outcome State Fault Refusal :=
  let s := s.modOspi fun o => { o with addr := BitVec.ofNat 32 addr }
  .next (s.ospiGo true s.ospi.addr.toNat 0 [])

/-- R548, R549: the operation of a bank ends with OK, DEVICE_FAIL (5) or TIMEOUT (6). After a failure the sector is undefined and the bank
stays busy until the device reports `ready`. -/
def execOspiOperationEnd (bank outcome : Nat) (ready : Bool) (s : State) : Host.Outcome State Fault Refusal :=
  match s.ospi.busy.getD bank none with
  | none => .next s
  | some op =>
    let free (s : State) : State := s.modOspi fun o => { o with busy := o.busy.set bank none }
    let result (s : State) (r : Nat) : State := s.modOspi fun o => { o with done := true, result := BitVec.ofNat 4 r }
    if op.failed then .next (if ready then free s else s)
    else if outcome = 0 then
      let s := s.modOspi fun o =>
        { o with nvm := if op.erase then mclear o.nvm op.addr 65536 else mwriteN nvmFill o.nvm op.addr op.bytes }
      .next (free (result s 0))
    else if outcome ≠ 5 && outcome ≠ 6 then .next s
    else
      let s := if outcome = 6 then s.reach (op.start + if op.erase then 3 * sec else 5 * ms) else s
      let s := (result (s.loseSector op.addr) outcome).fault 0x2B1 []
      .next (if ready then free s else s.modOspi fun o => { o with busy := o.busy.set bank (some { op with failed := true }) })

/-- R547: LOCK stays set until the next start. -/
def execOspiLock (s : State) : Host.Outcome State Fault Refusal := .next (s.modOspi fun o => { o with lock := true })

/-- R551: a read of a busy bank through the NVM window ends at once in a bus fault at the requester and returns no data. -/
def execNvmWindowBusFault (addr : Nat) (s : State) : Host.Outcome State Fault Refusal :=
  if (s.ospi.busy.getD (s.bankOf addr) none).isSome then .next (s.send (.busFault addr)) else .next s

end Sys2Proof.Machine
end

