-- ==== Sys2Proof/Machine/Features.lean ====
section
/-!
DEFINITION. Set Features and Get Features of the standard features that act on the NVMe controller alone (R492, R500,
R515, R635, R637).
-/
namespace Sys2Proof.Machine
open Sys2Proof

/-- Complete a Get Features with the current value, or with the value after controller enable for SEL 1. -/
def State.getValue (s : State) (st sel cur dflt : Nat) : State :=
  s.complete st 0 (BitVec.ofNat 32 (if sel = 1 then dflt else cur))

/-- R500: burst, and weights for low, medium and high priority. -/
def execSetArbitration (stamp : Nat) (s : State) : Host.Outcome State Fault Refusal :=
  s.onSet stamp 0x01 fun c => (s.modNvme fun n => { n with arb := BitVec.ofNat 32 (c.dw 11) }).complete stamp 0 0

/-- R500. -/
def execGetArbitration (stamp : Nat) (s : State) : Host.Outcome State Fault Refusal :=
  s.onGet stamp 0x01 fun _ sel => s.getValue stamp sel s.nvme.arb.toNat 6

/-- Over and under thresholds of a temperature input in K; WCTEMP and 0 until set (R635). -/
def State.threshold (s : State) (sel : Nat) : Nat × Nat := tgetD s.nvme.tempThr sel (s.key2 0x0701, 0)

/-- R635: threshold TMPTH of input TMPSEL (15: all of them), over for THSEL 0, under for THSEL 1; any other value of either
completes with status 0x02. -/
def execSetTemperatureThreshold (stamp : Nat) (s : State) : Host.Outcome State Fault Refusal :=
  s.onSet stamp 0x04 fun c =>
    let v := bits (c.dw 11) 0 16
    let sel := bits (c.dw 11) 16 4
    let th := bits (c.dw 11) 20 2
    if (sel > 6 && sel ≠ 15) || th > 1 then s.complete stamp scInvalidField 0
    else
      let put (s : State) (i : Nat) : State :=
        let p := s.threshold i
        s.modNvme fun n => { n with tempThr := tput n.tempThr i (if th = 0 then (v, p.2) else (p.1, v)) }
      ((if sel = 15 then List.range 7 else [sel]).foldl put s).complete stamp 0 0

/-- R635. -/
def execGetTemperatureThreshold (stamp : Nat) (s : State) : Host.Outcome State Fault Refusal :=
  s.onGet stamp 0x04 fun c sel =>
    let i := bits (c.dw 11) 16 4
    let th := bits (c.dw 11) 20 2
    if i > 6 || th > 1 then s.complete stamp scInvalidField 0
    else
      let p := s.threshold i
      s.getValue stamp sel (if th = 0 then p.1 else p.2) (if th = 0 then s.key2 0x0701 else 0)

/-- R500: TLER is accepted and ignored, DULBE 0 only. -/
def execSetErrorRecovery (stamp : Nat) (s : State) : Host.Outcome State Fault Refusal :=
  s.onSet stamp 0x05 fun c =>
    if bitAt (c.dw 11) 16 then s.complete stamp scInvalidField 0
    else (s.modNvme fun n => { n with errRec := BitVec.ofNat 32 (c.dw 11) }).complete stamp 0 0

/-- R500. -/
def execGetErrorRecovery (stamp : Nat) (s : State) : Host.Outcome State Fault Refusal :=
  s.onGet stamp 0x05 fun _ sel => s.getValue stamp sel s.nvme.errRec.toNat 0

/-- R492: 1,023 for both counts, whatever the host requested. -/
def execSetNumberOfQueues (stamp : Nat) (s : State) : Host.Outcome State Fault Refusal :=
  s.onSet stamp 0x07 fun _ => s.complete stamp 0 0x03FF03FF

/-- R492. -/
def execGetNumberOfQueues (stamp : Nat) (s : State) : Host.Outcome State Fault Refusal :=
  s.onGet stamp 0x07 fun _ _ => s.complete stamp 0 0x03FF03FF

/-- R492: aggregation threshold and time. -/
def execSetInterruptCoalescing (stamp : Nat) (s : State) : Host.Outcome State Fault Refusal :=
  s.onSet stamp 0x08 fun c => (s.modNvme fun n => { n with coal := BitVec.ofNat 16 (c.dw 11) }).complete stamp 0 0

/-- R492. -/
def execGetInterruptCoalescing (stamp : Nat) (s : State) : Host.Outcome State Fault Refusal :=
  s.onGet stamp 0x08 fun _ sel => s.getValue stamp sel s.nvme.coal.toNat 0

/-- R492: coalescing disable of one vector, 0 to 1,024. -/
def execSetInterruptVectorConfig (stamp : Nat) (s : State) : Host.Outcome State Fault Refusal :=
  s.onSet stamp 0x09 fun c =>
    let v := bits (c.dw 11) 0 16
    if v > 1024 then s.complete stamp scInvalidField 0
    else
      (s.modNvme fun n => { n with coalDis := n.coalDis.filter (· != v) ++ (if bitAt (c.dw 11) 16 then [v] else []) }).complete stamp 0 0

/-- R492. -/
def execGetInterruptVectorConfig (stamp : Nat) (s : State) : Host.Outcome State Fault Refusal :=
  s.onGet stamp 0x09 fun c sel =>
    let v := bits (c.dw 11) 0 16
    if v > 1024 then s.complete stamp scInvalidField 0
    else s.getValue stamp sel (v + 65536 * b2n (s.nvme.coalDis.contains v)) v

/-- R500: accepted with no effect. -/
def execSetWriteAtomicityNormal (stamp : Nat) (s : State) : Host.Outcome State Fault Refusal :=
  s.onSet stamp 0x0A fun c => (s.modNvme fun n => { n with atomicity := BitVec.ofNat 32 (c.dw 11) }).complete stamp 0 0

/-- R500. -/
def execGetWriteAtomicityNormal (stamp : Nat) (s : State) : Host.Outcome State Fault Refusal :=
  s.onGet stamp 0x0A fun _ sel => s.getValue stamp sel s.nvme.atomicity.toNat 0

/-- R515: enables of event types 1 and 2. -/
def execSetAsyncEventConfig (stamp : Nat) (s : State) : Host.Outcome State Fault Refusal :=
  s.onSet stamp 0x0B fun c => (s.modNvme fun n => { n with aecfg := BitVec.ofNat 32 (c.dw 11) }).complete stamp 0 0

/-- R515. -/
def execGetAsyncEventConfig (stamp : Nat) (s : State) : Host.Outcome State Fault Refusal :=
  s.onGet stamp 0x0B fun _ sel => s.getValue stamp sel s.nvme.aecfg.toNat 0

/-- R500: the Timestamp as eight bytes: value, and in byte 6 the origin (set by Set Features). -/
def execGetTimestamp (stamp : Nat) (s : State) : Host.Outcome State Fault Refusal :=
  s.onGet stamp 0x0E fun c sel =>
    let set := s.nvme.tsBase.isSome && sel ≠ 1
    let v := if set then s.stamp % 2 ^ 48 else if sel = 1 then 0 else s.time / ms
    (s.giveData c 8 [(0, 6, v), (6, 1, if set then 2 else 0)]).complete stamp 0 0

/-- R637: TMT1 and TMT2 in K; TMT1 not below TMT2 completes with status 0x02, as NVMe defines. -/
def execSetHctm (stamp : Nat) (s : State) : Host.Outcome State Fault Refusal :=
  s.onSet stamp 0x10 fun c =>
    let t1 := bits (c.dw 11) 16 16
    let t2 := bits (c.dw 11) 0 16
    if t1 ≠ 0 && t2 ≠ 0 && t1 ≥ t2 then s.complete stamp scInvalidField 0
    else (s.modNvme fun n => { n with hctm := BitVec.ofNat 32 (c.dw 11) }).complete stamp 0 0

/-- R637: disabled after each controller enable. -/
def execGetHctm (stamp : Nat) (s : State) : Host.Outcome State Fault Refusal :=
  s.onGet stamp 0x10 fun _ sel => s.getValue stamp sel s.nvme.hctm.toNat 0

end Sys2Proof.Machine
end

