-- ==== Sys2Proof/Machine/Pool.lean ====
section
/-!
DEFINITION. The buffer pool: free lists, the five operations, groups, rebuilds and the push pool's size (R441 to R453, R671).
-/
namespace Sys2Proof.Machine
open Sys2Proof

/-- Handles that no buffer has: none. -/
def noHandle : Nat := 0xFFFF

/-- Buffers of the pool. -/
def bufCount : Nat := 12288

/-- A requester's owner ID is valid (R447). -/
def ownerValid (o : Nat) : Bool := (1 ≤ o && o ≤ 6) || (8 ≤ o && o ≤ 0x2B) || (0x30 ≤ o && o ≤ 0x3B)

/-- A control core's owner ID. -/
def ownerCore (o : Nat) : Bool := 0x30 ≤ o && o ≤ 0x3B

/-- Sizes of the 16 pools after controller enable (R442, key 0x0150). -/
def State.poolSizes (s : State) : List Nat :=
  let k (p : Nat) : Nat := if p = 2 then 1024 else if p = 0 || 12 ≤ p then 0 else s.keyN 0x0150 (2 * p) 2
  let rest := (List.range 16).foldl (fun n p => n + k p) 0
  (List.range 16).map fun p => if p = 0 then bufCount - rest else k p

/-- The pools at a start: every buffer free and in its home pool, the handles laid out in pool order (assumption log 24). -/
def State.poolInit (s : State) : State :=
  let sizes := s.poolSizes
  let first (p : Nat) : Nat := (sizes.take p).foldl (· + ·) 0
  let pools := (List.range 16).map fun p =>
    (p, ({ size := sizes.getD p 0, free := (List.range (sizes.getD p 0)).map (first p + ·), minFree := sizes.getD p 0 } : Pool))
  let bufs := (List.range 16).flatMap fun p => (List.range (sizes.getD p 0)).map fun i => (first p + i, ({ pool := BitVec.ofNat 4 p } : Buf))
  s.modPool fun _ => { bufs := bufs, pools := pools }

/-- Pop the head of a free list for an owner (R445, R448): the handle, or none. -/
def State.popBuf (s : State) (p owner : Nat) : Option (Nat × State) :=
  match (s.poolOf p).free with
  | [] => none
  | h :: t =>
    let s := s.modPoolOf p fun x => { x with free := t, minFree := min x.minFree t.length, lastServed := owner }
    some (h, s.modBuf h fun b => { b with alloc := true, shared := false, owners := b.owners.set 0 (BitVec.ofNat 6 owner) })

/-- Move n free buffers from the head of one pool's list to another's (R442). -/
def State.moveBufs (s : State) (src dst n : Nat) : State :=
  let hs := ((s.poolOf src).free).take n
  let s := hs.foldl (fun s h => s.modBuf h fun b => { b with pool := BitVec.ofNat 4 dst }) s
  let s := s.modPoolOf src fun x => { x with free := x.free.drop n, size := x.size - hs.length, minFree := min x.minFree (x.free.length - hs.length) }
  s.modPoolOf dst fun x => { x with free := hs.reverse ++ x.free, size := x.size + hs.length }

/-- A change of the push pool's size (R442, R149). -/
def State.resizePush (s : State) (n : Nat) : State :=
  let cur := (s.poolOf 2).size
  let s := s.modPool fun x => { x with toPush := 0 }
  if n ≤ cur then s.moveBufs 2 0 (cur - n)
  else
    let s' := s.moveBufs 0 2 (n - cur)
    s'.modPool fun x => { x with toPush := n - (s'.poolOf 2).size }

/-! Sets of Capture Window Control (R149): one at a time, in fetch order -/

/-- A push buffer is leased, or a commit record is queued or held in a context. -/
def State.pushBusy (s : State) : Bool :=
  !s.win.leases.isEmpty || s.win.slots.any fun e => !e.2.queue.isEmpty || !e.2.active.isEmpty

/-- Judge one Set (stamp, enable, size, lease time in µs); answers whether it has completed. -/
def State.judgeSet (s : State) (e : Nat × Nat × Nat × Nat) : Bool × State :=
  let en := e.2.1 == 1
  let size := e.2.2.1
  if (en != s.win.pushEn || decide (size ≠ s.win.poolSize)) && s.pushBusy then (true, s.complete e.1 (vendor 0xC5) 0)
  else
    let resize := decide (size ≠ s.win.poolSize)
    let s := s.modWin fun w => { w with pushEn := en, poolSize := size, leaseUs := BitVec.ofNat 32 e.2.2.2 }
    let s := if resize then s.resizePush size else s
    if s.pool.toPush = 0 then (true, s.complete e.1 0 0) else (false, s)

/-- Carry out the waiting Sets until one waits for the move of buffers; that one stays at the front. -/
def runSets : List (Nat × Nat × Nat × Nat) → State → State
  | [], s => s.modWin fun w => { w with setQ := [] }
  | e :: t, s =>
    let r := s.judgeSet e
    if r.1 then runSets t r.2 else r.2.modWin fun w => { w with setQ := e :: t }

/-- A Set arrives. -/
def State.queueSet (s : State) (e : Nat × Nat × Nat × Nat) : State :=
  if s.win.setQ.isEmpty then runSets [e] s else s.modWin fun w => { w with setQ := w.setQ ++ [e] }

/-- The move that a Set waits for is complete: it completes, and the next one is judged. -/
def State.setsDone (s : State) : State :=
  match s.win.setQ with
  | [] => s
  | e :: t => if s.pool.toPush = 0 then runSets t (s.complete e.1 0 0) else s

/-- Result registers of a control core's operation (R453). -/
def State.poolResult (s : State) (owner code handle : Nat) : State :=
  if ownerCore owner then
    s.modPool fun x => { x with resHandle := BitVec.ofNat 16 handle, resCode := BitVec.ofNat 3 code, resValid := true }
  else s

/-- Buffers that the oldest waiting group of a pool sets aside (R671). -/
def Pool.reserved (p : Pool) : Nat := (p.groups.headD {}).need

/-- A pool answers a requester with a buffer or with none (R446, R448, R449). -/
def State.allocate (s : State) (owner p : Nat) (linkBad : Bool) : State :=
  let q := s.poolOf p
  if q.free.length ≤ q.reserved then
    let s := s.modPoolOf p fun x => { x with noneCnt := satInc x.noneCnt }
    (s.poolResult owner 1 noHandle).send (.answer noHandle)
  else if linkBad then
    let s := (s.modPoolOf p fun x => { x with paused := true, badLink := true, noneCnt := satInc x.noneCnt }).fault 0x1D3 [p]
    (s.poolResult owner 1 noHandle).send (.answer noHandle)
  else match s.popBuf p owner with
    | none => s
    | some (h, s) => (s.poolResult owner 0 h).send (.answer h)

/-- R446, R448, R449, R671: a requester asks a pool for a buffer, or for a group of `count` for one chunk, which waits in arrival order.
`linkBad` is a link whose complement does not match. A request to a paused pool waits for its rebuild. -/
def execBufferAlloc (owner pool count : Nat) (linkBad : Bool) (s : State) : Host.Outcome State Fault Refusal :=
  let p := pool % 16
  let q := s.poolOf p
  if !ownerValid owner || count = 0 then .next s
  else if count > 1 then
    if ownerCore owner then .next s
    else .next (s.modPoolOf p fun x => { x with groups := x.groups ++ [{ owner := BitVec.ofNat 6 owner, need := count }] })
  else if q.paused then .next (s.modPoolOf p fun x => { x with heldAllocs := x.heldAllocs ++ [(owner, none)] })
  else .next (s.allocate owner p linkBad)

/-- A rejected operation: double free 2, shares outstanding 3, ownership violation 4, bad handle 5 (R450, R453). -/
def State.poolReject (s : State) (owner code h : Nat) : State :=
  let s := s.poolResult owner code noHandle
  if code = 2 then (s.modPool fun x => { x with dfreeCnt := satInc x.dfreeCnt }).fault 0x1D0 [h]
  else if code = 3 then (s.modPool fun x => { x with shoutCnt := satInc x.shoutCnt }).fault 0x1D2 [h]
  else if code = 4 || code = 5 then (s.modPool fun x => { x with ownvCnt := satInc x.ownvCnt }).fault 0x1D1 [h]
  else s

/-- The named owners of a shared buffer that still hold their share, other than LAST. -/
def Buf.othersHeld (b : Buf) : Bool := (List.range 4).any fun i => bitAt b.held.toNat i && decide (i ≠ b.last.toNat)

/-- The share of an owner: its index in the list. -/
def Buf.indexOf (b : Buf) (owner : Nat) : Option Nat := (List.range 4).find? fun i => (b.owners.getD i 0).toNat == owner && decide (owner ≠ 0)

/-- FREE of a buffer by the rows of R450 below the first. -/
def State.freeBuf (s : State) (owner handle : Nat) : State :=
  let b := s.buf handle
  if !b.alloc then s.poolReject owner 2 handle
  else if !b.shared then
    if (b.owners.getD 0 0).toNat = owner then ((s.pushBuf handle).setsDone).poolResult owner 0 noHandle else s.poolReject owner 4 handle
  else if (b.owners.getD b.last.toNat 0).toNat = owner then
    if b.othersHeld then s.poolReject owner 3 handle else ((s.pushBuf handle).setsDone).poolResult owner 0 noHandle
  else s.poolReject owner 4 handle

/-- R450, R454: FREE is decided by the first row that holds. A free to a paused pool waits for its rebuild. -/
def execBufferFree (owner handle : Nat) (s : State) : Host.Outcome State Fault Refusal :=
  let home := (s.buf handle).pool.toNat
  if !ownerValid owner then .next s
  else if handle ≥ bufCount then .next (s.poolReject owner 5 handle)
  else if (s.poolOf home).paused then .next (s.modPoolOf home fun x => { x with heldFrees := x.heldFrees ++ [(owner, handle)] })
  else .next (s.freeBuf owner handle)

/-- A requester is the sole owner of a buffer (R448). -/
def State.soleOwner (s : State) (owner h : Nat) : Bool :=
  let b := s.buf h
  decide (h < bufCount) && b.alloc && !b.shared && (b.owners.getD 0 0).toNat == owner

/-- R448: TRANSFER. An ID that is never valid is a bad argument. -/
def execBufferTransfer (owner handle receiver : Nat) (s : State) : Host.Outcome State Fault Refusal :=
  if !ownerValid owner then .next s
  else if !s.soleOwner owner handle then .next (s.poolReject owner 4 handle)
  else if !ownerValid receiver then .next (s.poolReject owner 6 handle)
  else .next ((s.modBuf handle fun b => { b with owners := b.owners.set 0 (BitVec.ofNat 6 receiver) }).poolResult owner 0 noHandle)

/-- R448: SHARE with a list of 1 to 4 distinct valid IDs, of which LAST is one. -/
def execBufferShare (owner handle : Nat) (list : List Nat) (last : Nat) (s : State) : Host.Outcome State Fault Refusal :=
  if !ownerValid owner then .next s
  else if !s.soleOwner owner handle then .next (s.poolReject owner 4 handle)
  else if list.isEmpty || list.length > 4 || last ≥ list.length || !(list.all ownerValid) || decide (¬ list.Nodup) then
    .next (s.poolReject owner 6 handle)
  else
    let s := s.modBuf handle fun b =>
      { b with shared := true, last := BitVec.ofNat 2 last, held := BitVec.ofNat 4 (2 ^ list.length - 1)
               owners := (List.range 4).map fun i => BitVec.ofNat 6 (list.getD i 0) }
    .next (s.poolResult owner 0 noHandle)

/-- R448: RELEASE clears the requester's share. -/
def execBufferRelease (owner handle : Nat) (s : State) : Host.Outcome State Fault Refusal :=
  let b := s.buf handle
  if !ownerValid owner then .next s
  else match (if handle < bufCount && b.alloc && b.shared then b.indexOf owner else none) with
    | none => .next (s.poolReject owner 4 handle)
    | some i =>
      if i = b.last.toNat || !bitAt b.held.toNat i then .next (s.poolReject owner 4 handle)
      else .next ((s.modBuf handle fun b => { b with held := b.held &&& ~~~(BitVec.ofNat 4 (2 ^ i)) }).poolResult owner 0 noHandle)

/-- R671: the oldest waiting group of a pool is served once the free list holds as many buffers as it needs. -/
def execBufferGroupGrant (pool : Nat) (s : State) : Host.Outcome State Fault Refusal :=
  let q := s.poolOf pool
  match q.groups with
  | [] => .next s
  | g :: rest =>
    if q.paused || q.free.length < g.need then .next s
    else
      let s := s.modPoolOf pool fun x => { x with groups := rest }
      .next ((List.range g.need).foldl (fun s _ => match s.popBuf pool g.owner.toNat with
        | some (h, s) => s.send (.answer h)
        | none => s) s)

/-- R453: MINCLR. -/
def execPoolMinfreeClear (pool : Nat) (s : State) : Host.Outcome State Fault Refusal :=
  .next (s.modPoolOf pool fun x => { x with minFree := x.free.length })

end Sys2Proof.Machine
end

