-- ==== Sys2Proof/Machine/Vendor.lean ====
section
/-!
DEFINITION. Vendor features, logs and commands: Timestamp and unpowered time, Stream Format, Rack Spindle Control, Placement Hints,
Capture Window Control, Fault Inject, Event Recorder Clear, the Placement Report and the Media Geometry log (R57, R62, R148, R149,
R187 to R189, R306, R353, R354, R500, R502, R505 to R507, R509, R510, R513, R591, R603, R670).
-/
namespace Sys2Proof.Machine
open Sys2Proof

/-! Timestamp (R306, R500) -/

/-- Every closed span's next scrub pass falls due within 24 hours of powered time (R306). -/
def State.scrubAll (s : State) : State :=
  s.modFlash fun f => { f with spans := f.spans.map fun e => if e.2.phase = .closed then (e.1, { e.2 with scrubSoon := true }) else e }

/-- Weighted retention age, in half hours, of unpowered milliseconds at weight 1. -/
def unpoweredAge (t : Nat) : Nat := 2 * t / 3600000

/-- Unpowered time from the last root is added to every closed span (R305, R306). -/
def State.ageUnpowered (s : State) (t : Nat) : State :=
  s.modFlash fun f => { f with spans := f.spans.map fun e =>
    if e.2.phase = .closed then
      let a := e.2.age + unpoweredAge t
      (e.1, { e.2 with age := a, refreshDue := e.2.refreshDue || decide (2 * s.keyN 0x0127 (if e.2.dense then 0 else 4) 4 ≤ a) })
    else e }

/-- R500, R306, R606: the Timestamp is set to the 48-bit value of the data, with a time sync record. Within 60 s of CSTS.RDY it dates
the unpowered time. -/
def execSetTimestamp (stamp : Nat) (value : BitVec 48) (s : State) : Host.Outcome State Fault Refusal :=
  s.onSet stamp 0x0E fun _ =>
    let v := value.toNat
    let s := (s.modNvme fun n => { n with tsBase := some (v, s.now) }).note 0x0002 0 0 [v, s.time]
    let s := match s.nvme.readyAt with
      | some t =>
        if s.map.rootTs ≠ 0 && s.map.rootTs ≤ v && s.now < t + 60 * sec then
          (s.ageUnpowered (v - s.map.rootTs)).modNvme fun n => { n with readyAt := none }
        else s
      | none => s
    s.complete stamp 0 0

/-- R306: 60 s after CSTS.RDY with no Timestamp that dates the unpowered time. -/
def execTimestampWaitExpiry (s : State) : Host.Outcome State Fault Refusal :=
  match s.nvme.readyAt with
  | none => .next s
  | some t => .next (((s.reach (t + 60 * sec)).scrubAll).modNvme fun n => { n with readyAt := none })

/-! Stream Format (R186 to R189, R502, R670) -/

/-- R187, R188, R670: `data` is the 64-byte record; a barrier on the old and the new window. -/
def execSetStreamFormat (stamp : Nat) (data : List Byte) (s : State) : Host.Outcome State Fault Refusal :=
  s.onSet stamp 0xC0 fun c =>
    let ix := bits (c.dw 11) 0 8
    let f := formatOfBytes data
    if !s.barrierClear c || c.jwait.isSome then s
    else if bits (c.dw 11) 8 24 ≠ 0 || (f.valid && formatReserved data) then (s.complete stamp scInvalidField 0).settle
    else if f.valid && !s.formatOk ix f false then (s.complete stamp (vendor 0xC3) 0).settle
    else
      let r : FormatRec := if f.valid then f else { written := true }
      let s := s.modCoder fun k => { k with formats := tput k.formats ix r }
      ((s.journal 1 0 (.side (.format ix r))).awaitJournal stamp 0).settle

/-- R501, R502: the record of an index with its counters. -/
def execGetStreamFormat (stamp : Nat) (s : State) : Host.Outcome State Fault Refusal :=
  s.onGet stamp 0xC0 fun c _ =>
    let ix := bits (c.dw 11) 0 8
    if bits (c.dw 11) 8 24 ≠ 0 then s.complete stamp scInvalidField 0
    else (s.giveData c 64 ((tgetD s.coder.formats ix {}).fields (tgetD s.coder.counts ix {}))).complete stamp 0 0

/-! Rack Spindle Control (R353, R354, R505) -/

/-- Value of a Rack spindle state (R350). -/
def Spin.code : Spin → Nat
  | .absent => 0
  | .stopped => 1
  | .spinup => 2
  | .ready => 3
  | .reduced => 4
  | .spindown => 5
  | .failed => 6
  | .lowv => 7

/-- The Set of one action: its own value checks, then what the action asks. -/
def State.setSpindle (s : State) (st action : Nat) : Host.Outcome State Fault Refusal :=
  s.onSet st 0xC3 fun c =>
    let w := c.dw 11
    let keep := bitAt w 3
    let sb := bits w 8 24
    let act := bits w 1 2
    if act ≠ action && !(act = 3 && action = 0) then s
    else if act = 3 || bits w 4 4 ≠ 0 || (!keep && ((1 ≤ sb && sb ≤ 9) || sb > 86400)) then s.complete st scInvalidField 0
    else if act = 1 && (!bitAt w 0 || s.rack.spin = .absent) then s.complete st scInvalidField 0
    else if act = 1 && (s.rack.spin = .failed || s.rack.spin = .lowv) then s.complete st (vendor 0xC1) 0
    else
      let s := s.modRack fun r =>
        { r with spinAllowed := bitAt w 0, standby := if keep then r.standby else some (BitVec.ofNat 32 sb)
                 demandHeld := r.demandHeld || decide (act = 2) }
      let s := if act = 1 then s.demandSpin else if act = 2 then s.spinDown false false else s
      s.complete st 0 0

/-- R353: no action. -/
def execSetRackSpindleControl (stamp : Nat) (s : State) : Host.Outcome State Fault Refusal := s.setSpindle stamp 0

/-- R353: action 1 demands spin-up. -/
def execRackSpinUpAction (stamp : Nat) (s : State) : Host.Outcome State Fault Refusal := s.setSpindle stamp 1

/-- R354: action 2 spins down; only commands and action 1 demand spin-up until the next controller enable. -/
def execRackSpinDownAction (stamp : Nat) (s : State) : Host.Outcome State Fault Refusal := s.setSpindle stamp 2

/-- Standby time in seconds in effect (R353). -/
def State.standbyTime (s : State) : Nat := match s.rack.standby with | some v => v.toNat | none => s.keyN 0x0405 0 4

/-- R505. -/
def execGetRackSpindleControl (stamp : Nat) (s : State) : Host.Outcome State Fault Refusal :=
  s.onGet stamp 0xC3 fun _ sel =>
    let allowed := if sel = 1 then decide (s.key2 0x0404 = 1) else s.rack.spinAllowed
    let sb := if sel = 1 then s.keyN 0x0405 0 4 else s.standbyTime
    s.complete stamp 0 (BitVec.ofNat 32 (b2n allowed + 2 * s.rack.spin.code + 2 ^ 8 * sb))

/-! Placement Hints (R57, R506) -/

/-- The bounds of a range widened to whole chunks, in LBAs. -/
def widen (k slba nlb : Nat) : Nat × Nat :=
  let c0 := slba * k / chunkBlocks
  let c1 := ceilDiv ((slba + nlb) * k) chunkBlocks
  (c0 * chunkBlocks / k, (c1 - c0) * chunkBlocks / k)

/-- One transferred entry: its check, then the hint it names (widened). -/
def State.hintOf (s : State) (held : Nat) (adding : Bool) (bs : List Byte) : Nat × Hint :=
  let slba := fieldAt bs 0 8
  let nlb := fieldAt bs 8 4
  let nsid := fieldAt bs 12 4
  let t := fieldAt bs 16 4
  let n := (s.ns? nsid).getD {}
  let w := widen n.blocksPerLba slba nlb
  let h : Hint := { nsid := nsid, slba := w.1, nlb := w.2, kind := if bits t 0 2 = 1 then .hold else .drain }
  if !s.nsActive nsid then (scInvalidNs, h)
  else if (bits t 0 2 ≠ 1 && bits t 0 2 ≠ 2) || nlb = 0 || bits t 2 30 ≠ 0 || fieldAt bs 20 12 ≠ 0 then (scInvalidField, h)
  else if slba + nlb > n.nsze then (scLbaRange, h)
  else if adding && held ≥ 256 then (scInvalidField, h)
  else (0, h)

/-- Check the entries in order: the first status that is not 0, or every hint. -/
def State.hintsOf (s : State) (adding : Bool) : Nat → List (List Byte) → Nat × List Hint
  | _, [] => (0, [])
  | held, bs :: t =>
    let r := s.hintOf held adding bs
    if r.1 ≠ 0 then (r.1, [])
    else
      let rest := s.hintsOf adding (held + 1) t
      (rest.1, r.2 :: rest.2)

/-- The hint ranges become a list, and a SIDE entry keeps it (R57, R121). -/
def State.setHints (s : State) (l : List Hint) : State := (s.modPlace fun p => { p with hints := l }).journal 1 0 (.side (.hints l))

/-- Set Placement Hints with one operation; OP 3 and a reserved field are answered by the add. -/
def State.hintsSet (s : State) (st op : Nat) (data : List Byte) : Host.Outcome State Fault Refusal :=
  s.onSet st 0xC4 fun c =>
    let w := c.dw 11
    let n := bits w 0 9
    let o := bits w 9 2
    if o ≠ op && !(o = 3 && op = 0) then s
    else if bits w 11 21 ≠ 0 || o = 3 || (o ≠ 2 && (n = 0 || n > 256)) then s.complete st scInvalidField 0
    else if o = 2 then (s.setHints []).complete st 0 0
    else
      let es := (List.range n).map fun i => (data.drop (32 * i)).take 32
      let r := s.hintsOf (o = 0) s.place.hints.length es
      if r.1 ≠ 0 then s.complete st r.1 0
      else if o = 0 then (s.setHints (s.place.hints ++ r.2)).complete st 0 0
      else (s.setHints (s.place.hints.filter fun h => !r.2.contains h)).complete st 0 0

/-- R506: OP 0; `data` is the entries, 32 bytes each. -/
def execPlacementHintsAdd (stamp : Nat) (data : List Byte) (s : State) : Host.Outcome State Fault Refusal := s.hintsSet stamp 0 data

/-- R506: OP 1. -/
def execPlacementHintsRemove (stamp : Nat) (data : List Byte) (s : State) : Host.Outcome State Fault Refusal := s.hintsSet stamp 1 data

/-- R506: OP 2. -/
def execPlacementHintsRemoveAll (stamp : Nat) (s : State) : Host.Outcome State Fault Refusal := s.hintsSet stamp 2 []

/-- Fields of a hint entry. -/
def Hint.fields (h : Hint) (o : Nat) : List (Nat × Nat × Nat) :=
  [(o, 8, h.slba), (o + 8, 4, h.nlb), (o + 12, 4, h.nsid), (o + 16, 4, match h.kind with | .hold => 1 | .drain => 2)]

/-- R506: the held ranges in the order in which they were added, then zeros. -/
def execGetPlacementHints (stamp : Nat) (s : State) : Host.Outcome State Fault Refusal :=
  s.onGet stamp 0xC4 fun c _ =>
    (s.giveData c 8192 ((s.place.hints.zipIdx).flatMap fun (h, i) => h.fields (32 * i))).complete stamp 0 (BitVec.ofNat 32 s.place.hints.length)

/-! Capture Window Control (R148, R149, R507) -/

/-- R149, R507. -/
def execSetCaptureWindowControl (stamp : Nat) (s : State) : Host.Outcome State Fault Refusal :=
  s.onSet stamp 0xC5 fun c =>
    let w := c.dw 11
    let size := bits w 1 13
    let lease := bits w 14 14
    if s.win.setQ.any (·.1 == stamp) then s
    else if bits w 28 4 ≠ 0 || size > 4096 || lease < 10 || lease > 10000 then s.complete stamp scInvalidField 0
    else (s.modCtx stamp fun x => { x with begun := true }).queueSet (stamp, bits w 0 1, size, 100 * lease)

/-- R507. -/
def execGetCaptureWindowControl (stamp : Nat) (s : State) : Host.Outcome State Fault Refusal :=
  s.onGet stamp 0xC5 fun _ sel =>
    s.getValue stamp sel (b2n s.win.pushEn + 2 * s.win.poolSize + 2 ^ 14 * (s.win.leaseUs.toNat / 100)) (1 + 2 * 1024 + 2 ^ 14 * 100)

/-! Fault Inject (R509, R591) -/

/-- Change the force bit of an implemented source while test mode is unlocked: 0 to 1 is one occurrence of its condition (R591). -/
def State.setForce (s : State) (id : Nat) (v : Bool) : State :=
  if !s.cfg.testMode || defaultClass id = 0 then s
  else
    let was := (s.src id).force
    let s := s.modSrc id fun x => { x with force := v }
    if v && !was then s.fault id [] else s

/-- R509: the completion first, then the force bit of SOURCE. -/
def execFaultInjectForce (stamp : Nat) (s : State) : Host.Outcome State Fault Refusal :=
  s.onAdmin stamp 0xC4 fun c =>
    let w := c.dw 10
    if bitAt w 17 && bits w 10 6 = 0 && bits w 18 14 = 0 && s.cfg.testMode then s
    else if bits w 10 6 ≠ 0 || bits w 18 14 ≠ 0 then s.complete stamp scInvalidField 0
    else if !s.cfg.testMode then s.complete stamp (vendor 0xC7) 0
    else if defaultClass (bits w 0 10) = 0 then s.complete stamp scInvalidField 0
    else (s.complete stamp 0 0).setForce (bits w 0 10) (bitAt w 16)

/-- R509: CLEAR_ALL. -/
def execFaultInjectClearAll (stamp : Nat) (s : State) : Host.Outcome State Fault Refusal :=
  s.onAdmin stamp 0xC4 fun c =>
    let w := c.dw 10
    if !bitAt w 17 || bits w 10 6 ≠ 0 || bits w 18 14 ≠ 0 || !s.cfg.testMode then s
    else (s.complete stamp 0 0).modFlt fun t => { t with srcs := t.srcs.map fun e => (e.1, { e.2 with force := false }) }

/-! Event Recorder Clear (R510, R603) -/

/-- A clear by the host or the management endpoint: at once, or after the staged records (R603). -/
def State.clearOrder (s : State) (c : Ctx) (upto : Option (BitVec 32)) : State :=
  let who := if c.isMgmt then 2 else 1
  if !s.evt.started || s.dram.selfRefresh then
    (s.modEvt fun e => { e with clears := e.clears ++ [(who, upto, some c.stamp)] }).modCtx c.stamp fun x => { x with begun := true }
  else
    let r := s.clearRecords who upto
    r.2.complete c.stamp 0 (BitVec.ofNat 32 r.1)

/-- R510, R603: records up to UPTO. -/
def execEventRecorderClearUpto (stamp : Nat) (s : State) : Host.Outcome State Fault Refusal :=
  s.onAdmin stamp 0xC8 fun c =>
    if bitAt (c.dw 11) 0 && bits (c.dw 11) 1 31 = 0 then s
    else if bits (c.dw 11) 1 31 ≠ 0 then s.complete stamp scInvalidField 0
    else if s.evt.clears.any fun e => e.2.2 == some stamp then s
    else s.clearOrder c (some (BitVec.ofNat 32 (c.dw 10)))

/-- R510, R603: every record. -/
def execEventRecorderClearAll (stamp : Nat) (s : State) : Host.Outcome State Fault Refusal :=
  s.onAdmin stamp 0xC8 fun c =>
    if !bitAt (c.dw 11) 0 || bits (c.dw 11) 1 31 ≠ 0 then s
    else if s.evt.clears.any fun e => e.2.2 == some stamp then s
    else s.clearOrder c none

/-! Placement Report (R62) and Media Geometry (R513) -/

/-- Mapped chunks with a property. -/
def State.countMapped (s : State) (p : Desc → Bool) : Nat := (s.descs.filter fun e => decide (e.2.state = .mapped) && p e.2).length

/-- MiB of a migration queue, rounded up. -/
def State.queueMib (s : State) (a : Nat) : Nat := ceilDiv (((s.place.queues.getD a []).foldl (fun n q => n + q.crumbs) 0)) 2048

/-- The Placement Report. -/
def State.placementReport (s : State) : List (Nat × Nat × Nat) :=
  let p := s.place
  let head (a : Nat) : Nat := (p.fenceHead.getD a 0).toNat
  [(0, 4, 1 + 2 ^ 8 * b2n s.cfg.drainActive + 2 ^ 9 * b2n p.directBake +
      2 ^ 10 * b2n (s.migAllowed && p.queues.any fun q => !q.isEmpty) + 2 ^ 11 * b2n s.rackOnline + 2 ^ 12 * b2n s.rackPresent + 2 ^ 13 * b2n p.emergency),
   (4, 4, p.epoch.toNat), (8, 8, s.proofCap), (0x10, 8, s.proofCap - s.proofFree), (0x18, 8, s.bakeCap), (0x20, 8, s.bakeUsed),
   (0x28, 8, s.rackCap), (0x30, 8, s.rackUsed),
   (0x38, 4, s.key2 0x0210 + 2 ^ 8 * s.key2 0x0211 + 2 ^ 16 * s.key2 0x0223), (0x3C, 4, p.dbEntries.toNat)] ++
  ((List.range 8).map fun i => (0x40 + 8 * i, 8, s.countMapped fun d => d.hc.toNat == i)) ++
  ((List.range 4).map fun i => (0x80 + 8 * i, 8, s.countMapped fun d => d.lc.toNat == i)) ++
  [(0xA0, 8, p.hostLogical.toNat), (0xA8, 8, p.hostStored.toNat), (0xB0, 8, p.dbBytes.toNat), (0xB8, 8, p.foldBytes.toNat), (0xC0, 8, p.keepBytes.toNat),
   (0xC8, 8, (p.migBytes.getD 0 0).toNat), (0xD0, 8, (p.migBytes.getD 1 0).toNat), (0xD8, 4, s.queueMib 0), (0xDC, 4, s.queueMib 1),
   (0xE0, 4, p.fenceCoder.toNat + 2 ^ 16 * p.fenceCipher.toNat + 2 ^ 24 * p.fenceSoft.toNat), (0xE4, 4, p.fenceHard.toNat), (0xE8, 4, p.fenceCh.toNat),
   (0xEC, 4, head 0 + 2 ^ 12 * head 1 + 2 ^ 24 * p.fenceAct.toNat), (0xF0, 4, p.fencedDies.length + 2 ^ 16 * p.hints.length), (0xF4, 4, p.dbExits.toNat)]

/-- R62, R511, R512. -/
def execGetLogPlacementReport (stamp : Nat) (s : State) : Host.Outcome State Fault Refusal :=
  s.onLog stamp 0xC0 512 (fun _ => s.placementReport) (clearUnlessRae 7 0xC0)

/-- The Media Geometry log of the media as they are now; mount keeps it (R513). -/
def State.mediaGeometry (s : State) : List (Nat × Nat × Nat) :=
  let g := s.flashIf.geo
  let mask (ch : Nat) : Nat := listMask ((List.range 32).filter fun a => s.dieOk (32 * ch + a))
  [(0, 4, 1 + 2 ^ 8 * ((List.range 32).filter fun ch => mask ch ≠ 0).length + 2 ^ 16 * s.openSets.length + 2 ^ 24 * s.bakeBits),
   (4, 4, s.usableDies + 2 ^ 16 * g.planes), (8, 4, g.blocks), (0xC, 4, g.wordlines + 2 ^ 16 * g.spare), (0x10, 4, s.spanIndices),
   (0x14, 4, s.proofLimit), (0x18, 4, s.flash.mapLimit), (0x1C, 4, (s.flash.blocks.filter (·.2.retired)).length), (0x20, 8, 512 * s.proofCap),
   (0x28, 8, 512 * s.bakeCap), (0x30, 8, 512 * s.rackCap), (0x38, 8, s.nsCap),
   (0x40, 4, s.rackHeads 0 + 2 ^ 4 * s.rackHeads 1 + 2 ^ 8 * s.zones.length), (0x44, 4, s.stackIndices)] ++
  ((List.range 8).map fun i => (0x50 + 2 * i, 2, tgetD s.flashIf.groupRate i 0)) ++
  ((List.range 32).map fun ch => (0x60 + 4 * ch, 4, mask ch)) ++ [(0x100, (s.key 0x0402).length, leNat (s.key 0x0402))]

/-- R511 to R513: as found at the last start. -/
def execGetLogMediaGeometry (stamp : Nat) (s : State) : Host.Outcome State Fault Refusal :=
  s.onLog stamp 0xC6 4096 (fun _ => s.nvme.geoLog) (clearUnlessRae 7 0xC6)

end Sys2Proof.Machine
end

