-- ==== Sys2Proof/Machine/Fw.lean ====
section
/-!
DEFINITION. Firmware components: wrappers, sets, boot blocks and their change-over, slots, download and commit, and the Scheduled
Activation feature (R504, R543 to R546, R555 to R561, R564, R569 to R572, R576).
-/
namespace Sys2Proof.Machine
open Sys2Proof

/-! Wrappers and sets (R555 to R559) -/

/-- Components by COMP: 1 BOOT, 2 CORE, 3 SEQ, 4 SRV, 5 CFG; the largest stored image of each (R555). -/
def compMax (c : Nat) : Nat := if c = 1 then 983040 else if c = 2 then 8388608 else 1048576

/-- ENCRYPTED of a component's wrapper (R555). -/
def compEncrypted (c : Nat) : Bool := c == 2 || c == 4

/-- Length of a wrapper whose header begins the bytes (R557). -/
def wrapLen (bs : List Byte) : Nat := 256 + up4 (fieldAt bs 0xC 4) + if bitAt (fieldAt bs 4 4) 9 then 96 else 0

/-- Body of a wrapper. -/
def wrapBody (bs : List Byte) : List Byte := (bs.drop 256).take (fieldAt bs 0xC 4)

/-- COMP of a wrapper. -/
def wrapComp (bs : List Byte) : Nat := fieldAt bs 4 1

/-- What a wrapper says of its component. -/
def wrapInfo (bs : List Byte) : FwComp :=
  { version := BitVec.ofNat 32 (fieldAt bs 8 4), svn := fieldAt bs 0x10 2
    compat := (List.range 5).map fun i => (fieldAt bs (0x18 + 8 * i) 4, fieldAt bs (0x1C + 8 * i) 4), len := wrapLen bs }

/-- The checks of R558 that the bytes decide: header, CRCs, reserved fields, length, ENCRYPTED and SIGNED. -/
def wrapForm (bs : List Byte) : Bool :=
  let c := wrapComp bs
  let w := fieldAt bs 4 4
  let stored := if c = 5 then fieldAt bs 0xC 4 else wrapLen bs
  decide (wrapLen bs ≤ bs.length) && decide (fieldAt bs 0 4 = 0x57464B59) && decide (bits w 16 16 = 0x0100) && decide (1 ≤ c) && decide (c ≤ 5) &&
    decide (bits w 10 6 = 0) && decide (fieldAt bs 0x12 2 = 0) && decide (fieldAt bs 0x14 4 = 0) && ((bs.drop 0x60).take 0x9C).all (· == 0) &&
    decide ((crc32c (bs.take 0xFC)).toNat = fieldAt bs 0xFC 4) && decide ((crc32c (wrapBody bs)).toNat = fieldAt bs 0x5C 4) &&
    decide (stored ≤ compMax c) && bitAt w 8 == compEncrypted c && bitAt w 9 == decide (c ≠ 5) && decide (fieldAt bs 0x10 2 ≤ 64)

/-- R558: a wrapper is good. `bad` lists the components whose signature, decryption, authentication or modules fail. -/
def State.wrapGood (s : State) (bad : List Nat) (bs : List Byte) : Bool :=
  let c := wrapComp bs
  if c = 5 then
    wrapForm bs && fieldAt bs 0x10 2 == 0 &&
      (match parseGarek (wrapBody bs) s.cfg.digest (!bad.contains 5) (2 * s.ospi.bankSize) with
       | some img => img.builder.toNat == fieldAt bs 8 4
       | none => false)
  else wrapForm bs && !bad.contains c && decide (s.fw.svnFloor ≤ fieldAt bs 0x10 2)

/-- R559: a set holds every component and each accepts the version of every other; a component without a COMPAT table accepts any. -/
def compatible (set : Tab FwComp) : Bool :=
  ((List.range 5).all fun i => thas set (i + 1)) &&
    set.all fun a => set.all fun b =>
      a.1 == b.1 || a.2.compat.isEmpty ||
        (let r := a.2.compat.getD (b.1 - 1) (0, 0)
         decide (r.1 ≤ b.2.version.toNat) && decide (b.2.version.toNat ≤ r.2))

/-- Cut a package into wrappers (R570), with fuel; none where it is malformed. -/
def cutPackage : Nat → List Byte → Option (List (List Byte))
  | 0, bs => if bs.isEmpty then some [] else none
  | n + 1, bs =>
    if bs.isEmpty then some []
    else if bs.length < 256 || bs.length < wrapLen bs then none
    else (cutPackage n (bs.drop (wrapLen bs))).map fun t => bs.take (wrapLen bs) :: t

/-- The wrappers of a package by component; none where it is empty, malformed, or names a component twice. -/
def packageOf (bs : List Byte) : Option (Tab (List Byte)) :=
  match cutPackage 5 bs with
  | some (w :: ws) =>
    if decide (((w :: ws).map wrapComp).Nodup) then some ((w :: ws).foldl (fun t x => tput t (wrapComp x) x) []) else none
  | _ => none

/-! The boot NVM (R543 to R546) -/

/-- First address of boot block A or B. -/
def State.blockAt (s : State) (b : Bool) : Nat := if b then s.ospi.bankSize else 0

/-- First address of a slot's place for a component; BOOT lies in the boot block of the slot's bank. -/
def State.slotAt (s : State) (slot c : Nat) : Nat :=
  (if slot = 2 then s.ospi.bankSize else 0) + (if c = 1 then 0x10000 else if c = 5 then 0x100000 else if c = 3 then 0x200000 else if c = 4 then 0x300000 else 0x400000)

/-- The directory of a boot block: (COMP, ADDR, LENGTH, VERSION, IMG_CRC). -/
def State.directory (s : State) (b : Bool) : List (Nat × Nat × Nat × Nat × Nat) :=
  (List.range 8).map fun i =>
    let e := s.nvmBytes (s.blockAt b + 0x40 + 32 * i) 32
    (fieldAt e 0 1, fieldAt e 4 4, fieldAt e 8 4, fieldAt e 0xC 4, fieldAt e 0x10 4)

/-- The swap record of a boot block. -/
def State.swapRec (s : State) (b : Bool) : List Byte := s.nvmBytes (s.blockAt b) 64

/-- The CRC-32C that a swap record should hold. -/
def recCrc (r : List Byte) : Nat := (crc32c (r.take 0x3C)).toNat

/-- MAGIC, VERSION, TWIN and DIR_CRC of a boot block are right (R544). -/
def State.blockForm (s : State) (b : Bool) : Bool :=
  let r := s.swapRec b
  decide (fieldAt r 0 4 = 0x53574150) && decide (fieldAt r 4 2 = 1) && bitAt (fieldAt r 4 4) 16 == b &&
    decide ((crc32c (s.nvmBytes (s.blockAt b + 0x40) 256)).toNat = fieldAt r 0x10 4)

/-- An image lies within the NVM and outside both boot blocks, or, for BOOT, within its own block (R545). -/
def State.imagePlace (s : State) (b : Bool) (e : Nat × Nat × Nat × Nat × Nat) : Bool :=
  let a := e.2.1
  let z := a + e.2.2.1
  let blk (x : Bool) : Nat := s.blockAt x
  if e.1 = 1 then decide (blk b ≤ a) && decide (z ≤ blk b + 0x100000)
  else decide (z ≤ 2 * s.ospi.bankSize) && [false, true].all fun x => decide (z ≤ blk x) || decide (blk x + 0x100000 ≤ a)

/-- R545: a boot block is a candidate. -/
def State.candidate (s : State) (b : Bool) : Bool :=
  let r := s.swapRec b
  let crc := fieldAt r 0x3C 4
  let d := s.directory b
  let raw (i : Nat) : List Byte := s.nvmBytes (s.blockAt b + 0x40 + 32 * i) 32
  s.blockForm b && decide (crc = recCrc r) && decide (crc ≠ 0) && decide (crc ≠ 0xFFFFFFFF) &&
    ((List.range 5).all fun i => (d.filter fun e => e.1 == i + 1).length == 1) &&
    (((List.range 8).zip d).all fun x => (decide (1 ≤ x.2.1) && decide (x.2.1 ≤ 5) && s.imagePlace b x.2) || (raw x.1).all (· == 0))

/-- SEQ of a swap record. -/
def State.blockSeq (s : State) (b : Bool) : Nat := fieldAt (s.swapRec b) 8 8

/-- R564: a boot block is prepared. -/
def State.prepared (s : State) (b : Bool) : Bool :=
  let r := s.swapRec b
  s.blockForm b && decide (fieldAt r 0x3C 4 = 0xFFFFFFFF) && decide (s.blockSeq b = s.blockSeq (!b) + 1)

/-- The valid boot block: the candidate with the higher SEQ, A when they are equal (R545). -/
def State.validBlock (s : State) : Option Bool :=
  if s.candidate false && (!s.candidate true || decide (s.blockSeq true ≤ s.blockSeq false)) then some false
  else if s.candidate true then some true else none

/-- The stored bytes of a component that a directory names. -/
def State.imageBytes (s : State) (b : Bool) (c : Nat) : List Byte :=
  match (s.directory b).find? fun e => e.1 == c with
  | some e => s.nvmBytes e.2.1 e.2.2.1
  | none => []

/-- A component that a directory names is good (R558): a wrapper, or for CFG the bare image. -/
def State.storedGood (s : State) (bad : List Nat) (b : Bool) (c : Nat) : Bool :=
  let bs := s.imageBytes b c
  if c = 5 then (parseGarek bs s.cfg.digest (!bad.contains 5) (2 * s.ospi.bankSize)).isSome
  else s.wrapGood bad bs && wrapComp bs == c

/-- The component as the running set knows it. -/
def State.storedInfo (s : State) (b : Bool) (c : Nat) : FwComp :=
  let bs := s.imageBytes b c
  let e := ((s.directory b).find? fun e => e.1 == c).getD (0, 0, 0, 0, 0)
  if c = 5 then { version := BitVec.ofNat 32 (hdr bs 0x2C), addr := e.2.1, len := e.2.2.1 } else { wrapInfo bs with addr := e.2.1, len := e.2.2.1 }

/-- The set of a boot block. -/
def State.storedSet (s : State) (b : Bool) : Tab FwComp := (List.range 5).map fun i => (i + 1, s.storedInfo b (i + 1))

/-- Write bytes into the boot NVM after the sectors that they touch have been erased. -/
def State.nvmPut (s : State) (a : Nat) (bs : List Byte) : State :=
  let first := a / 65536 * 65536
  let last := ceilDiv (a + bs.length) 65536 * 65536
  s.modOspi fun o => { o with nvm := mfill nvmFill (mclear o.nvm first (last - first)) a bs }

/-- The CRC word of a boot block becomes a value, as one program operation: bits can only be cleared. -/
def State.programCrc (s : State) (b : Bool) (v : Nat) : State :=
  let a := s.blockAt b + 0x3C
  let old := leNat (s.nvmBytes a 4)
  s.modOspi fun o => { o with nvm := mwriteN nvmFill o.nvm a (leBytes 4 (old &&& v)) }

/-- Complete the change-over of a prepared block, or cancel it (R546 step 3, R564). -/
def State.completeTwin (s : State) (b : Bool) : State := s.programCrc b (recCrc (s.swapRec b))
def State.cancelTwin (s : State) (b : Bool) : State := s.programCrc b 0

/-- The first 60 bytes of a swap record. -/
def recBytes (b : Bool) (seq dirCrc salt : Nat) : List Byte :=
  leBytes 4 0x53574150 ++ leBytes 4 (1 + 2 ^ 16 * b2n b) ++ leBytes 8 seq ++ leBytes 4 dirCrc ++ leBytes 4 salt ++ List.replicate 36 0

/-- Steps 1 and 2 of R546: the block is erased, its directory, BOOT and record are written with SEQ, and its CRC word stays 0xFFFF_FFFF.
`set` names the images. -/
def State.prepareTwin (s : State) (b : Bool) (seq : Nat) (set : Tab (FwComp × Nat)) (boot : List Byte) : State :=
  let ent (c : Nat) : List Byte :=
    match tget set c with
    | some (x, crc) => leBytes 4 c ++ leBytes 4 x.addr ++ leBytes 4 x.len ++ leBytes 4 x.version.toNat ++ leBytes 4 crc ++ List.replicate 12 0
    | none => List.replicate 32 0
  let dir := (List.range 8).flatMap fun i => ent (i + 1)
  let dc := (crc32c dir).toNat
  let salt := ((List.range 16).find? fun k => let c := recCrc (recBytes b seq dc k); c != 0 && c != 0xFFFFFFFF).getD 0
  let a := s.blockAt b
  let s := s.modOspi fun o => { o with nvm := mclear o.nvm a 0x100000 }
  let s := s.modOspi fun o => { o with nvm := mfill nvmFill o.nvm a (recBytes b seq dc salt) }
  s.modOspi fun o => { o with nvm := mfill nvmFill (mfill nvmFill o.nvm (a + 0x40) dir) (a + 0x10000) boot }

/-- The bytes that a slot stores of a component: CFG bare, the others with their wrapper. -/
def storedBytes (c : Nat) (w : List Byte) : List Byte := if c = 5 then wrapBody w else w

/-- Write components into a slot: each stored image with its place and CRC. BOOT goes with the boot block. -/
def State.writeSlotSet (s : State) (slot : Nat) (images : Tab (List Byte)) : State :=
  images.foldl (fun s e => if e.1 = 1 then s else s.nvmPut (s.slotAt slot e.1) e.2) s

/-- What a directory names for a set in a slot. The COMPAT table of a CFG wrapper is not stored (R559). -/
def State.slotDirectory (s : State) (b : Bool) (slot : Nat) (set : Tab FwComp) (images : Tab (List Byte)) : Tab (FwComp × Nat) :=
  set.map fun e =>
    let bs := tgetD images e.1 []
    (e.1, ({ e.2 with addr := if e.1 = 1 then s.blockAt b + 0x10000 else s.slotAt slot e.1, len := bs.length
                      compat := if e.1 = 5 then [] else e.2.compat }, (crc32c bs).toNat))

/-! Download (R570) -/

/-- R570: NUMD and OFST in dwords; `data` is what the data pointer names. While an immediate commit is not complete: 0x113 (R578). -/
def execFirmwareImageDownload (stamp : Nat) (data : List Byte) (s : State) : Host.Outcome State Fault Refusal :=
  s.onAdmin stamp 0x11 fun c =>
    let len := 4 * (c.dw 10 + 1)
    let off := 4 * c.dw 11
    let bs := data.take len
    if (s.fw.act.bind (·.stamp)).isSome then s.complete stamp 0x113 0
    else if off + len > 12582912 then s.complete stamp scInvalidField 0
    else if off = 0 then (s.modFw fun f => { f with buf := bs }).complete stamp 0 0
    else if off ≠ s.fw.buf.length then s.complete stamp 0x114 0
    else (s.modFw fun f => { f with buf := f.buf ++ bs }).complete stamp 0 0

/-! Commit (R571, R572) -/

/-- The stored bytes of the running set. -/
def State.runningImages (s : State) : Tab (List Byte) := s.fw.running.map fun e => (e.1, s.nvmBytes e.2.addr e.2.len)

/-- Sectors that a commit writes. With CA 0 the slot's BOOT lies in its boot block from offset 0x1_0000, and the swap record stays. -/
def State.commitSectors (s : State) (slot : Nat) (images : Tab (List Byte)) (twin : Option Bool) : List Nat :=
  (images.flatMap fun e =>
    if e.1 = 1 then (if twin.isSome then [] else (List.range (ceilDiv e.2.length 65536)).map fun i => s.blockAt (!s.fw.bootB) / 65536 + 1 + i)
    else (List.range (ceilDiv e.2.length 65536)).map fun i => s.slotAt slot e.1 / 65536 + i) ++
  (match twin with
   | some b => (List.range 16).map fun i => s.blockAt b / 65536 + i
   | none => [])

/-- Whether activation is scheduled at a commit with CA 3 (R576). -/
def State.schedules (s : State) : Bool := s.fw.armed && s.nvme.tsBase.isSome && decide (s.stamp < s.fw.actTime.toNat)

/-- Carry out a commit that has passed R571: write the slot, prepare the twin, note the activation. -/
def State.doCommit (s : State) (st ca slot : Nat) (set : Tab FwComp) (images : Tab (List Byte)) : State :=
  let b := !s.fw.bootB
  let s := if ca = 2 then s else s.writeSlotSet slot images
  let s := if ca = 0 then s.nvmPut (s.blockAt b + 0x10000) (tgetD images 1 []) else s
  let dir := s.slotDirectory b slot set images
  let placed : Tab FwComp := dir.map fun e => (e.1, e.2.1)
  let s := if ca = 0 then s else s.prepareTwin b (s.blockSeq (!b) + 1) dir (tgetD images 1 [])
  let s := s.modFw fun f => { f with other := if slot = f.runSlot then f.other else placed }
  if ca = 0 then s.complete st 0 0
  else
    let act : Activation := { slot := slot, comps := placed }
    let s := s.modFw fun f => { f with nextSlot := if slot = f.runSlot then 0 else slot }
    if ca = 3 then
      if s.schedules then (s.modFw fun f => { f with act := some { act with scheduled := true } }).complete st 0 1
      else (s.modFw fun f => { f with act := some { act with trigger := some s.now, stamp := some st } }).modCtx st fun x => { x with begun := true }
    else (s.modFw fun f => { f with act := some { act with atEnable := true } }).complete st 0 0

/-- Firmware Commit with one action: the conditions of R571 in their order. `bad` lists the components that do not verify, `fails` a boot NVM
operation that fails. -/
def State.commit (s : State) (st ca : Nat) (bad : List Nat) (fails : Bool) : Host.Outcome State Fault Refusal :=
  s.onAdmin st 0x10 fun c =>
    let w := c.dw 10
    let fs := bits w 0 3
    let act := bits w 3 3
    let slot := if fs = 0 then 3 - s.fw.runSlot else fs
    if (s.fw.act.bind (·.stamp)) == some st then s
    else if act ≠ ca && !(act ≥ 4 && ca = 0) then s
    else if act ≥ 4 || bitAt w 31 then s.complete st scInvalidField 0
    else if fs > 2 then s.complete st 0x106 0
    else if s.fw.act.isSome then s.complete st 0x113 0
    else if ca ≠ 2 && slot = s.fw.runSlot then s.complete st 0x106 0
    else
      let pkg := if ca = 2 then some [] else packageOf s.fw.buf
      match pkg with
      | none => s.complete st 0x107 0
      | some p =>
        let prev := if ca = 2 && slot ≠ s.fw.runSlot then s.fw.other else s.fw.running
        let prevImages := prev.map fun e => (e.1, s.nvmBytes e.2.addr e.2.len)
        let images := p.foldl (fun t e => tput t e.1 (storedBytes e.1 e.2)) (if ca = 2 then prevImages else s.runningImages)
        let set := p.foldl (fun t e => tput t e.1 (wrapInfo e.2)) prev
        let twin := if ca = 0 then none else some (!s.fw.bootB)
        if !(p.all fun e => s.wrapGood bad e.2) || (ca = 2 && (prev.isEmpty || bad.any fun k => thas prev k)) then s.complete st 0x107 0
        else if ca = 2 && prev.any fun e => e.1 ≠ 5 && e.2.svn < s.fw.svnFloor then s.complete st 0x107 0
        else if !compatible set then s.complete st (vendor 0xC6) 0
        else if (s.commitSectors slot (if ca = 2 then [] else images) twin).any fun n => s.ospi.prot.contains n then s.complete st 0x113 0
        else if fails then s.complete st scInternal 0
        else s.doCommit st ca slot set images

/-- R572: CA 0. -/
def execFirmwareCommitReplace (stamp : Nat) (bad : List Nat) (fails : Bool) (s : State) : Host.Outcome State Fault Refusal := s.commit stamp 0 bad fails

/-- R572: CA 1. -/
def execFirmwareCommitNextReset (stamp : Nat) (bad : List Nat) (fails : Bool) (s : State) : Host.Outcome State Fault Refusal := s.commit stamp 1 bad fails

/-- R572: CA 2. -/
def execFirmwareCommitActivateSlot (stamp : Nat) (bad : List Nat) (fails : Bool) (s : State) : Host.Outcome State Fault Refusal := s.commit stamp 2 bad fails

/-- R572, R576: CA 3. -/
def execFirmwareCommitImmediate (stamp : Nat) (bad : List Nat) (fails : Bool) (s : State) : Host.Outcome State Fault Refusal := s.commit stamp 3 bad fails

/-! Scheduled Activation (R504, R576) -/

/-- A committed image waits for its time. -/
def State.actPending (s : State) : Bool := (s.fw.act.map (·.scheduled)).getD false

/-- Cancel a scheduled activation that has not been triggered: the twin is cancelled and the slot keeps its set (R576). -/
def State.cancelScheduled (s : State) : State :=
  match s.fw.act with
  | some a =>
    if a.scheduled && a.trigger.isNone then (s.cancelTwin (!s.fw.bootB)).modFw fun f => { f with act := none, nextSlot := 0 } else s
  | none => s

/-- R504, R576: `data` is the 16 bytes of the feature. -/
def execSetScheduledActivation (stamp : Nat) (data : List Byte) (s : State) : Host.Outcome State Fault Refusal :=
  s.onSet stamp 0xC2 fun _ =>
    let w := fieldAt data 0 4
    let t := fieldAt data 8 8
    if bits w 1 7 ≠ 0 || bits w 9 23 ≠ 0 || fieldAt data 6 2 ≠ 0 || bits t 48 16 ≠ 0 then s.complete stamp scInvalidField 0
    else if bitAt w 0 && s.nvme.tsBase.isNone then s.complete stamp scInvalidField 0
    else
      let s := s.modFw fun f => { f with armed := bitAt w 0, actTime := BitVec.ofNat 64 t }
      (if bitAt w 0 then s else s.cancelScheduled).complete stamp 0 0

/-- R504. -/
def execGetScheduledActivation (stamp : Nat) (s : State) : Host.Outcome State Fault Refusal :=
  s.onGet stamp 0xC2 fun c sel =>
    let w := (if sel = 1 then 0 else b2n s.fw.armed) + 2 ^ 8 * b2n s.actPending
    (s.giveData c 16 [(0, 4, w), (4, 2, 500), (8, 6, if sel = 1 then 0 else s.fw.actTime.toNat)]).complete stamp 0 0

end Sys2Proof.Machine
end

