-- ==== Sys2Proof/Machine/Seq.lean ====
section
/-!
DEFINITION. Channel sequencers: loading, dispatch, the microword, traps, machine checks, power-loss mode and completion records
(R238 to R271).
-/
namespace Sys2Proof.Machine
open Sys2Proof

/-- Sequencer n: FCS0 to FCS31 are 0 to 31, DFS0 and DFS1 are 32 and 33. -/
def State.seq (s : State) (n : Nat) : SeqSt := tgetD s.seqs.seqs n {}
def State.modSeq (s : State) (n : Nat) (f : SeqSt → SeqSt) : State := s.modSeqs fun x => { x with seqs := tmod x.seqs n {} f }

/-- Whether a sequencer is loaded: not in RESET, LOADING or MCHECK. -/
def SeqSt.live (q : SeqSt) : Bool := q.state ≠ .reset && q.state ≠ .loading && q.state ≠ .mcheck

/-- STATE of a loaded sequencer follows from its mode, its trap frame and its contexts (R269, R270, R271). -/
def SeqSt.restate (q : SeqSt) : SeqSt :=
  if !q.live then q
  else { q with state :=
    if q.ploss then .ploss else if q.frame.isSome then .trap else if !q.ctxs.isEmpty then .run else if q.hold then .held else .idle }

/-! Dispatch entries (R251) and operation records (R250) -/

def entVector (e : BitVec 32) : Nat := bits e.toNat 0 12
def entValid (e : BitVec 32) : Bool := bitAt e.toNat 12
def entClass (e : BitVec 32) : Nat := bits e.toNat 13 2

/-- An operation record from its 32 bytes. -/
def opOfBytes (bs : List Byte) : OpRec :=
  let w := fieldAt bs 0 4
  { opcode := BitVec.ofNat 8 (bits w 0 8), die := BitVec.ofNat 5 (bits w 8 5), pls := bitAt w 15, planes := BitVec.ofNat 4 (bits w 16 4)
    tag := BitVec.ofNat 12 (bits w 20 12), row := BitVec.ofNat 32 (fieldAt bs 4 4), col := BitVec.ofNat 16 (fieldAt bs 8 2)
    blist := BitVec.ofNat 8 (fieldAt bs 10 1), len := BitVec.ofNat 32 (fieldAt bs 12 4)
    params := (List.range 4).map fun i => BitVec.ofNat 32 (fieldAt bs (16 + 4 * i) 4) }

/-- A context as the dispatch of an operation leaves it (R248). -/
def MCtx.load (op : OpRec) (e : BitVec 32) (now : Nat) : MCtx :=
  { op := op, cls := BitVec.ofNat 2 (entClass e), entry := BitVec.ofNat 12 (entVector e), upc := BitVec.ofNat 12 (entVector e)
    g := (List.range 16).map fun i => if i < 4 then op.params.getD i 0 else if i = 4 then BitVec.ofNat 32 op.planes.toNat else 0
    row := op.row, col := op.col, cnt := op.len, start := now, wdStart := now }

/-- RESULT codes (R254). -/
def Result.code : Result → Nat
  | .ok => 0
  | .fail => 1
  | .timeout => 2
  | .unsupported => 3
  | .trapped => 4
  | .mcheck => 5
  | .abandoned => 6
  | .xfer => 7

/-- Trap cause codes (R257). -/
def Cause.code : Cause → Nat
  | .illegal => 0
  | .priv => 1
  | .stack => 2
  | .watchdog => 3
  | .strobe => 4
  | .xfer => 5
  | .powerfail => 6
  | .user => 7

/-- The completion record of an operation that ends before it has run. -/
def OpRec.ended (op : OpRec) (r : Result) : CplRec := { opcode := op.opcode, result := r, tag := op.tag }

/-- The completion record of a context. -/
def MCtx.record (c : MCtx) (r : Result) (now : Nat) : CplRec :=
  { opcode := c.op.opcode, result := r, cause := BitVec.ofNat 3 ((c.cause.map Cause.code).getD 0), traps := c.cause.isSome, tag := c.op.tag
    fstat := c.sr, cwfail := c.cwfail, maxbits := c.maxbits, ucode := c.ucode, res := c.res
    duration := if (now - c.start) / us < 2 ^ 32 then BitVec.ofNat 32 ((now - c.start) / us) else BitVec.allOnes 32 }

/-- The 16 bytes of a completion record, as one value. -/
def CplRec.value (r : CplRec) : Nat :=
  r.opcode.toNat + r.result.code * 2 ^ 8 + r.cause.toNat * 2 ^ 12 + b2n r.traps * 2 ^ 15 + r.tag.toNat * 2 ^ 16 +
    2 ^ 32 * (r.fstat.toNat + r.cwfail.toNat * 2 ^ 8 + r.maxbits.toNat * 2 ^ 16 + r.ucode.toNat * 2 ^ 24) +
    2 ^ 64 * r.res.toNat + 2 ^ 96 * r.duration.toNat

/-! Machine checks (R260) -/

/-- The channel's machine check: every context and queued operation ends with MCHECK, the fault is recorded with FCS.MCHK, and the channel is
fenced. -/
def State.machineCheck (s : State) (n maddr kind group : Nat) : State :=
  let now := s.now
  let s := s.modSeq n fun q =>
    { q with
      state := .mcheck, maddr := BitVec.ofNat 12 maddr, mkind := BitVec.ofNat 2 kind, mgroup := BitVec.ofNat 3 group
      cq := q.cq ++ q.ctxs.map (fun c => c.2.record .mcheck now) ++ q.queue.map (fun o => o.ended .mcheck)
      ctxs := [], queue := [], cur := none, frame := none, pend := [] }
  s.fault (if n < 32 then 0x040 + n else 0x214 + (n - 32)) [maddr + kind * 2 ^ 12 + group * 2 ^ 14]

/-! Loading (R262 to R269) -/

/-- The service entries (R256). -/
def serviceEntry (a : Nat) : Bool := a == 0x010 || a == 0x014 || a == 0x018 || a == 0x01C

/-- Fields of a microword (R243). -/
def mwNext (w : BitVec 96) : Nat := bits w.toNat 0 12
def mwSeq (w : BitVec 96) : Nat := bits w.toNat 12 4
def mwCond (w : BitVec 96) : Nat := bits w.toNat 16 5
def mwLsel (w : BitVec 96) : Nat := bits w.toNat 21 2
def mwBus (w : BitVec 96) : Nat := bits w.toNat 23 4
def mwImm8 (w : BitVec 96) : Nat := bits w.toNat 27 8
def mwAlu (w : BitVec 96) : Nat := bits w.toNat 35 4
def mwDst (w : BitVec 96) : Nat := bits w.toNat 39 5
def mwSrc (w : BitVec 96) : Nat := bits w.toNat 44 5
def mwImm32 (w : BitVec 96) : Nat := bits w.toNat 49 32
def mwLdpc (w : BitVec 96) : Bool := bitAt w.toNat 91
def mwSetf (w : BitVec 96) : Bool := bitAt w.toNat 92

/-- The fill word: SEQ code 15 and zeros (R242). -/
def fillWord : BitVec 96 := 0xF000

/-- R262: a customer module is accepted. -/
def custModuleOk (m : McuModule) : Bool :=
  let inArea (a : Nat) : Bool := 0xC00 ≤ a && a ≤ 0xFFF
  decide (m.kind = 3) && !m.dfs && m.words.all (fun x =>
    let q := mwSeq x.2
    inArea x.1 && (!(q == 1 || q == 2 || q == 3 || q == 6) || inArea (mwNext x.2)) &&
      (!(q == 4) || inArea (mwNext x.2) || serviceEntry (mwNext x.2)) && !(mwBus x.2 == 8)) &&
    m.disp.all fun e => 0xC0 ≤ e.1 && e.1 ≤ 0xFF && inArea (entVector e.2)

/-- A module fits the vendor base (R265). -/
def moduleFits (m : McuModule) (base : Dword) : Bool := decide (m.baseMin.toNat ≤ base.toNat) && decide (base.toNat ≤ m.baseMax.toNat)

/-- Vendor opcodes that key 0x0111 may override (R252). -/
def overridable (op : Nat) : Bool := [0x03, 0x10, 0x11, 0x12, 0x13, 0x20, 0x21, 0x22].contains op

/-- One sequencer with the modules that load into it; a customer entry disabled since start stays disabled (R263, R267). -/
def SeqsSt.loaded (x : SeqsSt) (n : Nat) (q : SeqSt) : SeqSt :=
  let into (m : McuModule) : Bool := if n < 32 then m.fcs else m.dfs
  let mods := ((x.base.toList ++ x.patchMods).filter into) ++ (if n < 32 then x.custom.toList else [])
  let disp := mods.foldl (fun t m => m.disp.foldl (fun t e => tput t e.1 e.2) t) []
  { q with
    store := mods.foldl (fun t m => m.words.foldl (fun t e => tput t e.1 e.2) t) []
    disp := disp.map fun e => if 16 ≤ tgetD x.custTraps e.1 0 then (e.1, e.2 &&& ~~~(0x1000 : BitVec 32)) else e
    locked := true, trapCnt := 0, baseVer := (x.base.map (·.version)).getD 0, patches := BitVec.ofNat 8 (x.patchMods.filter into).length
    cust := decide (n < 32) && x.custom.isSome, custVer := if n < 32 then (x.custom.map (·.version)).getD 0 else 0
    state := if q.hold then .held else .idle, frame := none, pend := [] }

/-- The modules in force: patches in VERSION order that verify and fit, the customer module if it verifies, passes R262 and fits; an event
for each one that is not loaded (R267, R268). -/
def State.takeModules (s : State) (base : McuModule) (patches : List McuModule) (custom : Option McuModule) : State :=
  let ok (m : McuModule) : Bool := m.verifies && moduleFits m base.version
  let ordered := patches.mergeSort fun a b => decide (a.version.toNat ≤ b.version.toNat)
  let s := (ordered.filter fun m => !ok m).foldl (fun s m => s.note 0x4006 0 0 [2, m.version.toNat]) s
  let custOk : Option McuModule := custom.bind fun m => if ok m && custModuleOk m then some m else none
  let s := match custom, custOk with
    | some m, none => s.note 0x4006 0 0 [3, m.version.toNat]
    | _, _ => s
  s.modSeqs fun x => { x with base := some base, patchMods := ordered.filter ok, custom := custOk }

/-- The overrides of key 0x0111, with an event for each ignored pair (R264). -/
def State.takeOverrides (s : State) : State :=
  let pairs := (chunksOf 2 (s.key 0x0111)).map fun p => ((p.getD 0 0).toNat, (p.getD 1 0).toNat)
  let valid (c : Nat) : Bool := entValid (tgetD (s.seq 0).disp c 0) && decide (0xC0 ≤ c)
  pairs.foldl (fun s p =>
    if valid p.2 && overridable p.1 && !(s.seqs.overrides.any fun o => o.1 == p.1) then s.modSeqs fun x => { x with overrides := x.overrides ++ [p] }
    else s.note 0x4005 0 0 [p.1, p.2]) (s.modSeqs fun x => { x with overrides := [] })

/-- Load sequencers with the modules in force; `failed` are those whose SELFTEST fails (R267 steps 1 to 5, R268). -/
def State.loadSeqs (s : State) (which failed : List Nat) : State :=
  let s := which.foldl (fun s n => s.modSeqs fun x => { x with seqs := tput x.seqs n (x.loaded n (tgetD x.seqs n {})) }) s
  (failed.filter fun n => which.contains n).foldl (fun s n => s.machineCheck n 0 0 0) s

/-! Registers of the sequencer block (R250, R253, R269, R270) -/

/-- R250, R253: bytes written to SUBMIT at an offset; a write that includes byte 0x11F queues the record, or drops it when the queue is
full. `handles` is what device firmware placed in the handle list that BLIST names. -/
def execSequencerSubmit (seq off : Nat) (data : List Byte) (handles : List Nat) (s : State) : Host.Outcome State Fault Refusal :=
  if seq ≥ 34 || off + data.length > 32 then .next s
  else .next (s.modSeq seq fun q =>
    let cur := (List.range 32).map fun i => if off ≤ i && i < off + data.length then data.getD (i - off) 0 else q.submit.getD i 0
    let q := { q with submit := cur }
    if off + data.length < 32 || data.isEmpty then q
    else if q.queue.length ≥ 64 then { q with drop := true }
    else
      let op := opOfBytes cur
      { q with queue := q.queue ++ [op], blists := tput q.blists op.blist.toNat (handles.take 64) })

/-- R270: a read of COMPLETE; with byte 0x20F it removes the record. -/
def execCompletionRecordRead (seq : Nat) (last : Bool) (s : State) : Host.Outcome State Fault Refusal :=
  match (s.seq seq).cq with
  | [] => .next (s.send (.answer 0))
  | r :: t => .next ((if last then s.modSeq seq fun q => { q with cq := t } else s).send (.answer r.value))

/-- R269: HOLD stops dispatch; HELD follows once no context is active. -/
def execSequencerHold (seq : Nat) (s : State) : Host.Outcome State Fault Refusal :=
  if seq ≥ 34 then .next s else .next (s.modSeq seq fun q => ({ q with hold := true }).restate)

/-- R269. -/
def execSequencerHoldRelease (seq : Nat) (s : State) : Host.Outcome State Fault Refusal :=
  if seq ≥ 34 then .next s else .next (s.modSeq seq fun q => ({ q with hold := false }).restate)

/-- R270: MCLR from MCHECK enters LOADING. -/
def execMachineCheckClear (seq : Nat) (s : State) : Host.Outcome State Fault Refusal :=
  if (s.seq seq).state = .mcheck then .next (s.modSeq seq fun q => { q with state := .loading, maddr := 0, mkind := 0, mgroup := 0 }) else .next s

/-! Dispatch (R239, R251, R253, R261) -/

/-- The first free context. -/
def SeqSt.freeCtx (q : SeqSt) : Option Nat := (List.range 8).find? fun i => !thas q.ctxs i

/-- A die has an active context. -/
def SeqSt.dieBusy (q : SeqSt) (d : Nat) : Bool := q.ctxs.any fun c => c.2.op.die.toNat == d

/-- R239, R251: the oldest queued operation whose die has no active context is dispatched; `parity` is a parity error on its dispatch entry.
In power-loss mode an operation without PLS ends with ABANDONED (R261). -/
def execOperationDispatch (seq : Nat) (parity : Bool) (s : State) : Host.Outcome State Fault Refusal :=
  let q := s.seq seq
  let now := s.now
  if !q.live || (q.hold && !q.ploss) || (decide (seq < 32) && s.pwr.gated.contains (5 + seq / 4)) then .next s
  else match (if q.ploss then q.queue.find? fun o => !o.pls else none) with
    | some o => .next (s.modSeq seq fun q => { q with queue := q.queue.erase o, cq := q.cq ++ [o.ended .abandoned] })
    | none =>
      match q.queue.find? fun o => !q.dieBusy o.die.toNat, q.freeCtx with
      | some o, some i =>
        if parity then .next (s.machineCheck seq o.opcode.toNat 1 0)
        else
          let e := tgetD q.disp o.opcode.toNat 0
          .next (s.modSeq seq fun q =>
            let q := { q with queue := q.queue.erase o }
            if entValid e then ({ q with ctxs := tput q.ctxs i (MCtx.load o e now) }).restate else { q with cq := q.cq ++ [o.ended .unsupported] })
      | _, _ => .next s

/-! Registers and the ALU (R247, R248) -/

/-- FCH cycles since the start, which TMR reads (assumption log 25). -/
def State.fchCycles (s : State) (n : Nat) : Nat := s.time * tgetD s.flashIf.groupRate (n / 4) 0 / 2000

/-- The register that a source code names. -/
def MCtx.reg (c : MCtx) (imm tmr k : Nat) : BitVec 32 :=
  if k < 16 then c.g.getD k 0
  else if k = 16 then c.row
  else if k = 17 then BitVec.ofNat 32 c.col.toNat
  else if k = 18 then c.cnt
  else if k = 19 then BitVec.ofNat 32 c.op.die.toNat
  else if k = 20 then BitVec.ofNat 32 c.sr.toNat
  else if k ≤ 24 then BitVec.ofNat 32 (c.lc.getD (k - 21) 0).toNat
  else if k = 25 then BitVec.ofNat 32 c.flg.toNat
  else if k = 26 then BitVec.ofNat 32 tmr
  else if k = 27 then c.res
  else BitVec.ofNat 32 imm

/-- Write a register that may be written. -/
def MCtx.put (c : MCtx) (k : Nat) (v : BitVec 32) : MCtx :=
  if k < 16 then { c with g := c.g.set k v }
  else if k = 16 then { c with row := v }
  else if k = 17 then { c with col := BitVec.ofNat 16 v.toNat }
  else if k = 18 then { c with cnt := v }
  else if 21 ≤ k && k ≤ 24 then { c with lc := c.lc.set (k - 21) (BitVec.ofNat 16 v.toNat) }
  else if k = 25 then { c with flg := BitVec.ofNat 4 v.toNat }
  else if k = 27 then { c with res := v }
  else c

/-- Result and carry of an ALU operation (R247). -/
def aluResult (op : Nat) (d x : BitVec 32) : BitVec 32 × Bool :=
  let n := x.toNat % 32
  match op with
  | 1 => (x, false)
  | 2 => (d + x, decide (2 ^ 32 ≤ d.toNat + x.toNat))
  | 3 => (d - x, decide (d.toNat < x.toNat))
  | 4 => (d &&& x, false)
  | 5 => (d ||| x, false)
  | 6 => (d ^^^ x, false)
  | 7 => (d <<< n, decide (n ≠ 0) && bitAt d.toNat (32 - n))
  | 8 => (d >>> n, decide (n ≠ 0) && bitAt d.toNat (n - 1))
  | 9 => (d - x, decide (d.toNat < x.toNat))
  | _ => (d, false)

/-- Flags Z, C, N in bits 0 to 2; T in bit 3 is kept. -/
def MCtx.flags (c : MCtx) (r : BitVec 32 × Bool) : MCtx :=
  { c with flg := BitVec.ofNat 4 (b2n (decide (r.1 = 0)) + 2 * b2n r.2 + 4 * b2n (bitAt r.1.toNat 31) + 8 * b2n (bitAt c.flg.toNat 3)) }

/-- The ALU part of a word. -/
def MCtx.alu (c : MCtx) (w : BitVec 96) (tmr : Nat) : MCtx :=
  let op := mwAlu w
  if op = 0 then c
  else
    let r := aluResult op (c.reg 0 tmr (mwDst w)) (c.reg (mwImm32 w) tmr (mwSrc w))
    let c := if op = 9 then c else c.put (mwDst w) r.1
    if op = 9 || mwSetf w then c.flags r else c

/-! Traps (R257 to R259) -/

/-- Take a trap of the running context: the frame, the count, and the cause's vector. -/
def State.takeTrap (s : State) (n i : Nat) (cause : Cause) (saved code : Nat) : State :=
  s.modSeq n fun q =>
    let c := tgetD q.ctxs i {}
    let f : Frame := { upc := BitVec.ofNat 12 saved, lc := c.lc, flg := c.flg, cause := cause, code := BitVec.ofNat 8 code, owner := i }
    let c := { c with
      upc := BitVec.ofNat 12 (0x40 + cause.code), cause := some cause, parked := false
      ucode := if cause = .user then BitVec.ofNat 8 code else c.ucode
      strobes := if cause = .strobe then c.strobes + 1 else c.strobes
      expiries := if cause = .watchdog then c.expiries + 1 else c.expiries }
    ({ q with trapCnt := satInc q.trapCnt, frame := some f, ctxs := tput q.ctxs i c }).restate

/-- A customer operation has ended with TRAPPED under ILLEGAL, PRIV or STACK: the 16th disables its entry and its overrides (R263). -/
def State.countTrapped (s : State) (op : Nat) : State :=
  let k := tgetD s.seqs.custTraps op 0 + 1
  let s := s.modSeqs fun x => { x with custTraps := tput x.custTraps op k }
  if k = 16 then
    (s.modSeqs fun x => { x with
      seqs := x.seqs.map fun e => (e.1, { e.2 with disp := tupd e.2.disp op fun d => d &&& ~~~(0x1000 : BitVec 32) })
      overrides := x.overrides.filter fun o => o.2 != op }).note 0x4004 0 0 [op]
  else s

/-- The context's operation ends: its completion record, its frame and pending causes released (R254, R258, R259). -/
def State.endOp (s : State) (n i : Nat) (r : Result) : State :=
  let c := tgetD (s.seq n).ctxs i {}
  let now := s.now
  let s := s.modSeq n fun q =>
    ({ q with
       cq := q.cq ++ [c.record r now], ctxs := tdel q.ctxs i, cur := none, rr := i
       frame := match q.frame with | some f => if f.owner = i then none else some f | none => none
       pend := q.pend.filter fun p => p.2 != i }).restate
  let sync : Bool := c.cause == some .illegal || c.cause == some .priv || c.cause == some .stack
  if r = .trapped && 0xC0 ≤ c.op.opcode.toNat && sync then s.countTrapped c.op.opcode.toNat else s

/-- TRAPRET with IMM8[0] 0: loop counters and flags from the frame, and on at the saved address. -/
def State.trapResume (s : State) (n : Nat) (f : Frame) : State :=
  s.modSeq n fun q => ({ q with frame := none, ctxs := tupd q.ctxs f.owner fun c => { c with lc := f.lc, flg := f.flg, upc := f.upc } }).restate

/-- TRAPRET with IMM8[0] 1: the operation starts again from its dispatch entry. -/
def State.trapRestart (s : State) (n : Nat) (f : Frame) : State :=
  let now := s.now
  s.modSeq n fun q =>
    let again (c : MCtx) : MCtx :=
      let e := tgetD q.disp c.op.opcode.toNat 0
      { MCtx.load c.op e now with start := c.start, cause := c.cause, ucode := c.ucode, strobes := c.strobes, expiries := c.expiries, maxbits := c.maxbits }
    ({ q with frame := none, ctxs := tupd q.ctxs f.owner again }).restate

/-- The vendor handler of a cause, by the outcome that R257 and R261 give it. -/
def State.vendorHandler (s : State) (n : Nat) (f : Frame) : State :=
  let c := tgetD (s.seq n).ctxs f.owner {}
  match f.cause with
  | .illegal => s.endOp n f.owner .trapped
  | .priv => s.endOp n f.owner .trapped
  | .stack => s.endOp n f.owner .trapped
  | .watchdog => if c.cls = 0 && c.expiries ≤ 1 then s.trapRestart n f else s.endOp n f.owner .timeout
  | .strobe =>
    if c.strobes ≤ 1 then s.trapResume n f
    else
      let s := s.endOp n f.owner .trapped
      if n < 32 then s.modFlashIf fun x => { x with dies := tupd x.dies (32 * n + c.op.die.toNat) fun d => { d with retrainDue := true } } else s
  | .xfer => s.endOp n f.owner .xfer
  | .powerfail => if c.cls = 1 || c.started then s.trapResume n f else s.endOp n f.owner .abandoned
  | .user => s.trapResume n f

/-- The power-fail line reaches every loaded sequencer (R257, R261): power-loss mode, and POWERFAIL pending for each active context, which a
parked one takes as soon as it runs. -/
def State.seqPowerFail (s : State) : State :=
  s.modSeqs fun x => { x with seqs := x.seqs.map fun e =>
    if e.2.live then
      (e.1, ({ e.2 with ploss := true, pend := e.2.pend ++ e.2.ctxs.map (fun (c : Nat × MCtx) => (Cause.powerfail, c.1))
                        ctxs := e.2.ctxs.map fun (c : Nat × MCtx) => (c.1, { c.2 with parked := false }) }).restate)
    else e }

/-- The pending cause that a context takes at a word boundary, POWERFAIL before WATCHDOG (R259). -/
def SeqSt.dueCause (q : SeqSt) (i : Nat) : Option Cause :=
  if q.frame.isSome then none
  else if q.pend.contains (.powerfail, i) then some .powerfail
  else if q.pend.contains (.watchdog, i) then some .watchdog else none

/-- The limit of key 0x0108 for a class in ns; class 3 has the erase limit (R251). -/
def State.opLimit (s : State) (cls : Nat) : Nat := us * s.keyN 0x0108 (4 * min cls 2) 4

/-- R257: the operation of a context has run longer than its limit. A parked context becomes runnable. -/
def execWatchdogTrap (seq ctx : Nat) (s : State) : Host.Outcome State Fault Refusal :=
  match tget (s.seq seq).ctxs ctx with
  | none => .next s
  | some c =>
    let s := s.reach (c.wdStart + s.opLimit c.cls.toNat)
    .next (s.modSeq seq fun q => { q with pend := q.pend.filter (· != (.watchdog, ctx)) ++ [(.watchdog, ctx)], ctxs := tupd q.ctxs ctx fun c => { c with parked := false } })

/-- R244, R245: a parked context's delay ends, with T 1. -/
def execYieldDelayEnd (seq ctx : Nat) (s : State) : Host.Outcome State Fault Refusal :=
  .next (s.modSeq seq fun q => { q with ctxs := tupd q.ctxs ctx fun c => if c.parked then { c with parked := false, flg := c.flg ||| 8 } else c })

/-! The microword (R243 to R249, R257, R262, R263) -/

/-- The word reads or writes what no word may: ILLEGAL (R243 to R248, R257). `cust` is a word of the customer area, `inTrap` a handler. -/
def illegalWord (w : BitVec 96) (cust inTrap : Bool) : Bool :=
  let d := mwDst w
  let writes := decide (1 ≤ mwAlu w) && decide (mwAlu w ≤ 8)
  bits w.toNat 93 3 ≠ 0 || mwSeq w ≥ 11 || (mwSeq w = 9 && !inTrap) || mwCond w ≥ 12 || mwBus w ≥ 9 || mwAlu w ≥ 10 || d ≥ 29 || mwSrc w ≥ 29 ||
    (writes && (d = 20 || d = 26 || d = 28 || (d = 19 && !cust))) || (mwAlu w = 9 && d = 28)

/-- Customer code breaking R263 in an operation of a class: PRIV. Word 0x000 of the vendor area follows word 0xFFF (log 81). -/
def privWord (w : BitVec 96) (cls upc : Nat) : Bool :=
  let q := mwSeq w
  let b := mwImm8 w
  let writes := decide (1 ≤ mwAlu w) && decide (mwAlu w ≤ 8)
  (upc = 0xFFF && (q == 0 || q == 7)) ||
  ((q == 1 || q == 2 || q == 3 || q == 4 || q == 6) && mwNext w < 0xC00 && !serviceEntry (mwNext w)) || (writes && mwDst w = 19) || mwBus w = 8 ||
    (mwBus w = 1 && ([0xFF, 0xFC, 0xE1, 0xEF, 0xE2, 0xF9].contains b ||
      ((cls = 0 || cls = 3) && (b = 0x10 || b = 0x15 || b = 0xD0)) || (cls = 1 && b = 0xD0) || (cls = 2 && (b = 0x10 || b = 0x15))))

/-- A condition (R245). -/
def MCtx.cond (c : MCtx) (k lsel : Nat) (pf : Bool) : Bool :=
  if k = 0 then true
  else if k ≤ 3 then bitAt c.flg.toNat (k - 1)
  else if k = 4 then bitAt c.flg.toNat 3
  else if k = 5 then bitAt c.sr.toNat 6
  else if k = 6 then bitAt c.sr.toNat 5
  else if k = 7 then bitAt c.sr.toNat 0
  else if k = 8 then bitAt c.sr.toNat 1
  else if k = 9 then c.lc.getD lsel 0 == 0
  else if k = 10 then c.decok
  else pf

/-- The bytes of an ADDR action (R246). -/
def MCtx.addrBytes (c : MCtx) (imm : Nat) : List Byte :=
  let all := leBytes 2 c.col.toNat ++ leBytes 4 c.row.toNat
  ((if bitAt imm 3 then all.drop 2 else all).take (imm % 8 + 1))

/-- What the outside gives to the word's bus action. -/
structure BusIn where
  /-- Status byte of SIN. -/
  status : Byte
  /-- No read strobe within the window, or a strobe fault, during DIN. -/
  strobe : Bool
  /-- The fabric re-sends of the transfer are exhausted. -/
  lost : Bool
  /-- Codewords of an LDPC DIN that failed hard decode. -/
  cwfail : Byte
  /-- Most bits corrected in a codeword of the transfer. -/
  maxbits : Byte

/-- Whether the transfer of CNT bytes runs past the end of the handle list, or its re-sends are exhausted: XFER. -/
def SeqSt.xferBad (q : SeqSt) (c : MCtx) (x : BusIn) : Bool :=
  decide (4096 * (tgetD q.blists c.op.blist.toNat []).length < c.xferPos + c.cnt.toNat) || x.lost

/-- The bus part of a word on its context. -/
def MCtx.bus (c : MCtx) (w : BitVec 96) (x : BusIn) : MCtx :=
  match mwBus w with
  | 1 => if [0x10, 0x15, 0x30, 0xD0].contains (mwImm8 w) then { c with started := true } else c
  | 3 => { c with xferPos := c.xferPos + c.cnt.toNat }
  | 4 =>
    let c := { c with xferPos := c.xferPos + c.cnt.toNat }
    if mwLdpc w then
      { c with cwfail := x.cwfail, decok := x.cwfail == 0, maxbits := if c.maxbits.toNat < x.maxbits.toNat then x.maxbits else c.maxbits }
    else c
  | 5 => { c with sr := x.status }
  | _ => c

/-- The cycles that the action drives; `a` is the ASRC register before the word's ALU write. -/
def busOut (w : BitVec 96) (c : MCtx) (a : BitVec 32) : List Byte :=
  match mwBus w with
  | 1 => [BitVec.ofNat 8 (mwImm8 w)]
  | 2 => c.addrBytes (mwImm8 w)
  | 6 => [BitVec.ofNat 8 a.toNat]
  | 7 => [BitVec.ofNat 8 a.toNat]
  | 8 => [BitVec.ofNat 8 (mwImm8 w % 2)]
  | _ => []

/-- The context that runs: the current one, or the next runnable one after the last, round robin (R239). -/
def SeqSt.pick (q : SeqSt) : Option Nat :=
  match q.cur with
  | some i => some i
  | none =>
    match q.frame with
    | some f => some f.owner
    | none => ((List.range 8).map fun k => (q.rr + 1 + k) % 8).find? fun i => match tget q.ctxs i with | some c => !c.parked | none => false

/-- Sequencing after the word (R244). -/
def State.sequence (s : State) (n i : Nat) (w : BitVec 96) : State :=
  let q := s.seq n
  let c := tgetD q.ctxs i {}
  let nx := mwNext w
  let step := (c.upc.toNat + 1) % 4096
  let go (a : Nat) : State := s.modSeq n fun q => { q with ctxs := tupd q.ctxs i fun c => { c with upc := BitVec.ofNat 12 a } }
  let cnd := c.cond (mwCond w) (mwLsel w) s.pwr.pl.running
  match mwSeq w with
  | 0 => go step
  | 1 => go nx
  | 2 => go (if cnd then nx else step)
  | 3 => go (if cnd then step else nx)
  | 4 => s.modSeq n fun q => { q with ctxs := tupd q.ctxs i fun c => { c with upc := BitVec.ofNat 12 nx, stack := BitVec.ofNat 12 step :: c.stack } }
  | 5 => s.modSeq n fun q => { q with ctxs := tupd q.ctxs i fun c => { c with upc := c.stack.headD 0, stack := c.stack.drop 1 } }
  | 6 =>
    let v := c.lc.getD (mwLsel w) 0 - 1
    s.modSeq n fun q => { q with ctxs := tupd q.ctxs i fun c =>
      { c with lc := c.lc.set (mwLsel w) v, upc := BitVec.ofNat 12 (if v = 0 then step else nx) } }
  | 7 => s.modSeq n fun q => { q with cur := none, rr := i, ctxs := tupd q.ctxs i fun c => { c with parked := true, upc := BitVec.ofNat 12 step } }
  | 8 =>
    let bad : Bool := (c.cls = 1 || c.cls = 2) && bitAt c.sr.toNat 0
    s.endOp n i (if bad then .fail else .ok)
  | 10 => s.takeTrap n i .user step (mwImm8 w)
  | _ => s

/-- Run one word of context i that raises no trap before its effect. -/
def State.runWord (s : State) (n i : Nat) (w : BitVec 96) (x : BusIn) : State :=
  let q := s.seq n
  let c0 := tgetD q.ctxs i {}
  let tmr := s.fchCycles n
  let a := c0.reg (mwImm32 w) tmr (mwSrc w)
  let c := c0.alu w tmr
  let put (s : State) (c : MCtx) : State := s.modSeq n fun q => { q with ctxs := tput q.ctxs i c }
  let moves := mwBus w == 3 || mwBus w == 4
  if mwBus w = 4 && x.strobe then (put s c).takeTrap n i .strobe c.upc.toNat 0
  else if moves && q.xferBad c x then (put s c).takeTrap n i .xfer c.upc.toNat 0
  else
    let s := put s (c.bus w x)
    let s := if mwBus w = 0 then s else s.send (.bus n (mwBus w) (busOut w c a))
    let s := if mwBus w = 8 && n < 32 then s.modFlashIf fun f => { f with chans := tmod f.chans n {} fun k => { k with wp := bitAt (mwImm8 w) 0 } } else s
    s.sequence n i w

/-- R239, R244, R257 to R260: one word boundary and one word of a sequencer. `par` holds the parity groups in error of the fetched word. In a
handler the whole vendor handler runs, by its outcome; a synchronous cause in it is a double trap. -/
def execMicrowordExecute (seq : Nat) (par : Nat) (status : Byte) (strobe lost : Bool) (cwfail maxbits : Byte) (s : State) :
    Host.Outcome State Fault Refusal :=
  let q := s.seq seq
  let x : BusIn := { status := status, strobe := strobe, lost := lost, cwfail := cwfail, maxbits := maxbits }
  if !q.live then .next s
  else match q.pick with
    | none => .next s
    | some i =>
      let c := tgetD q.ctxs i {}
      let s := s.modSeq seq fun q => { q with cur := some i }
      let cust := decide (seq < 32) && decide (0xC00 ≤ c.upc.toNat)
      match q.frame with
      | some f =>
        if par ≠ 0 then .next (s.machineCheck seq c.upc.toNat 3 par)
        else if strobe || lost then .next (s.machineCheck seq c.upc.toNat 2 0)
        else .next (s.vendorHandler seq f)
      | none =>
        match q.dueCause i with
        | some k => .next ((s.modSeq seq fun q => { q with pend := q.pend.filter (· != (k, i)) }).takeTrap seq i k c.upc.toNat 0)
        | none =>
          let w := tgetD q.store c.upc.toNat fillWord
          if par ≠ 0 then .next (s.machineCheck seq c.upc.toNat 0 par)
          else if illegalWord w cust false then .next (s.takeTrap seq i .illegal c.upc.toNat 0)
          else if cust && privWord w c.cls.toNat c.upc.toNat then .next (s.takeTrap seq i .priv c.upc.toNat 0)
          else if (mwSeq w = 4 && c.stack.length ≥ 4) || (mwSeq w = 5 && c.stack.isEmpty) then .next (s.takeTrap seq i .stack c.upc.toNat 0)
          else .next (s.runWord seq i w x)

end Sys2Proof.Machine
end

