-- ==== Sys2Proof/Machine/Start.lean ====
section
/-!
DEFINITION. The start: what survives into it, the boot ROM's steps, fall-back to the other boot block, the recovery function, the
microcode loader and DRAM training (R267 to R269, R426, R428, R533, R550, R552, R560 to R568).
-/
namespace Sys2Proof.Machine
open Sys2Proof

/-! What survives (R500, R589, R604, R634, R657) -/

/-- A temperature input after a loss of the controller die: every start judges it afresh, its one-time programmable bits stay (R633, R634). -/
def Sensor.restart (x : Sensor) (now : Nat) : Sensor :=
  { x with broken := false, oorSince := none, lastAt := now, stuckAt := x.reading, stuckSince := now, samples := [], rising := 0, calm := 100, recorded := false }

/-- The block as a start finds it: everything volatile in the controller die is at its reset value. Media, the boot NVM, one-time
programmable storage, the recorder partition, the calibration records, the power die, the AON domain, the pins, the clock, the model's own fields
and what NVMe keeps for the life of the device stay (assumption log 27), and so does the state latch of the collector (R657). -/
def State.atBoot (s : State) : State :=
  { State.reset with
    media := s.media
    ospi := { nvm := s.ospi.nvm, bankSize := s.ospi.bankSize, fetchFaults := s.ospi.fetchFaults, prevFaults := s.ospi.prevFaults }
    cfg := { digest := s.cfg.digest, factoryUid := s.cfg.factoryUid, record := s.cfg.record, recordSince := s.cfg.recordSince, recordDeb := s.cfg.recordDeb }
    fw := { svnFloor := s.fw.svnFloor, startAt := s.fw.startAt }
    flash := { factoryBad := s.flash.factoryBad }
    chan := { heads := s.chan.heads.map fun e => (e.1, { cal := e.2.cal }), rackTemp := s.chan.rackTemp, band := s.chan.band }
    evt := { mirror := s.evt.mirror }
    pcie := { refclk := s.pcie.refclk, perstN := s.pcie.perstN }
    nvme := { sanitize := s.nvme.sanitize, sanAction := s.nvme.sanAction, sanFailed := s.nvme.sanFailed, selfTest := s.nvme.selfTest,
              errCount := s.nvme.errCount, dataRead := s.nvme.dataRead, dataWritten := s.nvme.dataWritten, cmdsRead := s.nvme.cmdsRead,
              cmdsWritten := s.nvme.cmdsWritten, powerCycles := s.nvme.powerCycles, unsafeOff := s.nvme.unsafeOff, mediaErrs := s.nvme.mediaErrs
              onTime := s.nvme.onTime }
    pwr := { vinMain := s.pwr.vinMain, vinBkup := s.pwr.vinBkup, onBkup := s.pwr.onBkup, aon := s.pwr.aon, rails := s.pwr.rails,
             rampFails := s.pwr.rampFails, rampAt := s.pwr.rampAt, failedRails := s.pwr.failedRails, heldOff := s.pwr.heldOff, mainSince := s.pwr.mainSince,
             crystal := s.pwr.crystal, cpmFirst := s.pwr.cpmFirst, pl := { s.pwr.pl with running := false } }
    flt := if s.flt.state = .normal then {} else
      { state := if s.flt.state = .latched then .latched else .safe, cause := s.flt.cause, escalated := s.flt.escalated, quietStart := s.flt.quietStart
        entryDone := s.flt.entryDone }
    therm := { s.therm with sensors := s.therm.sensors.map fun e => (e.1, e.2.restart s.now), throttle := 0, crossed := false }
    pins := { s.pins with gpioOut := 0, jtag := .none }
    now := s.now
    free := s.free
    out := s.out
    pending := s.pending }

/-! The boot ROM (R542, R545, R562 to R565) -/

/-- The features that a controller enable returns to their values (R486, R500 to R510). The Timestamp and the power state are kept. -/
def State.featureDefaults (s : State) : State :=
  let s := s.modNvme fun n => { n with arb := 6, errRec := 0, coal := 0, coalDis := [], atomicity := 0, aecfg := 0, tempThr := [], hctm := 0 }
  let s := s.modCfg fun c => { c with pinEn := c.img.pinEn, schedEn := false, schedDrain := false, schedTime := 0 }
  let s := s.modFw fun f => { f with armed := false, actTime := 0 }
  let s := s.modRack fun r => { r with spinAllowed := decide (s.key2 0x0404 = 1), standby := none, demandHeld := false }
  (s.modWin fun w => { w with pushEn := true, leaseUs := 10000 }).resizePush 1024

/-- The recovery function is presented (R457, R567). -/
def State.recover (s : State) (cause : Nat) : State :=
  let s := s.modFw fun f => { f with stage := .recovery, recCause := BitVec.ofNat 8 cause, recState := 0, recWinBase := 0, recPkgLen := 0, recResult := 0, recStaging := [] }
  s.modPcie fun p => { p with recovery := true, present := true }

/-- The components of one boot block that fail to verify, from (block, component) pairs. -/
def badOf (bad : List (Nat × Nat)) (b : Bool) : List Nat := (bad.filter fun e => e.1 == b2n b).map (·.2)

/-- Why the set of a boot block does not boot, as CAUSE of R567: none when every check of steps 3 to 5 of R562 passes. -/
def State.blockFault (s : State) (bad : List (Nat × Nat)) (b : Bool) : Option Nat :=
  let ok (c : Nat) : Bool := s.storedGood (badOf bad b) b c
  let crc := (((s.directory b).find? fun e => e.1 == 1).map (·.2.2.2.2)).getD 0
  if !ok 5 then some 3
  else if !ok 1 || (crc32c (s.imageBytes b 1)).toNat ≠ crc then some 2
  else if !ok 2 || !ok 4 || !compatible (s.storedSet b) then some 4
  else none

/-- The sectors of the boot block and of every image that its directory names (R550). -/
def State.setSectors (s : State) (b : Bool) : List Nat :=
  ((List.range 16).map fun i => s.blockAt b / 65536 + i) ++
    (s.directory b).flatMap fun e => if e.1 = 0 then [] else (List.range (ceilDiv (e.2.1 % 65536 + e.2.2.1) 65536)).map fun i => e.2.1 / 65536 + i

/-- Values of the keys 0x0540 to 0x0557 as the engine's repeatable-runout tables, two regions of 480 entries to a surface (R407). -/
def State.loadRro (s : State) : State :=
  let t := (List.range 24).flatMap fun f =>
    let es := (chunksOf 2 (s.key (0x0540 + f))).map fun e => BitVec.ofNat 16 (leNat e)
    if s.cfg.img.present (0x0540 + f) then (List.range 8).map fun r => (8 * f + r, (es.drop (480 * r)).take 480) else []
  s.modServo fun v => { v with rro := t }

/-- Take the image of a boot block into force: profiles, test mode, protection, class raises, identity, timers of the collector (R457, R532, R533,
R550, R584, R591, R620). -/
def State.takeImage (s : State) (img : Image) : State :=
  let drain := if img.pinEn then pinDrain s.cfg.record else img.bootDrain
  let s := s.modCfg fun c => { c with img := img, testMode := img.unlocks c.factoryUid, drainActive := drain, recordDeb := c.record, swap := none, waiters := [] }
  let prot := (List.range (8 * (s.key 0x0B01).length)).filter fun i => bitAt ((s.key 0x0B01).getD (i / 8) 0).toNat (i % 8)
  let s := s.modOspi fun o => { o with prot := prot, aspEn := decide (s.key2 0x0B02 = 1), lock := true }
  let s := s.modFlt fun t => { t with raised := img.classRaises, reactionMs := BitVec.ofNat 10 (s.key2 0x0900), quietMs := BitVec.ofNat 16 (s.key4 0x0901) }
  let s := (s.modRack fun r => { r with spin := if !s.rackPresent then .absent else if s.pwr.vinMain < 10800 then .lowv else .stopped }).vmotUpdate
  let s := s.modPwr fun p => { p with
    rails := if s.rackPresent && !p.rails.contains 15 then p.rails ++ [15] else p.rails
    hold := if s.keyN 0x0605 0 2 = 1 then some s.now else none
    charger := if 4 ≤ s.therm.bandPwr then .off else .current, chargeStart := s.now, ageOffset := s.evt.mirror.ageOffset, ceiling := s.evt.mirror.ceiling }
  let s := s.modPcie fun p => { p with present := true, recovery := false }
  (s.featureDefaults.poolInit.loadRro).noteImage img

/-- The set of a good boot block runs: steps 3 to 5 of R562 up to DRAM training. -/
def State.bootSet (s : State) (bad : List (Nat × Nat)) (b : Bool) : State :=
  match parseGarek (s.imageBytes b 5) s.cfg.digest (!(badOf bad b).contains 5) (2 * s.ospi.bankSize) with
  | none => s.recover 3
  | some img =>
    let set := s.storedSet b
    let core := (tgetD set 2 {}).addr
    let otherOk := s.candidate (!b) && (List.range 5).all fun i => s.storedGood (badOf bad (!b)) (!b) (i + 1)
    let other := if otherOk then s.storedSet (!b) else []
    let s := s.modFw fun f => { f with
      stage := .boot, bootB := b, running := set, other := other, runSlot := if core < s.ospi.bankSize then 1 else 2, nextSlot := 0 }
    let s := s.modOspi fun o => { o with aprot := s.setSectors b }
    s.takeImage img

/-- Steps 3 to 5 of R562 with the boot blocks in order of preference (R565): the first set that passes runs; otherwise the recovery function. -/
def State.bootFrom (s : State) (bad : List (Nat × Nat)) (bs : List Bool) : State :=
  match bs.find? fun b => (s.blockFault bad b).isNone with
  | some b => s.bootSet bad b
  | none => s.recover ((bs.getLast?.bind (s.blockFault bad)).getD 1)

/-- Step 2 of R562: a prepared twin whose CFG and BOOT are good is completed, any other is cancelled (R564). -/
def State.checkTwins (s : State) (bad : List (Nat × Nat)) : State :=
  [false, true].foldl (fun s b =>
    if s.prepared b then
      if s.storedGood (badOf bad b) b 5 && s.storedGood (badOf bad b) b 1 then s.completeTwin b else s.cancelTwin b
    else s) s

/-- The boot ROM from its first step; `skip` after too many fetch faults takes the other boot block (R552). -/
def State.romStart (s : State) (bad : List (Nat × Nat)) (skip : Bool) : State :=
  let s := (s.modFlt fun t => { t with collector := true }).modFw fun f => { f with stage := .rom }
  let s := s.checkTwins bad
  match s.validBlock with
  | none => s.recover 1
  | some b =>
    let other := if s.candidate (!b) then [!b] else []
    if !skip then s.bootFrom bad (b :: other)
    else if other.isEmpty then s.recover 5
    else s.bootFrom bad other

/-- The power die may release the controller die (R611, R636, R656, R657). -/
def State.mayStart (s : State) : Bool :=
  s.pwr.crst && s.pwr.aon && !s.pwr.heldOff && !s.therm.shutHold && s.pins.sysrstN && s.pwr.rampAt.isNone &&
    decide (s.key2 0x0601 + 300 ≤ s.pwr.vinMain)

/-- Masks of key 0x0705: an input with its broken bit is masked for life, unless too few of its die would remain (R634). -/
def State.takeMasks (s : State) : State :=
  let want := maskList 24 (s.key4 0x0705)
  let s := want.foldl (fun s i =>
    let x := tgetD s.therm.sensors i {}
    let left (lo n : Nat) : Nat := ((List.range n).filter fun j => lo + j ≠ i && !(tgetD s.therm.sensors (lo + j) {}).maskBit).length
    if x.maskBit then s
    else if !x.brokenBit || (i < 16 && left 0 16 < 8) || (16 ≤ i && i < 20 && left 16 4 < 2) then s.noteTag 9 10 (0x280 + i) [0, 0, 0, 0]
    else (s.modTherm fun t => { t with sensors := tmod t.sensors i {} fun y => { y with maskBit := true } }).note 0x9107 10 (0x280 + i) []) s
  (List.range 24).foldl (fun s i => if (tgetD s.therm.sensors i {}).maskBit then s.modSrc (0x280 + i) fun x => { x with masked := true } else s) s

/-- The records of what a start finds: the last power-loss sequence, a brown-out, a protective shutdown, rails that failed (R614, R621, R636,
R656). -/
def State.noteStart (s : State) : State :=
  let s := match s.pwr.pl.latched with
    | some (d, v, m) => s.note 0x9101 0 0 [d, v, m.toNat]
    | none => s
  let s := if s.pwr.pl.brown then s.fault 0x271 [] else s
  let s := match s.therm.shutRec with
    | some (i, t, n) => s.note 0x9108 10 (0x280 + i) [pattern 64 t, n]
    | none => s
  let s := s.pwr.failedRails.foldl (fun s r => s.fault (0x240 + r) []) s
  (s.modPwr fun p => { p with pl := {}, failedRails := [], rampFails := 0 }).modTherm fun t => { t with shutRec := none }

/-- Re-planning at a start (R640), once an image is in force. -/
def State.replanAtStart (s : State) (margins : List (List (List Int))) : State := if s.fw.stage = .boot then s.replan margins else s

/-- R562, R611, R640, R656: boot start, once VIN_MAIN has stayed high for 10 ms and SYSRST_N for 1 ms. `bankSize` is what SFDP reads, `bad` lists the
(boot block, component) pairs that fail to verify, `otpBad` one-time programmable storage that cannot be read (R567), and
`margins` the rounds of re-planning. -/
def execBootStart (bankSize : Nat) (bad : List (Nat × Nat)) (otpBad : Bool) (margins : List (List (List Int))) (s : State) : Host.Outcome State Fault Refusal :=
  if !s.mayStart then .next s
  else
    let s := (s.reach (max (s.pwr.mainSince + 10 * ms) (s.pins.sysrstAt + ms))).atBoot
    let s := s.modPwr fun p => { p with crst := false, rails := if p.rails.isEmpty then [0, 2, 3, 4, 5, 6, 7, 8, 9, 10, 11, 12] else p.rails }
    let s := (s.modFw fun f => { f with startAt := s.now }).modNvme fun n => { n with powerCycles := n.powerCycles + 1 }
    let s := s.modOspi fun o => { o with bankSize := if 16777216 ≤ bankSize && bankSize ≤ 134217728 then bankSize else o.bankSize }
    .next (if otpBad then s.recover 6 else (((s.romStart bad false).noteStart).takeMasks).replanAtStart margins)

/-- R552: a fetch of the boot ROM or BOOT faults on a busy bank: it waits for the bank, counts the fault and starts again from the first
step; the third fault of a power cycle takes the other boot block or the recovery function. -/
def execBootFetchFault (bad : List (Nat × Nat)) (s : State) : Host.Outcome State Fault Refusal :=
  if !(s.fw.stage = .rom || s.fw.stage = .boot || s.fw.stage = .dram || s.fw.stage = .core) || !(s.ospi.busy.any (·.isSome)) then .next s
  else
    let s := s.modOspi fun o => { o with busy := [none, none], fetchFaults := satInc o.fetchFaults }
    .next ((s.modFw fun f => { f with stage := .rom }).romStart bad (decide (3 ≤ s.ospi.fetchFaults.toNat)))

/-! DRAM training (R426, R428) -/

/-- The data rates of DRAM, falling (R422). -/
def dramRates : List Nat := [8000, 7200, 6400, 5600, 4800, 4000, 3200]

/-- A subchannel after training: its smallest margins, and its write delays as the tracking base (R426, R429). -/
def SubCh.measured (x : SubCh) (e : Nat × Nat × Nat × Nat) : SubCh :=
  { x with minEyeR := e.1, minEyeW := e.2.1, minMvR := e.2.2.1, minMvW := e.2.2.2
           trained := (List.range 40).map fun b => (tgetD x.helper.dly b 0).toNat / 256 }

/-- R426, R428, R429: training ends. A subchannel whose drift went beyond tracking is trained in full again. At a start, `passes` gives, rate by rate from key 0x0151 down, whether all four subchannels pass; `eyes` the smallest
margins of each subchannel: read and write time in % UI, read and write voltage in mV. A failure at the floor of key 0x0152 is fatal. -/
def execDramTrainingEnd (passes : List Bool) (eyes : List (Nat × Nat × Nat × Nat)) (s : State) : Host.Outcome State Fault Refusal :=
  if s.dram.inService && s.dram.subs.any (·.retrainDue) then
    .next (if passes.head? = some true then s.modDram fun d => { d with subs := (d.subs.zipIdx).map fun (x, i) =>
      if x.retrainDue then { x.measured (eyes.getD i (0, 0, 0, 0)) with retrainDue := false } else x } else s)
  else if s.fw.stage ≠ .boot then .next s
  else
    let rates := dramRates.filter fun r => r ≤ s.key2 0x0151 && s.key2 0x0152 ≤ r
    let tried := rates.zip passes
    match tried.find? (·.2) with
    | some (r, _) =>
      let falls := (tried.takeWhile fun e => !e.2).length
      let s := s.modDram fun d => { d with
        inService := true, rate := r
        subs := (d.subs.zipIdx).map fun (x, i) => x.measured (eyes.getD i (0, 0, 0, 0)) }
      let s := ((rates.drop 1).take falls).foldl (fun s r => s.note 0x6001 0 0 [r]) s
      .next (s.modFw fun f => { f with stage := .core })
    | none => if rates.length ≤ passes.length then .next ((s.modFw fun f => { f with stage := .dram }).fault 0x1C8 []) else .next s

/-! The sequencer loader (R267 to R269, R562 step 6) -/

/-- R267 to R269: the loader. At a start it fills every control store, and a base module that fails to verify makes the YH7400 start with the
other boot block (R565, `bad` as at boot start); after the start it reloads held and machine-checked sequencers with the modules in force. -/
def execMicrocodeLoad (base : McuModule) (patches : List McuModule) (custom : Option McuModule) (failed : List Nat) (bad : List (Nat × Nat)) (s : State) :
    Host.Outcome State Fault Refusal :=
  if s.fw.stage = .boot || (s.fw.stage = .core && s.seqs.base.isNone) then
    if !base.verifies then
      let o := !s.fw.bootB
      .next (s.bootFrom bad (if s.candidate o && (s.blockFault bad o).isNone then [o] else []) |> fun t =>
        if t.fw.stage = .recovery then t.modFw fun f => { f with recCause := 4 } else t)
    else
      let s := s.takeModules base patches (if s.cfg.img.present 0x0110 then custom else none)
      .next ((s.loadSeqs (List.range 34) failed).takeOverrides)
  else if s.fw.stage = .mounted && s.seqs.base.isSome then
    let which := (List.range 34).filter fun n => let q := s.seq n; decide (q.state = .held) || decide (q.state = .mcheck) || decide (q.state = .loading)
    .next (s.loadSeqs which failed)
  else .next s

/-! The recovery function (R567, R568) -/

/-- R567: a write to the window stores bytes at staging offset WIN_BASE + k - 0x8000; what lies beyond 12 MiB is not stored. `k` is the offset
in BAR0, 0x8000 to 0xFFFF. -/
def execRecoveryWindowWrite (k : Nat) (data : List Byte) (s : State) : Host.Outcome State Fault Refusal :=
  if s.fw.stage ≠ .recovery || k < 0x8000 || 0x10000 < k + data.length then .next s
  else .next (s.modFw fun f => { f with recStaging := mwriteN 0 f.recStaging (f.recWinBase.toNat + k - 0x8000) (data.take (12582912 - (f.recWinBase.toNat + k - 0x8000))) })

/-- A failed INSTALL. -/
def State.installFails (s : State) (r : Nat) : State := s.modFw fun f => { f with recState := 3, recResult := BitVec.ofNat 4 r }

/-- R568: INSTALL of PKG_LEN staged bytes. `bad` lists components that do not verify, `fails` a boot NVM failure. -/
def execRecoveryInstall (bad : List Nat) (fails : Bool) (s : State) : Host.Outcome State Fault Refusal :=
  if s.fw.stage ≠ .recovery then .next s
  else
    let bs := mreadN 0 s.fw.recStaging 0 (min s.fw.recPkgLen.toNat 12582912)
    match packageOf bs with
    | none => .next (s.installFails 1)
    | some p =>
      let set : Tab FwComp := p.map fun e => (e.1, wrapInfo e.2)
      let images : Tab (List Byte) := p.map fun e => (e.1, storedBytes e.1 e.2)
      if !(p.all fun e => s.wrapGood bad e.2) then .next (s.installFails 2)
      else if !((List.range 5).all fun i => thas p (i + 1)) then .next (s.installFails 3)
      else if !compatible set then .next (s.installFails 4)
      else if fails then .next (s.installFails 5)
      else
        let b := s.candidate false && !s.candidate true
        let seqs := [false, true].filterMap fun x =>
          if fieldAt (s.swapRec x) 0x3C 4 = recCrc (s.swapRec x) then some (s.blockSeq x) else none
        let sq := (seqs.foldl max 0) + 1
        let s := s.writeSlotSet 1 images
        let s := (s.prepareTwin b sq (s.slotDirectory b 1 set images) (tgetD images 1 [])).completeTwin b
        .next (s.modFw fun f => { f with recState := 2, recResult := 0 })

/-- R568: RESTART runs the start from its first step. -/
def execRecoveryRestart (bad : List (Nat × Nat)) (s : State) : Host.Outcome State Fault Refusal :=
  if s.fw.stage ≠ .recovery then .next s
  else
    let p := s.pcie
    let s := s.atBoot.modPcie fun q => { q with linkUp := p.linkUp, width := p.width, speed := p.speed, flit := p.flit, bar0 := p.bar0, memEn := p.memEn, bmEn := p.bmEn }
    let s := s.modPwr fun p => { p with crst := false }
    .next ((s.modFw fun f => { f with startAt := s.now }).romStart bad false)

end Sys2Proof.Machine
end

