-- ==== Sys2Proof/Machine/Mount.lean ====
section
/-!
DEFINITION. Mount: the valid root, the replay of what lies above its horizon, lost record pages, the ring's restore, and CSTS.RDY (R99, R119,
R125, R132 to R138, R189, R285, R488, R561, R563, R566, R605).
-/
namespace Sys2Proof.Machine
open Sys2Proof

/-! Spans as the media hold them (R138, R276, R295) -/

/-- A batch as it is left when its span is not written any further: parity over its members, a partial parity, or none (R282, R295). -/
def Batch.left (b : Batch) (parity : Bool) : Batch :=
  if b.prot = .opened then { b with prot := if parity then .partialOver b.prog else .unprotected, reserved := [] } else { b with reserved := [] }

/-- The spans open now, as a later mount finds them; `parity`: the partial parity of every open batch has been programmed (R295). -/
def State.openNow (s : State) (parity : Bool) : Tab SpanSt :=
  (s.flash.spans.filter fun e => decide (e.2.phase = .opened)).map fun e => (e.1, { e.2 with batches := e.2.batches.map (·.left parity) })

/-! The root and the structures it names (R124, R125) -/

/-- The newest Rack copy of a root. -/
def State.rackCopy (s : State) : Option Root :=
  s.media.rackRoot.foldl (fun b e => match b with
    | some r => if r.ckseq < e.2.ckseq then some e.2 else b
    | none => some e.2) none

/-- Structures in DRAM as a root gives them. -/
def State.loadRoot (s : State) (r : Root) : State :=
  let excess := r.subs.length - 1044480
  let s := s.modMap fun _ =>
    { map := r.map, subs := r.subs, subFree := 1044480 - r.subs.length, subReserve := 4096 - excess, wsn := r.wsnHigh, ckseq := r.ckseq, horizon := r.horizon
      cleanNow := r.clean, rootTs := r.ts, spilled := r.spilled, spillPend := r.pend, lastRound := s.now }
  let s := s.modFlash fun f => { f with spans := r.spans, blocks := r.blocks, openSpan := [], mapOpen := [], jobs := [] }
  let s := s.modRack fun x => { x with stackTab := r.stackTab, acts := [{}, {}] }
  let s := s.modNvme fun n => { n with nss := r.nss }
  let s := s.modCoder fun _ => { formats := r.formats }
  let s := s.modHost fun h => { h with deferred := r.deferred, defPend := [] }
  s.modPlace fun p => { p with
    epoch := r.epoch, epochStart := s.now, streams := r.streams, nsStreams := r.nsStreams, hints := r.hints, fencedDies := r.fencedDies
    fenceHead := r.fenceHead, copies := [], queues := [[], []], waitEvac := [] }

/-! Replay (R121, R132) -/

/-- A host record: the chunk is mapped at its location, with the classification of a first write and the format whose window holds it in the
replayed table. -/
def State.applyRec (s : State) (r : HostRec) : State :=
  let d : Desc := s.hostWriteFields {} (s.est (4096 + r.nsid))
  let old := s.desc r.nsid r.lcn
  let s := if old.split then s.subReturn old.sub else s
  s.putDesc r.nsid r.lcn { d with
    state := .mapped, loc := r.loc, rs := BitVec.ofNat 8 s.place.epoch.toNat
    format := if r.loc.coded then BitVec.ofNat 8 ((s.formatOf r.nsid r.lcn).getD 0) else 0 }

/-- A change of a side table (R121). -/
def State.applySide (s : State) (nsid : Nat) (r : SideRec) : State :=
  match r with
  | .ns none => s.modNvme fun n => { n with nss := tdel n.nss nsid }
  | .ns (some e) => s.modNvme fun n => { n with nss := tput n.nss nsid e }
  | .format i f => s.modCoder fun c => { c with formats := tput c.formats i f }
  | .hints h => s.modPlace fun p => { p with hints := h }
  | .fences dies heads => s.modPlace fun p => { p with fencedDies := dies, fenceHead := heads }
  | .deferred k d => s.modHost fun h => { h with deferred := tput h.deferred k d }
  | .streams t n => s.modPlace fun p => { p with streams := t, nsStreams := n }

/-- Whole units or chunks take a state that reads as zeros. -/
def State.applyUnits (s : State) (nsid lcn m : Nat) (v : UState) : State := (s.partState nsid lcn m v).getD s

/-- A journal entry applied to the map (R132, R133). -/
def State.applyEntry (s : State) (e : JEntry) : State :=
  match e.body with
  | .move src dst => (s.relocate e.nsid e.lcn src dst (s.desc e.nsid e.lcn).kept).2
  | .zeroRange n => (List.range (n + 1)).foldl (fun s i => s.wholeState e.nsid (e.lcn + i) .zero) s
  | .zeroUnits m => s.applyUnits e.nsid e.lcn m.toNat .zero
  | .deallocRange n => (List.range (n + 1)).foldl (fun s i =>
      let s := s.wholeState e.nsid (e.lcn + i) .dealloc
      s.putDesc e.nsid (e.lcn + i) { s.desc e.nsid (e.lcn + i) with ddur := true, loc := {} }) s
  | .deallocUnits m => s.applyUnits e.nsid e.lcn m.toNat .dealloc
  | .unreadable m src _ => if s.names (s.desc e.nsid e.lcn) src then (s.markUnreadable e.nsid e.lcn m.toNat).2 else s
  | .spanOpen n arg => s.modSpan n fun _ =>
      { tier := if arg = 1 then .proof else if arg = 2 then .bake else .none, mapArea := decide (arg = 4), phase := .opened, dense := decide (arg = 2)
        members := s.spanMembers (n / 524288) (n % 524288), batches := [{}] }
  | .spanRelease n => s.modSpan n fun x => { x with phase := .released }
  | .blockRetire d b => s.modBlock d b fun x => { x with retired := true }
  | .stackOpen a b => s.modStack (stackNo a b) fun _ => { phase := .opened, members := s.liveHeads a, openWsn := e.wsn }
  | .stackClose a b => s.modStack (stackNo a b) fun x => { x with phase := .closed, closeEpoch := s.place.epoch, parity := true, scrubbed := s.now }
  | .stackDiscard a b => s.modRack fun r => { r with stackTab := tdel r.stackTab (stackNo a b) }
  | .side r => s.applySide e.nsid r
  | .nsReset => s.dropNs e.nsid

/-- Everything recorded above the horizon, in WSN order, apart from the host records of lost record pages. -/
def State.replay (s : State) (h : Nat) (lost : List (Nat × Nat)) : State :=
  let js : List (Nat × (JEntry ⊕ HostRec)) := (s.media.journal.filter fun e => decide (h < e.wsn)).map fun e => (e.wsn, .inl e)
  let rs : List (Nat × (JEntry ⊕ HostRec)) := (s.media.recs.filter fun r =>
    decide (h < r.wsn) && !lost.contains (r.loc.span, r.loc.offset / 32)).map fun r => (r.wsn, .inr r)
  ((js ++ rs).mergeSort fun a b => decide (a.1 ≤ b.1)).foldl (fun s e => match e.2 with
    | .inl j => s.applyEntry j
    | .inr r => s.applyRec r) s

/-- Highest WSN found on media. -/
def State.wsnFound (s : State) : Nat := max (s.media.journal.foldl (fun n e => max n e.wsn) 0) (s.media.copies.foldl (fun n c => max n c.wsn) 0)

/-! After the replay (R132, R135) -/

/-- Every open span and batch is closed; a batch without parity leaves its span unprotected, which R297 puts first (R138). -/
def State.closeSpans (s : State) : State :=
  s.modFlash fun f =>
    let t := f.spans.map fun e =>
      if e.2.phase ≠ .opened then e
      else
        let b := match tget s.media.lastSpans e.1 with
          | some x => x.batches
          | none => e.2.batches.map (·.left false)
        (e.1, { e.2 with phase := .closed, batches := b, closeSeq := f.closeSeq + 1, closeEpoch := s.place.epoch, scrubbed := s.now })
    { f with spans := t, closeSeq := f.closeSeq + 1, openSpan := [] }

/-- At a mount that is not clean every read-disturb count is raised by one eighth of its limit, rounded down (R304; assumption log 94). -/
def State.raiseReads (s : State) : State :=
  s.flash.spans.foldl (fun s e =>
    let lim := if e.2.dense then s.key4 0x0125 else s.key4 0x0126
    let s := e.2.members.foldl (fun s m => s.modBlock m.1 m.2 fun b => { b with reads := b.reads + lim / 8 }) s
    let r := e.2.members.foldl (fun r m => max r (s.block m.1 m.2).reads) 0
    s.modFlash fun f => { f with spans := tupd f.spans e.1 fun x =>
      { x with refreshDue := x.refreshDue || decide (lim ≤ r), urgent := x.urgent || decide (2 * lim ≤ r) } }) s

/-- A span that was rebuild-due only through a fence of a channel that is lifted is read directly again (R319). -/
def State.liftRebuild (s : State) : State :=
  let bad (m : Nat × Nat) : Bool := (s.die m.1).failed || (s.block m.1 m.2).retired || (tgetD s.flashIf.chans (m.1 / 32) {}).trainFence.isSome
  s.modFlash fun f => { f with spans := f.spans.map fun e => (e.1, { e.2 with rebuildDue := e.2.rebuildDue && e.2.members.any bad }) }

/-- Stacks opened and not closed are discarded; their bands are reset when the Rack tier next comes online (R135). -/
def State.closeStacks (s : State) : State :=
  s.rack.stackTab.foldl (fun s e =>
    if e.2.phase = .opened || e.2.phase = .opening || e.2.phase = .closing then
      (s.discardStack e.1).modStack e.1 fun x => { x with resetDue := true }
    else s) s

/-- The open spans of a clean root stay open (R128). -/
def State.reopenSpans (s : State) : State :=
  s.modFlash fun f => { f with openSpan := f.spans.foldl (fun t e => if e.2.phase = .opened && !e.2.mapArea then tput t (openKey e.2.tier e.2.slot) e.1 else t) [] }

/-- R136: record pages that neither the ladder nor die parity can read: event and fault for each, critical warning bit 2, and every active namespace
enters the deferred-error state with an entry of cause 8 for each page. -/
def State.noteLost (s : State) (r : Root) (lost : List (Nat × Nat)) : State :=
  lost.foldl (fun s p =>
    let sp := s.span p.1
    let seq := s.evt.nextSeq
    let loc := 2 ^ 3 * (if sp.mapArea then 1 else sp.tier.code) + 2 ^ 6 * 31 + 2 ^ 14 * p.1 + 2 ^ 38 * (32 * p.2)
    let s := ((s.note 0x3001 0 0 [loc]).fault 0x1E0 []).warnBit 2
    let e : DefEntry := { slba := BitVec.allOnes 64, units := 0, cause := 8, tier := BitVec.ofNat 2 (if sp.mapArea then 0 else sp.tier.code)
                          evSeq := seq, ts := BitVec.ofNat 64 r.ts, wsn := BitVec.ofNat 64 r.horizon }
    (s.nvme.nss.filter (·.2.attached)).foldl (fun s n => s.enterDeferred n.1 [e]) s) s

/-- Indices of the stream format table never written take the record of key 0x0301, where it passes the checks (R189). -/
def State.initialFormats (s : State) : State :=
  s.cfg.img.formats.foldl (fun s e =>
    if (tgetD s.coder.formats e.1 {}).written then s
    else
      let f := formatOfBytes e.2
      if f.valid && s.formatOk e.1 f (formatReserved e.2) then
        (s.modCoder fun c => { c with formats := tput c.formats e.1 f }).journal 1 0 (.side (.format e.1 f))
      else if f.valid then s.note 0x3003 0 0 [e.1]
      else s) s

/-- The map area's span limit: the smallest L that the sum of R287 does not pass, computed with the capacity that L leaves. -/
def State.mapLimitFor (s : State) : Nat :=
  let unit := 512 * s.fullData false
  let need (l : Nat) : Nat :=
    let cap := 512 * (s.bakeCapFor l * (100 - s.key2 0x0124) / 100 + s.rackCap)
    (if unit = 0 then 0 else ceilDiv (2 * (ceilDiv cap (131072 * 256) * 4104)) unit) + 2 + s.key2 0x0123
  ((List.range (need 0 + 1)).find? fun l => decide (need l ≤ l)).getD (need 0)

/-- Extended self-test time in minutes (R488). -/
def State.selfTestTime (s : State) : Nat :=
  let pf := (s.flash.spans.filter fun e => decide (e.2.phase = .closed)).foldl (fun n e => n + ceilDiv e.2.taken 32) 0
  let br := (s.rack.stackTab.filter fun e => decide (e.2.phase = .closed)).foldl (fun n e =>
    n + 4096 * s.bandSectors (e.1 % 2 ^ 23) * e.2.bands) 0
  let df := s.usableDies
  max 2 (ceilDiv ((if df = 0 then 0 else pf * 40000 / df) + br) (60 * sec))

/-! The event ring at a start (R604, R605) -/

/-- The newest records that fit into the ring, in order. -/
def newestFit : Nat → List Rec → List Rec
  | _, [] => []
  | room, r :: t => if r.len ≤ room then r :: newestFit (room - r.len) t else []

/-- Append a record that keeps its SEQ, with one gap record in place of the numbers missing before it. -/
def EvtSt.restore (e : EvtSt) (r : Rec) (t : Nat) : EvtSt :=
  let run := (r.seq - e.nextSeq).toNat
  let e := if run = 0 then e else e.append { id := 0x0007, args := [run], time := t } run
  e.append r

/-- The ring is filled from the mirror, the start record is written, and the staged records follow it. -/
def State.startRing (s : State) : State :=
  let m := s.evt.mirror
  let keep := (newestFit (ringEnd - ringBase - 0x1000) m.recs.reverse).reverse
  let t := s.time
  let boot := m.bootCount + 1
  let e0 : EvtSt := { s.evt with recs := [], head := ringBase, tail := ringBase, bootCount := boot, warns := m.warns, pend := [] }
  let (e1, last) := match keep with
    | [] => ({ e0 with firstSeq := 0, nextSeq := 0 }, 2 ^ 64 - 1)
    | r :: _ =>
      let e := keep.foldl (fun (e : EvtSt) x => e.restore x t) { e0 with firstSeq := r.seq, nextSeq := r.seq }
      let l := e.nextSeq - 1
      (e.append { id := 0x0007, args := [4095], time := t } 4095, l.toNat)
  let s := s.modEvt fun _ => { e1 with started := true }
  let s := (s.note 0x0001 0 0 [boot.toNat, last, s.ospi.prevFaults]).flushStaged
  (s.modFlt fun f => { f with recovTotal := m.recovTotal }).modOspi fun o => { o with prevFaults := 0 }

/-! Images in the staging area (R566) -/

/-- Images that the running set has in the staging area are copied into slot set A, and the other boot block is made to name them. -/
def State.copyStaged (s : State) : State :=
  if s.key2 0x0B03 = 1 && s.fw.runSlot = 2 && !s.fw.stagedCopy then
    let images := s.runningImages
    let b := !s.fw.bootB
    let s := s.writeSlotSet 1 images
    let dir := s.slotDirectory b 1 s.fw.running images
    ((s.prepareTwin b (s.blockSeq (!b) + 1) dir (tgetD images 1 [])).completeTwin b).modFw fun f => { f with stagedCopy := true }
  else s

/-! Mount -/

/-- Rebuild the map from a root and what is recorded above its horizon (R132). -/
def State.mountFrom (s : State) (r : Root) (lost : List (Nat × Nat)) : State :=
  let s := s.loadRoot r
  let wsn (s : State) : State := s.modMap fun m => { m with wsn := max s.wsnFound r.wsnHigh + 16777216 }
  let keys (s : State) : State :=
    let gens := s.nvme.nss.map fun e => (e.1 - 1, ({ gen := e.2.keyGen, loaded := true } : KeySlot))
    s.modFlash fun f => { f with keys := gens, keyGen := s.media.copies.foldl (fun n c => max n c.key) (gens.foldl (fun n e => max n e.2.gen) 0) }
  if r.clean then (keys (wsn s)).reopenSpans
  else
    let s := keys (wsn (s.replay r.horizon lost))
    let s := (s.noteLost r lost).closeSpans.closeStacks.raiseReads
    s.writeRoot (s.formRoot false s.ckHorizon)

/-- The map is paged when all map pages of the namespaces do not fit into seven-eighths of the DRAM (R129). Then none is resident after mount
(assumption log 29). -/
def State.pageMap (s : State) : State :=
  let pages := s.nvme.nss.foldl (fun n e => n + ceilDiv (e.2.nsze * lbaBytes e.2.flbas) (131072 * 256)) 0
  let paged := decide (s.dramGib * 2 ^ 30 * 7 / 8 < pages * 4096)
  s.modMap fun m => { m with
    paged := paged
    absent := if paged then ((m.map.map fun e => e.1 / 256).eraseDups).filter fun p => !m.spilled.contains p else [] }

/-- The structures that follow from the mounted map: heads and dies lost, the map area's limit, the Media Geometry page, wear and Knead state. -/
def State.afterMount (s : State) : State :=
  let heads := (List.range 24).filter fun f => bitAt (s.place.fenceHead.getD (f / 12) 0).toNat (f % 12)
  let s := s.modRack fun r => { r with lostHeads := heads.map fun f => (f / 12, f % 12) }
  let s := s.modFlashIf fun f => { f with dies := f.dies.map fun e => if s.place.fencedDies.contains e.1 then (e.1, { e.2 with failed := true }) else e }
  let s := s.modFlashIf fun f => { f with dies := f.dies.map fun e =>
    (e.1, { e.2 with retiredBlocks := (s.flash.blocks.filter fun b => b.1 / 2 ^ 22 == e.1 && b.2.retired).length }) }
  let s := s.liftRebuild
  let s := s.modFlash fun f => { f with mapLimit := s.mapLimitFor }
  let s := s.pageMap.initialFormats
  let s := s.modNvme fun n => { n with geoLog := s.mediaGeometry, edstt := s.selfTestTime }
  (s.spareUpdate.kneadUpdate).announceDeferred

/-- R132, R605: mount, once DRAM is in service, the sequencers are loaded and the channels initialised. `lost` lists the record pages (span, page) that
cannot be read. Blank media, which hold no root, give an empty map (assumption log 28). With only Rack copies of a root it waits for the Rack
tier, which it spins up (R125). -/
def execMount (lost : List (Nat × Nat)) (s : State) : Host.Outcome State Fault Refusal :=
  if s.fw.stage ≠ .core || s.seqs.base.isNone || !s.dram.inService || !(s.flashIf.chans.any (·.2.inited)) then .next s
  else
    let go (r : Root) : State :=
      let s := (s.mountFrom r lost).startRing
      let s := (s.afterMount.copyStaged).modMap fun m => { m with mounted := true }
      let s := s.modFw fun f => { f with stage := .mounted, coreReady := true, startDone := true }
      let s := if s.key2 0x0404 = 1 then s.demandSpin else s
      (s.modMedia fun m => { m with lastSpans := [] }).settle
    match s.flashRoot with
    | some r => .next (go r)
    | none => match s.rackCopy with
      | none => .next (go {})
      | some r => if s.rackOnline then .next (go r) else .next s.demandSpin

/-! CSTS.RDY (R486, R531, R561, R563, R590) -/

/-- The lowest SVN among the running BOOT, CORE, SEQ and SRV. -/
def State.lowestSvn (s : State) : Nat :=
  let l := (s.fw.running.filter fun e => e.1 != 5).map (·.2.svn)
  match l with
  | [] => 0
  | a :: t => t.foldl min a

/-- The customer key's digest is written to an empty key register when key 0x0A02 asks for it (R531). -/
def State.bindKey (s : State) : State :=
  if s.cfg.img.signed && s.key2 0x0A02 = 1 && s.cfg.digest = 0 then s.modCfg fun c => { c with digest := Config.sha384 (s.key 0x0A01) } else s

/-- What the first CSTS.RDY of a start does. -/
def State.firstReady (s : State) : State :=
  if s.fw.firstReady then s
  else
    let s := s.modFw fun f => { f with firstReady := true, svnFloor := max f.svnFloor s.lowestSvn }
    (s.modNvme fun n => { n with readyAt := some s.now }).bindKey

/-- A controller enabled during the safe state has waited as long as CAP.TO allows (R590). -/
def State.enableLate (s : State) : Bool := !s.nvme.rdy && s.nvme.enAt.any fun t => decide (t + 30 * sec ≤ s.now)

/-- CC.EN is set, the start is complete, nothing keeps the controller from becoming ready. -/
def State.mayReady (s : State) : Bool :=
  s.nvme.en && !s.nvme.rdy && !s.nvme.cfs && !s.enableLate && s.fw.startDone && !s.safeState && !s.pwr.pl.running && !(s.fw.act.any fun a => a.atEnable && a.trigger.isSome)

/-- CSTS.RDY rises where nothing keeps it low; CSTS.CFS is set instead where CAP.TO has passed in the safe state. -/
def State.becomeReady (s : State) : State :=
  if s.mayReady then (s.modNvme fun n => { n with rdy := true, enAt := none }).firstReady
  else if s.enableLate then s.modNvme fun n => { n with cfs := true } else s

/-- R563: CSTS.RDY rises once the start is complete and CC.EN is set. -/
def execControllerReady (s : State) : Host.Outcome State Fault Refusal := .next s.becomeReady

end Sys2Proof.Machine
end

