-- ==== Sys2Proof/Machine/Activation.lean ====
section
/-!
DEFINITION. Activation of a committed set: its trigger, its point, its steps, completion and revert (R573 to R578, R582).
-/
namespace Sys2Proof.Machine
open Sys2Proof

/-- R576: the comparison of ACT_TIME with the Timestamp. ARMED clears in the instant of the trigger. -/
def execActivationCompare (s : State) : Host.Outcome State Fault Refusal :=
  match s.fw.act with
  | some a =>
    if a.scheduled && a.trigger.isNone && s.nvme.tsBase.isSome && decide (s.fw.actTime.toNat ≤ s.stamp) && !s.pwr.pl.running then
      .next (s.modFw fun f => { f with armed := false, act := some { a with trigger := some s.now } })
    else .next s
  | none => .next s

/-- The pause ends: reaction timers and heartbeats continue from their values, and those that
began in the pause from its end; fetching resumes (R574 step 7, R582). -/
def State.endPause (s : State) (a : Activation) : State :=
  let on (t : Nat) : Nat := if t < a.began then t + (s.now - a.began) else s.now
  let s := s.modFlt fun t => { t with
    srcs := t.srcs.map fun e => if e.2.pending then (e.1, { e.2 with pendAt := on e.2.pendAt }) else e
    heart := t.heart.map fun e => (e.1, on e.2) }
  let s := s.modNvme fun n => { n with pp := false }
  let s := s.modCfg fun c => { c with swapBlockedAt := s.now }
  s.modFw fun f => { f with act := none, nextSlot := 0, coreReady := true }

/-- Sequencers run with modules again. -/
def State.reloadSeqs (s : State) (failed : List Nat) : State :=
  let s := s.loadSeqs (List.range 34) failed
  s.modSeqs fun x => { x with seqs := x.seqs.map fun e => (e.1, { e.2 with hold := false, state := if e.2.state = .held then .idle else e.2.state }) }

/-- The image in force becomes another one; the active profile is kept. Force bits clear when test mode locks (R532, R541, R591). -/
def State.switchImage (s : State) (img : Image) : State :=
  let open_ := img.unlocks s.cfg.factoryUid
  let s := s.modCfg fun c => { c with img := img, testMode := open_ }
  if open_ then s else s.modFlt fun t => { t with srcs := t.srcs.map fun e => (e.1, { e.2 with force := false }) }

/-- R574 steps 6 and 7: the twin's CRC word is programmed, protection moves to the new set, and the pause ends. -/
def State.finishActivation (s : State) (a : Activation) : State :=
  let b := !s.fw.bootB
  let s := s.completeTwin b
  let s := s.modFw fun f => { f with running := a.comps, other := f.running, runSlot := a.slot, bootB := b }
  let s := s.modOspi fun o => { o with aprot := s.setSectors b }
  let s := (s.endPause a).note 0x8001 0 0 [a.mask]
  let s := match a.stamp with | some st => s.complete st 0 0 | none => s
  s.becomeReady.settle

/-- R575: previous CORE, SEQ, SRV and profiles again, the twin cancelled, an event; an immediate commit completes with status 0x06. -/
def State.revertActivation (s : State) (a : Activation) : State :=
  let s := s.cancelTwin (!s.fw.bootB)
  let s := if bitAt a.mask 5 then s.switchImage a.oldImg else s
  let s := if bitAt a.mask 3 then
      (s.modSeqs fun x => { x with base := a.oldSeqs.base, patchMods := a.oldSeqs.patchMods, custom := a.oldSeqs.custom, overrides := a.oldSeqs.overrides }).reloadSeqs []
    else s
  let s := (s.endPause a).note 0x8002 0 0 [a.mask]
  let s := match a.stamp with | some st => s.complete st scInternal 0 | none => s
  s.becomeReady.settle

/-- A component of the new set differs from the running one. -/
def State.differs (s : State) (a : Activation) (c : Nat) : Bool := (tgetD a.comps c {}).version != (tgetD s.fw.running c {}).version

/-- The conditions of the activation point (R573). No checkpoint root write is in progress between two commands. -/
def State.mayActivate (s : State) : Bool := s.ospi.busy.all (·.isNone) && s.cfg.swap.isNone && !s.pwr.pl.running && !s.safeState

/-- Step 1 of R574: the notice, which has no log and so nothing that clears it (R515), and no fetching. A wait for the safe state is recorded (R573). -/
def State.beginPause (s : State) (a : Activation) : Activation × State :=
  let s := if a.delayed then s.note 0x8003 0 0 [(s.now - a.trigger.getD s.now) / ms] else s
  let mask := listMask ([2, 3, 4, 5].filter (s.differs a)) ||| 2
  let a := { a with step := .running, began := s.now, oldImg := s.cfg.img, oldSeqs := s.seqs, mask := mask }
  let s := s.modNvme fun n => { n with pp := true }
  let s := if bitAt mask 3 then s.modSeqs fun x => { x with seqs := x.seqs.map fun e => (e.1, ({ e.2 with hold := true } : SeqSt).restate) } else s
  (a, (if s.eventEnabled 2 1 0 then s.deliver 2 1 0 else s).modFw fun f => { f with act := some a })

/-- Steps 2 to 5 of R574, once every held sequencer has ended its contexts. -/
def State.runActivation (s : State) (a : Activation) (base : McuModule) (patches : List McuModule) (custom : Option McuModule) (failed : List Nat) : State :=
  if bitAt a.mask 3 && s.seqs.seqs.any (fun e => !e.2.ctxs.isEmpty) then s
  else
    let x := tgetD a.comps 5 {}
    let s := if bitAt a.mask 5 then
        match parseGarek (s.nvmBytes x.addr x.len) s.cfg.digest true (2 * s.ospi.bankSize) with
        | some img => ((s.switchImage img).noteImage img).note 0x2005 0 0 [b2n s.cfg.drainActive, Trigger.cfg.code]
        | none => s
      else s
    let s := if bitAt a.mask 3 then ((s.takeModules base patches (if s.cfg.img.present 0x0110 then custom else none)).reloadSeqs failed).takeOverrides else s
    if bitAt a.mask 2 then s.modFw fun f => { f with act := some { a with step := .coreWait }, coreReady := false } else s.finishActivation a

/-- R573, R574: the activation point. `base`, `patches`, `custom` and `failed` are the modules of a new SEQ component and the sequencers whose
SELFTEST fails. -/
def execActivationPoint (base : McuModule) (patches : List McuModule) (custom : Option McuModule) (failed : List Nat) (s : State) :
    Host.Outcome State Fault Refusal :=
  match s.fw.act with
  | none => .next s
  | some a =>
    if a.trigger.isNone || a.step = .coreWait then .next s
    else if a.step = .running then .next (s.runActivation a base patches custom failed)
    else if !s.mayActivate then
      .next (if s.safeState then s.modFw fun f => { f with act := some { a with delayed := true } } else s)
    else
      let (a, s) := s.beginPause a
      .next (s.runActivation a base patches custom failed)

/-- R574 steps 5 to 7: the new CORE reports ready. `ok`: the twin's CRC word is programmed and reads back; otherwise the activation reverts
(R575). -/
def execActivationCoreReady (ok : Bool) (s : State) : Host.Outcome State Fault Refusal :=
  match s.fw.act with
  | none => .next s
  | some a => if a.step ≠ .coreWait then .next s else .next (if ok && !s.safeState then s.finishActivation a else s.revertActivation a)

/-- R575: the new CORE does not report ready within 1,000 ms of step 5. -/
def execActivationStepTimeout (s : State) : Host.Outcome State Fault Refusal :=
  match s.fw.act with
  | none => .next s
  | some a => if a.step ≠ .coreWait then .next s else .next ((s.reach (a.began + sec)).revertActivation a)

end Sys2Proof.Machine
end

