-- ==== Sys2Proof/Machine/Copies.lean ====
section
/-!
DEFINITION. Copy steps and media upkeep as commands: epochs and the ageing sweep, evacuation, copies, Knead, retention and scrub
(R22, R32, R35, R46 to R51, R56, R293, R297, R302, R305, R307, R319).
-/
namespace Sys2Proof.Machine
open Sys2Proof

/-- R35 step 6: decay, and an age of 16,383 epochs or more reads exactly 16,383. -/
def execAgeingSweepVisit (nsid lcn : Nat) (s : State) : Host.Outcome State Fault Refusal :=
  let d := s.decay (s.desc nsid lcn)
  let d := if s.age d ≥ 16383 then { d with we := BitVec.ofNat 16 (s.place.epoch.toNat % 65536 + 65536 - 16383) } else d
  .next (if d = s.desc nsid lcn then s else s.putDesc nsid lcn d)

/-- A chunk is up for the choice of R48: valid, in a span under evacuation, in a migration candidate, or drained out of Bake. -/
def State.upForChoice (s : State) (nsid lcn : Nat) : Bool :=
  let d := s.desc nsid lcn
  let l := s.payloadLoc d
  decide (d.state = .mapped) && !s.copying nsid lcn && !s.queued nsid lcn &&
    !(s.place.waitEvac.any fun w => w.2.src.tier == l.tier && w.2.src.span == l.span) &&
    ((decide (l.tier = .proof) && s.place.evacuating.any fun e => e.2 == l.span) || s.migrationSpan l.span ||
     (decide (l.tier = .bake) && decide ((s.span l.span).phase = .closed) && s.inHint .drain nsid lcn))

/-- evacuate(c) of R48 for a classified chunk. -/
def State.carryOut (s : State) (nsid lcn : Nat) (d : Desc) : State :=
  match s.choose nsid lcn d with
  | .keep => s.startCopy .keep nsid lcn
  | .fold => s.startCopy .fold nsid lcn
  | .stay => s
  | .migrate =>
    let proof := decide ((s.payloadLoc d).tier = .proof)
    match s.chooseActuator nsid lcn with
    | none => if proof then s.startCopy .fold nsid lcn else s
    | some a =>
      let m := s.migItem nsid lcn d false
      if s.queueBytes a + 512 * m.crumbs ≤ s.queueLimit then s.enqueue a m
      else if proof && s.proofBelow (s.key2 0x0211) then s.startCopy .fold nsid lcn
      else s.modPlace fun p => { p with waitEvac := p.waitEvac ++ [(a, m)] }

/-- R46 to R48, R50: the engine takes its decision for one chunk. -/
def execEvacuationChoice (nsid lcn : Nat) (s : State) : Host.Outcome State Fault Refusal :=
  let s := s.evalEmergency.evalEvacuation.evalMigration
  if s.flowsPaused || !s.upForChoice nsid lcn then .next s
  else
    let d := s.classify (s.desc nsid lcn)
    .next ((s.putDesc nsid lcn d).carryOut nsid lcn d)

/-- R48: the first chunk that waits for an actuator's queue is queued once it fits; one that has changed is dropped. -/
def execMigrationQueueRoom (act : Nat) (s : State) : Host.Outcome State Fault Refusal :=
  match s.place.waitEvac.find? fun w => w.1 == act with
  | none => .next s
  | some w =>
    let rest (s : State) : State := s.modPlace fun p => { p with waitEvac := p.waitEvac.erase w }
    if !s.names (s.desc w.2.nsid w.2.lcn) w.2.src then .next (rest s)
    else if s.queueBytes act + 512 * w.2.crumbs ≤ s.queueLimit then .next ((rest s).enqueue act w.2) else .next s

/-- R22, R56, R304, R308: a copy's source read ends. `bits` is the most bits corrected, `ladder` that step 3 or 4 was needed, `lost`
the units that the whole ladder could not recover. A source that the map no longer names ends the step. -/
def execCopySourceReadEnd (copy : Nat) (good ladder : Bool) (bits lost : Nat) (s : State) : Host.Outcome State Fault Refusal :=
  match s.copy? copy with
  | none => .next s
  | some c =>
    let d := s.desc c.nsid c.lcn
    if c.phase ≠ .reading || s.flowsPaused then .next s
    else if !s.names d c.src then .next ((s.endCopy copy).releaseEmpty)
    else
      let s := s.countReads c.src.span (s.blocksOf c.src)
      if !good then .next ((s.endCopy copy).loseSource c.nsid c.lcn lost c.kind.cause c.src)
      else
        let s := if ladder || bits ≥ s.key2 0x012E then s.flagRefresh c.src.span else s
        let (pay, units, key) := s.carry d
        let c := { c with payload := pay, units := BitVec.ofNat 32 units, key := key }
        .next ((s.modCopy copy fun _ => c).placeCopy c)

/-- R22, R293, R317: the read-verify of a programmed copy ends. A pass puts the copy on media and forms its MOVE; a failure is a
program failure of the target member page-group `member`. -/
def execCopyReadVerifyEnd (copy : Nat) (good : Bool) (bits member : Nat) (s : State) : Host.Outcome State Fault Refusal :=
  match s.copy? copy with
  | none => .next s
  | some c =>
    if c.phase ≠ .verifying then .next s
    else if good && bits < s.key2 0x012E then
      let s := s.modMedia fun m => { m with
        copies := m.copies ++ [{ wsn := c.wsn, nsid := c.nsid, lcn := c.lcn, key := c.key, loc := c.dst, payload := c.payload, units := c.units }] }
      let (w, s) := s.unclean.jform c.nsid c.lcn (.move c.src c.dst)
      .next (s.modCopy copy fun c => { c with phase := .journalling, moveWsn := w })
    else
      let sp := s.span c.dst.span
      let m := sp.members.getD (memberPos sp.members.length c.batch member) (0, 0)
      let (w, s) := s.memberFailed m.1 m.2
      .next ((((s.modCopy copy fun c => { c with phase := .reading, wsn := 0 }).redoGroup c.dst.span c.batch member (some w)).modSpan c.dst.span
        fun x => { x with rebuildDue := true }).settle)

/-- R296 to R298, R302, R308: Knead takes the next span: a span with no valid chunk is released, every valid chunk of another is copied
into the open span of its slot in the same tier. -/
def execKneadSpanSelection (s : State) : Host.Outcome State Fault Refusal :=
  let s := s.flagWear.kneadUpdate
  if s.flowsPaused then .next s
  else match s.kneadPick with
    | none => .next s
    | some n =>
      let sp := s.span n
      let kind : CopyKind := if sp.priority = 0 || sp.priority = 3 then .refresh else if sp.priority ≤ 2 then .rebuild else .knead
      let s := s.modFlash fun f => { f with kneadSpans := if f.kneadSpans.contains n then f.kneadSpans else f.kneadSpans ++ [n] }
      .next (((s.chunksIn sp.tier n).foldl (fun s c => if s.copying c.1 c.2 then s else s.startCopy kind c.1 c.2) s).releaseEmpty)

/-- Weight of a flash temperature band, in half hours (R305). -/
def bandWeight (b : Nat) : Nat := [1, 2, 8, 32, 128].getD b 128

/-- R305: one hour of powered time ages every closed span by the weight of the hottest band among its members' dies. -/
def execRetentionAgeUpdate (s : State) : Host.Outcome State Fault Refusal :=
  let s := s.reach (s.flash.retainedAt + hour)
  let age (x : SpanSt) : SpanSt :=
    let b := x.members.foldl (fun b m => max b (s.therm.bandFlash.getD (m.1 / 128) 1)) 0
    let a := x.age + bandWeight b
    { x with age := a, refreshDue := x.refreshDue || decide (2 * s.keyN 0x0127 (if x.dense then 0 else 4) 4 ≤ a) }
  .next ((s.modFlash fun f => { f with retainedAt := s.now, spans := f.spans.map fun e => if e.2.phase = .closed then (e.1, age e.2) else e }).spareUpdate)

/-- R307: scrub reads a record page of a closed span, on the block of member `member`. `lost` units of chunk (nsid, lcn) that the whole
ladder cannot recover enter the deferred-error flow with cause 7; `last` ends the pass. -/
def execScrubRead (span member bits : Nat) (ladder : Bool) (nsid lcn lost : Nat) (last : Bool) (s : State) : Host.Outcome State Fault Refusal :=
  let sp := s.span span
  if sp.phase ≠ .closed || s.flowsPaused then .next s
  else
    let s := s.countReads span [sp.members.getD member (0, 0)]
    let s := if ladder || bits ≥ s.key2 0x012E then s.flagRefresh span else s
    let d := s.desc nsid lcn
    let l := s.payloadLoc d
    let s := if lost ≠ 0 && d.state = .mapped && l.tier = sp.tier && l.span = span then s.loseSource nsid lcn lost 7 l else s
    .next (if last then s.modSpan span fun x => { x with scrubbed := s.now, scrubSoon := false } else s)

/-- R319: a training-failure fence has lasted 10 minutes of powered time: spans with a member on the channel are rebuild-due. -/
def execChannelFenceRebuildTimeout (ch : Nat) (s : State) : Host.Outcome State Fault Refusal :=
  match (tgetD s.flashIf.chans ch {}).trainFence with
  | none => .next s
  | some t =>
    let s := s.reach (t + 600 * sec)
    .next (s.modFlash fun f => { f with spans := f.spans.map fun e =>
      if (e.2.phase = .opened || e.2.phase = .closed) && e.2.members.any fun m => m.1 / 32 == ch then (e.1, { e.2 with rebuildDue := true }) else e })

end Sys2Proof.Machine
end

