-- ==== Sys2Proof/Machine/Fetch.lean ====
section
/-!
DEFINITION. The NVMe front end: doorbells, interrupt masks, arbitration, and the fetch of a command with the checks that are made
at fetch (R65 to R72, R96, R97, R459, R463, R485, R492 to R495, R498, R516, R620, R670).
-/
namespace Sys2Proof.Machine
open Sys2Proof

/-- Memory requests to the BARs are answered: Memory Space Enable 1, D0, no reset in progress (R470, R478, R479). -/
def State.memOpen (s : State) : Bool := s.pcie.memEn && decide (s.pcie.dstate = .d0) && s.pcie.crs.isNone

/-! Doorbells and interrupt masks -/

/-- A submission queue tail doorbell makes entries available and starts their fetch; it is ignored while the controller is not ready, for a queue
that does not exist, and once the power-fail line is asserted. -/
def State.ringSq (s : State) (qid tail : Nat) : State :=
  match tget s.nvme.sqs qid with
  | none => s
  | some q =>
    if !s.memOpen || !s.nvme.en || s.pwr.pl.running || tail ≥ q.size || tail = q.tail then s
    else
      let s := s.modNvme fun n => { n with sqs := tput n.sqs qid { q with tail := tail } }
      let busy := s.pcie.outstanding.any (fun r => decide (r.kind = .sqFetch qid)) || s.pcie.waitReads.any fun r => decide (r.1 = .sqFetch qid)
      if busy || s.pcie.fetchDead then s else s.issueRead (.sqFetch qid) (q.base + 64 * q.head) 64

/-- A completion queue head doorbell frees entries; completions that waited for room are posted. -/
def State.ringCq (s : State) (qid head : Nat) : State :=
  match tget s.nvme.cqs qid with
  | none => s
  | some q =>
    if !s.memOpen || !s.nvme.en || s.pwr.pl.running || head ≥ q.size then s
    else (s.modNvme fun n => { n with cqs := tput n.cqs qid { q with head := head } }).flushCqes.settle

/-- INTMS masks pin-based interrupts. -/
def State.setIntMask (s : State) (mask : Dword) : State := s.modNvme fun n => { n with intms := n.intms ||| mask }

/-- INTMC unmasks; an interrupt that waits is then signalled. -/
def State.clearIntMask (s : State) (mask : Dword) : State :=
  let was := bitAt s.nvme.intms.toNat 0
  let s := s.modNvme fun n => { n with intms := n.intms &&& ~~~mask }
  if was && !bitAt s.nvme.intms.toNat 0 && s.pcie.intxSts && !s.pcie.msixEn && !s.pcie.intxDis && s.canMaster then s.tlp .intx else s

/-- R459, R483. -/
def execSubmissionQueueDoorbell (qid tail : Nat) (s : State) : Host.Outcome State Fault Refusal := .next (s.ringSq qid tail)

/-- R459. -/
def execCompletionQueueDoorbell (qid head : Nat) (s : State) : Host.Outcome State Fault Refusal := .next (s.ringCq qid head)

/-- R485. -/
def execInterruptMaskSet (mask : Dword) (s : State) : Host.Outcome State Fault Refusal :=
  if s.memOpen then .next (s.setIntMask mask) else .next s

/-- R485. -/
def execInterruptMaskClear (mask : Dword) (s : State) : Host.Outcome State Fault Refusal :=
  if s.memOpen then .next (s.clearIntMask mask) else .next s

/-- R87, R492: the aggregation time of a completion queue expires and its message goes. -/
def execInterruptAggregationTimeout (qid : Nat) (s : State) : Host.Outcome State Fault Refusal :=
  match tget s.nvme.cqs qid with
  | none => .next s
  | some q =>
    if q.aggr = 0 then .next s
    else .next ((s.modNvme fun n => { n with cqs := tput n.cqs qid { q with aggr := 0 } }).fireVector q.vector)

/-! Arbitration (R71, R500). The ingest sources are the additional queue 65,536. -/

/-- The ingest queue. -/
def ingestQid : Nat := 65536

/-- The queues with a command to fetch, in ascending order. -/
def State.readyQueues (s : State) : List Nat :=
  (s.nvme.sqs.filter fun e => e.2.head != e.2.tail && e.2.deleting.isNone).map (·.1) ++ (if s.host.ingestQ.isEmpty then [] else [ingestQid])

/-- The arbitration burst: 2^AB commands, or none for 7. -/
def State.burst (s : State) : Option Nat := let ab := bits s.nvme.arb.toNat 0 3; if ab = 7 then none else some (2 ^ ab)

/-- Round robin over queues after the one last chosen. -/
def rrNext (last : Nat) (qs : List Nat) : Option Nat :=
  match qs.find? fun q => decide (last < q) with
  | some q => some q
  | none => qs.head?

/-- Class of a queue under weighted round robin: 0 urgent, 1 high, 2 medium, 3 low; ingest is high (R71). -/
def State.queueClass (s : State) (q : Nat) : Nat := if q = ingestQid then 1 else (tgetD s.nvme.sqs q {}).prio

/-- Weight of a class: high, medium, low from the Arbitration feature, plus 1. -/
def State.classWeight (s : State) (c : Nat) : Nat := bits s.nvme.arb.toNat (if c = 1 then 24 else if c = 2 then 16 else 8) 8 + 1

/-- The class that weighted round robin serves: the first in order high, medium, low with commands and credit; the credits are
refilled when none has both. Answers the class and the credits. -/
def State.wrrClass (s : State) (qs : List Nat) : Option (Nat × List Nat) :=
  let has (c : Nat) : Bool := qs.any fun q => s.queueClass q == c
  let pick (cr : List Nat) : Option Nat := [1, 2, 3].find? fun c => has c && decide (0 < cr.getD (c - 1) 0)
  match pick s.host.arbCredit with
  | some c => some (c, s.host.arbCredit)
  | none =>
    let cr := [s.classWeight 1, s.classWeight 2, s.classWeight 3]
    (pick cr).map fun c => (c, cr)

/-- The queue that arbitration chooses, with the state of the arbiter after the choice (R71). -/
def State.arbitrate (s : State) : Option (Nat × State) :=
  let qs := s.readyQueues
  let stay : Bool := decide (0 < s.host.arbLeft) && qs.contains s.host.arbLast
  let set (q left : Nat) (cr : List Nat) : Nat × State := (q, s.modHost fun h => { h with arbLast := q, arbLeft := left, arbCredit := cr })
  let len : Nat := match s.burst with | some b => b - 1 | none => 2 ^ 32
  if s.nvme.ams = 1 && qs.contains 0 then some (set 0 0 s.host.arbCredit)
  else if s.nvme.ams = 1 then
    let urgent := qs.filter fun q => s.queueClass q == 0
    if !urgent.isEmpty then
      if stay && urgent.contains s.host.arbLast then some (set s.host.arbLast (s.host.arbLeft - 1) s.host.arbCredit)
      else (rrNext s.host.arbLast urgent).map fun q => set q len s.host.arbCredit
    else match s.wrrClass qs with
      | none => none
      | some (c, cr) =>
        let cand := qs.filter fun q => s.queueClass q == c
        let cr' := cr.set (c - 1) (cr.getD (c - 1) 0 - 1)
        if stay && cand.contains s.host.arbLast then some (set s.host.arbLast (s.host.arbLeft - 1) cr')
        else (rrNext s.host.arbLast cand).map fun q => set q len cr'
  else if stay then some (set s.host.arbLast (s.host.arbLeft - 1) s.host.arbCredit)
  else (rrNext s.host.arbLast qs).map fun q => set q len s.host.arbCredit

/-! Checks made at fetch -/

/-- Transfer length of an I/O command in bytes. -/
def ioBytes (lba op : Nat) (cdw : List Dword) : Nat :=
  if op = 0x01 || op = 0x02 || op = 0x05 then (bits (cdw.getD 2 0).toNat 0 16 + 1) * lba
  else if op = 0x86 then (cdw.getD 3 0).toNat
  else if op = 0x8A then 16 * (bits (cdw.getD 2 0).toNat 0 12 + 1)
  else if op = 0x09 then 16 * (bits (cdw.getD 0 0).toNat 0 8 + 1)
  else 0

/-- SGL of a command: Data Block, Segment and Last Segment only, of the transfer length (R495). -/
def sglStatus (sgl : List (Nat × Nat)) (len : Nat) : Nat :=
  if sgl.any fun d => d.1 != 0 && d.1 != 2 && d.1 != 3 then 0x11
  else if !sgl.isEmpty && ((sgl.filter fun d => d.1 == 0).foldl (fun n d => n + d.2) 0) != len then 0x0F else 0

/-- Status with which an I/O command of a namespace is turned away by its dwords, 0 for none (R60, R66, R209, R494, R495, R670). -/
def State.ioStatus (s : State) (n : NsEntry) (q : Sqe) (ranges : List (Nat × Nat)) : Nat :=
  let op := q.opcode.toNat
  let k := n.blocksPerLba
  let slba := slbaOf q.cdw
  let d12 := (q.cdw.getD 2 0).toNat
  let d13 := (q.cdw.getD 3 0).toNat
  let lastChunk := (slba * k / chunkBlocks + bits d12 0 12) * chunkBlocks / k
  if op = 0x86 && s.key2 0x0303 = 0 then scInvalidOpcode
  else if q.fuse ≠ 0 then scInvalidField
  else if op = 0x86 && (slba * k % chunkBlocks ≠ 0 || d13 % 4 ≠ 0 || d13 < 131104 || d13 > 8388608 || bits d12 12 20 ≠ 0) then scInvalidField
  else if op = 0x8A && bits d12 12 20 ≠ 0 then scInvalidField
  else if (op = 0x86 || op = 0x8A) && lastChunk ≥ n.nsze then scLbaRange
  else if hasRange op && slba + bits d12 0 16 + 1 > n.nsze then scLbaRange
  else if op = 0x09 && ranges.any (fun r => r.1 + r.2 > n.nsze) then scLbaRange
  else if ioBytes (lbaBytes n.flbas) op q.cdw > 8388608 then scInvalidField
  else sglStatus q.sgl (ioBytes (lbaBytes n.flbas) op q.cdw)

/-- Features with a meaning here (R500, R502 to R507). -/
def featureKnown (f : Nat) : Bool := [0x01, 0x02, 0x04, 0x05, 0x07, 0x08, 0x09, 0x0A, 0x0B, 0x0E, 0x10, 0xC0, 0xC1, 0xC2, 0xC3, 0xC4, 0xC5].contains f

/-- Status with which an admin command is turned away by its opcode or its selector, 0 for none (R491, R493, R495 to R500, R511). -/
def adminStatus (op : Nat) (cdw : List Dword) (sgl : List (Nat × Nat)) : Nat :=
  let d10 := (cdw.getD 0 0).toNat
  let d11 := (cdw.getD 1 0).toNat
  if !adminSupported op then scInvalidOpcode
  else if !sgl.isEmpty then scInvalidField
  else if (op = 0x09 || op = 0x0A) && !featureKnown (bits d10 0 8) then scInvalidField
  else if op = 0x02 && !([0x00, 0x01, 0x02, 0x03, 0x04, 0x05, 0x06, 0x81, 0xC0, 0xC1, 0xC2, 0xC3, 0xC4, 0xC5, 0xC6].contains (bits d10 0 8)) then scInvalidField
  else if op = 0x06 && !([0x00, 0x01, 0x02, 0x03, 0x05, 0x06, 0x10, 0x11, 0x12, 0x13].contains (bits d10 0 8)) then scInvalidField
  else if (op = 0x0D || op = 0x15) && bits d10 0 4 > 1 then scInvalidField
  else if op = 0x14 && bits d10 0 4 ≠ 1 && bits d10 0 4 ≠ 2 && bits d10 0 4 ≠ 0xF then scInvalidField
  else if op = 0x84 && bits d10 0 3 ≠ 1 && bits d10 0 3 ≠ 2 && bits d10 0 3 ≠ 4 then scInvalidField
  else if op = 0x10 && bits d10 3 3 > 3 then scInvalidField
  else if op = 0x19 && !([(0, 1), (1, 1), (1, 2)].contains (bits d11 8 8, bits d11 0 8)) then scInvalidField
  else if op = 0x1A && !([(0, 1), (1, 1), (1, 2), (1, 3)].contains (bits d11 8 8, bits d11 0 8)) then scInvalidField
  else 0

/-- Write-class I/O commands. -/
def ioWrites (op : Nat) (cdw : List Dword) : Bool := op == 0x01 || op == 0x08 || (op == 0x09 && bitAt (cdw.getD 1 0).toNat 2)

/-! Streams that open implicitly (R34, R499) -/

/-- Stream records that serve no identifier. -/
def State.freeStream? (s : State) : Option Nat :=
  (List.range (s.place.streams.length + 1)).find? fun i => decide (i < 4096) && !((tgetD s.place.streams i {}).bind).isSome

/-- Open an identifier of a namespace, if it is not open and a record is free: EST starts at key 0x0207. -/
def State.openStream (s : State) (nsid id : Nat) : State :=
  if s.place.streams.any fun e => e.2.bind == some (nsid, id) then s
  else match s.freeStream? with
    | some i => s.modPlace fun p => { p with streams := tput p.streams i { est := BitVec.ofNat 32 (s.key4 0x0207), bind := some (nsid, id) } }
    | none => s

/-! Fetch -/

/-- Free tracker entries (R67). -/
def State.trackerFree (s : State) : Nat := 524288 - s.contexts.foldl (fun n c => n + c.ents.length) 0

/-- Nothing may be fetched: not ready, no requests may leave, safe state, activation pause, shutdown, a dead fetch, or a stall. -/
def State.fetchBlocked (s : State) : Bool :=
  !s.nvme.rdy || !s.canMaster || s.safeState || s.nvme.pp || decide (s.nvme.shn ≠ 0) || s.pcie.fetchDead || s.host.stalled.isSome || s.pwr.limFetch

/-- Give a context its stamp and let it into the tracker: open versions that it closes are sealed, and what can go on does
(R70, R80, R81). -/
def State.letIn (s : State) (c : Ctx) : State :=
  ((s.modHost fun h => { h with ctxs := h.ctxs ++ [c], lastStamp := c.stamp }).sealFor c).settle

/-- Admin commands that order something of a named object: its opcodes (R520). -/
def orders (op : Nat) : Bool := [0x09, 0x10, 0xC0, 0xC4, 0xC8].contains op

/-- A host order reaches the arbitration cycle (R520). -/
def State.noteOrder (s : State) (c : Ctx) : State :=
  if orders c.opcode.toNat then
    s.modNvme fun n => { n with cycle := n.cycle ++ [{ host := true, op := c.opcode, nsid := c.nsid, cdw := c.cdw, tag := c.stamp }] }
  else s

/-- In PS3 and PS4 an I/O command returns the device to the last operational state that the host set (R516). -/
def State.wake (s : State) : State :=
  if s.pwr.ps ≥ 3 then ((s.modPwr fun p => { p with ps := s.nvme.lastOper }).retuneOp).sendLtr (ltrUs s.nvme.lastOper) else s

/-- A namespace's first I/O command while REPORTED is 0: REPORTED becomes 1 (R96 step 5). -/
def State.deferredHit (s : State) (nsid : Nat) : Bool := let d := tgetD s.host.deferred nsid {}; d.inState && !d.reported
def State.reportDeferred (s : State) (nsid : Nat) : State :=
  let d := { tgetD s.host.deferred nsid {} with reported := true }
  (s.modHost fun h => { h with deferred := tput h.deferred nsid d }).journal nsid 0 (.side (.deferred nsid d))

/-- The context of a fetched command. -/
def State.newCtx (s : State) (origin : Origin) (q : Sqe) (ranges : List (Nat × Nat)) (wins : List (Nat × Nat × Nat)) (admin : Bool) : Ctx :=
  let op := q.opcode.toNat
  let nsid := q.nsid.toNat
  let n := (s.ns? nsid).getD {}
  let ents := if admin then [] else mergeEnts ((ioBlocks n op q.cdw ranges).flatMap fun r => chunkEnts nsid r.1 r.2)
  let cls := if admin then adminClass op (q.cdw.getD 0 0).toNat else ioClass op ents.length
  { stamp := s.host.lastStamp + 1, origin := origin, opcode := q.opcode, nsid := nsid, slba := slbaOf q.cdw
    nlb := bits (q.cdw.getD 2 0).toNat 0 16 + 1, prp := q.prp, cdw := q.cdw, cls := cls
    ents := if cls = .barrier then [] else ents, wins := wins, ranges := if cls = .barrier then ioBlocks n op q.cdw ranges else [] }

/-- The status with which a fetched I/O command is turned away, 0 for none: opcode, sanitize, namespace, deferred error, dwords,
read-only mode. -/
def State.ioReject (s : State) (q : Sqe) (ranges : List (Nat × Nat)) : Nat :=
  let op := q.opcode.toNat
  let nsid := q.nsid.toNat
  if !ioSupported op then scInvalidOpcode
  else if s.nvme.sanitize = 2 then 0x1D
  else if s.nvme.sanFailed then 0x1C
  else if op = 0 && nsid = 0xFFFFFFFF then 0
  else if !s.nsActive nsid then scInvalidNs
  else if s.deferredHit nsid then vendor 0xC0
  else
    let st := s.ioStatus ((s.ns? nsid).getD {}) q ranges
    if st ≠ 0 then st else if s.flash.readOnly && ioWrites op q.cdw then 0x20 else 0

/-- The old window of a Stream Format Set and the new one that its data names (R188). -/
def State.setWindows (s : State) (q : Sqe) (wins : List (Nat × Nat × Nat)) : List (Nat × Nat × Nat) :=
  let f := tgetD s.coder.formats (bits (q.cdw.getD 1 0).toNat 0 8) {}
  if q.opcode.toNat = 0x09 && bits (q.cdw.getD 0 0).toNat 0 8 = 0xC0 then
    wins ++ (if f.valid then [(f.nsid.toNat, f.firstChunk (lbaBytes ((s.ns? f.nsid.toNat).getD {}).flbas), f.chunks.toNat)] else [])
  else wins

/-- What a fetched command starts at once: data fetches of a write or a compare, ranges of Dataset Management (R471), and an
identifier that it opens (R499). -/
def State.startFetched (s : State) (c : Ctx) : State :=
  let op := c.opcode.toNat
  let n := (s.ns? c.nsid).getD {}
  let s := if c.isIo && op = 0x01 && bits (c.dw 12) 20 4 = 1 && bits (c.dw 13) 16 16 ≠ 0 then s.openStream c.nsid (bits (c.dw 13) 16 16) else s
  if c.isIo && (op = 0x01 || op = 0x05 || op = 0x09) then s.issueRead (.data c.stamp) c.prp (ioBytes (lbaBytes n.flbas) op c.cdw) else s

/-- R67, R68, R70, R71: the front end fetches the next command of the queue that arbitration chooses, with the entry read from host
memory, the ranges of Dataset Management as (LBA, LBAs), and the window that a Stream Format record names. Without a free context or enough
tracker entries it stalls on that command and stamps nothing. -/
def execCommandFetch (qid : Nat) (sqe : Sqe) (ranges : List (Nat × Nat)) (window : List (Nat × Nat × Nat)) (s : State) :
    Host.Outcome State Fault Refusal :=
  if s.fetchBlocked || qid = ingestQid then .next s
  else match s.arbitrate with
    | none => .next s
    | some (q0, arb) =>
      if q0 ≠ qid then .next s
      else
        let q := tgetD s.nvme.sqs qid {}
        let admin := decide (qid = 0)
        let c := s.newCtx (.sq qid sqe.cid) sqe ranges (s.setWindows sqe window) admin
        if s.contexts.length ≥ 65536 || c.ents.length > s.trackerFree then .next (s.modHost fun h => { h with stalled := some c.ents.length })
        else
          let s := (arb.dropReq (.sqFetch qid)).modNvme fun n => { n with sqs := tput n.sqs qid { q with head := (q.head + 1) % q.size } }
          let s := if (q.head + 1) % q.size ≠ q.tail then s.issueRead (.sqFetch qid) (q.base + 64 * ((q.head + 1) % q.size)) 64 else s
          let dup := s.contexts.any fun x => x.origin == .sq qid sqe.cid
          let stamped := s.modHost fun h => { h with lastStamp := c.stamp }
          if dup then .next (stamped.answer c scIdConflict 0)
          else if admin then
            let st := adminStatus sqe.opcode.toNat sqe.cdw sqe.sgl
            if st ≠ 0 then .next (stamped.answer c st 0) else .next ((s.noteOrder c).letIn c)
          else
            let st := s.ioReject sqe ranges
            let hit := decide (st = vendor 0xC0)
            if st ≠ 0 then .next ((if hit then stamped.reportDeferred sqe.nsid.toNat else stamped).answer c st 0)
            else .next (((s.wake).letIn c).startFetched c)

/-- R67: fetching resumes with the command that stalled, once a context and the entries that it needs are free. -/
def execFetchResume (s : State) : Host.Outcome State Fault Refusal :=
  match s.host.stalled with
  | none => .next s
  | some n => if s.contexts.length < 65536 && n ≤ s.trackerFree then .next (s.modHost fun h => { h with stalled := none }) else .next s

end Sys2Proof.Machine
end

