-- ==== Sys2Proof/Machine/Peel.lean ====
section
/-!
DEFINITION. Peel channels: start, stop and resume, descriptors and their acceptance, source reads and unpacking, retirement, halts,
Bus Master Enable and resets (R145 to R172).
-/
namespace Sys2Proof.Machine
open Sys2Proof

/-- A channel; a change of it. -/
def State.peelCh (s : State) (n : Nat) : PeelCh := tgetD s.win.peel n {}
def State.modPeel (s : State) (n : Nat) (f : PeelCh → PeelCh) : State := s.modWin fun w => { w with peel := tmod w.peel n {} f }

/-- WIN.STATUS.READY: CSTS.RDY is 1 and no shutdown is in progress (R145). -/
def State.winReady (s : State) : Bool := s.nvme.rdy && decide (s.nvme.shn = 0)

/-! The ingest queue of arbitration (R71, R155) -/

/-- A source that waits to be accepted joins the ingest queue once. -/
def State.offer (s : State) (x : IngestItem) : State :=
  s.modHost fun h => if h.ingestQ.contains x then h else { h with ingestQ := h.ingestQ ++ [x] }

/-- A source leaves the ingest queue. -/
def State.withdraw (s : State) (x : IngestItem) : State := s.modHost fun h => { h with ingestQ := h.ingestQ.filter (· != x) }

/-- A channel with a checked descriptor and room for it waits to be accepted (R155). -/
def State.offerPeel (s : State) (ch : Nat) : State :=
  let p := s.peelCh ch
  if p.state = .run && p.ready.isSome && p.jobs.length ≤ p.inflight.toNat then s.offer (.peel ch) else s

/-- Nothing may be accepted: not ready, safe state, an activation pause, a power-loss sequence, a dead fetch, a stall or the budget governor (R624). -/
def State.ingestBlocked (s : State) : Bool :=
  !s.nvme.rdy || s.pwr.pl.running || s.safeState || s.nvme.pp || s.pcie.fetchDead || s.host.stalled.isSome || s.pwr.limFetch

/-- A push slot, as opposed to a Peel channel. -/
def IngestItem.isPush : IngestItem → Bool
  | .push _ => true
  | .peel _ => false

/-- The state after arbitration has chosen an ingest source, if it chooses that one. While a shutdown runs or Bus Master Enable is 0
nothing but commit records is accepted (R168, R183, R477). -/
def State.ingestTurn (s : State) (x : IngestItem) : Option State :=
  let only := decide (s.nvme.shn ≠ 0) || !s.canMaster
  let q := if only then s.host.ingestQ.filter IngestItem.isPush else s.host.ingestQ
  if s.ingestBlocked || q.head? ≠ some x then none
  else if only then some s
  else match s.arbitrate with
    | some (q, s) => if q = ingestQid then some s else none
    | none => none

/-- The status with which a write of an ingest source is turned away, 0 for none: R154, R498 and read-only mode; the deferred error
comes first of what follows the namespace check, as for other I/O commands (R96, log 30). -/
def State.ingestStatus (s : State) (nsid slba len : Nat) (fmtBad : Bool) : Nat :=
  let n := (s.ns? nsid).getD {}
  let lba := lbaBytes n.flbas
  if s.nvme.sanitize = 2 then 0x1D
  else if s.nvme.sanFailed then 0x1C
  else if !s.nsActive nsid then scInvalidNs
  else if s.deferredHit nsid then vendor 0xC0
  else if len % lba ≠ 0 then scInvalidField
  else if slba + len / lba > n.nsze then scLbaRange
  else if fmtBad then vendor 0xC3
  else if s.flash.readOnly then 0x20 else 0

/-- The context of a write from an ingest source, with its tracker entries. -/
def State.ingestCtx (s : State) (origin : Origin) (nsid slba len : Nat) : Ctx :=
  let n := (s.ns? nsid).getD {}
  let b := slba * n.blocksPerLba
  { stamp := s.host.lastStamp + 1, origin := origin, opcode := 1, nsid := nsid, slba := slba, nlb := len / lbaBytes n.flbas
    cls := .write, ents := chunkEnts nsid b (b + len / 512) }

/-- Stamp a write of an ingest source: a context that goes on, or one that completes at once with its status (R154, R179). -/
def State.stampIngest (s : State) (c : Ctx) (st : Nat) : State :=
  if st = 0 then s.letIn c
  else
    let s := s.modHost fun h => { h with lastStamp := c.stamp }
    (if st = vendor 0xC0 then s.reportDeferred c.nsid else s).answer c st 0

/-! Halts (R159 to R161) -/

/-- Enter HALTED; the notify write of NOTIFY_HALT follows. -/
def State.haltPeel (s : State) (ch : Nat) (code : Nat) : State :=
  let p := s.peelCh ch
  let s := (s.modPeel ch fun p => { p with state := .halted, code := BitVec.ofNat 8 code, cause := 0, ready := none }).withdraw (.peel ch)
  if p.notifyHalt then s.hostWrite (.bytes p.notifyAddr.toNat (leBytes 4 p.notifyData.toNat)) else s

/-- A channel in STOPPING with nothing accepted left halts with the first cause. -/
def State.finishStop (s : State) (ch : Nat) : State :=
  let p := s.peelCh ch
  if p.state = .stopping && p.jobs.isEmpty then s.haltPeel ch p.cause.toNat else s

/-- A stop or halt cause is seen: STOPPING, with the first cause kept (R159). -/
def State.stopPeel (s : State) (ch code : Nat) : State :=
  let s := (s.modPeel ch fun p =>
    if p.state = .run || p.state = .poll then { p with state := .stopping, cause := BitVec.ofNat 8 code, ready := none } else p).withdraw (.peel ch)
  s.finishStop ch

/-- Read the descriptor at CUR, if the channel needs one and none is under way (R152, R155). -/
def State.fetchDesc (s : State) (ch : Nat) : State :=
  let p := s.peelCh ch
  let busy := s.pcie.outstanding.any (fun r => match r.kind with | .peelDesc c _ => c == ch | _ => false) ||
    s.pcie.waitReads.any fun r => match r.1 with | .peelDesc c _ => c == ch | _ => false
  if (p.state = .run || p.state = .poll) && p.mode && p.ready.isNone && !p.lastSeen && !busy then s.issueRead (.peelDesc ch p.cur.toNat) p.cur.toNat 64 else s

/-! Start, stop, resume (R159) -/

/-- Field checks of R153. -/
def PeelDesc.ok (d : PeelDesc) (reserved : Bool) : Bool :=
  !reserved && decide (8 ≤ d.len.toNat) && decide (d.len.toNat ≤ 8388608) && decide (d.len.toNat % 8 = 0) && (d.last || decide (d.next.toNat % 64 = 0))

/-- The transfer that the registers of a channel give. -/
def PeelCh.regDesc (p : PeelCh) : PeelDesc :=
  { src := p.src, slba := p.slba, nsid := p.nsid, len := p.len, fmt := p.fmt, fmtEn := p.fmtEn, notify := p.notify, last := true, own := true }

/-- A channel starts at an address in chain mode, or with the transfer in its registers. -/
def State.runPeel (s : State) (ch : Nat) (cur : BitVec 64) : State :=
  let s := s.modPeel ch fun p => { p with state := .run, code := 0, cause := 0, descCount := 0, retired := 0, lastSeen := false, ready := none }
  let p := s.peelCh ch
  if p.mode then (s.modPeel ch fun p => { p with cur := cur, first := cur }).fetchDesc ch
  else if p.regDesc.ok false then (s.modPeel ch fun p => { p with ready := some p.regDesc }).offerPeel ch
  else s.stopPeel ch 7

/-- START or RESUME in a state that does not accept it. -/
def State.startIgnored (s : State) (ch : Nat) : State := s.modPeel ch fun p => { p with startIgnored := true }

/-- The action START. -/
def State.peelStart (s : State) (ch : Nat) : State :=
  let p := s.peelCh ch
  if s.winReady && (p.state = .idle || p.state = .halted) then s.runPeel ch p.chain else s.startIgnored ch

/-- The action RESUME. -/
def State.peelResume (s : State) (ch : Nat) : State :=
  let p := s.peelCh ch
  if s.winReady && p.mode && p.state = .halted then s.runPeel ch p.cur else s.startIgnored ch

/-- The action STOP: from POLL the channel halts, through STOPPING while accepted descriptors remain (R159, R161). -/
def State.peelStop (s : State) (ch : Nat) : State := s.stopPeel ch 1

/-- R159: START. -/
def execPeelStart (ch : Nat) (s : State) : Host.Outcome State Fault Refusal :=
  if s.memOpen && ch < 64 then .next (s.peelStart ch) else .next s

/-- R160: STOP. -/
def execPeelStop (ch : Nat) (s : State) : Host.Outcome State Fault Refusal :=
  if s.memOpen && ch < 64 then .next (s.peelStop ch) else .next s

/-- R159, R163: RESUME. -/
def execPeelResume (ch : Nat) (s : State) : Host.Outcome State Fault Refusal :=
  if s.memOpen && ch < 64 then .next (s.peelResume ch) else .next s

/-! Descriptors (R151 to R155) -/

/-- A descriptor of 64 bytes, and whether a reserved field is set (R151, R153). -/
def peelDescOf (addr : Nat) (bs : List Byte) : PeelDesc × Bool :=
  let w := fieldAt bs 0x20 4
  ({ addr := addr, src := BitVec.ofNat 64 (fieldAt bs 0 8), next := BitVec.ofNat 64 (fieldAt bs 8 8), slba := BitVec.ofNat 64 (fieldAt bs 0x10 8)
     nsid := BitVec.ofNat 32 (fieldAt bs 0x18 4), len := BitVec.ofNat 32 (fieldAt bs 0x1C 4), fmt := BitVec.ofNat 8 w, fmtEn := bitAt w 8
     notify := bitAt w 9, last := bitAt w 10, own := bitAt (fieldAt bs 0x3C 4) 0 },
   decide (bits w 11 21 ≠ 0) || decide (fieldAt bs 0x28 8 ≠ 0) || decide (fieldAt bs 0x38 4 ≠ 0) || decide (bits (fieldAt bs 0x3C 4) 1 31 ≠ 0))

/-- R152, R153, R158: the 64 bytes of the descriptor at CUR arrive. OWN 0 leads to POLL; one that fails its checks halts the channel. -/
def execPeelDescriptorReadComplete (ch : Nat) (data : List Byte) (s : State) : Host.Outcome State Fault Refusal :=
  let p := s.peelCh ch
  let kind := ReqKind.peelDesc ch p.cur.toNat
  if !(s.pcie.outstanding.any fun r => decide (r.kind = kind)) || data.length ≠ 64 then .next s
  else
    let s := (s.dropReq kind).pumpReads
    if p.state ≠ .run && p.state ≠ .poll then .next s
    else
      let (d, rsv) := peelDescOf p.cur.toNat data
      if !d.own then .next (s.modPeel ch fun p => { p with state := .poll })
      else
        let s := s.modPeel ch fun p => { p with state := .run }
        if d.ok rsv then .next ((s.modPeel ch fun p => { p with ready := some d }).offerPeel ch) else .next (s.stopPeel ch 7)

/-- R158: in POLL the descriptor at CUR is read again. -/
def execPeelPollInterval (ch : Nat) (s : State) : Host.Outcome State Fault Refusal :=
  if (s.peelCh ch).state = .poll then .next (s.fetchDesc ch) else .next s

/-! Source reads (R164) -/

/-- Bits of a sample in the source of a job; 16 where it is copied. -/
def PeelJob.width (j : PeelJob) : Nat := if packingBits j.pack.toNat = 0 then 16 else packingBits j.pack.toNat

/-- Source bytes of a descriptor (R170). -/
def PeelJob.srcLen (j : PeelJob) : Nat := j.d.len.toNat * j.width / 16

/-- Source bytes of a job for which a read has been issued. -/
def State.srcIssued (s : State) (ch : Nat) (j : PeelJob) : Nat :=
  let reqs := s.pcie.outstanding.map (fun r => (r.kind, r.len)) ++ s.pcie.waitReads.map fun r => (r.1, r.2.2)
  let ends := reqs.filterMap fun r => match r.1 with
    | .peelSrc c st off => if c = ch && st = j.stamp then some (off + r.2) else none
    | _ => none
  (ends ++ j.ooo.map fun e => e.1 + e.2.length).foldl max j.got

/-- Bytes of source reads that a channel has outstanding. -/
def State.srcOutstanding (s : State) (ch : Nat) : Nat :=
  let reqs := s.pcie.outstanding.map (fun r => (r.kind, r.len)) ++ s.pcie.waitReads.map fun r => (r.1, r.2.2)
  reqs.foldl (fun n r => match r.1 with | .peelSrc c _ _ => if c = ch then n + r.2 else n | _ => n) 0

/-- The next source read of a channel: in source address order, up to 128 KiB outstanding, within Max Read Request Size and one
4 KiB page. -/
def State.nextSrc (s : State) (ch : Nat) : Option (ReqKind × Nat × Nat) :=
  if s.srcOutstanding ch ≥ 131072 || !s.canMaster then none
  else (s.peelCh ch).jobs.findSome? fun j =>
    let off := s.srcIssued ch j
    if j.done.isSome || off ≥ j.srcLen then none
    else
      let a := (j.d.src.toNat + off) % 2 ^ 64
      some (.peelSrc ch j.stamp off, a, min (j.srcLen - off) (min s.pcie.mrrs (4096 - a % 4096)))

/-- Issue source reads until none may go; `n` bounds their number. -/
def pumpSrc (ch : Nat) : Nat → State → State
  | 0, s => s
  | n + 1, s => match s.nextSrc ch with
    | none => s
    | some (k, a, l) => pumpSrc ch n (s.issueRead k a l)

/-- Source reads of a channel go out: at most 1,024 requests of 128 bytes are outstanding. -/
def State.pumpPeel (s : State) (ch : Nat) : State := pumpSrc ch 1024 s

/-- A descriptor is accepted: it is stamped and counted, CUR goes on, and the loop and limit tests are made (R155, R161, R163). A
descriptor that meets both tests halts with DESC_LOOP (DEDUCED, log 31). -/
def State.acceptPeel (s : State) (ch : Nat) (d : PeelDesc) : State :=
  let p := s.peelCh ch
  let f := tgetD s.coder.formats d.fmt.toNat {}
  let fmtBad := d.fmtEn && (!f.valid || decide (3 < f.packing.toNat))
  let c := s.ingestCtx (.peel ch d.addr) d.nsid.toNat d.slba.toNat d.len.toNat
  let j : PeelJob := { stamp := c.stamp, d := d, pack := if d.fmtEn then f.packing else 0 }
  let more := p.mode && !d.last
  let s := (s.modPeel ch fun p => { p with
    ready := none, jobs := p.jobs ++ [j], descCount := p.descCount + 1, lastSeen := d.last, cur := if more then d.next else p.cur }).withdraw (.peel ch)
  let s := s.stampIngest c (s.ingestStatus d.nsid.toNat d.slba.toNat d.len.toNat fmtBad)
  let s := if more && d.next = p.first then s.stopPeel ch 6
    else if more && p.descCount.toNat + 1 ≥ max 1 p.descLimit.toNat then s.stopPeel ch 5
    else s.fetchDesc ch
  s.pumpPeel ch

/-- R153, R155, R67: the checked descriptor of a channel obtains a context and its tracker entries, when arbitration reaches it. -/
def execPeelDescriptorAccept (ch : Nat) (s : State) : Host.Outcome State Fault Refusal :=
  let p := s.peelCh ch
  match p.ready, s.ingestTurn (.peel ch) with
  | some d, some arb =>
    let n := (s.ingestCtx (.peel ch d.addr) d.nsid.toNat d.slba.toNat d.len.toNat).ents.length
    if p.state ≠ .run || p.jobs.length > p.inflight.toNat then .next s
    else if s.contexts.length ≥ 65536 || n > s.trackerFree then .next (s.modHost fun h => { h with stalled := some n })
    else .next (arb.acceptPeel ch d)
  | _, _ => .next s

/-! Unpacking (R169 to R171) -/

/-- The completions that follow in source order: the bytes, and what is left. -/
def inOrder : Nat → Nat → List (Nat × List Byte) → List Byte × List (Nat × List Byte)
  | 0, _, l => ([], l)
  | n + 1, got, l => match l.find? fun e => e.1 == got with
    | none => ([], l)
    | some e => let r := inOrder n (got + e.2.length) (l.filter fun x => x.1 != got); (e.2 ++ r.1, r.2)

/-- Logical bytes of whole samples of w bits, and the bits that remain. -/
def unpack (w : Nat) (bs : List Bool) : List Byte × List Bool :=
  let n := if w = 0 then 0 else bs.length / w
  ((List.range n).flatMap fun k => leBytes 2 (((bs.drop (k * w)).take w).foldl (fun v b => 2 * v + b2n b) 0), bs.drop (n * w))

/-- Source bytes of a job in order become logical bytes. -/
def PeelJob.feed (j : PeelJob) (bs : List Byte) : PeelJob :=
  if packingBits j.pack.toNat = 0 then { j with got := j.got + bs.length, out := j.out ++ bs }
  else
    let r := unpack j.width (j.hold ++ bytesBits bs)
    { j with got := j.got + bs.length, out := j.out ++ r.1, hold := r.2 }

/-- The whole blocks that a job has unpacked go into its command. -/
def State.placeBlocks (s : State) (ch : Nat) (j : PeelJob) : State :=
  let n := j.out.length / 512
  match s.ctx? j.stamp with
  | none => s
  | some c =>
    let b0 := c.slba * ((s.ns? c.nsid).getD {}).blocksPerLba + j.filled / 512
    let blocks := (List.range n).map fun i => (b0 + i, bytesCrumb (j.out.drop (512 * i)))
    let s := s.modPeel ch fun p => { p with jobs := p.jobs.map fun x =>
      if x.stamp = j.stamp then { x with out := j.out.drop (512 * n), filled := j.filled + 512 * n } else x }
    s.modCtx j.stamp fun c => { c with
      xferred := decide (j.filled + 512 * n = j.d.len.toNat), phase := .media
      ents := c.ents.map fun e => { e with data := (blocks.filter fun b => b.1 / chunkBlocks == e.lcn).foldl (fun t b => tput t (b.1 % chunkBlocks) b.2) e.data } }

/-- R164, R170, R171: the bytes of a source read arrive; they are taken in source order, unpacked and placed. A completion for a
descriptor that is no longer there only frees its tag (R162). -/
def execPeelSourceReadComplete (ch stamp off : Nat) (data : List Byte) (s : State) : Host.Outcome State Fault Refusal :=
  let kind := ReqKind.peelSrc ch stamp off
  match s.pcie.outstanding.find? fun r => decide (r.kind = kind) with
  | none => .next s
  | some r =>
    if data.length ≠ r.len then .next s
    else
      let s := (s.dropReq kind).pumpReads
      match (s.peelCh ch).jobs.find? fun j => j.stamp == stamp with
      | none => .next s
      | some j =>
        let (bs, ooo) := inOrder (j.ooo.length + 1) j.got (j.ooo ++ [(off, data)])
        let j := { j with ooo := ooo }.feed bs
        let s := s.modPeel ch fun p => { p with jobs := p.jobs.map fun x => if x.stamp = stamp then j else x }
        .next (((s.placeBlocks ch j).settle).pumpPeel ch)

/-! Retirement (R156, R157) -/

/-- Bytes 0x30 to 0x37 of a retired descriptor. -/
def retireBytes (st stamp : Nat) : List Byte := leBytes 4 (st % 2048) ++ leBytes 4 (stamp % 2 ^ 32)

/-- The state after the retirement of a descriptor with a status (R159, R161, R166). -/
def State.afterRetire (s : State) (ch st : Nat) (last : Bool) : State :=
  let p := s.peelCh ch
  if p.mode then
    let s := if st ≠ 0 then s.stopPeel ch 8 else s.finishStop ch
    let p := s.peelCh ch
    if p.state = .run && p.jobs.isEmpty && last then s.modPeel ch fun p => { p with state := .idle }
    else if (p.state = .run || p.state = .poll) && p.jobs.isEmpty && p.bmHold then s.haltPeel ch 4
    else (s.offerPeel ch).fetchDesc ch
  else if p.state = .run then (if st = 0 then s.modPeel ch fun p => { p with state := .idle } else s.haltPeel ch 8)
  else s.finishStop ch

/-- A write of an ingest source retires: its context is released (R157). -/
def State.retireCtx (s : State) (stamp : Nat) : State := s.modWin fun w => { w with finishing := w.finishing.filter fun c => c.stamp != stamp }

/-- R156: the oldest accepted descriptor of a channel, once its command has completed, is retired: status, then OWN, then the notify
write. SC and SCT hold the first error of a COMMAND_ERROR halt (R161). -/
def execPeelRetirement (ch : Nat) (s : State) : Host.Outcome State Fault Refusal :=
  let p := s.peelCh ch
  match p.jobs with
  | [] => .next s
  | j :: rest => match j.done with
    | none => .next s
    | some st =>
      let keep := p.mode && (st = 0 || p.cause = 8)
      let s := s.modPeel ch fun p => { p with
        jobs := rest, retired := p.retired + 1
        sc := if keep then p.sc else BitVec.ofNat 8 st, sct := if keep then p.sct else BitVec.ofNat 3 (st / 256) }
      let s := s.retireCtx j.stamp
      let s := if p.mode then
        (s.hostWrite (.bytes (j.d.addr + 0x30) (retireBytes st j.stamp))).hostWrite (.bytes (j.d.addr + 0x3C) (leBytes 4 0)) else s
      let s := if j.d.notify then s.hostWrite (.bytes p.notifyAddr.toNat (leBytes 4 p.notifyData.toNat)) else s
      .next ((s.afterRetire ch st j.d.last).pumpPeel ch)

/-! Contexts that end without a completion (R88, R162, R167) -/

/-- Discard a context: chunks that have started programming finish and take effect, the others are dropped. -/
def State.discardCtx (s : State) (c : Ctx) : State :=
  let s := s.cancelReads fun j => j.flow == 0 && j.stamp == c.stamp
  let s := if c.cls = .write then s.leaveVersions c.stamp else s
  (((s.dropCtx c.stamp).finishDeletes).effectParked).settle

/-- A source read of a descriptor failed: it and every later accepted one end without retirement, and CUR names it (R161, R162). -/
def State.failSource (s : State) (ch stamp code : Nat) : State :=
  let p := s.peelCh ch
  match p.jobs.find? fun j => j.stamp == stamp with
  | none => s
  | some j =>
    let gone := p.jobs.filter fun x => decide (stamp ≤ x.stamp)
    let s := (s.modPeel ch fun p => { p with jobs := p.jobs.filter fun x => decide (x.stamp < stamp), cur := if p.mode then BitVec.ofNat 64 j.d.addr else p.cur }).modPcie
      fun x => { x with waitReads := x.waitReads.filter fun r => match r.1 with | .peelSrc c st _ => !(c == ch && decide (stamp ≤ st)) | _ => true }
    let s := gone.foldl (fun s x => s.retireCtx x.stamp) s
    let s := gone.foldl (fun s x => match s.ctx? x.stamp with | some c => s.discardCtx c | none => s) s
    s.stopPeel ch code

/-- A descriptor read failed: the channel halts, CUR names the descriptor (R475). -/
def State.failDesc (s : State) (ch code : Nat) : State := s.stopPeel ch code

/-! Bus Master Enable (R166), controller reset and shutdown (R167, R168) -/

/-- Bus Master Enable is cleared. A register-mode transfer that is not accepted yet waits in RUN (DEDUCED, log 31). -/
def State.peelBmClear (s : State) : State :=
  (List.range 64).foldl (fun s ch =>
    let p := s.peelCh ch
    let s := s.modPeel ch fun p => { p with bmHold := true }
    if (p.mode && p.state = .run && p.jobs.isEmpty) || p.state = .poll && p.jobs.isEmpty then s.haltPeel ch 4 else s) s

/-- Bus Master Enable is set again: a channel that it halted goes on at CUR. -/
def State.peelBmSet (s : State) : State :=
  (List.range 64).foldl (fun s ch =>
    let s := s.modPeel ch fun p => { p with bmHold := false }
    let p := s.peelCh ch
    if p.state = .halted && p.code = 4 then s.peelResume ch else ((s.offerPeel ch).fetchDesc ch).pumpPeel ch) s

/-- A controller reset: every channel that is not IDLE halts with RESET, nothing accepted is left, and no notify write follows. -/
def State.peelReset (s : State) : State :=
  let s := s.modWin fun w => { w with
    finishing := w.finishing.filter fun c => match c.origin with | .peel _ _ => false | _ => true
    peel := w.peel.map fun (e : Nat × PeelCh) =>
      if e.2.state = .idle then e else (e.1, { e.2 with state := .halted, code := 9, cause := 0, ready := none, jobs := [] }) }
  s.modHost fun h => { h with ingestQ := h.ingestQ.filter fun x => match x with | .peel _ => false | _ => true }

/-- A normal shutdown begins: as if STOP had been written. -/
def State.peelShutdown (s : State) : State := s.win.peel.foldl (fun s e => s.peelStop e.1) s

end Sys2Proof.Machine
end

