-- ==== Sys2Proof/Machine/Push.lean ====
section
/-!
DEFINITION. Push mode and the Capture Window: leases, aperture writes, commits, retirement, and the registers of BAR2 (R145 to R150,
R173 to R183).
-/
namespace Sys2Proof.Machine
open Sys2Proof

/-- A push slot; a change of it. -/
def State.slot (s : State) (n : Nat) : PushSlot := tgetD s.win.slots n {}
def State.modSlot (s : State) (n : Nat) (f : PushSlot → PushSlot) : State := s.modWin fun w => { w with slots := tmod w.slots n {} f }

/-- A write is discarded and counted (R145). -/
def State.discardWrite (s : State) : State := s.modWin fun w => { w with discards := satInc w.discards }

/-! Leases (R174 to R176) -/

/-- A read of LEASE: the handle of a cleared buffer of the push pool, or 0xFFFF at once. -/
def State.lease (s : State) (slot : Nat) : Nat × State :=
  let p := s.poolOf 2
  if !s.winReady || !s.win.pushEn || (s.slot slot).halted || p.paused then (noHandle, s)
  else if p.free.length ≤ p.reserved then (noHandle, s.modPoolOf 2 fun x => { x with noneCnt := satInc x.noneCnt })
  else match s.popBuf 2 3 with
    | none => (noHandle, s)
    | some (h, s) => (h, s.modWin fun w => { w with leases := tput w.leases h { slot := slot, granted := s.now, leaseUs := w.leaseUs.toNat } })

/-- A read of LEASE is answered; one that meets a paused push pool waits for its rebuild (R446). -/
def State.readLease (s : State) (slot : Nat) : State :=
  if s.winReady && s.win.pushEn && !(s.slot slot).halted && (s.poolOf 2).paused then
    s.modPoolOf 2 fun x => { x with heldAllocs := x.heldAllocs ++ [(3, some slot)] }
  else let (h, s) := s.lease slot; s.send (.cpl h)

/-- R174: a read of the LEASE register of a slot. -/
def execPushLease (slot : Nat) (s : State) : Host.Outcome State Fault Refusal :=
  if !s.memOpen || slot ≥ 16 then .next (s.send .ur)
  else .next (s.readLease slot)

/-! Rebuild of a free list (R446) -/

/-- The free buffers of a pool, by their status words. -/
def State.freeOf (s : State) (p : Nat) : List Nat := (s.pool.bufs.filter fun e => !e.2.alloc && e.2.pool.toNat == p).map (·.1)

/-- The requests that waited, round-robin from the requester after the last served (R449). -/
def Pool.inTurn (q : Pool) : List (Nat × Option Nat) := (List.range 64).flatMap fun i => q.heldAllocs.filter (·.1 == (q.lastServed + 1 + i) % 64)

/-- What waited for a pool is served, one request and one free in each cycle; a buffer freed in a cycle can be granted from the next on (R449, R450). -/
def State.serveHeld (s : State) (p : Nat) : State :=
  let q := s.poolOf p
  let as := q.inTurn
  (List.range (max as.length q.heldFrees.length)).foldl (fun s i =>
    let s := match as[i]? with
      | some (_, some slot) => s.readLease slot
      | some (o, none) => s.allocate o p false
      | none => s
    match q.heldFrees[i]? with
    | some (o, h) => s.freeBuf o h
    | none => s) (s.modPoolOf p fun x => { x with heldAllocs := [], heldFrees := [] })

/-- R446: the list of a paused pool is rebuilt from the ALLOC bits, and what waited is served. The rule gives no order of the rebuilt list: it is the
operand, and an operand that does not hold exactly the free buffers rebuilds nothing. -/
def execFreeListRebuild (pool : Nat) (order : List Nat) (s : State) : Host.Outcome State Fault Refusal :=
  if (s.poolOf pool).paused && decide (order.mergeSort = s.freeOf pool) then
    .next ((s.modPoolOf pool fun x => { x with free := order, paused := false, badLink := false }).serveHeld pool)
  else .next s

/-- A write through the aperture of a handle; a byte without its byte enable is none. -/
def State.apertureWrite (s : State) (h off : Nat) (data : List (Option Byte)) : State :=
  match tget s.win.leases h with
  | none => s.discardWrite
  | some l =>
    let d := (data.zipIdx).foldl (fun t (b, i) => match b with | some b => if off + i < 4096 then tput t (off + i) b else t | none => t) l.data
    s.modWin fun w => { w with leases := tput w.leases h { l with data := d } }

/-- R175: aperture writes change a buffer only while it is leased and not committed. -/
def execApertureWrite (handle off : Nat) (data : List (Option Byte)) (s : State) : Host.Outcome State Fault Refusal :=
  if !s.memOpen || handle ≥ bufCount then .next s else .next (s.apertureWrite handle off data)

/-- The lease of a handle ends without a commit: the buffer returns to the push pool. -/
def State.endLease (s : State) (h : Nat) : State := (s.modWin fun w => { w with leases := tdel w.leases h }).pushBuf h

/-- R176: a lease reaches its lease time. -/
def execLeaseExpiry (handle : Nat) (s : State) : Host.Outcome State Fault Refusal :=
  match tget s.win.leases handle with
  | none => .next s
  | some l => .next ((s.reach (l.granted + l.leaseUs * us)).endLease handle)

/-! Commits (R177 to R182) -/

/-- A reason for rejection, 0 for none; the first that holds. -/
def State.commitReject (s : State) (slot : Nat) : Nat :=
  let p := s.slot slot
  if !s.winReady || !s.win.pushEn then 1
  else if p.halted then 2
  else if p.cHandle.toNat ≥ bufCount then 3
  else if (tget s.win.leases p.cHandle.toNat).map (·.slot) ≠ some slot then 4
  else if p.cCount = 0 || p.cCount.toNat > 4096 || p.cRsv ≠ 0 then 5
  else if p.queue.length ≥ 16 then 6
  else 0

/-- The first n bytes of a push buffer. -/
def Lease.bytes (l : Lease) (n : Nat) : List Byte := (List.range n).map fun i => tgetD l.data i 0

/-- A slot with a queued record waits to be accepted while it is not halted (R178). -/
def State.offerSlot (s : State) (slot : Nat) : State :=
  let p := s.slot slot
  if !p.halted && !p.queue.isEmpty then s.offer (.push slot) else s

/-- A commit from the registers of a slot: rejected, or queued with its buffer fixed and its CRC computed. -/
def State.commitSlot (s : State) (slot : Nat) : State :=
  let r := s.commitReject slot
  let p := s.slot slot
  let h := p.cHandle.toNat
  if r ≠ 0 then s.modSlot slot fun p => { p with rej := true, rejCode := BitVec.ofNat 8 r, rejected := p.rejected + 1 }
  else
    let l := tgetD s.win.leases h {}
    let s := s.modWin fun w => { w with leases := tdel w.leases h, fixedBufs := tput w.fixedBufs h l }
    let s := s.modBuf h fun b => { b with crcv := true, crc := crc32c (l.bytes p.cCount.toNat) }
    (s.modSlot slot fun p => { p with
      queue := p.queue ++ [{ slba := p.cSlba, nsid := p.cNsid, handle := p.cHandle, count := p.cCount }] }).offerSlot slot

/-- RESUME of a slot. -/
def State.slotResume (s : State) (slot : Nat) : State :=
  (s.modSlot slot fun p => { p with halted := false, sc := 0, sct := 0, errHeld := false }).offerSlot slot

/-- RELEASE_ALL of a slot. -/
def State.slotRelease (s : State) (slot : Nat) : State :=
  (s.win.leases.filter fun e => e.2.slot == slot).foldl (fun s e => s.endLease e.1) s

/-- R173: RESUME clears HALTED, SC and SCT. -/
def execSlotResume (slot : Nat) (s : State) : Host.Outcome State Fault Refusal :=
  if s.memOpen && slot < 16 then .next (s.slotResume slot) else .next s

/-- R173, R176: RELEASE_ALL returns every buffer that the slot has leased and not committed. -/
def execSlotReleaseAll (slot : Nat) (s : State) : Host.Outcome State Fault Refusal :=
  if s.memOpen && slot < 16 then .next (s.slotRelease slot) else .next s

/-- R178, R179, R67: the oldest queued record of a slot obtains a context and its tracker entries; its data is in the buffer already. -/
def execCommitRecordAccept (slot : Nat) (s : State) : Host.Outcome State Fault Refusal :=
  let p := s.slot slot
  match p.queue, s.ingestTurn (.push slot) with
  | r :: rest, some arb =>
    let n := r.count.toNat
    let c := s.ingestCtx (.push slot r.handle.toNat) r.nsid.toNat r.slba.toNat n
    if p.halted then .next s
    else if s.contexts.length ≥ 65536 || c.ents.length > s.trackerFree then .next (s.modHost fun h => { h with stalled := some c.ents.length })
    else
      let b0 := r.slba.toNat * ((s.ns? r.nsid.toNat).getD {}).blocksPerLba
      let data := ((chunksOf 512 ((tgetD s.win.fixedBufs r.handle.toNat {}).bytes n)).map bytesCrumb).zipIdx
      let c := { c with xferred := true, phase := .media, ents := c.ents.map fun e =>
        { e with data := (data.filter fun x => (b0 + x.2) / chunkBlocks == e.lcn).foldl (fun t x => tput t ((b0 + x.2) % chunkBlocks) x.1) e.data } }
      let s := (arb.modSlot slot fun p => { p with queue := rest, accepted := p.accepted + 1, active := p.active ++ [{ r with stamp := c.stamp }] }).withdraw (.push slot)
      .next ((s.stampIngest c (s.ingestStatus r.nsid.toNat r.slba.toNat n false)).offerSlot slot)
  | _, _ => .next s

/-- R180, R181: the oldest accepted record of a slot retires once its command has completed; an error halts the slot. -/
def execCommitRetirement (slot : Nat) (s : State) : Host.Outcome State Fault Refusal :=
  let p := s.slot slot
  match p.active with
  | [] => .next s
  | r :: rest => match r.done with
    | none => .next s
    | some st =>
      let first := decide (st ≠ 0) && !p.errHeld
      let s := s.modSlot slot fun p => { p with
        active := rest, done := p.done + 1
        halted := p.halted || decide (st ≠ 0), errHeld := p.errHeld || decide (st ≠ 0)
        sc := if first then BitVec.ofNat 8 st else p.sc, sct := if first then BitVec.ofNat 3 (st / 256) else p.sct }
      let s := (if st ≠ 0 then s.withdraw (.push slot) else s).retireCtx r.stamp
      .next (if p.notifyEn then s.hostWrite (.bytes p.notifyAddr.toNat (leBytes 4 (p.done + 1).toNat)) else s)

/-- R183: a controller reset releases every queued record and every leased buffer and clears HALTED. SC and SCT stay (DEDUCED,
log 31). -/
def State.pushReset (s : State) : State :=
  let hs := s.win.leases.map (·.1) ++ s.win.fixedBufs.map (·.1)
  let s := hs.foldl (fun s h => s.pushBuf h) s
  let s := s.modWin fun w => { w with leases := [], fixedBufs := [], setQ := []
                                      finishing := w.finishing.filter fun c => match c.origin with | .push _ _ => false | _ => true
                                      slots := w.slots.map fun (e : Nat × PushSlot) => (e.1, { e.2 with halted := false, queue := [], active := [] }) }
  s.modHost fun h => { h with ingestQ := h.ingestQ.filter fun x => !x.isPush }

/-! Registers of BAR2 (R145, R146, R150, R173). A dword at a 4-byte offset -/

/-- The 32 bits of a wide register at offset k of its dwords. -/
def half (x k : Nat) : Nat := bits x (32 * k) 32

/-- Replace the 32 bits at offset k of a 64-bit register. -/
def setHalf (x : BitVec 64) (k v : Nat) : BitVec 64 :=
  BitVec.ofNat 64 (if k = 0 then x.toNat / 2 ^ 32 * 2 ^ 32 + v else x.toNat % 2 ^ 32 + v * 2 ^ 32)

/-- Channel state as the register shows it (R158). -/
def PeelState.code : PeelState → Nat
  | .idle => 0
  | .run => 1
  | .poll => 2
  | .stopping => 3
  | .halted => 4

/-- A dword of a channel's registers (R150). -/
def PeelCh.dword (p : PeelCh) (o : Nat) : Nat :=
  match o with
  | 0x00 => 2 ^ 8 * b2n p.mode + 2 ^ 9 * b2n p.notifyHalt
  | 0x04 => p.state.code + 2 ^ 3 * b2n p.bmHold + 2 ^ 4 * b2n p.startIgnored + 2 ^ 8 * p.code.toNat + 2 ^ 16 * p.sc.toNat + 2 ^ 24 * p.sct.toNat
  | 0x08 => half p.src.toNat 0 | 0x0C => half p.src.toNat 1
  | 0x10 => half p.slba.toNat 0 | 0x14 => half p.slba.toNat 1
  | 0x18 => p.nsid.toNat | 0x1C => p.len.toNat
  | 0x20 => p.fmt.toNat + 2 ^ 8 * b2n p.fmtEn + 2 ^ 9 * b2n p.notify
  | 0x28 => half p.chain.toNat 0 / 64 * 64 | 0x2C => half p.chain.toNat 1
  | 0x30 => half p.cur.toNat 0 | 0x34 => half p.cur.toNat 1
  | 0x38 => p.descLimit.toNat | 0x3C => p.descCount.toNat
  | 0x40 => p.inflight.toNat | 0x44 => p.pollUs.toNat
  | 0x48 => half p.notifyAddr.toNat 0 | 0x4C => half p.notifyAddr.toNat 1
  | 0x50 => p.notifyData.toNat | 0x54 => p.retired.toNat
  | _ => 0

/-- The fields that a write of a dword changes (R150). -/
def PeelCh.write (p : PeelCh) (o v : Nat) : PeelCh :=
  match o with
  | 0x00 => { p with mode := if p.state = .idle || p.state = .halted then bitAt v 8 else p.mode, notifyHalt := bitAt v 9 }
  | 0x04 => { p with startIgnored := p.startIgnored && !bitAt v 4 }
  | 0x08 => { p with src := setHalf p.src 0 v } | 0x0C => { p with src := setHalf p.src 1 v }
  | 0x10 => { p with slba := setHalf p.slba 0 v } | 0x14 => { p with slba := setHalf p.slba 1 v }
  | 0x18 => { p with nsid := BitVec.ofNat 32 v } | 0x1C => { p with len := BitVec.ofNat 32 v }
  | 0x20 => { p with fmt := BitVec.ofNat 8 v, fmtEn := bitAt v 8, notify := bitAt v 9 }
  | 0x28 => { p with chain := setHalf p.chain 0 (v / 64 * 64) } | 0x2C => { p with chain := setHalf p.chain 1 v }
  | 0x38 => { p with descLimit := BitVec.ofNat 32 v }
  | 0x40 => { p with inflight := BitVec.ofNat 4 v } | 0x44 => { p with pollUs := BitVec.ofNat 16 v }
  | 0x48 => { p with notifyAddr := setHalf p.notifyAddr 0 v } | 0x4C => { p with notifyAddr := setHalf p.notifyAddr 1 v }
  | 0x50 => { p with notifyData := BitVec.ofNat 32 v }
  | _ => p

/-- The actions of a write to CTL, after its fields (DEDUCED, log 31). -/
def State.peelActions (s : State) (ch v : Nat) : State :=
  let s := if bitAt v 0 then s.peelStart ch else s
  let s := if bitAt v 1 then s.peelStop ch else s
  if bitAt v 2 then s.peelResume ch else s

/-- A dword of a slot's registers, LEASE apart (R173). -/
def State.slotDword (s : State) (n o : Nat) : Nat :=
  let p := s.slot n
  match o with
  | 0x04 => b2n p.halted + 2 * b2n p.rej + 2 ^ 8 * p.rejCode.toNat + 2 ^ 16 * p.sc.toNat + 2 ^ 24 * p.sct.toNat
  | 0x08 => 4 * b2n p.notifyEn
  | 0x0C => (s.win.leases.filter fun e => e.2.slot == n).length + 2 ^ 16 * p.queue.length
  | 0x10 => half p.cSlba.toNat 0 | 0x14 => half p.cSlba.toNat 1
  | 0x18 => p.cNsid.toNat
  | 0x1C => p.cHandle.toNat + 2 ^ 16 * p.cCount.toNat
  | 0x20 => p.accepted.toNat | 0x24 => p.done.toNat | 0x28 => p.rejected.toNat
  | 0x30 => half p.notifyAddr.toNat 0 | 0x34 => half p.notifyAddr.toNat 1
  | _ => 0

/-- The fields that a write of a dword changes (R173). -/
def PushSlot.write (p : PushSlot) (o v : Nat) : PushSlot :=
  match o with
  | 0x04 => { p with rej := p.rej && !bitAt v 1 }
  | 0x08 => { p with notifyEn := bitAt v 2 }
  | 0x10 => { p with cSlba := setHalf p.cSlba 0 v } | 0x14 => { p with cSlba := setHalf p.cSlba 1 v }
  | 0x18 => { p with cNsid := BitVec.ofNat 32 v }
  | 0x1C => { p with cHandle := BitVec.ofNat 16 v, cCount := BitVec.ofNat 13 (v / 2 ^ 16), cRsv := BitVec.ofNat 3 (v / 2 ^ 29) }
  | 0x30 => { p with notifyAddr := setHalf p.notifyAddr 0 v } | 0x34 => { p with notifyAddr := setHalf p.notifyAddr 1 v }
  | _ => p

/-- A bit for each channel or slot that a test holds for. -/
def maskWhere {α : Type} (t : Tab α) (f : α → Bool) : Nat := listMask ((t.filter fun e => f e.2).map (·.1))

/-- A dword of the window status block (R145). -/
def State.statusDword (s : State) (o : Nat) : Nat :=
  let halted := maskWhere s.win.peel fun (p : PeelCh) => decide (p.state = .halted)
  let busy := maskWhere s.win.peel fun (p : PeelCh) => decide (p.state = .run) || decide (p.state = .poll) || decide (p.state = .stopping)
  match o with
  | 0x00 => 1 + 2 ^ 8 * b2n s.winReady + 2 ^ 9 * b2n s.win.pushEn + 2 ^ 10 * b2n s.cfg.drainActive + 2 ^ 11 * b2n s.cfg.recordDeb
  | 0x04 => (s.poolOf 2).free.length + 2 ^ 16 * s.win.poolSize
  | 0x08 => half halted 0 | 0x0C => half halted 1
  | 0x10 => half busy 0 | 0x14 => half busy 1
  | 0x18 => maskWhere s.win.slots (fun (p : PushSlot) => p.halted) + 2 ^ 16 * maskWhere s.win.slots (fun (p : PushSlot) => p.rej)
  | 0x1C => s.win.leaseUs.toNat
  | 0x20 => s.win.discards.toNat | 0x24 => s.win.lateCpl.toNat
  | _ => 0

/-- An access to a register is 4 or 8 bytes wide and naturally aligned (R146). -/
def regAccess (a n : Nat) : Bool := (n = 4 || n = 8) && a % n == 0

/-- One dword of the register part of BAR2, with the effect of reading it. -/
def State.winDword (s : State) (a : Nat) : Nat × State :=
  if a < 0x4000 then ((s.peelCh (a / 0x100)).dword (a % 0x100), s)
  else if a < 0x5000 then (if a % 0x100 = 0 then s.lease (bits a 8 4) else (s.slotDword (bits a 8 4) (a % 0x100), s))
  else if 0x8000 ≤ a && a < 0x8100 then (s.statusDword (a - 0x8000), s)
  else (0, s)

/-- A read of n bytes of BAR2: registers, apertures of leased buffers, zeros elsewhere (R145, R146, R175). -/
def State.winRead (s : State) (a n : Nat) : Nat × State :=
  if 0x1000000 ≤ a && a < 0x4000000 then
    match tget s.win.leases ((a - 0x1000000) / 0x1000) with
    | some l => (leNat ((List.range n).map fun i => tgetD l.data (a % 0x1000 + i) 0), s)
    | none => (0, s)
  else if !regAccess a n then (0, s)
  else
    let (v, s) := s.winDword a
    if n = 4 then (v, s) else let (w, s) := s.winDword (a + 4); (v + 2 ^ 32 * w, s)

/-- The field part of a register write, dword by dword. -/
def State.winFields (s : State) (a v : Nat) : State :=
  if a < 0x4000 then s.modPeel (a / 0x100) fun p => p.write (a % 0x100) v
  else if a < 0x5000 then s.modSlot (bits a 8 4) fun p => p.write (a % 0x100) v
  else s

/-- The actions of a register write: a channel's CTL, a slot's CTL, and the commit of a write with byte 0x1F (R177). -/
def State.winActions (s : State) (a v : Nat) : State :=
  if a < 0x4000 then (if a % 0x100 = 0 then s.peelActions (a / 0x100) v else s)
  else if a < 0x5000 then
    let n := bits a 8 4
    if a % 0x100 = 0x08 then
      let s := if bitAt v 0 then s.slotResume n else s
      if bitAt v 1 then s.slotRelease n else s
    else if a % 0x100 = 0x1C then s.commitSlot n
    else s
  else s

/-- A write to BAR2; a byte without its byte enable is none (R145 to R147). Any access to a register range that R146 does not allow is
discarded and counted, as is one to a reserved range. -/
def State.winWrite (s : State) (a : Nat) (data : List (Option Byte)) : State :=
  let bs := data.filterMap id
  let known := decide (a < 0x5000) || (decide (0x8000 ≤ a) && decide (a < 0x8100))
  if 0x1000000 ≤ a && a < 0x4000000 then s.apertureWrite ((a - 0x1000000) / 0x1000) (a % 0x1000) data
  else if !known || bs.length ≠ data.length || !regAccess a bs.length then s.discardWrite
  else
    let ws := (chunksOf 4 bs).zipIdx.map fun (b, i) => (a + 4 * i, leNat b)
    ws.foldl (fun s w => s.winActions w.1 w.2) (ws.foldl (fun s w => s.winFields w.1 w.2) s)

/-- R177: a write at an offset of a slot; it is a commit if it includes byte 0x1F. Writes to the slot's registers that R146 does not
allow, the 16 bytes of the push example among them, are discarded (log 31). -/
def execPushCommit (slot off : Nat) (data : List Byte) (s : State) : Host.Outcome State Fault Refusal :=
  if !s.memOpen || slot ≥ 16 || off > 0x1F || off + data.length ≤ 0x1F || off + data.length > 0x100 then .next s
  else .next (s.winWrite (0x4000 + 0x100 * slot + off) (data.map some))

end Sys2Proof.Machine
end

