-- ==== Sys2Proof/Machine/Faults.lean ====
section
/-!
DEFINITION. The fault collector at work: hardware faults, timers, heartbeats, the safe state's flash work and recovery, the recorder's
mirror, fabric blocks, and the release of fenced units (R12, R13, R55, R579 to R592, R604).
-/
namespace Sys2Proof.Machine
open Sys2Proof

/-! Sources (R579 to R582, R588) -/

/-- R579, R588: a hardware condition raises its source with the reaction of its class; an internal error of the endpoint is logged through AER
(R482). A collector parity error makes the registers suspect. -/
def execHardwareFaultDetected (id : Nat) (detail : List Nat) (s : State) : Host.Outcome State Fault Refusal :=
  let s := if id < 8 then s.modFlt fun t => { t with suspect := true } else s
  let s := if id = 0x1F1 then s.aerCorrectable 14 else if id = 0x1F2 then s.aerUncorrectable aerInternal false else s
  .next (s.fault id detail)

/-- R580: at the end of a second in which occurrences were only counted, a summary record gives their number. -/
def execCorrectedSuppressionSecond (s : State) : Host.Outcome State Fault Refusal :=
  match s.flt.srcs.filter fun e => decide (e.2.suppressed ≠ 0) with
  | [] => .next s
  | e :: t =>
    let first := t.foldl (fun m x => min m x.2.secStart) e.2.secStart
    let s := s.reach ((first + 1) * sec)
    .next ((e :: t).foldl (fun s x =>
      if (x.2.secStart + 1) * sec ≤ s.now then
        (s.note 0x1400 0 0 [x.1, x.2.suppressed]).modSrc x.1 fun y => { y with suppressed := 0 }
      else s) s)

/-- Reaction timers and heartbeat monitoring are stopped (R582). -/
def State.monitorsPaused (s : State) : Bool := s.nvme.pp || s.fw.act.any fun a => decide (a.step = .coreWait)

/-- R581: PENDING outlasts the reaction time; the collector takes the fatal reaction. While the registers are suspect there is no timer
(R588). -/
def execReactionTimerExpiry (id : Nat) (s : State) : Host.Outcome State Fault Refusal :=
  let x := s.src id
  if !x.pending || s.monitorsPaused || s.flt.suspect || s.safeState then .next s
  else .next (((s.reach (x.pendAt + s.flt.reactionMs.toNat * ms)).faultRecord id (s.faultClass id) true []).fatal id true)

/-- Contained servo and channel faults of an actuator, with which of the two (R55). -/
def actuatorSource (id : Nat) : Option Nat :=
  if [0x201, 0x210, 0x214, 0x216, 0x218, 0x238].contains id then some 0
  else if [0x202, 0x211, 0x215, 0x217, 0x219, 0x239].contains id then some 1 else none

/-- R581, R55: an acknowledgement clears PENDING. `cleared`: device firmware has cleared the cause; an actuator whose fault it could not clear is
fenced. -/
def execFaultAck (id : Nat) (cleared : Bool) (s : State) : Host.Outcome State Fault Refusal :=
  if !(s.src id).pending then .next s
  else
    let s := (s.modSrc id fun x => { x with pending := false }).driveFaultN
    .next (match actuatorSource id with
      | some a => if cleared then s else s.fenceActuator a
      | none => s)

/-- R592: a write of a core to HEARTBEAT. -/
def execHeartbeatWrite (core : Nat) (s : State) : Host.Outcome State Fault Refusal :=
  if core < 12 then .next (s.modFlt fun t => { t with heart := tput t.heart core s.now }) else .next s

/-- R579: 20 ms without a heartbeat raise the source of the core; the timer starts again. -/
def execHeartbeatMissed (core : Nat) (s : State) : Host.Outcome State Fault Refusal :=
  if core ≥ 12 || s.monitorsPaused || !s.flt.collector || (s.fw.stage ≠ .core && s.fw.stage ≠ .mounted) then .next s
  else
    let s := s.reach (tgetD s.flt.heart core s.fw.startAt + 20 * ms)
    .next ((s.modFlt fun t => { t with heart := tput t.heart core s.now }).fault (0x020 + core))

/-- R591: device firmware writes FORCE of a source. -/
def execForceBitWrite (id : Nat) (v : Bool) (s : State) : Host.Outcome State Fault Refusal := .next (s.setForce id v)

/-! The recorder's mirror (R604) -/

/-- The oldest records of a list that a record page holds. -/
def pageOf : Nat → List Rec → List Rec
  | _, [] => []
  | room, r :: t => if r.len ≤ room then r :: pageOf (room - r.len) t else []

/-- Program one page of pending records with the Health Early Warning log and the counts. -/
def State.mirrorPage (s : State) : State :=
  s.modEvt fun e =>
    let p := pageOf 16384 e.pend
    { e with
      pend := e.pend.drop p.length, pendSince := s.now
      mirror := { e.mirror with recs := e.mirror.recs ++ p, warns := e.warns, recovTotal := s.flt.recovTotal, bootCount := e.bootCount } }

/-- Records that are programmed at once: fatal faults and entries into the safe state. -/
def Rec.urgent (r : Rec) : Bool := r.id == 0x1401 || (decide (0x1000 ≤ r.id) && decide (r.id < 0x1400) && (r.detail.map fun d => bits d.1 0 2 == 3).getD false)

/-- R604: pending records are programmed to the recorder partition, when a page is full, 100 ms after the oldest, or at once for what is urgent.
A failed program raises 0x2C1 and is repeated. -/
def execMirrorPageProgram (good : Bool) (s : State) : Host.Outcome State Fault Refusal :=
  if s.evt.pend.isEmpty || !s.evt.started || s.pwr.pl.running || !s.map.mounted then .next s
  else
    let full := decide (16384 ≤ s.evt.pend.foldl (fun n r => n + r.len) 0) || s.evt.pend.any Rec.urgent
    let s := if full then s else s.reach (s.evt.pendSince + 100 * ms)
    .next (if good then s.mirrorPage else s.fault 0x2C1)

/-! The safe state (R585 to R590) -/

/-- Everything of host commands and copies that the flash work of the safe state ends. -/
def State.dropFlows (s : State) : State :=
  let s := s.modHost fun h => { h with versions := [], stalled := none }
  let s := s.modPlace fun p => { p with copies := [], queues := [[], []], waitEvac := [], coderQ := {}, cipherQ := {}, hardQ := {}, softQ := {} }
  s.modFlash fun f => { f with jobs := [] }

/-- R585, R586: the flash steps are done: partial parity and pending journal entries are on media, Fnn_WP_N is low, the mirror's page is programmed, an
activation in progress is undone, and every held context but the Asynchronous Event Requests completes with status 0x06. -/
def execSafeStateFlashDone (s : State) : Host.Outcome State Fault Refusal :=
  if !s.safeState || s.flt.entryDone then .next s
  else
    let s : State := s.drainJournal
    let s := s.modMedia fun m => { m with lastSpans := s.openNow true }
    let s : State := match s.fw.act with
      | some a => if a.step = ActStep.waiting then s else s.revertActivation a
      | none => s
    let s := s.dropFlows
    let aers := s.nvme.aers
    let s : State := s.host.ctxs.foldl (fun (s : State) (c : Ctx) => if aers.contains c.stamp then s else s.complete c.stamp scInternal 0) s
    let s := s.modFlashIf fun f => { f with chans := f.chans.map fun (e : Nat × ChanSt) => (e.1, { e.2 with wp := false }) }
    let s := s.modFlt fun t => { t with entryDone := true }
    .next (if s.evt.started then s.mirrorPage else s)

/-- R587 step 1: the quiet period has elapsed and the entry work is done; recovery begins. A latched safe state has none (R589). -/
def execQuietPeriodExpiry (s : State) : Host.Outcome State Fault Refusal :=
  if s.flt.state ≠ .safe || !s.flt.entryDone || s.pwr.pl.running then .next s
  else .next ((s.reach (s.flt.quietStart + s.flt.quietMs.toNat * ms)).modFlt fun t =>
    { t with state := .recovering, suspect := false, srcs := t.srcs.map fun (e : Nat × Src) => (e.1, { e.2 with pending := false }) })

/-- R587 steps 2 to 4: the sequencers are loaded again (`failed`: those whose SELFTEST fails), the map is rebuilt from media (`lost`: record pages that
cannot be read), ingest is reset, FAULT_N is released and the recovery is counted and recorded. -/
def execSafeStateRecoveryEnd (failed : List Nat) (lost : List (Nat × Nat)) (s : State) : Host.Outcome State Fault Refusal :=
  if s.flt.state ≠ .recovering || s.pwr.pl.running then .next s
  else
    let s := s.reloadSeqs failed
    let s := (s.mountFrom (s.flashRoot.getD {}) lost).afterMount
    let s := (s.modMap fun m => { m with mounted := true }).modMedia fun m => { m with lastSpans := [] }
    let s := (s.peelReset).pushReset
    let s := s.modFlashIf fun f => { f with chans := f.chans.map fun (e : Nat × ChanSt) => (e.1, { e.2 with wp := e.2.fitted && e.2.trainFence.isNone }) }
    let cause := s.flt.cause.toNat + 1024 * b2n s.flt.escalated
    let s := s.modFlt fun t => { t with
      state := .normal, entryDone := false, recovTotal := satInc t.recovTotal
      recovTimes := t.recovTimes.filter (fun x => decide (s.now < x + hour)) ++ [s.now] }
    let s := (s.driveFaultN.modLink fun l => { l with retract := false }).note 0x1402 0 0 [cause, s.recovHour]
    .next s.becomeReady.settle

/-! Fabric blocks (R12, R13) -/

/-- A fabric port by the code of its block: 0 endpoint, 1 buffer pool, 2 placement engine, 3 DRAM, 4 cores, 16 coder engines, 32 cipher engines, 64 hard and
96 soft decoders, 128 channels, 160 disk formatters. -/
def portOf (k : Nat) : Port :=
  if k = 0 then .pcie else if k = 1 then .pool else if k = 2 then .placement else if k = 3 then .dram else if k < 16 then .cores
  else if k < 32 then .coder (k - 16) else if k < 64 then .cipher (k - 32) else if k < 96 then .hard (k - 64)
  else if k < 128 then .soft (k - 96) else if k < 160 then .flash (k - 128) else .dfs (k - 160)

/-- The flow that a block belongs to: 0 a version, 1 a read job, 2 a copy step, else internal. -/
def flowOf (kind id lcn : Nat) : FabFlow := if kind = 0 then .write id else if kind = 1 then .read id lcn else if kind = 2 then .copy id else .internal

/-- What follows for the flow of a block whose re-sends are exhausted (R13). -/
def State.fabricLost (s : State) (f : FabFlow) : State :=
  match f with
  | .write vid => match s.version? vid with
    | some v => s.failVersion v scInternal
    | none => s
  | .read id _ => match s.job? id with
    | some j => s.retryJob j
    | none => s
  | .copy cid => s.endCopy cid
  | .internal => s

/-- A port that R55 can fence by itself: an engine, a decoder, a channel or a disk formatter. -/
def Port.isEngine : Port → Bool
  | .coder _ => true
  | .cipher _ => true
  | .hard _ => true
  | .soft _ => true
  | .flash _ => true
  | .dfs _ => true
  | _ => false

/-- R12, R13: a fabric block arrives; its CRC matches or not. A mismatch asks for a re-send, three at most; then the receiver's port raises its source,
the failing port is fenced, and the block's flow is undone. -/
def execFabricBlockReceive (src dst blk flow id lcn : Nat) (good : Bool) (s : State) : Host.Outcome State Fault Refusal :=
  let here (x : FabXfer) : Bool := x.src == portOf src && x.dst == portOf dst && x.blk == blk
  let rest := s.fab.xfers.filter fun x => !here x
  let n := ((s.fab.xfers.find? here).map (·.resends)).getD 0
  let port := (Config.portIndex dst).val
  if good then
    let s := s.modFab fun f => { f with xfers := rest }
    .next (if n = 0 then s else s.fault (0x180 + port) [src, dst])
  else if n < 3 then
    .next (s.modFab fun f => { f with xfers := rest ++ [{ src := portOf src, dst := portOf dst, blk := blk, resends := n + 1, flow := flowOf flow id lcn }] })
  else
    let s := (s.modFab fun f => { f with xfers := rest }).fault (0x150 + port) [src, dst]
    .next ((s.fencePort (if (portOf dst).isEngine || !(portOf src).isEngine then portOf dst else portOf src)).fabricLost (flowOf flow id lcn))

/-! Release of fenced units (R55) -/

/-- Fence bit of a unit: 0 coder, 1 cipher, 2 hard, 3 soft, 4 channel, 5 actuator. -/
def State.isFenced (s : State) (kind n : Nat) : Bool :=
  match kind with
  | 0 => bitAt s.place.fenceCoder.toNat n
  | 1 => bitAt s.place.fenceCipher.toNat n
  | 2 => bitAt s.place.fenceHard.toNat n
  | 3 => bitAt s.place.fenceSoft.toNat n
  | 4 => bitAt s.place.fenceCh.toNat n
  | _ => bitAt s.place.fenceAct.toNat n

/-- Clear the fence of a unit. -/
def State.unfence (s : State) (kind n : Nat) : State :=
  s.modPlace fun p => match kind with
    | 0 => { p with fenceCoder := p.fenceCoder &&& ~~~(BitVec.ofNat 16 (2 ^ n)) }
    | 1 => { p with fenceCipher := p.fenceCipher &&& ~~~(BitVec.ofNat 8 (2 ^ n)) }
    | 2 => { p with fenceHard := p.fenceHard &&& ~~~(BitVec.ofNat 32 (2 ^ n)) }
    | 3 => { p with fenceSoft := p.fenceSoft &&& ~~~(BitVec.ofNat 8 (2 ^ n)) }
    | 4 => { p with fenceCh := p.fenceCh &&& ~~~(BitVec.ofNat 32 (2 ^ n)) }
    | _ => { p with fenceAct := p.fenceAct &&& ~~~(BitVec.ofNat 2 (2 ^ n)), fencePorts := p.fencePorts.filter (· != .dfs n) }

/-- Subject of the record of a release (R606, R607). -/
def unitSubject (kind n : Nat) : Nat × Nat :=
  match kind with
  | 0 => (8, 0x128 + n)
  | 1 => (8, 0x138 + n)
  | 2 => (8, 0x100 + n)
  | 3 => (8, 0x120 + n)
  | 4 => (2, n)
  | _ => (5, n)

/-- R55: a fenced unit that passes its self-test (an actuator, its seek test) is released, at most key 0x0231 times per power cycle. The sequencer of
a channel or actuator that has left its machine check is loaded again, and a training failure lasts until the next power cycle. -/
def execUnitRelease (kind n : Nat) (s : State) : Host.Outcome State Fault Refusal :=
  let used := tgetD s.place.unfences (64 * kind + n) 0
  let q := if kind = 4 then n else 32 + n
  let state := (s.seq q).state
  let barred := decide (4 ≤ kind) && ((kind == 4 && (tgetD s.flashIf.chans n {}).trainFence.isSome) || decide (state = .mcheck) || decide (state = .reset))
  if kind > 5 || !s.isFenced kind n || barred || used ≥ s.key2 0x0231 then .next s
  else
    let s := if 4 ≤ kind && state = .loading then s.loadSeqs [q] [] else s
    let s := (s.unfence kind n).modPlace fun p => { p with unfences := tput p.unfences (64 * kind + n) (used + 1) }
    let s := if kind = 5 then s.modServo fun v => { v with acts := lmod v.acts n fun a => if a.mode = .fenced then { a with mode := .follow } else a } else s
    let x := unitSubject kind n
    .next ((s.note 0x2007 x.1 x.2 []).placeWaiting)

/-- R55: both loops of an actuator have been unlocked for more than 1 s with the spindle at speed. -/
def execActuatorUnlockTimeout (act : Nat) (s : State) : Host.Outcome State Fault Refusal :=
  let v := s.servo.acts.getD act {}
  if act ≥ 2 || s.servo.spindle.state ≠ .wedge || s.actFenced act || !(v.mode = .reacquire || v.mode = .loading || v.mode = .unloading) then .next s
  else .next ((s.reach (s.place.unlocked.getD act 0 + sec)).fenceActuator act)

end Sys2Proof.Machine
end

