-- ==== Sys2Proof/Machine/Dram.lean ====
section
/-!
DEFINITION. The DRAM controller: training helpers, tracking, refresh, patrol scrub, self-refresh, alerts, the choice of the next request, and what
an uncorrected read means for what it held (R424 to R440, R454).
-/
namespace Sys2Proof.Machine
open Sys2Proof

/-- A subchannel; a change of it. -/
def State.sub (s : State) (n : Nat) : SubCh := s.dram.subs.getD n {}
def State.modSub (s : State) (n : Nat) (f : SubCh → SubCh) : State := s.modDram fun d => { d with subs := lmod d.subs n f }
def State.modHelper (s : State) (n : Nat) (f : Helper → Helper) : State := s.modSub n fun x => { x with helper := f x.helper }

/-- DRAM answers: in service and not in self-refresh. -/
def State.dramRuns (s : State) : Bool := s.dram.inService && !s.dram.selfRefresh

/-! Training helpers (R427) -/

/-- R427: PG_START. While the run is active the helper owns its subchannel. -/
def execPatternRunStart (sub : Nat) (s : State) : Host.Outcome State Fault Refusal :=
  if s.dram.selfRefresh then .next s else .next (s.modHelper sub fun h => { h with active := true, done := false })

/-- R427: CMP_CLR. -/
def execPatternCompareClear (sub : Nat) (s : State) : Host.Outcome State Fault Refusal :=
  .next (s.modHelper sub fun h => { h with errMaskD := 0, errMaskE := 0, errCnt := [] })

/-- R427: a run ends; `bad` lists the bits that mismatched, 32 to 39 the ECC bits, with how often. -/
def execPatternRunEnd (sub : Nat) (bad : List (Nat × Nat)) (s : State) : Host.Outcome State Fault Refusal :=
  .next (s.modHelper sub fun h =>
    if !h.active then h
    else
      let m := listMask (bad.map (·.1))
      { h with active := false, done := true, errMaskD := h.errMaskD ||| BitVec.ofNat 32 (m % 2 ^ 32), errMaskE := h.errMaskE ||| BitVec.ofNat 8 (m / 2 ^ 32)
               errCnt := bad.foldl (fun t b => if b.1 < 40 then tput t b.1 (satAdd (tgetD t b.1 0) b.2) else t) h.errCnt })

/-! Tracking and refresh (R429, R431, R432) -/

/-- Drifts of a subchannel, in 1/64 UI for each device: write delays move, at most 4 from their trained values; more is a contained fault and
the subchannel is trained again (R429). -/
def State.track (s : State) (sub : Nat) (drift : List Int) : State :=
  let x := s.sub sub
  let at_ (b : Nat) : Int := clampI (-4) 4 (drift.getD (b / 8) 0)
  let s := s.modHelper sub fun h => { h with dly := (List.range 40).foldl (fun t b =>
    let w := ((x.trained.getD b 0 : Nat) : Int) + at_ b
    let old := tgetD t b 0
    if x.trained.isEmpty then t else tput t b (BitVec.ofNat 16 (old.toNat % 256 + 256 * pattern 8 w))) h.dly }
  if drift.any fun d => decide (4 < d) || decide (d < -4) then (s.modSub sub fun y => { y with retrainDue := true }).fault (0x1C0 + sub) else s

/-- R429: every 100 ms the oscillators are read. -/
def execDqsTrackingInterval (sub : Nat) (drift : List Int) (s : State) : Host.Outcome State Fault Refusal :=
  if s.dramRuns && sub < 4 then .next (s.track sub drift) else .next s

/-- R431: every 32 ms; for each subchannel its hottest device: 0 up to 85 °C, 1 up to 95 °C, 2 above, 3 above its operating range. -/
def execRefreshRateCheck (hot : List Nat) (s : State) : Host.Outcome State Fault Refusal :=
  if !s.dramRuns then .next s
  else .next ((List.range 4).foldl (fun s i =>
    let c := hot.getD i 0
    let s := s.modSub i fun x => { x with rate := if c = 0 then 1 else if c = 1 then 2 else 4 }
    if 3 ≤ c then s.fault (0x1C4 + i) else s) s)

/-- Same-bank refreshes are issued: they close their bank in every bank group (R432). -/
def SubCh.refresh (x : SubCh) (n : Nat) : SubCh :=
  (List.range n).foldl (fun x _ => { x with openRow := x.openRow.filter fun e => e.1 % 4 != x.refBank, refBank := (x.refBank + 1) % 4 }) x

/-- R432, R454: a refresh falls due; it is postponed only while a real-time port is in panic, and at most 4 are owed. -/
def execRefreshInterval (sub : Nat) (s : State) : Host.Outcome State Fault Refusal :=
  if !s.dramRuns then .next s
  else .next (s.modSub sub fun x =>
    if s.dram.panic.contains true then (if x.owed < 4 then { x with owed := x.owed + 1 } else x.refresh 1)
    else { x.refresh (x.owed + 1) with owed := 0 })

/-! Uncorrected data (R435) -/

/-- The outcome of a poisoned burst by its contents. A sector's failed attempt is part of what its read job reports (R339). -/
def State.poisoned (s : State) (holds key : Nat) : State :=
  match holds with
  | 0 => if s.map.paged && !s.map.absent.contains key then s.modMap fun m => { m with absent := m.absent ++ [key] } else s
  | 1 => s.fault 0x1C9
  | 2 => s.dropOpenStack key 1
  | 3 => s
  | 4 => s.modServo fun v => { v with acts := lmod v.acts key fun a => { a with rround := a.rround + 1 } }
  | 5 =>
    let hit := s.evt.recs.filter fun e => decide (e.1 < key + 64) && decide (key < e.1 + e.2.len)
    if hit.isEmpty then s
    else (s.modEvt fun e => { e with recs := e.recs.filter fun r => !hit.contains r, lost := satAdd e.lost hit.length }).fault 0x2C0
  | _ => s.fault 0x1C9

/-- R425: patrol scrub reads the next burst: 0 good, 1 corrected and written back, 2 not corrected in two reads. -/
def execPatrolScrubBurst (result holds key : Nat) (s : State) : Host.Outcome State Fault Refusal :=
  if !s.dramRuns || 3 ≤ s.pwr.ps then .next s
  else
    let n := s.dram.patrol
    let s := s.modDram fun d => { d with patrol := if n + 1 ≥ s.dramGib * 2 ^ 24 then 0 else n + 1 }
    .next (if result = 0 then s else if result = 1 then s.fault (0x1B0 + n % 4) else (s.fault (0x1B4 + n % 4)).poisoned holds key)

/-- R433, R605: the DDR domain wakes: self-refresh ends, the staged records are appended, and drifts beyond tracking act as R429 gives. -/
def execSelfRefreshExit (drift : List (List Int)) (s : State) : Host.Outcome State Fault Refusal :=
  if !s.dram.selfRefresh then .next s
  else
    let s := (s.modDram fun d => { d with selfRefresh := false }).modPwr fun p => { p with gated := p.gated.filter (· != 4) }
    let s := if s.evt.started then s.flushStaged else s
    .next ((List.range 4).foldl (fun s i => s.track i (drift.getD i [])) s)

/-- R434, R454: a device asserts its alert. `fresh`: the window of an earlier replay has left the buffer. The rows of the replayed commands are open
afterwards. The third failed replay of one window is fatal. -/
def execDramAlert (sub : Nat) (fresh : Bool) (s : State) : Host.Outcome State Fault Refusal :=
  if !s.dramRuns || sub ≥ 4 then .next s
  else
    let n := if fresh then 0 else (s.sub sub).replays + 1
    let s := s.modSub sub fun x => { x with replays := n, openRow := x.retry.foldl (fun t r => tput t r.bank r.row) [] }
    .next (if n ≥ 3 then s.fault (0x1BC + sub) else s.fault (0x1B8 + sub))

/-! Choice of the next request (R430, R436 to R440) -/

/-- Latency target of a data or best-effort port, in ns. -/
def State.portTarget (s : State) (p : Nat) : Nat := s.keyN 0x0155 (4 * p) 4

/-- Panic and clear marks of real-time port 5 + i. -/
def State.marks (s : State) (i : Nat) : Nat × Nat := (s.keyN 0x0156 (4 * i) 2, s.keyN 0x0156 (4 * i + 2) 2)

/-- Urgency of a request (R437). -/
def State.urgency (s : State) (r : DramReq) : Nat :=
  if 5 ≤ r.port then (if (s.marks (r.port - 5)).2 ≤ s.dram.levels.getD (r.port - 5) 0 then 0 else 2)
  else
    let t := s.now - r.arrived
    let goal := s.portTarget r.port
    if 2 * t < goal then 0 else if 4 * t < 3 * goal then 1 else if t < goal then 2 else 3

/-- Rank of a request among the steps of R439, the least first: panic by port, then urgency, and within an urgency real-time ports, data ports and
best-effort ports. At urgency 0 real-time ports stand with the data ports (DEDUCED, log 32). -/
def State.reqRank (s : State) (r : DramReq) : Nat :=
  let u := s.urgency r
  let best := r.port == 3 || r.port == 4
  if 5 ≤ r.port && s.dram.panic.getD (r.port - 5) false then r.port
  else if u = 3 then 10
  else if u = 2 then (if 5 ≤ r.port then 20 else if best then 22 else 21)
  else if u = 1 then (if best then 31 else 30)
  else (if best then 41 else 40)

/-- The least element of a list under a key. -/
def leastOf (f : DramReq → Nat) : List DramReq → Option DramReq
  | [] => none
  | a :: t => some (t.foldl (fun m x => if f x < f m then x else m) a)

/-- The request that the controller serves next on a subchannel. -/
def State.nextReq (s : State) (x : SubCh) : Option DramReq :=
  match leastOf s.reqRank x.reqs with
  | none => none
  | some a =>
    let same := x.reqs.filter fun r => s.reqRank r == s.reqRank a
    let mine := same.filter fun r => r.write == x.dir
    let other := same.filter fun r => r.write != x.dir
    let pool := if mine.isEmpty || (decide (32 ≤ x.dirRun) && !other.isEmpty) then other else mine
    let first := if s.reqRank a = 10 then
        (match leastOf (fun r => r.arrived + s.portTarget r.port) pool with
         | some b => pool.filter fun r => r.arrived + s.portTarget r.port == b.arrived + s.portTarget b.port
         | none => [])
      else pool
    let hits := first.filter fun r => tget x.openRow r.bank == some r.row
    leastOf (fun r => r.id) (if hits.isEmpty then first else hits)

/-- Panic of the real-time ports follows their levels (R438); the refreshes that were put off are issued once no port is in panic (R432). -/
def State.setLevels (s : State) (levels : List Nat) : State :=
  let panic := (List.range 3).map fun i =>
    let l := levels.getD i 0
    if l < (s.marks i).1 then true else if (s.marks i).2 ≤ l then false else s.dram.panic.getD i false
  s.modDram fun d => { d with
    levels := levels, panic := panic
    subs := if panic.contains true || d.selfRefresh then d.subs else d.subs.map fun x => { x.refresh x.owed with owed := 0 } }

/-- R430, R439: requests arrive, the levels of the real-time ports are as given, and the controller chooses the next request of a subchannel. -/
def execDramRequestChoice (sub : Nat) (arrivals : List DramArrival) (levels : List Nat) (s : State) : Host.Outcome State Fault Refusal :=
  if sub ≥ 4 then .next s
  else
    let s := arrivals.foldl (fun s a =>
      (s.modSub sub fun x => { x with reqs := x.reqs ++ [{ id := s.dram.nextReq, port := a.port, row := a.row, bank := a.bank, write := a.write, arrived := s.now,
                                                            holds := a.holds, burst := a.key }] }).modDram fun d => { d with nextReq := d.nextReq + 1 })
      (s.setLevels levels)
    let x := s.sub sub
    if !s.dramRuns || x.helper.active then .next s
    else match s.nextReq x with
      | none => .next s
      | some r => .next (s.modSub sub fun x => { x with
          reqs := x.reqs.filter fun y => y.id != r.id
          openRow := tput x.openRow r.bank r.row
          dir := r.write, dirRun := if r.write = x.dir then x.dirRun + 1 else 1
          retry := (x.retry ++ [r]).drop (x.retry.length - 63)
          inflight := if r.write then x.inflight else x.inflight ++ [r] })

/-- R424, R435: a burst read returns: 0 good, 1 corrected, 2 not. What is not corrected is read once more, and then delivered poisoned. -/
def execDramBurstReadEnd (sub id result : Nat) (s : State) : Host.Outcome State Fault Refusal :=
  match (s.sub sub).inflight.find? fun r => r.id == id with
  | none => .next s
  | some r =>
    let done (s : State) : State := s.modSub sub fun x => { x with inflight := x.inflight.filter fun y => y.id != id }
    if result = 0 then .next (done s)
    else if result = 1 then .next ((done s).fault (0x1B0 + sub))
    else if !r.again then .next (s.modSub sub fun x => { x with inflight := x.inflight.map fun y => if y.id = id then { y with again := true } else y })
    else .next (((done s).fault (0x1B4 + sub)).poisoned r.holds r.burst)

end Sys2Proof.Machine
end

