-- ==== Sys2Proof/Machine/FlashIf.lean ====
section
/-!
DEFINITION. The flash channel interface: initialisation and training of channels, status polls, timeouts and retraining (R215 to
R237, R318, R652).
-/
namespace Sys2Proof.Machine
open Sys2Proof

/-- The group data rates, in MT/s, in ascending order (R215). -/
def groupRates : List Nat := [800, 1200, 1600, 2400, 3200, 3600, 4000, 4800]

/-- Change a die. -/
def State.modDie (s : State) (d : Nat) (f : DieSt → DieSt) : State := s.modFlashIf fun x => { x with dies := tmod x.dies d {} f }

/-- Change a channel. -/
def State.modChannel (s : State) (ch : Nat) (f : ChanSt → ChanSt) : State := s.modFlashIf fun x => { x with chans := tmod x.chans ch {} f }

/-- The rates that training tries: from key 0x0101 down to key 0x0102 (R229). -/
def State.trainRates (s : State) : List Nat :=
  (groupRates.filter fun r => decide (s.key2 0x0102 ≤ r) && decide (r ≤ s.key2 0x0101)).reverse

/-- A die has passing eyes at a rate (R229). -/
def State.passesAt (s : State) (d : DieSt) (rate : Nat) : Bool := decide (s.key2 0x010A ≤ d.eyes.getD (groupRates.idxOf rate) 0)

/-- The dies of a group that have been trained at this start. -/
def State.trainedDies (s : State) (g : Nat) : List DieSt := (s.flashIf.dies.filter fun e => e.1 / 128 == g && !e.2.eyes.isEmpty).map (·.2)

/-- The rate of R229: the first at which every die of the group passes, else the floor. -/
def State.trainedRate (s : State) (g : Nat) : Nat :=
  let rs := s.trainRates
  (rs.find? fun r => (s.trainedDies g).all fun d => s.passesAt d r).getD (rs.getLastD (s.key2 0x0102))

/-- Geometry and interface of a die are allowed, and are those of the first good die (R220, R221). -/
def State.dieAllowed (s : State) (r : DieReport) : Bool :=
  let g := s.flashIf.geo
  r.page == 16384 && decide (1536 ≤ r.spare) && [1, 2, 4].contains r.planes && r.colCycles == 2 && (r.rowCycles == 3 || r.rowCycles == 4) &&
    decide (r.gbits ≤ 4096) && decide (s.key2 0x0102 ≤ r.rate) &&
    (g.planes == 0 || (g.planes == r.planes && g.blocks == r.blocks && g.wordlines == r.wordlines && g.spare == r.spare && g.tb == r.gbits &&
      g.rowCycles == r.rowCycles && g.rates == r.rate && g.denseBits == r.dense))

/-- One die as initialisation finds it: used, or declared failed with its finding recorded. -/
def State.findDie (s : State) (ch : Nat) (r : DieReport) : State :=
  let d := 32 * ch + r.addr
  if s.dieAllowed r then
    let s := s.modFlashIf fun x => if x.geo.planes ≠ 0 then x else
      { x with geo := { planes := r.planes, blocks := r.blocks, wordlines := r.wordlines, spare := r.spare, tb := r.gbits, rowCycles := r.rowCycles,
                        rates := r.rate, denseBits := r.dense } }
    s.modDie d fun x => { x with present := true, usable := true, eyes := r.eyes }
  else ((s.modDie d fun x => { x with present := true }).note 0x4001 3 d [4]).dieFailed d

/-- The rate of a group after one more channel has trained: every fall-back is recorded, every passing die takes its values, and at the floor
the dies that fail are declared failed (R229). -/
def State.trainGroup (s : State) (g : Nat) : State :=
  let old := tgetD s.flashIf.groupRate g (s.key2 0x0101)
  let rate := s.trainedRate g
  let falls := (s.trainRates.filter fun r => decide (rate ≤ r) && decide (r < old))
  let s := falls.foldl (fun s r => s.note 0x4002 0 0 [g, r]) s
  let s := s.modFlashIf fun x => { x with groupRate := tput x.groupRate g rate }
  (s.flashIf.dies.filter fun e => e.1 / 128 == g && !e.2.eyes.isEmpty).foldl (fun s (e : Nat × DieSt) =>
    if s.passesAt e.2 rate then
      s.modDie e.1 fun x => { x with trained := true, rate := rate, eye := x.eyes.getD (groupRates.idxOf rate) 0, lastTrain := s.now }
    else s.dieFailed e.1) s

/-- R220, R228, R229: a channel is initialised with the dies that respond: volumes are appointed, each die is checked and trained, the group
takes its rate, and Fnn_WP_N rises unless the safe state holds it. A channel without a passing die is fenced as a training failure. `rb` is
that Fnn_RB_N rose within the 10 ms of step 1; where it did not, no die responds, and a channel for which key 0x0104 lists none either is not
fitted: one event and nothing else (R652). -/
def execChannelInitialisation (ch : Nat) (rb : Bool) (dies : List DieReport) (s : State) : Host.Outcome State Fault Refusal :=
  if ch ≥ 32 || (tgetD s.flashIf.chans ch {}).inited || !s.pwr.rails.contains 6 || (s.fw.stage ≠ .dram && s.fw.stage ≠ .core) || s.pwr.pl.running then .next s
  else
    let pop := s.keyN 0x0104 (4 * ch) 4
    if !rb && pop == 0 then .next ((s.note 0x4001 2 ch [5]).modChannel ch fun c => { c with inited := true }) else
    let dies := if rb then dies else []
    let listed (a : Nat) : Bool := pop == 0 || bitAt pop a
    let s := (maskList 32 pop).foldl (fun s a =>
      if dies.any (·.addr == a) then s else (s.note 0x4001 3 (32 * ch + a) [2]).dieFailed (32 * ch + a)) s
    let s := dies.foldl (fun s r =>
      if r.addr ≥ 32 then s else if listed r.addr then s.findDie ch r else (s.modDie (32 * ch + r.addr) fun x => { x with present := true }).note 0x4001 3 (32 * ch + r.addr) [3]) s
    let s := if dies.isEmpty then s.note 0x4001 2 ch [5] else s
    let s := s.trainGroup (ch / 4)
    let s := s.modChannel ch fun c => { c with inited := true, fitted := true, wp := !s.safeState }
    let live := s.flashIf.dies.any fun e => e.1 / 32 == ch && e.2.trained && !e.2.failed
    .next (if live then s else (s.modChannel ch fun c => { c with trainFence := some s.now, wp := false }).fault (0x060 + ch))

/-- Kinds of array operation (R224). -/
def dieOpOf (n : Nat) : DieOp := if n = 0 then .read else if n = 1 then .program else if n = 2 then .erase else .reset

/-- R225: Read Status Enhanced finds an array operation of a die still busy, or ready, which ends a run of timeouts. -/
def execStatusPoll (die op : Nat) (ready : Bool) (s : State) : Host.Outcome State Fault Refusal :=
  if !(s.die die).usable || (s.die die).failed then .next s
  else if ready then .next (s.modDie die fun d => { d with op := none, polls := 0, timeouts := 0, again := false })
  else .next (s.modDie die fun d => { d with op := some (dieOpOf op), polls := d.polls + 1 })

/-- R226, R318: an operation has not reported ready within its limit. Reset LUN goes to that die alone. A read (`a` its job) is issued once
more and then enters the ladder; a program (`a`, `b`, `c` its span, batch and member) has status other than good; an erase
counts among the failed members when the erase of its span ends. Two timeouts in a row, or a Reset LUN that times out, fail the die. -/
def execOperationTimeout (die op a b c : Nat) (resetOk : Bool) (s : State) : Host.Outcome State Fault Refusal :=
  let d := s.die die
  if !d.usable || d.failed then .next s
  else
    let s := (s.fault (0x0C0 + die / 32) [die]).modDie die fun d => { d with op := none, polls := 0, timeouts := d.timeouts + 1, again := op == 0 && !d.again }
    let s := if !resetOk || d.timeouts + 1 ≥ 2 then s.dieFailed die else s
    if op = 0 then
      match s.job? a with
      | some j => if d.again && j.phase = .fetch && (s.blocksOf j.loc).any (·.1 == die) then .next (s.ladder j 0) else .next s
      | none => .next s
    else if op = 1 then
      let sp := s.span a
      let w := sp.members.length
      if (sp.members.getD (if c + 1 < w then memberPos w b c else b % w) (0, 0)).1 = die then execProgramComplete a b c false true s else .next s
    else .next s

/-- R230, R318: the retrain of a die, with the narrowest eye found and the one of a full training if that fails. A busy die or channel postpones
it; a power-loss sequence or a gated domain leaves the stored values. -/
def execRetrainInterval (die eye full : Nat) (s : State) : Host.Outcome State Fault Refusal :=
  let d := s.die die
  if !d.trained || d.failed || s.pwr.pl.running then .next s
  else
    let s := if d.retrainDue then s else s.reach (d.lastTrain + s.key2 0x0109 * sec)
    if d.op.isSome || s.pwr.gated.contains (5 + die / 128) then .next (s.modDie die fun d => { d with retrainDue := true })
    else
      let take (e : Nat) : State := s.modDie die fun d => { d with retrainDue := false, lastTrain := s.now, eye := e, retrainFails := 0 }
      if s.key2 0x010A ≤ eye then .next (take eye)
      else if s.key2 0x010A ≤ full then .next (take full)
      else .next ((s.modDie die fun d => { d with retrainDue := false, lastTrain := s.now, retrainFails := 2 }).dieFailed die)

/-- A change of the flash temperature band: every trained die is due (R230). -/
def State.retrainAll (s : State) : State :=
  s.modFlashIf fun x => { x with dies := x.dies.map fun (e : Nat × DieSt) => if e.2.trained then (e.1, { e.2 with retrainDue := true }) else e }

end Sys2Proof.Machine
end

