-- ==== Sys2Proof/Machine/Resets.lean ====
section
/-!
DEFINITION. Controller enable, controller reset and shutdown, Function Level Reset and the conventional resets of the endpoint
(R86 to R88, R128, R167, R168, R183, R479, R480, R486, R487, R541, R578, R590, R669).
-/
namespace Sys2Proof.Machine
open Sys2Proof

/-! What a reset drops -/

/-- R88: every context is discarded without a completion. Chunks that have started programming go on and are mapped, the others are dropped,
and nothing that waited for a context's completion is left. -/
def State.discardContexts (s : State) : State :=
  let s := s.modHost fun h => { h with ctxs := [], stalled := none }
  let s := s.cancelReads fun j => j.flow == 0
  let s := s.modMap fun m => { m with subHeld := [] }
  let s := s.modCfg fun c => { c with waiters := [] }
  let s := s.modEvt fun e => { e with clears := e.clears.map fun x => (x.1, x.2.1, none) }
  let s := s.modFw fun f => { f with act := f.act.map fun a => { a with stamp := none } }
  let s := s.host.versions.foldl (fun s v =>
    if v.wsn = 0 then ((s.unqueueVersion v).releaseVersion v).dropVersion v.id else s.modVersion v.id fun v => { v with joiners := [] }) s
  s.effectParked.settle

/-- Requests that were outstanding at a reset: their completions are unexpected, their tags rest until the timers would have expired (R479). -/
def State.abandonReads (s : State) (reset : Bool) : State :=
  let dead := (s.pcie.outstanding.filter fun r => !r.arrived && decide (r.timeout ≠ 0)).map fun r =>
    ({ tag := r.tag, start := r.issued, period := r.timeout, peel := r.kind.isPeel, reset := reset } : DeadTag)
  s.modPcie fun p => { p with deadTags := p.deadTags ++ dead, outstanding := [], waitReads := [], fetchRetry := none
                              heldWrites := [], heldCqes := [], pend := [], fetchDead := false, intxSts := false }

/-- Features that a controller reset returns at once: PIN_EN, the profile schedule and the scheduled activation (R541, R578). -/
def State.disarm (s : State) : State :=
  let was := s.cfg.pinEn
  let s := s.modCfg fun c => { c with pinEn := c.img.pinEn, schedEn := false }
  let s := if !was && s.cfg.pinEn && s.cfg.drainActive ≠ pinDrain s.cfg.recordDeb then s.trigger (pinDrain s.cfg.recordDeb) .pin else s
  let t := s.fw.actTime.toNat
  let s := if s.fw.act.any (fun a => a.scheduled && a.trigger.isNone) then s.cancelScheduled.note 0x8004 0 0 [t] else s
  s.modFw fun f => { f with armed := false }

/-- The NVMe controller goes to its reset state: queues, events and error log are gone; admin queue attributes stay (R485, R486). -/
def State.resetController (s : State) : State :=
  let s := (s.peelReset.pushReset).discardContexts
  (s.modNvme fun n => { n with
    en := false, rdy := false, cfs := false, shst := 0, intms := 0, enAt := none, sqs := [], cqs := [], aers := [], raised := [], waitingEv := []
    errLog := [], cycle := n.cycle.filter fun o => !o.host }).disarm

/-- R88, R167, R183: CC.EN is cleared. -/
def State.controllerReset (s : State) : State := ((s.modNvme fun n => { n with sqs := [], cqs := [] }).abandonReads false).resetController

/-! Enable (R486, R572, R590) -/

/-- A CC that R486 accepts, with the admin queue attributes. -/
def NvmeSt.ccOk (n : NvmeSt) : Bool :=
  n.css = 0 && decide (n.mps.toNat ≤ 4) && decide (n.ams.toNat ≤ 1) && !n.crime && decide (n.asqs ≠ 0) && decide (n.acqs ≠ 0)

/-- CC.EN is set. Device firmware returns the features to their values and starts the stamps anew; an activation that waited for an enable is
triggered; DRAM out of service or a latched safe state gives CSTS.CFS. -/
def State.controllerEnable (s : State) : State :=
  let s := s.modNvme fun n => { n with en := true }
  if !s.nvme.ccOk then s.modNvme fun n => { n with cfs := true }
  else
    let n := s.nvme
    let s := s.featureDefaults
    let s := if s.cfg.pinEn && s.cfg.drainActive ≠ pinDrain s.cfg.recordDeb then s.trigger (pinDrain s.cfg.recordDeb) .pin else s
    let s := s.modHost fun h => { h with lastStamp := 0, stalled := none, arbLast := 0, arbLeft := 0, arbCredit := [0, 0, 0] }
    let s := s.modNvme fun m => { m with
      sqs := [(0, { size := n.asqs.toNat + 1, cqid := 0, prio := 0, base := n.asq.toNat })]
      cqs := [(0, { size := n.acqs.toNat + 1, vector := 0, ien := true, base := n.acq.toNat })] }
    let s := s.announceDeferred
    let dead := s.flt.state = .latched || s.fw.stage = .dram
    if dead then s.modNvme fun n => { n with cfs := true }
    else
      let s := if s.safeState then s.modNvme fun n => { n with enAt := some s.now } else s
      let s := s.modFw fun f => { f with act := f.act.map fun a => if a.atEnable && a.trigger.isNone then { a with trigger := some s.now } else a }
      s.becomeReady

/-! Shutdown (R128, R168, R183, R351, R487) -/

/-- CC.SHN names a shutdown. An abrupt one is handled as a normal one (assumption log 33). -/
def State.beginShutdown (s : State) : State :=
  let s := s.modNvme fun n => { n with shst := 1 }
  let s := (s.peelShutdown).spinDown false false
  s.shutdownCheck

/-- A write of CC: the fields first, then what EN and SHN change (R485). -/
def State.writeCc (s : State) (v : Nat) : State :=
  let en := bitAt v 0
  let was := s.nvme.en
  let shn := bits v 14 2
  let begin_ := s.nvme.shn = 0 && (shn = 1 || shn = 2)
  let s := s.modNvme fun n => { n with
    css := BitVec.ofNat 3 (bits v 4 3), mps := BitVec.ofNat 4 (bits v 7 4), ams := BitVec.ofNat 3 (bits v 11 3), shn := BitVec.ofNat 2 shn
    iosqes := BitVec.ofNat 4 (bits v 16 4), iocqes := BitVec.ofNat 4 (bits v 20 4), crime := bitAt v 24 }
  let s := if was && !en then s.controllerReset else if !was && en then s.controllerEnable else s
  if begin_ && en then s.beginShutdown else s

/-- BAR0 holds the NVMe registers and takes requests. -/
def State.nvmeOpen (s : State) : Bool := s.memOpen && !s.pcie.recovery && s.pcie.present

/-- CC as it stands. -/
def NvmeSt.cc (n : NvmeSt) : Nat :=
  b2n n.en + 2 ^ 4 * n.css.toNat + 2 ^ 7 * n.mps.toNat + 2 ^ 11 * n.ams.toNat + 2 ^ 14 * n.shn.toNat + 2 ^ 16 * n.iosqes.toNat +
    2 ^ 20 * n.iocqes.toNat + 2 ^ 24 * b2n n.crime

/-- R486, R590: the host writes CC with EN 1 while it is 0. -/
def execControllerEnable (cc : Dword) (s : State) : Host.Outcome State Fault Refusal :=
  if !s.nvmeOpen || s.nvme.en || !bitAt cc.toNat 0 then .next s else .next (s.writeCc cc.toNat)

/-- R88, R167, R183, R590: the host writes CC with EN 0 while it is 1. -/
def execControllerReset (cc : Dword) (s : State) : Host.Outcome State Fault Refusal :=
  if !s.nvmeOpen || !s.nvme.en || bitAt cc.toNat 0 then .next s else .next (s.writeCc cc.toNat)

/-- R128, R487: the host writes CC.SHN; the other fields of CC stay as they are. -/
def execShutdownNotification (shn : BitVec 2) (s : State) : Host.Outcome State Fault Refusal :=
  if !s.nvmeOpen then .next s else .next (s.writeCc (s.nvme.cc - 2 ^ 14 * s.nvme.shn.toNat + 2 ^ 14 * shn.toNat))

/-! Function Level Reset and conventional resets (R479, R480) -/

/-- Capture Window registers at their reset values; leased and queued buffers are already back in their pools (R167, R479). The switches of
feature 0xC5 are no registers of the window. -/
def State.windowReset (s : State) : State :=
  s.modWin fun w => { pushEn := w.pushEn, poolSize := w.poolSize, leaseUs := w.leaseUs }

/-- The configuration registers at their reset values. Sticky AER registers, the state of the link and the link registers stay; so do tags at
rest, whose timers run on. -/
def PcieSt.flr (p : PcieSt) (now : Nat) : PcieSt :=
  { recovery := p.recovery, present := p.present, mps := p.mps, aspmL1 := p.aspmL1, l1pm := p.l1pm, l12Thr := p.l12Thr, linkUp := p.linkUp
    width := p.width, l0pWidth := p.l0pWidth, speed := p.speed, flit := p.flit, linkL1 := p.linkL1, refclk := p.refclk, perstN := p.perstN
    crs := some now, lastLtr := p.lastLtr, deadTags := p.deadTags, aerCor := p.aerCor, aerUnc := p.aerUnc, aerSev := p.aerSev
    aerMaskC := p.aerMaskC, aerMaskU := p.aerMaskU, stored := p.stored.filter fun (e : Nat × Nat) => decide (e.1 ≠ 0x78) && decide (e.1 ≠ 0x98) }

/-- What a conventional reset does beyond that: the link registers return to their reset values and the link is down until it trains. -/
def PcieSt.conventional (p : PcieSt) : PcieSt :=
  { p with mps := 128, aspmL1 := false, l1pm := 0, l12Thr := 0, linkUp := false, width := 0, l0pWidth := 0, speed := 0, flit := false, linkL1 := 0, stored := [] }

/-- R479: the effects of a Function Level Reset. -/
def State.functionReset (s : State) : State :=
  let s := (s.modNvme fun n => { n with sqs := [], cqs := [] }).abandonReads true
  let s := s.resetController.windowReset
  let s := s.modNvme fun n => { n with
    css := 0, mps := 0, ams := 0, shn := 0, iosqes := 0, iocqes := 0, crime := false, asqs := 0, acqs := 0, asq := 0, acq := 0 }
  s.modPcie fun p => p.flr s.now

/-- R480: a conventional reset of the endpoint. -/
def State.endpointReset (s : State) : State := s.functionReset.modPcie PcieSt.conventional

/-- R479. Only a function that answers configuration requests can be told to reset. -/
def execFunctionLevelReset (s : State) : Host.Outcome State Fault Refusal :=
  if !s.pcie.present || !s.pcie.linkUp then .next s else .next s.functionReset

/-- R480, R658: PERST_N goes low. -/
def execPerstNAssert (s : State) : Host.Outcome State Fault Refusal :=
  .next (s.endpointReset.modPcie fun p => { p with perstN := false, crs := none })

/-- R480: PERST_N is released: configuration requests are answered, with Request Retry Status until the endpoint is ready. -/
def execPerstNRelease (s : State) : Host.Outcome State Fault Refusal :=
  if s.pcie.perstN then .next s else .next (s.modPcie fun p => { p with perstN := true, crs := some s.now })

/-- R480: the partner sends a hot reset. -/
def execHotReset (s : State) : Host.Outcome State Fault Refusal := if s.pcie.linkUp then .next s.endpointReset else .next s

/-- R480: the link goes down. -/
def execLinkDown (s : State) : Host.Outcome State Fault Refusal := if s.pcie.linkUp then .next s.endpointReset else .next s

/-- R669: REFCLK is lost; a link that is up goes down. -/
def execRefclkLoss (s : State) : Host.Outcome State Fault Refusal :=
  let s := s.modPcie fun p => { p with refclk := false }
  if s.pcie.linkUp then .next s.endpointReset else .next s

/-- R25: REFCLK is present again. -/
def execRefclkReturn (s : State) : Host.Outcome State Fault Refusal := .next (s.modPcie fun p => { p with refclk := true })

end Sys2Proof.Machine
end

