-- ==== Sys2Proof/Machine/Pcie.lean ====
section
/-!
DEFINITION. The PCIe endpoint: link training and link power states, completions of its requests and their failures, Bus Master Enable,
device power states, MSI-X unmasking and JTAG (R25, R162, R163, R165, R166, R463 to R470, R473 to R477, R482, R658).
-/
namespace Sys2Proof.Machine
open Sys2Proof

/-! Link (R464 to R468) -/

/-- A width and a speed that the keys allow. -/
def State.linkFits (s : State) (width speed : Nat) : Bool := s.widthOk width && decide (1 ≤ speed) && decide (speed ≤ s.key2 0x0805)

/-- The link runs at a width and a speed; below the target it is recorded. -/
def State.linkAt (s : State) (width speed : Nat) (flit : Bool) : State :=
  let changed := decide (s.pcie.width ≠ width) || decide (s.pcie.speed ≠ speed)
  (s.modPcie fun p => { p with linkUp := true, width := width, l0pWidth := width, speed := speed, flit := flit || speed == 6, linkL1 := 0 }).noteLink width speed changed

/-- R25, R464: the link trains, while REFCLK is present and PERST_N is released. `flit`: the partner supports Flit mode; at 64.0 GT/s it is in use
in any case. -/
def execLinkTrainingEnd (width speed : Nat) (flit : Bool) (s : State) : Host.Outcome State Fault Refusal :=
  if !s.pcie.refclk || !s.pcie.perstN || !s.pcie.present || s.pcie.linkUp || !s.linkFits width speed then .next s
  else .next (s.linkAt width speed flit)

/-- R465: the partner changes the speed or the width. -/
def execPartnerLinkChange (width speed : Nat) (s : State) : Host.Outcome State Fault Refusal :=
  if !s.pcie.linkUp || !s.linkFits width speed then .next s else .next (s.linkAt width speed s.pcie.flit)

/-- CLKREQ_N is a pin (R467). -/
def State.clkreq (s : State) : Bool := decide (s.key2 0x0806 ≠ 0xFFFF)

/-- The L1 state that the enables of L1 PM Substates Control 1 allow for ASPM: bit 3 is ASPM L1.1, bit 2 ASPM L1.2, which also needs a latency
tolerance of at least its threshold (R467). -/
def State.l1Depth (s : State) : Nat :=
  if !s.clkreq then 1
  else if bitAt s.pcie.l1pm.toNat 2 && decide (s.pcie.l12Thr ≤ s.pcie.lastLtr) then 3
  else if bitAt s.pcie.l1pm.toNat 3 then 2 else 1

/-- R466, R467: 32 µs of idle link with ASPM L1 enabled and nothing outstanding or waiting to be sent. -/
def execAspmL1IdleTimeout (s : State) : Host.Outcome State Fault Refusal :=
  if !s.pcie.aspmL1 || !s.pcie.linkUp || s.pcie.linkL1 ≠ 0 || s.pcie.outstanding.any (fun r => !r.arrived) || (s.canMaster && !s.pcie.waitReads.isEmpty) then .next s
  else .next (s.modPcie fun p => { p with linkL1 := s.l1Depth })

/-- R468: L0p narrows the link to half of its width, never below x2, or widens it to the trained width. `down`: traffic averaged below 20 % over
100 µs; otherwise the outbound backlog is above 64 KiB or the partner asks. -/
def execL0pWidthChange (down : Bool) (s : State) : Host.Outcome State Fault Refusal :=
  let p := s.pcie
  if !p.l0pEn || !p.flit || !p.linkUp then .next s
  else if down then .next (if p.l0pWidth ≤ 2 then s else s.modPcie fun p => { p with l0pWidth := p.l0pWidth / 2 })
  else .next (s.modPcie fun p => { p with l0pWidth := p.width })

/-! Failures (R162, R475) -/

/-- A tag rests for one further timeout period (R476). -/
def State.restTag (s : State) (r : OutReq) : State :=
  s.modPcie fun p => { p with
    outstanding := p.outstanding.filter fun x => x.arrived || x.tag != r.tag
    deadTags := if r.timeout = 0 then p.deadTags else p.deadTags ++ [{ tag := r.tag, start := s.now, period := r.timeout, peel := r.kind.isPeel }] }

/-- The command of a failed fetch ends with Data Transfer Error. -/
def State.failFetchOf (s : State) (stamp : Nat) : State :=
  match s.ctx? stamp with
  | some c => (s.catchCmd c scDataTransfer).settle
  | none => s

/-- A request failed: by timeout, or with an error status or poisoned data (R475). -/
def State.failRead (s : State) (r : OutReq) (timeout : Bool) : State :=
  let s := s.restTag r
  let s := match r.kind with
    | .sqFetch q =>
      if r.again then (s.modNvme fun n => { n with cfs := true }).modPcie (fun p => { p with fetchDead := true }) |>.fault 0x1F0 [q]
      else s.modPcie fun p => { p with fetchRetry := some (q, s.now) }
    | .prp st => s.failFetchOf st
    | .data st => s.failFetchOf st
    | .peelDesc ch _ => s.failDesc ch (if timeout then 2 else 3)
    | .peelSrc ch st _ => s.failSource ch st (if timeout then 2 else 3)
  s.pumpReads

/-- The request with a tag that still waits for its completion. -/
def State.reqOf (s : State) (tag : Nat) : Option OutReq := s.pcie.outstanding.find? fun r => r.tag == tag && !r.arrived

/-- The timer of a request expires (R474). -/
def State.expire (s : State) (r : OutReq) : State := ((s.reach (r.issued + r.timeout)).aerUncorrectable aerTimeout false).failRead r true

/-- R474, R475: a completion timer expires. A request issued with the timeout disabled has none. -/
def execCompletionTimeout (tag : Nat) (s : State) : Host.Outcome State Fault Refusal :=
  match s.reqOf tag with
  | none => .next s
  | some r => if r.timeout = 0 then .next s else .next (s.expire r)

/-- A completion that matches no outstanding request changes nothing but its logs: AER, unless the request was outstanding at a reset, the event
recorder, and LATE_CPL for a Peel read (R165, R476, R479). -/
def State.unexpected (s : State) (tag : Nat) : State :=
  let d := s.pcie.deadTags.find? fun d => d.tag == tag
  let s := if d.any (·.reset) then s else s.aerUncorrectable aerUnexpected true
  let s := s.note 0x7002 0 0 [tag]
  if d.any (·.peel) then s.modWin fun w => { w with lateCpl := satInc w.lateCpl } else s

/-- R476: a late or unmatched completion. One that an outstanding request waits for is not unexpected. -/
def execUnexpectedCompletion (tag : Nat) (s : State) : Host.Outcome State Fault Refusal :=
  if (s.reqOf tag).isSome then .next s else .next (s.unexpected tag)

/-- R475, R476: the last completion of a read arrives. `status`: 0 success, 1 Unsupported Request, 2 Completer Abort, 3 poisoned data. With success
the request is accepted, its timer stops and its tag is free; the row of its kind then uses the data. A completion after the expiry
of its timer is late. -/
def execReadCompletionReceived (tag status : Nat) (s : State) : Host.Outcome State Fault Refusal :=
  match s.reqOf tag with
  | none => .next (s.unexpected tag)
  | some r =>
    if r.timeout ≠ 0 && r.issued + r.timeout < s.now then .next ((s.expire r).unexpected tag)
    else if status = 0 then
      .next (s.modPcie fun p => { p with outstanding := p.outstanding.map fun x => if x.tag == tag && !x.arrived then { x with arrived := true } else x }).pumpReads
    else
      let s := s.headerErr status
      .next ((if status = 3 then s.aerUncorrectable aerPoisoned true else s).failRead r false)

/-- R475: 10 µs after it failed, the fetch of a submission queue entry is issued once more. -/
def execSqFetchRetry (s : State) : Host.Outcome State Fault Refusal :=
  match s.pcie.fetchRetry with
  | none => .next s
  | some (q, t) =>
    let s := (s.reach (t + 10 * us)).modPcie fun p => { p with fetchRetry := none }
    match tget s.nvme.sqs q with
    | none => .next s
    | some x => .next (s.issueRead (.sqFetch q) (x.base + 64 * x.head) 64 true)

/-- R476, R473: the rest of a tag is over, and requests that wait for a tag go out. -/
def execTagReuseTimeout (tag : Nat) (s : State) : Host.Outcome State Fault Refusal :=
  match s.pcie.deadTags.find? fun d => d.tag == tag with
  | none => .next s
  | some d => .next ((s.reach (d.start + d.period)).modPcie fun p => { p with deadTags := p.deadTags.filter fun x => x.tag != tag }).pumpReads

/-- R481, R482: a poisoned memory write is discarded, whatever its target, and logged. -/
def execPoisonedWriteReceived (s : State) : Host.Outcome State Fault Refusal :=
  if s.pcie.linkUp then .next ((s.modPcie fun p => { p with linkL1 := 0, errSts := p.errSts ||| 16 }).aerUncorrectable aerPoisoned true) else .next s

/-! Bus Master Enable, device power states and MSI-X (R166, R463, R469, R470, R477) -/

/-- Pending messages of unmasked vectors are sent. -/
def State.sendPending (s : State) : State :=
  s.pcie.pend.foldl (fun s v => s.fireVector v) (s.modPcie fun p => { p with pend := [] })

/-- Requests may leave again: held writes in their original order, then held completion queue entries, each with its message; then fetching
and reading resume. -/
def State.resumeRequests (s : State) : State := if s.canMaster then (s.flushWrites.flushCqes.settle.sendPending.pumpReads).peelBmSet else s

/-- Bus Master Enable changes. -/
def State.setBusMaster (s : State) (v : Bool) : State :=
  if s.pcie.bmEn = v then s
  else
    let s := s.modPcie fun p => { p with bmEn := v }
    if v then s.resumeRequests else s.peelBmClear

/-- R166, R477. -/
def execBusMasterEnableClear (s : State) : Host.Outcome State Fault Refusal := .next (s.setBusMaster false)

/-- R166, R477. A function without its identity, or one that answers with Request Retry Status, takes no write. -/
def execBusMasterEnableSet (s : State) : Host.Outcome State Fault Refusal :=
  if !s.pcie.present || s.pcie.crs.isSome then .next s else .next (s.setBusMaster true)

/-- R463: the mask of a vector, or with none the function mask, is cleared; pending messages that are no longer masked are sent. -/
def State.unmask (s : State) (v : Option Nat) : State :=
  (s.modPcie fun p => match v with
    | some v => { p with unmasked := if p.unmasked.contains v then p.unmasked else p.unmasked ++ [v] }
    | none => { p with msixMask := false }).sendPending

/-- R463. The table has 1,025 vectors. -/
def execMsixVectorUnmask (v : Option Nat) (s : State) : Host.Outcome State Fault Refusal :=
  if v.any (fun v => decide (1025 ≤ v)) || s.pcie.crs.isSome then .next s else .next (s.unmask v)

/-- A write that moves the function to D3hot: the LTR message first, then no request leaves. -/
def State.enterD3 (s : State) : State :=
  if s.pcie.dstate = .d3hot then s
  else ((s.sendLtr 3000).modPcie fun p => { p with dstate := .d3hot }).peelBmClear

/-- A return to D0: the configuration state is unchanged and held writes go out. -/
def State.leaveD3 (s : State) : State :=
  if s.pcie.dstate = .d0 then s else (s.modPcie fun p => { p with dstate := .d0 }).resumeRequests

/-- R469, R470. -/
def execD3hotEntry (s : State) : Host.Outcome State Fault Refusal := if s.pcie.present then .next s.enterD3 else .next s

/-- R470. -/
def execD0Return (s : State) : Host.Outcome State Fault Refusal := if s.pcie.present then .next s.leaveD3 else .next s

/-! JTAG (R658) -/

/-- R658: boundary scan is offered after boot start; every other instruction is refused while test mode is locked. What another instruction does
with test mode unlocked is not described: it leaves the block as it is (log 34). -/
def execJtagInstruction (boundary : Bool) (s : State) : Host.Outcome State Fault Refusal :=
  if s.fw.stage = .off then .next s
  else .next (s.modPins fun p => { p with jtag := if boundary then .boundary else if s.cfg.testMode then p.jtag else .refused })

end Sys2Proof.Machine
end

