-- ==== Sys2Proof/Machine/Mmio.lean ====
section
/-!
DEFINITION. What requesters read and write: the configuration space, the memory requests to the BARs, and the registers without a behaviour
of their own (R4, R5, R145, R146, R270, R419, R427, R453, R456 to R463, R478 to R485, R547, R563, R567, R592).
-/
namespace Sys2Proof.Machine
open Sys2Proof

/-! Configuration space: what is read (R456 to R462). Codes of fields that the PCI Express specification defines are PRESUMED (log 35) -/

/-- An extended capability header, version 1. -/
def extHead (id next : Nat) : Nat := id + 2 ^ 16 + 2 ^ 20 * next

/-- Max_Payload_Size and Max_Read_Request_Size as their code: 128 bytes is 0. -/
def sizeCode (n : Nat) : Nat := if n ≤ 128 then 0 else if n = 256 then 1 else if n = 512 then 2 else if n = 1024 then 3 else if n = 2048 then 4 else 5

/-- Stored bits of a register. -/
def PcieSt.keep (p : PcieSt) (off dflt : Nat) : Nat := tgetD p.stored off dflt

/-- The dwords of the Designated Vendor-Specific capability (R462). -/
def dvsec (k : Nat) : Nat := [extHead 0x23 0, 0x1F4B + 2 ^ 20 * 0x30, 1 + 2 ^ 16 * 2 + 2 ^ 24, 0, 64 + 2 ^ 16 * 0x100, 0x4000, 16 + 2 ^ 16 * 0x100,
  0x8000, 0x1000000, 12288 + 2 ^ 16 * 0x1000].getD k 0

/-- Headers of the extended capabilities, in their order (R460). -/
def extCaps : List (Nat × Nat × Nat) :=
  [(0x100, 0x0001, 0x148), (0x148, 0x0003, 0x158), (0x158, 0x0019, 0x178), (0x178, 0x0025, 0x188), (0x188, 0x002F, 0x198), (0x198, 0x0026, 0x1C8),
   (0x1C8, 0x002A, 0x1F8), (0x1F8, 0x0031, 0x228), (0x228, 0x0027, 0x250), (0x250, 0x001E, 0x268), (0x268, 0x0018, 0x270)]

/-- Command and status (R456). -/
def PcieSt.command (p : PcieSt) : Nat :=
  2 * b2n p.memEn + 4 * b2n p.bmEn + 2 ^ 6 * b2n p.perrEn + 2 ^ 8 * b2n p.serrEn + 2 ^ 10 * b2n p.intxDis + 2 ^ 19 * b2n p.intxSts + 2 ^ 20 +
    2 ^ 24 * bits p.errSts.toNat 0 1 + 2 ^ 28 * bits p.errSts.toNat 1 4

/-- The Type 0 header. -/
def State.headerDword (s : State) (o : Nat) : Nat :=
  let p := s.pcie
  match o with
  | 0x00 => 0x1F4B + 2 ^ 16 * (if p.recovery then 0x74FE else 0x7400)
  | 0x04 => p.command
  | 0x08 => 1 + 2 ^ 8 * (if p.recovery then 0xFF0000 else 0x010802)
  | 0x0C => p.cacheLine.toNat
  | 0x10 => half p.bar0.toNat 0 / 2 ^ 16 * 2 ^ 16 + 4 | 0x14 => half p.bar0.toNat 1
  | 0x18 => if p.recovery then 0 else half p.bar2.toNat 0 / 2 ^ 27 * 2 ^ 27 + 0xC
  | 0x1C => if p.recovery then 0 else half p.bar2.toNat 1
  | 0x20 => if p.recovery then 0 else half p.bar4.toNat 0 / 2 ^ 16 * 2 ^ 16 + 4
  | 0x24 => if p.recovery then 0 else half p.bar4.toNat 1
  | 0x2C => s.key2 0x0801 + 2 ^ 16 * s.key2 0x0802
  | 0x34 => 0x40
  | 0x3C => p.intLine.toNat + 2 ^ 8
  | _ => 0

/-- The capabilities below 0x100 (R460, R461). -/
def State.capDword (s : State) (o : Nat) : Nat :=
  let p := s.pcie
  match o with
  | 0x40 => 0x01 + 2 ^ 8 * 0x50 + 2 ^ 16 * 3
  | 0x44 => (if p.dstate = .d0 then 0 else 3) + 2 ^ 3
  | 0x50 => 0x11 + 2 ^ 8 * 0x70 + 2 ^ 16 * (1024 + 2 ^ 14 * b2n p.msixMask + 2 ^ 15 * b2n p.msixEn)
  | 0x54 => 4 | 0x58 => 0x8004
  | 0x70 => 0x10 + 2 ^ 16 * 2
  | 0x74 => 2 + 2 ^ 5 + 2 ^ 9 * 6 + 2 ^ 15 + 2 ^ 28
  | 0x78 => p.keep 0x78 0x900 + 2 ^ 4 * b2n p.roEn + 2 ^ 5 * sizeCode p.mps + 2 ^ 12 * sizeCode p.mrrs + 2 ^ 21 * b2n (p.outstanding.any fun r => !r.arrived)
  | 0x7C => s.key2 0x0805 + 2 ^ 4 * s.key2 0x0804 + 2 ^ 11 + 2 ^ 15 * 3 + 2 ^ 18 * b2n s.clkreq
  | 0x80 => p.keep 0x80 0 + 2 * b2n p.aspmL1 + 2 ^ 16 * p.speed + 2 ^ 20 * p.width
  | 0x94 => 0xF + 2 ^ 4 + 2 ^ 11 + 2 ^ 16 + 2 ^ 17
  | 0x98 => p.keep 0x98 0 + p.cto.toNat + 2 ^ 4 * b2n p.ctoDis + 2 ^ 8 * b2n p.idoEn + 2 ^ 10 * b2n p.ltrEn + 2 ^ 12 * b2n p.tag10
  | 0x9C => 2 ^ (s.key2 0x0805 + 1) - 2
  | 0xA0 => p.keep 0xA0 (s.key2 0x0805)
  | _ => 0

/-- The extended capabilities. A recovery function has AER alone (R457). The header log of AER holds the header of a TLP, which no operand here carries:
reading it gives a free value. -/
def State.extDword (s : State) (o : Nat) : Nat × State :=
  let p := s.pcie
  let on := !p.recovery
  match o with
  | 0x104 => (p.aerUnc.toNat, s) | 0x108 => (p.aerMaskU.toNat, s) | 0x10C => (p.aerSev.toNat, s)
  | 0x110 => (p.aerCor.toNat, s) | 0x114 => (p.aerMaskC.toNat, s)
  | 0x11C => let (v, s) := s.fresh 32; (v.toNat, s)
  | 0x120 => let (v, s) := s.fresh 32; (v.toNat, s)
  | 0x124 => let (v, s) := s.fresh 32; (v.toNat, s)
  | 0x128 => let (v, s) := s.fresh 32; (v.toNat, s)
  | 0x14C => (if on then s.keyN 0x0803 0 4 else 0, s)
  | 0x150 => (if on then s.keyN 0x0803 4 4 else 0, s)
  | 0x18C => (if on then 2 + 4 + 8 else 0, s)
  | 0x190 => (if on then 4 * b2n p.tag14 + 8 * b2n p.l0pEn else 0, s)
  | 0x254 => (if on then (if s.clkreq then 0x1F else 0) + 2 ^ 8 * 10 + 2 ^ 16 * 1 + 2 ^ 19 * 4 else 0, s)
  | 0x258 => (if on then p.keep 0x258 0 + p.l1pm.toNat else 0, s)
  | 0x25C => (if on then p.keep 0x25C 0 else 0, s)
  | 0x26C => (if on then p.keep 0x26C 0 else 0, s)
  | _ =>
    match extCaps.find? fun e => e.1 == o with
    | some e => if on then (extHead e.2.1 e.2.2, s) else (if o = 0x100 then extHead 1 0 else 0, s)
    | none => if on && 0x270 ≤ o && o < 0x2A0 then (dvsec ((o - 0x270) / 4), s) else (0, s)

/-- A dword of the configuration space. -/
def State.cfgRead (s : State) (o : Nat) : Nat × State :=
  if o < 0x40 then (s.headerDword o, s) else if o < 0x100 then (s.capDword o, s) else s.extDword o

/-! Configuration space: what is written -/

/-- The bytes that the byte enables name. -/
def beMask (be : Nat) : Nat := (List.range 4).foldl (fun m i => if bitAt be i then m + 255 * 2 ^ (8 * i) else m) 0

/-- A writable value with the enabled bytes replaced. -/
def merge32 (be old v : Nat) : Nat := ((old &&& (0xFFFFFFFF - beMask be)) ||| (v &&& beMask be)) % 2 ^ 32

/-- Bytes of a size code that a control field may take. -/
def sizeOf_ (c limit : Nat) : Nat := min limit (128 * 2 ^ min c 5)

/-- Latency of the L1.2 threshold in µs, from its value and scale. -/
def l12Us (v scale : Nat) : Nat := ceilDiv (v * 32 ^ scale) 1000

/-- A write to the header: Bus Master Enable and Interrupt Disable act at once. -/
def State.headerWrite (s : State) (o be v : Nat) : State :=
  let p := s.pcie
  let hi (x : BitVec 64) (k : Nat) : BitVec 64 := setHalf x k (merge32 be (half x.toNat k) v)
  match o with
  | 0x04 =>
    let w := merge32 be p.command v
    let w1 := v &&& beMask be
    let clr := bits w1 24 1 + 2 * bits w1 28 4
    let s := s.modPcie fun p => { p with memEn := bitAt w 1, perrEn := bitAt w 6, serrEn := bitAt w 8, intxDis := bitAt w 10, errSts := p.errSts &&& ~~~(BitVec.ofNat 5 clr) }
    let s := if p.intxDis && !bitAt w 10 && p.intxSts && !p.msixEn && s.canMaster && !bitAt s.nvme.intms.toNat 0 then s.tlp .intx else s
    s.setBusMaster (bitAt w 2)
  | 0x0C => s.modPcie fun p => { p with cacheLine := BitVec.ofNat 8 (merge32 be p.cacheLine.toNat v) }
  | 0x10 => s.modPcie fun p => { p with bar0 := hi p.bar0 0 &&& ~~~0xFFFF#64 } | 0x14 => s.modPcie fun p => { p with bar0 := hi p.bar0 1 }
  | 0x18 => if p.recovery then s else s.modPcie fun p => { p with bar2 := hi p.bar2 0 &&& ~~~0x7FFFFFF#64 }
  | 0x1C => if p.recovery then s else s.modPcie fun p => { p with bar2 := hi p.bar2 1 }
  | 0x20 => if p.recovery then s else s.modPcie fun p => { p with bar4 := hi p.bar4 0 &&& ~~~0xFFFF#64 }
  | 0x24 => if p.recovery then s else s.modPcie fun p => { p with bar4 := hi p.bar4 1 }
  | 0x3C => s.modPcie fun p => { p with intLine := BitVec.ofNat 8 (merge32 be p.intLine.toNat v) }
  | _ => s

/-- Keep the writable bits of a register that no rule uses. -/
def State.keepBits (s : State) (o mask be dflt v : Nat) : State :=
  s.modPcie fun p => { p with stored := tput p.stored o (merge32 be (p.keep o dflt) v &&& mask) }

/-- A write to the capabilities below 0x100: power state, MSI-X control, Device and Link Control; bit 15 of Device Control is a Function Level Reset. -/
def State.capWrite (s : State) (o be v : Nat) : State :=
  let w := merge32 be (s.capDword o) v
  match o with
  | 0x44 => if bits w 0 2 = 0 then s.leaveD3 else if bits w 0 2 = 3 then s.enterD3 else s
  | 0x50 =>
    let was := s.pcie.msixMask
    let s := s.modPcie fun p => { p with msixEn := bitAt w 31, msixMask := bitAt w 30 }
    if was && !bitAt w 30 then s.unmask none else s
  | 0x78 =>
    let s := (s.keepBits 0x78 0x90F be 0x900 v).modPcie fun p => { p with roEn := bitAt w 4, mps := sizeOf_ (bits w 5 3) 512, mrrs := sizeOf_ (bits w 12 3) 4096 }
    if bitAt (v &&& beMask be) 15 then s.functionReset else s
  | 0x80 => (s.keepBits 0x80 (0xC8 + if s.clkreq then 0x100 else 0) be 0 v).modPcie fun p => { p with aspmL1 := bitAt w 1 }
  | 0x98 => (s.keepBits 0x98 0x200 be 0 v).modPcie fun p =>
      { p with cto := BitVec.ofNat 4 w, ctoDis := bitAt w 4, idoEn := bitAt w 8, ltrEn := bitAt w 10, tag10 := bitAt w 12 }
  | 0xA0 => s.keepBits 0xA0 0xF be (s.key2 0x0805) v
  | _ => s

/-- A write to the extended capabilities: the status registers of AER are cleared by ones. -/
def State.extWrite (s : State) (o be v : Nat) : State :=
  let w1 := BitVec.ofNat 32 (v &&& beMask be)
  let new (x : BitVec 32) : BitVec 32 := BitVec.ofNat 32 (merge32 be x.toNat v)
  match o with
  | 0x104 => s.modPcie fun p => { p with aerUnc := p.aerUnc &&& ~~~w1 } | 0x110 => s.modPcie fun p => { p with aerCor := p.aerCor &&& ~~~w1 }
  | 0x108 => s.modPcie fun p => { p with aerMaskU := new p.aerMaskU } | 0x10C => s.modPcie fun p => { p with aerSev := new p.aerSev }
  | 0x114 => s.modPcie fun p => { p with aerMaskC := new p.aerMaskC }
  | 0x190 => if s.pcie.recovery then s else s.modPcie fun p =>
      let w := merge32 be (4 * b2n p.tag14 + 8 * b2n p.l0pEn) v
      { p with tag14 := bitAt w 2, l0pEn := bitAt w 3 }
  | 0x258 => if s.pcie.recovery || !s.clkreq then s else
      let w := merge32 be (s.extDword 0x258).1 v
      (s.keepBits 0x258 0xE3FFFF00 be 0 v).modPcie fun p => { p with l1pm := BitVec.ofNat 4 w, l12Thr := l12Us (bits w 16 10) (bits w 29 3) }
  | 0x25C => if s.pcie.recovery then s else s.keepBits 0x25C 0xFB be 0 v
  | 0x26C => if s.pcie.recovery then s else s.keepBits 0x26C 0x1FFF1FFF be 0 v
  | _ => s

/-- A write of a dword of the configuration space with byte enables. -/
def State.cfgWrite (s : State) (o be v : Nat) : State :=
  if o < 0x40 then s.headerWrite o be v else if o < 0x100 then s.capWrite o be v else s.extWrite o be v

/-- R456 to R462, R479, R480, R563: a configuration request, a read or a write (byte enables, value) of the dword at `off`. It gets Request Retry Status
while the identity is not loaded, and from a reset until the endpoint has restored its state, at the latest 100 ms after it. `ready`:
the endpoint has done so at this request; the time is not fixed. -/
def execConfigurationRequest (off : Nat) (write : Option (Nat × Nat)) (ready : Bool) (s : State) : Host.Outcome State Fault Refusal :=
  let p := s.pcie
  let late := p.crs.any fun t => decide (t + 100 * ms ≤ s.now)
  if !p.linkUp || !p.perstN || off ≥ 4096 || off % 4 ≠ 0 then .next s
  else
    let s := s.modPcie fun p => { p with linkL1 := 0 }
    if !p.present || (p.crs.isSome && !ready && !late) then .next (s.send .crs)
    else
      let s := s.modPcie fun p => { p with crs := none }
      match write with
      | none => let (v, s) := s.cfgRead off; .next (s.send (.cpl v))
      | some (be, v) => .next ((s.cfgWrite off be v).send (.cpl 0))

/-! BAR0: the NVMe registers and the recovery function (R459, R485, R567) -/

/-- A dword of the NVMe registers. -/
def State.nvmeDword (s : State) (o : Nat) : Nat :=
  let n := s.nvme
  match o with
  | 0x00 => 0xFFFF + 2 ^ 16 + 2 ^ 17 + 2 ^ 24 * 0x3C
  | 0x04 => 2 ^ 5 + 2 ^ 20 * 4 + 2 ^ 27
  | 0x08 => 0x20000
  | 0x0C => n.intms.toNat | 0x10 => n.intms.toNat
  | 0x14 => n.cc
  | 0x1C => b2n n.rdy + 2 * b2n (n.cfs || s.enableLate) + 4 * n.shst.toNat + 2 ^ 5 * b2n n.pp
  | 0x24 => n.asqs.toNat + 2 ^ 16 * n.acqs.toNat
  | 0x28 => half n.asq.toNat 0 / 4096 * 4096 | 0x2C => half n.asq.toNat 1
  | 0x30 => half n.acq.toNat 0 / 4096 * 4096 | 0x34 => half n.acq.toNat 1
  | _ => 0

/-- A dword of the recovery function. -/
def State.recoveryDword (s : State) (o : Nat) : Nat :=
  match o with
  | 0x00 => s.fw.recCause.toNat + 2 ^ 8 * s.fw.recState.toNat
  | 0x08 => s.fw.recWinBase.toNat | 0x0C => s.fw.recPkgLen.toNat | 0x10 => s.fw.recResult.toNat | 0x14 => Config.romVersion.toNat
  | _ => 0

/-- Bytes of BAR0. -/
def State.bar0Read (s : State) (o n : Nat) : Nat :=
  let dw (a : Nat) : Nat := if s.pcie.recovery then s.recoveryDword a else s.nvmeDword a
  leNat ((List.range n).map fun i => BitVec.ofNat 8 (bits (dw ((o + i) / 4 * 4)) (8 * ((o + i) % 4)) 8))

/-- A write of a dword of the NVMe registers or a doorbell. Admin queue attributes are plain fields. -/
def State.nvmeWrite (s : State) (o v : Nat) : State :=
  match o with
  | 0x0C => s.setIntMask (BitVec.ofNat 32 v) | 0x10 => s.clearIntMask (BitVec.ofNat 32 v)
  | 0x14 => s.writeCc v
  | 0x24 => s.modNvme fun n => { n with asqs := BitVec.ofNat 12 v, acqs := BitVec.ofNat 12 (v / 2 ^ 16) }
  | 0x28 => s.modNvme fun n => { n with asq := setHalf n.asq 0 (v / 4096 * 4096) } | 0x2C => s.modNvme fun n => { n with asq := setHalf n.asq 1 v }
  | 0x30 => s.modNvme fun n => { n with acq := setHalf n.acq 0 (v / 4096 * 4096) } | 0x34 => s.modNvme fun n => { n with acq := setHalf n.acq 1 v }
  | _ =>
    if o < 0x1000 || 0x3008 ≤ o then s
    else if (o - 0x1000) / 4 % 2 = 0 then s.ringSq ((o - 0x1000) / 8) (bits v 0 16) else s.ringCq ((o - 0x1000) / 8) (bits v 0 16)

/-- A write of a dword of the recovery function. WIN_BASE is a multiple of 32,768; INSTALL and RESTART are the commands of their own rows. -/
def State.recoveryWrite (s : State) (o v : Nat) : State :=
  match o with
  | 0x08 => s.modFw fun f => { f with recWinBase := BitVec.ofNat 24 v }
  | 0x0C => s.modFw fun f => { f with recPkgLen := BitVec.ofNat 24 v }
  | _ => s

/-- A write of BAR0: whole dwords; a write of anything else is discarded. Writes to the recovery window take bytes. -/
def State.bar0Write (s : State) (o : Nat) (data : List (Option Byte)) : State :=
  let bs := data.filterMap id
  if s.pcie.recovery && 0x8000 ≤ o then
    let put (m : List Host.Cell) (e : Option Byte × Nat) : List Host.Cell :=
      let a := s.fw.recWinBase.toNat + o - 0x8000 + e.2
      match e.1 with
      | some b => if a < 12582912 then mwrite 0 m a b else m
      | none => m
    s.modFw fun f => { f with recStaging := (data.zipIdx).foldl put f.recStaging }
  else if bs.length ≠ data.length || o % 4 ≠ 0 || bs.length % 4 ≠ 0 then s
  else ((chunksOf 4 bs).zipIdx).foldl (fun s e =>
    let a := o + 4 * e.2
    if s.pcie.recovery then s.recoveryWrite a (leNat e.1) else s.nvmeWrite a (leNat e.1)) s

/-! BAR4: the MSI-X table and the pending-bit array (R461, R463) -/

/-- A dword of BAR4. A table entry is an address, its upper half, data, and the mask bit. -/
def State.bar4Dword (s : State) (o : Nat) : Nat :=
  let v := o / 16
  let e := tgetD s.pcie.vecTable v (0, 0)
  if o < 16 * 1025 then
    match o % 16 with
    | 0 => half e.1 0 | 4 => half e.1 1 | 8 => e.2 | _ => b2n (!s.pcie.unmasked.contains v)
  else if 0x8000 ≤ o && o < 0x8000 + 136 then
    (List.range 32).foldl (fun m i => if s.pcie.pend.contains (8 * (o - 0x8000) + i) then m + 2 ^ i else m) 0
  else 0

/-- Bytes of BAR4. -/
def State.bar4Read (s : State) (o n : Nat) : Nat :=
  leNat ((List.range n).map fun i => BitVec.ofNat 8 (bits (s.bar4Dword ((o + i) / 4 * 4)) (8 * ((o + i) % 4)) 8))

/-- A write of a dword of the table; clearing a mask bit sends a pending message. -/
def State.bar4Write (s : State) (o v : Nat) : State :=
  let k := o / 16
  let e := tgetD s.pcie.vecTable k (0, 0)
  if o ≥ 16 * 1025 then s
  else match o % 16 with
    | 0 => s.modPcie fun p => { p with vecTable := tput p.vecTable k ((setHalf (BitVec.ofNat 64 e.1) 0 v).toNat, e.2) }
    | 4 => s.modPcie fun p => { p with vecTable := tput p.vecTable k ((setHalf (BitVec.ofNat 64 e.1) 1 v).toNat, e.2) }
    | 8 => s.modPcie fun p => { p with vecTable := tput p.vecTable k (e.1, v % 2 ^ 32) }
    | _ => if bitAt v 0 then s.modPcie fun p => { p with unmasked := p.unmasked.filter (· != k) } else s.unmask (some k)

/-! Memory requests (R459, R470, R478) -/

/-- The BAR that decodes an address, and the offset in it. -/
def PcieSt.bar (p : PcieSt) (a : Nat) : Option (Nat × Nat) :=
  let hit (b : BitVec 64) (n : Nat) : Bool := decide (b.toNat ≤ a) && decide (a < b.toNat + n)
  if hit p.bar0 65536 then some (0, a - p.bar0.toNat)
  else if p.recovery then none
  else if hit p.bar2 134217728 then some (2, a - p.bar2.toNat)
  else if hit p.bar4 65536 then some (4, a - p.bar4.toNat) else none

/-- Unsupported Request: a completion for what is not posted, and AER (R482). -/
def State.unsupported (s : State) (posted : Bool) : State :=
  let s := s.aerUncorrectable aerUnsupported (!posted)
  if posted then s else s.send .ur

/-- R145, R459, R470, R478, R485: a memory request is decoded and served, or ends as Unsupported Request. -/
def execInboundMemoryRequest (addr : Nat) (req : MemReq) (s : State) : Host.Outcome State Fault Refusal :=
  if !s.pcie.linkUp then .next s
  else
    let s := s.modPcie fun p => { p with linkL1 := 0 }
    let dest := if s.memOpen && s.pcie.present then s.pcie.bar addr else none
    match req, dest with
    | .locked, _ => .next (s.unsupported false)
    | .atomic, _ => .next (s.unsupported false)
    | .read _, none => .next (s.unsupported false)
    | .write _, none => .next (s.unsupported true)
    | .read n, some (b, o) =>
      if b = 0 then .next (s.send (.cpl (s.bar0Read o n)))
      else if b = 4 then .next (s.send (.cpl (s.bar4Read o n)))
      else if 0x4000 ≤ o && o < 0x5000 && o % 0x100 = 0 && n = 4 then .next (s.readLease (bits o 8 4))
      else let (v, s) := s.winRead o n; .next (s.send (.cpl v))
    | .write data, some (b, o) =>
      if b = 0 then .next (s.bar0Write o data)
      else if b = 2 then .next (s.winWrite o data)
      else
        let bs := data.filterMap id
        if bs.length ≠ data.length || o % 4 ≠ 0 || bs.length % 4 ≠ 0 then .next s
        else .next (((chunksOf 4 bs).zipIdx).foldl (fun s e => s.bar4Write (o + 4 * e.2) (leNat e.1)) s)

/-! Registers of the control cores' address space (R4, R5) -/

/-- RWL fields take writes until the end of boot. -/
def State.unlocked (s : State) : Bool := !s.fw.startDone

/-- Fault collector: reaction time, quiet period and classes until the lock. FORCE, ACK and HEARTBEAT are commands of their own. -/
def State.collectorWrite (s : State) (o v : Nat) : State :=
  if !s.unlocked then s
  else if o = 0x10 then s.modFlt fun t => { t with reactionMs := BitVec.ofNat 10 v }
  else if o = 0x14 then s.modFlt fun t => { t with quietMs := BitVec.ofNat 16 v }
  else if 0x1000 ≤ o && o < 0x2000 then s.modFlt fun t => { t with raised := tput t.raised ((o - 0x1000) / 4) (bits v 0 2) }
  else s

/-- The sectors whose bits a dword of PROT or APROT holds. -/
def sectorBits (l : List Nat) (k v : Nat) : List Nat := (l.filter fun n => n / 32 ≠ k) ++ (maskList 32 v).map (32 * k + ·)

/-- OSPI controller, for CC0: ADDR, LEN, DONE, ASP_EN, DATA, PROT and APROT. OP and LOCK are commands of their own. -/
def State.ospiWrite (s : State) (o v : Nat) : State :=
  let lock := s.ospi.lock
  if o = 0x4 then s.modOspi fun x => { x with addr := BitVec.ofNat 32 v }
  else if o = 0x8 then s.modOspi fun x => { x with len := BitVec.ofNat 9 v }
  else if o = 0xC then s.modOspi fun x => { x with done := x.done && !bitAt v 2 }
  else if o = 0x10 then (if lock then s else s.modOspi fun x => { x with aspEn := bitAt v 1, lock := bitAt v 0 })
  else if 0x100 ≤ o && o < 0x200 then s.modOspi fun x => { x with data := mwriteN 0 x.data (o - 0x100) (leBytes 4 v) }
  else if 0x200 ≤ o && o < 0x400 then (if lock then s else s.modOspi fun x => { x with prot := sectorBits x.prot ((o - 0x200) / 4) v })
  else if 0x400 ≤ o && o < 0x600 then s.modOspi fun x => { x with aprot := sectorBits x.aprot ((o - 0x400) / 4) v }
  else s

/-- A training helper: pattern set-up, delays and the receiver reference. -/
def Helper.write (h : Helper) (o v : Nat) : Helper :=
  if o = 0 then { h with pgMode := BitVec.ofNat 2 (bits v 2 2), pgDir := bitAt v 4 }
  else if o = 4 then { h with seed := BitVec.ofNat 32 v }
  else if o = 8 then { h with count := BitVec.ofNat 32 v }
  else if o = 0xC then { h with addr := BitVec.ofNat 32 v }
  else if 0x100 ≤ o && o < 0x1A0 then { h with dly := tput h.dly ((o - 0x100) / 4) (BitVec.ofNat 16 v) }
  else if o = 0x1A0 then { h with vref := BitVec.ofNat 7 v } else h

/-- Buffer pool manager: the operands of TRANSFER and SHARE. -/
def State.poolWrite (s : State) (o v : Nat) : State :=
  if o = 4 then s.modPool fun x => { x with opOwners := BitVec.ofNat 24 v, opNown := BitVec.ofNat 3 (v / 2 ^ 24), opLast := BitVec.ofNat 2 (v / 2 ^ 27) } else s

/-- Servo Control Engine: TARGET and HEAD_SEL, which take effect with GO. -/
def State.servoWrite (s : State) (o v : Nat) : State :=
  let a := o / 0x100
  if a ≥ 2 then s
  else if o % 0x100 = 4 then s.modServo fun x => { x with acts := lmod x.acts a fun y => { y with target := BitVec.ofNat 32 v } }
  else if o % 0x100 = 8 then s.modServo fun x => { x with acts := lmod x.acts a fun y => { y with headSel := BitVec.ofNat 4 v } }
  else s

/-- R4, R5: the dword at an offset of a block is written by a requester of PCIe or by a control core. RO and reserved fields and fields whose
lock is set keep their values. -/
def execRegisterWrite (block : RegBlock) (core off v : Nat) (s : State) : Host.Outcome State Fault Refusal :=
  if off % 4 ≠ 0 || v ≥ 2 ^ 32 then .next s
  else match block with
    | .bar0 => if !s.memOpen || !s.pcie.present then .next s else .next (s.bar0Write off ((leBytes 4 v).map some))
    | .bar2 => if !s.memOpen || !s.pcie.present || s.pcie.recovery then .next s else .next (s.winWrite off ((leBytes 4 v).map some))
    | .collector => .next (s.collectorWrite off v)
    | .ospi => if core = 0 then .next (s.ospiWrite off v) else .next s
    | .helper => .next (if off < 0x1000 then s.modDram fun d => { d with subs := lmod d.subs (off / 0x400) fun x => { x with helper := x.helper.write (off % 0x400) v } } else s)
    | .pool => .next (s.poolWrite off v)
    | .seq n => .next (if off = 0x1C && bitAt v 14 && n < 34 then s.modSeqs fun x => { x with seqs := tupd x.seqs n fun q => { q with drop := false } } else s)
    | .servo => .next (s.servoWrite off v)

end Sys2Proof.Machine
end

