-- ==== Sys2Proof/Machine/Power.lean ====
section
/-!
DEFINITION. Supplies: power-up and its retries, the power-loss sequence and what is left after it, SYSRST_N, rails, crystal and input voltages, the
hold-up bank and the write hold (R10, R11, R29, R295, R610 to R621, R653 to R657, R669).
-/
namespace Sys2Proof.Machine
open Sys2Proof

/-! The power-loss sequence (R10, R29, R612, R621) -/

/-- The power-fail line asserts while the controller die runs: the sequence starts, once. The charger stops and a hold-up check is abandoned, open
versions are sealed (R81), every sequencer takes POWERFAIL (R257), calibrations end and gated domains wake. -/
def State.powerFail (s : State) : State :=
  if s.pwr.crst || s.pwr.pl.running then s
  else
    let s := s.modPwr fun p => { p with
      pl := { p.pl with running := true, start := s.now, steps := 0, brown := false }
      charger := .off, gated := [], gatedAt := [], opNext := none }
    let s := s.modLink fun l => { l with powerFail := true }
    let s := s.modChan fun c => { c with rw := c.rw.map fun w => { w with calib := none } }
    let s := s.modServo fun v => { v with acts := v.acts.map fun a => { a with hand := none } }
    let s := s.host.versions.foldl (fun s v => s.seal v.id s.host.lastStamp) s
    s.seqPowerFail

/-- The controller die loses its rails or is held in reset after a power-loss sequence: what the flash steps of R295 wrote stays, boot NVM sectors of
operations in progress are undefined (R553), and the AON domain latches how the sequence went (R621). The next start is not in the safe state (R609),
unless SYSRST_N caused the loss (R657) or the state is latched (R589): assumption log 45. -/
def State.controllerLost (s : State) (dur vend : Nat) (steps : BitVec 8) (brown : Bool) : State :=
  let flashDone := bitAt steps.toNat 5
  let s := if s.map.mounted && flashDone then s.drainJournal else s
  let s := if s.map.mounted then s.modMedia fun m => { m with lastSpans := s.openNow flashDone } else s
  let s := s.ospi.busy.foldl (fun s o => match o with | some op => s.loseSector op.addr | none => s) s
  let s := s.modNvme fun n => { n with unsafeOff := if n.shst = 2 then n.unsafeOff else n.unsafeOff + 1, onTime := n.onTime + s.time }
  let low := decide (s.pwr.vinMain < s.key2 0x0601)
  let s := (if s.pins.sysrstN && s.flt.state ≠ .latched then s.modFlt fun _ => {} else s).atBoot
  let s := s.modPwr fun p => { p with
    pl := { p.pl with running := false, steps := steps, brown := brown, latched := some (dur, vend, steps) }
    rails := [], onBkup := low, vinBkup := vend }
  (s.modPins fun p => { p with railOut := [] }).modFlt fun f => { f with faultN := !s.therm.shutHold }

/-- R612: VIN_MAIN below the threshold of key 0x0601 for 0.5 µs: VIN_BKUP carries the load and the power-fail line asserts. -/
def execVinMainUndervoltage (vin : Nat) (s : State) : Host.Outcome State Fault Refusal :=
  if s.key2 0x0601 ≤ vin then .next s
  else .next (s.modPwr fun p => { p with vinMain := vin, onBkup := true }).powerFail

/-- R613, R621: the sequence ends, at most 40 ms after the power-fail line: Fnn_WP_N are low, the controller die is in reset. `dur` in µs, `vend`
VIN_BKUP in mV. -/
def execPowerLossSequenceEnd (dur vend : Nat) (s : State) : Host.Outcome State Fault Refusal :=
  if !s.pwr.pl.running then .next s
  else
    let d := min dur 40000
    .next ((s.reach (s.pwr.pl.start + d * us)).controllerLost d vend 0x7F false)

/-- R614: VIN_BKUP falls below 4.5 V before the sequence ends: the rails go. `steps`: the rows of R621 completed by then, bit by bit. -/
def execVinBkupBrownOut (dur vend : Nat) (steps : BitVec 6) (s : State) : Host.Outcome State Fault Refusal :=
  if !s.pwr.pl.running || 4500 ≤ vend then .next s
  else
    let d := min dur 40000
    .next ((s.reach (s.pwr.pl.start + d * us)).controllerLost d vend (steps.zeroExtend 8) true)

/-! Power-up (R610, R611, R656) -/

/-- One attempt to bring the rails up; the third failure holds every rail but rail 1 off until both inputs have been removed. -/
def State.ramp (s : State) (failed : Option Nat) : State :=
  s.modPwr fun p => match failed with
    | none => { p with rails := [0, 2, 3, 4, 5, 6, 7, 8, 9, 10, 11, 12], rampAt := none }
    | some r =>
      let n := p.rampFails + 1
      { p with rails := [], rampFails := n, failedRails := if p.failedRails.contains r then p.failedRails else p.failedRails ++ [r]
               rampAt := if 3 ≤ n then none else some s.now, heldOff := p.heldOff || decide (3 ≤ n) }

/-- What the AON domain holds is lost when both inputs have been removed: counts of the power cycle, holds, and the collector's state latch (R552,
R636, R656, R657). -/
def State.aonLost (s : State) : State :=
  let s := s.modOspi fun o => { o with prevFaults := o.fetchFaults.toNat, fetchFaults := 0 }
  let s := s.modTherm fun t => { t with shutdowns := 0, shutHold := false }
  let s := s.modPwr fun p => { p with heldOff := false, rampFails := 0, rampAt := none, rails := [], crystal := true }
  s.modFlt fun _ => {}

/-- VIN_MAIN is now `vin`: the time since which it has met R611, and which input carries the load (R610). -/
def State.mainAt (s : State) (vin vb : Nat) : State :=
  let up := s.key2 0x0601 + 300
  s.modPwr fun p => { p with
    vinMain := vin, vinBkup := vb, mainSince := if p.vinMain < up && up ≤ vin then s.now else p.mainSince
    onBkup := p.onBkup && decide (vin < s.key2 0x0601) }

/-- R656: VIN_MAIN rises past 4.2 V: the AON domain runs and the rails come up in order; `failed` is a rail that misses its bound, `cold` that both inputs
had been removed. While the controller die runs, or its sequence does, only the voltages are new (R613). -/
def execPowerUpSequence (vin vb : Nat) (failed : Option Nat) (cold : Bool) (s : State) : Host.Outcome State Fault Refusal :=
  if vin < 4200 then .next s
  else
    let s := s.mainAt vin vb
    if !s.pwr.crst then .next s
    else
      let s := if cold || !s.pwr.aon then s.aonLost else s
      let s := s.modPwr fun p => { p with aon := true }
      if s.pwr.heldOff || s.pwr.rampAt.isSome then .next s else .next (s.ramp failed)

/-- R656: 1 s after a failed attempt the sequence is repeated. -/
def execRailRetryTimeout (failed : Option Nat) (s : State) : Host.Outcome State Fault Refusal :=
  match s.pwr.rampAt with
  | none => .next s
  | some t => if s.pwr.crst && decide (4200 ≤ s.pwr.vinMain) then .next ((s.reach (t + sec)).ramp failed) else .next s

/-! SYSRST_N, rails, crystal (R657, R669) -/

/-- R657: SYSRST_N has been low for 10 µs. -/
def execSysrstNLow (s : State) : Host.Outcome State Fault Refusal := .next (s.modPins fun p => { p with sysrstN := false }).powerFail

/-- R657: SYSRST_N is high again; the start follows 1 ms later at the earliest. -/
def execSysrstNRelease (s : State) : Host.Outcome State Fault Refusal :=
  if s.pins.sysrstN then .next s else .next (s.modPins fun p => { p with sysrstN := true, sysrstAt := s.now })

/-- R669: a rail leaves regulation; `long`: it stays out for 20 µs, which asserts the power-fail line for rails 0 to 12 and 15. -/
def execRailOutOfRegulation (rail : Nat) (long : Bool) (s : State) : Host.Outcome State Fault Refusal :=
  if 16 ≤ rail || s.pwr.crst then .next s
  else
    let s := (s.modPins fun p => { p with railOut := tput p.railOut rail s.now }).fault (0x240 + rail) []
    if long && (rail ≤ 12 || rail = 15) then .next (s.reach (s.now + 20 * us)).powerFail else .next s

/-- R669: the crystal stops: source 0x27B, and the collector enters the safe state. -/
def execCrystalStopped (s : State) : Host.Outcome State Fault Refusal :=
  let s := s.modPwr fun p => { p with crystal := false }
  if s.pwr.crst then .next s else .next ((s.fault 0x27B []).fatal 0x27B false)

/-! Input voltages and the Rack tier (R11, R351, R669) -/

/-- The Rack tier leaves LOWV for STOPPED; what waits for it demands spin-up. -/
def State.leaveLowv (s : State) : State :=
  let s := s.vmotUpdate
  if s.pwr.vinMain < 10800 || s.pins.overvolt then s
  else match s.rack.spin with
    | .lowv =>
      let s := s.modRack fun r => { r with spin := .stopped }
      let s := if s.flash.jobs.any (fun j => decide (j.phase = .rackWait)) then s.demandSpin else s
      if s.rackWork then s.flowDemand.settle else s.settle
    | .spindown => s.modRack fun r => { r with lowv := false }
    | _ => s

/-- The supply cannot carry the Rack tier: reads that wait are refused, the spindle comes to a stop. -/
def State.toLowv (s : State) : State := ((s.vmotUpdate).spinDown false true).refuseRackJobs (fun _ => true) false

/-- R643, R669: an input above 18.5 V raises its source. For VIN_MAIN the Rack tier goes to LOWV handling, and VMOT is off from 19 V. -/
def execVinOvervoltage (bkup : Bool) (mv : Nat) (s : State) : Host.Outcome State Fault Refusal :=
  if mv ≤ 18500 then .next s
  else if bkup then
    let s := s.modPwr fun p => { p with vinBkup := mv }
    .next (if s.pwr.crst then s else s.fault 0x273 [])
  else
    let s := (s.modPwr fun p => { p with vinMain := mv }).modPins fun p => { p with overvolt := true }
    .next (if s.pwr.crst then s else (s.fault 0x272 []).toLowv)

/-- R669: VIN_MAIN is back below 18.5 V. -/
def execVinOvervoltageCleared (mv : Nat) (s : State) : Host.Outcome State Fault Refusal :=
  if !s.pins.overvolt || 18500 ≤ mv then .next s
  else
    let s := (s.modPwr fun p => { p with vinMain := mv }).modPins fun p => { p with overvolt := false }
    .next (if s.pwr.crst then s else s.leaveLowv)

/-- R11, R351: VIN_MAIN falls below 10.8 V. -/
def execVinMainBelowRackMinimum (mv : Nat) (s : State) : Host.Outcome State Fault Refusal :=
  if 10800 ≤ mv then .next s
  else
    let s := s.modPwr fun p => { p with vinMain := mv }
    .next (if s.pwr.crst then s else s.toLowv)

/-- R11, R351: VIN_MAIN has been at 10.8 V or more for 1 s. -/
def execRackVoltageRestored (mv : Nat) (s : State) : Host.Outcome State Fault Refusal :=
  if mv < 10800 then .next s
  else
    let s := s.modPwr fun p => { p with vinMain := mv }
    .next (if s.pwr.crst then s else s.leaveLowv)

/-! The hold-up bank (R615 to R620) -/

/-- R615: the bank has reached the charge voltage of key 0x0602; the charger holds it. -/
def execChargeVoltageReached (s : State) : Host.Outcome State Fault Refusal :=
  if s.pwr.charger ≠ .current then .next s
  else .next (s.modPwr fun p => { p with charger := .hold, vinBkup := s.key2 0x0602 })

/-- R618: a check starts once the bank first reaches its charge voltage, and then once in every interval of key 0x0604, with VIN_MAIN above the threshold.
The charger stops; after 1 ms Vb is read. -/
def execHoldupCheckStart (vb : Nat) (s : State) : Host.Outcome State Fault Refusal :=
  if s.pwr.crst || s.pwr.charger ≠ .hold || s.pwr.vinMain ≤ s.key2 0x0601 then .next s
  else
    let s := if s.pwr.checked then s.reach (s.pwr.checkAt + s.key2 0x0604 * hour) else s
    let s := s.setNow (s.now + ms)
    .next (s.modPwr fun p => { p with charger := .checking, checkVb := vb, checkAt := s.now })

/-- The nearest integer to a quotient. -/
def nearest (a b : Nat) : Nat := (2 * a + b) / (2 * b)

/-- ESR in mΩ from the step in µV under 200 mA (R618). -/
def bankEsr (step : Nat) : Nat := nearest (5 * step) 1000

/-- Capacitance in µF from a fall in µV over a time in µs under 200 mA (R618). -/
def bankC (fall t : Nat) : Nat := nearest (200000 * t) fall

/-- Usable energy in mJ of a bank in µF and mΩ charged to vb mV (R617). -/
def bankEnergy (c esr vb : Nat) : Nat := let e := 4500 + 8 * esr; nearest (425 * c * (vb * vb - e * e)) 1000000000000

/-- The write hold is over: 0x910B, and the writes that waited go on (R620). -/
def State.endHold (s : State) (met : Bool) : State :=
  match s.pwr.hold with
  | none => s
  | some t => ((s.modPwr fun p => { p with hold := none }).note 0x910B 0 0 [(s.now - t) / ms, b2n met]).settle

/-- R617 to R620: the check ends after `t` µs of test load (at most 50,000; earlier where Vb has fallen by 0.5 V) with a step and a fall of Vb in µV. A
bank that does not fall at all gives no capacitance: a free value (log 37). -/
def execHoldupCheckEnd (step fall t : Nat) (s : State) : Host.Outcome State Fault Refusal :=
  if s.pwr.charger ≠ .checking then .next s
  else
    let t := min t 50000
    let s := s.setNow (s.now + t * us)
    let (free, s) := if fall = 0 then s.fresh 32 else (0, s)
    let esr := bankEsr step
    let c := if fall = 0 then free.toNat else bankC fall t
    let e := bankEnergy c esr (s.key2 0x0602)
    let m := nearest (1000 * e) s.eRequired
    let s := s.modPwr fun p => { p with
      charger := if 4 ≤ s.therm.bandPwr then .off else .current, checked := true, bank := { c := c, esr := esr, eUsable := e, margin := m, ts := s.stamp } }
    let s := s.note 0x9102 0 0 [c, esr, e, m]
    let s := if m < 1250 then s.healthWarn 6 0 10 m 1250 else s
    let s := if m < 1000 then (s.fault 0x276 []).warnBit 4 else s
    .next (if 1000 ≤ m then s.endHold true else s)

/-- R620: the limit of key 0x0605 passes before the bank's check gives a margin of 1,000. -/
def execWriteHoldLimit (s : State) : Host.Outcome State Fault Refusal :=
  match s.pwr.hold with
  | none => .next s
  | some t =>
    let s := s.reach (t + s.keyN 0x0605 2 2 * ms)
    .next (((s.fault 0x278 []).warnBit 4).endHold false)

end Sys2Proof.Machine
end

