-- ==== Sys2Proof/Machine/PowerState.lean ====
section
/-!
DEFINITION. Power states, the budget governor, power domains, operating points and the trips of the critical-path monitors (R516, R622 to R628,
R640, R647).
-/
namespace Sys2Proof.Machine
open Sys2Proof

/-! Power states (R516, R622, R623) -/

/-- REDUCED gives way to STOPPED for PS4: the spindle brakes (R351, R416, R623). -/
def State.stopReduced (s : State) : State :=
  if s.rack.spin = .reduced then
    (s.modRack fun r => { r with spin := .spindown, toReduced := false, lowv := false }).brakeWhenParked
  else s

/-- The device goes to a power state: ceilings at once, the Rack tier in the background; PS4 puts DRAM into self-refresh. -/
def State.setPs (s : State) (n by_ : Nat) : State :=
  let old := s.pwr.ps
  let s := s.modPwr fun p => { p with ps := n }
  let s := if n ≤ 2 then s.modNvme fun x => { x with lastOper := n } else s
  let s := if n = old then s else (s.note 0x9103 0 0 [old, n, by_]).sendLtr (ltrUs n)
  let s := if n = 3 then s.spinDown true false else if n = 4 then (s.spinDown false false).stopReduced else s
  let s := if n = 4 then s.modDram fun d => { d with selfRefresh := d.inService } else s
  s.retuneOp

/-- R516, R623: PS of CDW11 [4:0]; a value above 4 completes with status 0x02. -/
def execSetPowerManagement (stamp : Nat) (s : State) : Host.Outcome State Fault Refusal :=
  s.onSet stamp 0x02 fun c =>
    let n := bits (c.dw 11) 0 5
    let by_ := match c.origin with | .mgmt _ => 2 | _ => 1
    if 4 < n then s.complete stamp scInvalidField 0 else (s.setPs n by_).complete stamp 0 0

/-- R516. A controller enable keeps the state, so the value after it is the current one (R623). -/
def execGetPowerManagement (stamp : Nat) (s : State) : Host.Outcome State Fault Refusal :=
  s.onGet stamp 0x02 fun _ _ => s.complete stamp 0 (BitVec.ofNat 32 s.pwr.ps)

/-! The governor (R624, R637) -/

/-- Budget in mW: that of the power state, or of the throttle level where it is lower. -/
def State.budget (s : State) : Nat :=
  let b := [30000, 20000, 12000, 2500, 400].getD s.pwr.ps 400
  min b (if s.therm.throttle = 2 then 12000 else if s.therm.throttle = 1 then 20000 else b)

/-- Coder engines that the power state allows, the start of step 1. -/
def stateCoders (ps : Nat) : Nat := [16, 10, 4].getD ps 0

/-- One step toward less power, in the order of R624. -/
def State.governDown (s : State) : State :=
  let n := min s.pwr.limCoders (stateCoders s.pwr.ps)
  if 2 < n then s.modPwr fun p => { p with limCoders := n - 1 }
  else if s.pwr.op < 3 && s.pwr.opTarget.isNone then (s.modPwr fun p => { p with limOp := p.op + 1 }).retuneOp
  else if 3 ≤ s.pwr.op then s.modPwr fun p => { p with limFetch := true }
  else s

/-- One step back, in reverse order. -/
def State.governUp (s : State) : State :=
  if s.pwr.limFetch then s.modPwr fun p => { p with limFetch := false }
  else if 0 < s.pwr.limOp then (s.modPwr fun p => { p with limOp := p.limOp - 1 }).retuneOp
  else if s.pwr.limCoders < 16 then s.modPwr fun p => { p with limCoders := p.limCoders + 1 }
  else s

/-- R624: an estimate every 10 µs from the activity count of each domain (R625's order), averaged over 10 ms; one step at a time (log 36). -/
def execBudgetGovernorTick (activity : List Nat) (s : State) : Host.Outcome State Fault Refusal :=
  if s.pwr.crst || s.pwr.pl.running then .next s
  else
    let s := s.reach (s.pwr.tickAt + 10 * us)
    let est := (activity.zipIdx).foldl (fun n e => n + e.1 * Config.activityWeight e.2) 0
    let s := s.modPwr fun p => { p with tickAt := s.now, ests := (p.ests ++ [est]).drop (p.ests.length + 1 - 1000) }
    let sum := s.pwr.ests.foldl (· + ·) 0
    let n := s.pwr.ests.length
    if s.budget * n < sum then .next (s.modPwr fun p => { p with below := 0 }).governDown
    else if 10 * sum < 9 * s.budget * n then
      let s := s.modPwr fun p => { p with below := p.below + 1 }
      if 1000 ≤ s.pwr.below then .next (s.modPwr fun p => { p with below := 0 }).governUp else .next s
    else .next (s.modPwr fun p => { p with below := 0 })

/-! Power domains (R622, R625, R626). Numbers: 0 AON, 1 CORE, 2 FAB, 3 PCIE, 4 DDR, 5 to 12 FCH0 to FCH7, 13 CODER, 14 LDPC-SOFT, 15 RACK, 16 to 27 the
SRAM banks -/

/-- The domains that a power state lets be gated when idle (R622). -/
def gatable (ps dom : Nat) : Bool :=
  if 28 ≤ dom || dom = 0 || dom = 3 then false
  else if dom = 15 then ps ≠ 3
  else if dom = 13 || dom = 14 then true
  else if ps ≤ 1 then false
  else if ps = 2 then 5 ≤ dom
  else if ps = 3 then dom = 2 || 5 ≤ dom
  else true

/-- Nothing runs in the domain: RACK only while the Rack tier is off, an FCH group without an operation, engines without a job. -/
def State.domainIdle (s : State) (dom : Nat) : Bool :=
  if dom = 15 then s.rack.spin = .absent || s.rack.spin = .stopped || s.rack.spin = .failed || s.rack.spin = .lowv
  else if dom = 13 then s.place.coderQ.queued.isEmpty
  else if dom = 14 then s.place.softQ.queued.isEmpty
  else if 5 ≤ dom && dom ≤ 12 then !(s.flashIf.dies.any fun (e : Nat × DieSt) => decide (e.1 / 128 + 5 = dom) && e.2.op.isSome)
  else true

/-- R625: the idle time of key 0x0608 has passed in a domain. DDR is gated by self-refresh, in PS4 only (R433). -/
def execDomainIdleTimeout (dom : Nat) (s : State) : Host.Outcome State Fault Refusal :=
  if s.pwr.crst || s.pwr.pl.running || s.pwr.gated.contains dom || !gatable s.pwr.ps dom || !s.domainIdle dom then .next s
  else
    let s := s.modPwr fun p => { p with gated := p.gated ++ [dom], gatedAt := tput p.gatedAt dom s.now }
    .next (if dom = 4 then s.modDram fun d => { d with selfRefresh := d.inService } else s)

/-- Time of a wake in ns (R625). -/
def wakeNs (dom : Nat) : Nat :=
  if dom = 1 then 10000 else if dom = 2 then 2000 else if dom = 13 || dom = 14 then 1000 else if dom = 15 then 50000
  else if 5 ≤ dom && dom ≤ 12 then 20000 else if 16 ≤ dom then 500 else 0

/-- R626: an access wakes the domain. Dies of an FCH group that stayed gated longer than key 0x0109 are due for a retrain (R231). DDR wakes with its
self-refresh exit (R433). -/
def execDomainWake (dom : Nat) (s : State) : Host.Outcome State Fault Refusal :=
  if !s.pwr.gated.contains dom || (dom = 4 && s.dram.selfRefresh) then .next s
  else
    let since := tgetD s.pwr.gatedAt dom s.now
    let s := s.setNow (s.now + wakeNs dom)
    let s := s.modPwr fun p => { p with gated := p.gated.filter (· != dom), gatedAt := tdel p.gatedAt dom }
    if 5 ≤ dom && dom ≤ 12 && since + s.key2 0x0109 * sec < s.now then
      .next (s.modFlashIf fun x => { x with dies := x.dies.map fun (e : Nat × DieSt) =>
        if e.2.trained && e.1 / 128 + 5 = dom then (e.1, { e.2 with retrainDue := true }) else e })
    else .next s

/-! Operating points (R627, R628) -/

/-- Base VDD_CORE of an OP, mV (R627). -/
def opBase (o : Nat) : Nat := [850, 800, 740, 680].getD o 680

/-- Offset of the controller die band, mV (R627). -/
def bandOffset (b : Nat) : Nat := [25, 0, 5, 10, 20].getD b 20

/-- Setpoint of rail 0, mV: base, band offset and ageing offset, at most 950 (R627). -/
def State.vddCore (s : State) : Nat := min 950 (opBase s.pwr.op + bandOffset s.therm.bandCtl + s.pwr.ageOffset)

/-- R628, R647: a transition completes, at most 30 µs after its start; a raise waits until every monitor reports above its trip level. The request made
meanwhile is taken now. -/
def execOpTransitionEnd (monitorsOk : Bool) (s : State) : Host.Outcome State Fault Refusal :=
  match s.pwr.opTarget with
  | none => .next s
  | some o =>
    if o < s.pwr.op && !monitorsOk then .next s
    else
      let next := s.pwr.opNext
      let s := s.modPwr fun p => { p with op := o, opTarget := none, opNext := none }
      match next with
      | some n => .next (s.requestOp n)
      | none => .next s

/-- R640: monitor n falls below 10 ps: both clocks are stretched for 10 µs and source 0x2A0 + n is raised. -/
def execCpmTrip (n : Nat) (s : State) : Host.Outcome State Fault Refusal :=
  if 8 ≤ n || s.pwr.crst then .next s
  else .next ((s.modPwr fun p => { p with trips := satInc p.trips, stretched := some s.now }).fault (0x2A0 + n) [])

end Sys2Proof.Machine
end

