-- ==== Sys2Proof/Machine/Thermal.lean ====
section
/-!
DEFINITION. Temperatures: samples, broken and masked inputs, bands, protective shutdown, slopes, the composite with its thresholds and
throttling, and the SMART / Health log (R303, R373, R511, R514, R629 to R637).
-/
namespace Sys2Proof.Machine
open Sys2Proof

/-! Inputs: TS0 to TS19 at 0 to 19, THM0 to THM3 at 20 to 23; readings in 0.125 °C -/

def State.sensor (s : State) (i : Nat) : Sensor := tgetD s.therm.sensors i {}
def State.modSensor (s : State) (i : Nat) (f : Sensor → Sensor) : State := s.modTherm fun t => { t with sensors := tmod t.sensors i {} f }

/-- An input that is sampled: on-die, or a thermistor that key 0x0704 marks as fitted, and not masked (R629, R634). -/
def State.sampled (s : State) (i : Nat) : Bool :=
  decide (i < 24) && (decide (i < 20) || decide (s.keyN 0x0704 (8 * (i - 20) + 6) 2 = 1)) && !(s.sensor i).maskBit

/-- What an input contributes: its reading, or 146 °C while it is declared broken (R630, R633). -/
def State.contrib (s : State) (i : Nat) : Option Int :=
  if s.sampled i then some (if (s.sensor i).broken then 1168 else (s.sensor i).reading) else none

/-- The input of a range with the largest contribution, and that contribution. -/
def State.hottest (s : State) (lo n : Nat) : Option (Nat × Int) :=
  ((List.range n).filterMap fun k => (s.contrib (lo + k)).map fun t => (lo + k, t)).foldl
    (fun m e => match m with | some b => if b.2 < e.2 then some e else some b | none => some e) none

/-! Bands (R631) -/

/-- Lower boundaries of B1 to B4. -/
def bandBounds : List Int := [0, 560, 760, 1000]

/-- The band after a temperature: up at a lower boundary, down only 2 °C below it. -/
def nextBand (b : Nat) (t : Int) : Nat :=
  let up := (bandBounds.filter fun x => decide (x ≤ t)).length
  if b < up then up else min b ((bandBounds.filter fun x => decide (x - 16 < t)).length)

/-- R631: a band change is recorded; the subject is an input by its fault source, or 0 for the controller die. -/
def State.noteBand (s : State) (input : Option Nat) (old new : Nat) : State :=
  match input with
  | some i => s.note 0x9104 10 (0x280 + i) [old, new]
  | none => s.note 0x9104 0 0 [old, new]

/-- Where the temperature of channel group g comes from: a thermistor, or none for the controller die (key 0x0703). -/
def State.groupInput (s : State) (g : Nat) : Option Nat := let v := s.keyN 0x0703 g 1; if v ≤ 3 then some (20 + v) else none

/-- Controller die band: the core voltage offset. -/
def State.bandCtl (s : State) : State :=
  match s.hottest 0 16 with
  | none => s
  | some (_, t) =>
    let o := s.therm.bandCtl
    let b := nextBand o t
    if b = o then s else (s.modTherm fun x => { x with bandCtl := b }).noteBand none o b

/-- Power die band: the charger stops in B4 (R615). -/
def State.bandPwr (s : State) : State :=
  match s.hottest 16 4 with
  | none => s
  | some (i, t) =>
    let o := s.therm.bandPwr
    let b := nextBand o t
    if b = o then s
    else
      let s := s.modTherm fun x => { x with bandPwr := b }
      let run := !s.pwr.crst && !s.pwr.pl.running
      let s := if b = 4 && (s.pwr.charger = .current || s.pwr.charger = .hold) then s.modPwr fun p => { p with charger := .off }
        else if o = 4 && s.pwr.charger = .off && run then s.modPwr fun p => { p with charger := .current } else s
      s.noteBand (some i) o b

/-- Flash band of a channel group: every trained die of the group is due for a retrain (R230). -/
def State.bandFlash (s : State) (g : Nat) : State :=
  let input := s.groupInput g
  match (match input with | some i => s.contrib i | none => (s.hottest 0 16).map (·.2)) with
  | none => s
  | some t =>
    let o := s.therm.bandFlash.getD g 1
    let b := nextBand o t
    if b = o then s
    else
      let s := s.modTherm fun x => { x with bandFlash := x.bandFlash.set g b }
      let s := s.modFlashIf fun x => { x with dies := x.dies.map fun (e : Nat × DieSt) =>
        if e.2.trained && e.1 / 128 = g then (e.1, { e.2 with retrainDue := true }) else e }
      s.noteBand input o b

/-- Rack temperature and band, from the thermistor of key 0x0412; outside the read window waiting reads are refused (R373, R374). -/
def State.bandRack (s : State) : State :=
  if !s.rackPresent then s
  else
    let i := 20 + s.key2 0x0412
    match s.contrib i with
    | none => s
    | some t =>
      let o := s.chan.band
      let b := nextBand o t
      let s := s.modChan fun c => { c with rackTemp := t, band := b }
      let s := if b = o then s else (s.noteBand (some i) o b).bandParams
      if s.rackWindow 4 then s else s.refuseRackJobs (fun _ => true) true

/-- Every band choice. -/
def State.bands (s : State) : State := ((List.range 8).foldl (fun s g => s.bandFlash g) s.bandCtl.bandPwr).bandRack

/-! Broken inputs (R633) -/

/-- The temperature that a stuck input is compared with: the hottest other input of its die, or the controller die for a thermistor (log 38). -/
def State.stuckRef (s : State) (i : Nat) : Int :=
  let (lo, n) := if i < 16 then (0, 16) else if i < 20 then (16, 4) else (0, 16)
  (((List.range n).filter fun k => lo + k ≠ i).filterMap fun k => s.contrib (lo + k)).foldl max (-2000)

/-- R633: an input is declared broken until the next power cycle. -/
def State.declareBroken (s : State) (i cond : Nat) : State :=
  let s := s.modSensor i fun x => { x with broken := true, brokenBit := true, samples := [], rising := 0, hot := 0 }
  ((s.fault (0x280 + i) []).warnBit 1).note 0x9106 10 (0x280 + i) [cond]

/-- Which condition of R633 holds now: 1 not converting, 2 out of range, 3 stuck. -/
def Sensor.brokenBy (x : Sensor) (thm : Bool) (ref : Int) (now : Nat) : Option Nat :=
  if x.lastAt + (if thm then 50 else 10) * ms + sec ≤ now then some 1
  else if x.oorSince.any fun t => decide (t + sec ≤ now) then some 2
  else if x.stuckSince + 1800 * sec ≤ now && (80 ≤ ref - x.stuckRef || 80 ≤ x.stuckRef - ref) then some 3
  else none

/-- An input takes a reading: range and change since the run began (R633), and the samples of the last second (R632). -/
def Sensor.take (x : Sensor) (thm : Bool) (t : Int) (ref : Int) (now : Nat) : Sensor :=
  let out := if thm then decide (t < -400) || decide (1080 < t) else decide (t < -440) || decide (1400 < t)
  let moved := decide (2 < t - x.stuckAt) || decide (2 < x.stuckAt - t)
  { x with
    reading := t, lastAt := now
    oorSince := if out then (if x.oorSince.isSome then x.oorSince else some now) else none
    stuckAt := if moved then t else x.stuckAt, stuckSince := if moved then now else x.stuckSince, stuckRef := if moved then ref else x.stuckRef
    hot := if !thm && 1200 ≤ t && !x.broken then x.hot + 1 else 0
    samples := if x.broken then [] else (x.samples.filter fun e => decide (now < e.1 + sec)) ++ [(now, t)] }

/-- R636: protective shutdown. The fourth in a power cycle holds the device off until both inputs have been removed. -/
def State.protectiveShutdown (s : State) (i : Nat) (t : Int) : State :=
  let n := s.therm.shutdowns + 1
  let s := s.modTherm fun x => { x with shutdowns := n, shutHold := true, shutRec := some (i, t, n) }
  let s := s.modPwr fun p => { p with heldOff := p.heldOff || decide (4 ≤ n) }
  (s.modFlt fun f => { f with faultN := false }).powerFail

/-- Every on-die input reads 115 °C or less: the hold of a protective shutdown ends. -/
def State.shutRelease (s : State) : State :=
  if s.therm.shutHold && s.pwr.crst && (List.range 20).all fun i => (s.sensor i).maskBit || decide ((s.sensor i).reading ≤ 920) then
    (s.modTherm fun t => { t with shutHold := false }).modFlt fun f => { f with faultN := true }
  else s

/-- Time between two samples of an input: 1 ms on a die, 10 ms for a thermistor (R629). -/
def samplePeriod (input : Nat) : Nat := if 20 ≤ input then 10 * ms else ms

/-- An input takes its reading, `ref` being what a stuck input is compared with; none where it does not convert. -/
def State.takeReading (s : State) (input : Nat) (reading : Option Int) (ref : Int) : State :=
  s.modSensor input fun x =>
    let x := { x with sampledAt := s.now }
    match reading with
    | some t => x.take (decide (20 ≤ input)) t ref s.now
    | none => x

/-- What a sample leads to while the controller die runs: a broken input, the bands, a protective shutdown. -/
def State.judgeReading (s : State) (input : Nat) (ref : Int) : State :=
  let x := s.sensor input
  let s := if x.broken then s else match x.brokenBy (decide (20 ≤ input)) ref s.now with
    | some c => s.declareBroken input c
    | none => s
  let s := s.bands
  let y := s.sensor input
  if 3 ≤ y.hot && !s.therm.shutHold then s.protectiveShutdown input y.reading else s

/-- R629 to R636: an input is sampled, every 1 ms on a die and every 10 ms for a thermistor; no reading where it does not convert. -/
def execTemperatureSample (input : Nat) (reading : Option Int) (s : State) : Host.Outcome State Fault Refusal :=
  if !s.sampled input || !s.pwr.aon then .next s
  else
    let s := s.reach ((s.sensor input).sampledAt + samplePeriod input)
    let ref := s.stuckRef input
    let s := s.takeReading input reading ref
    if s.pwr.crst then .next s.shutRelease else .next (s.judgeReading input ref)

/-! Slopes (R632) -/

/-- Least-squares slope as a fraction, in 0.1 °C/s: numerator and denominator (0 where no two samples differ in time). -/
def slope (l : List (Nat × Int)) : Int × Int :=
  let t0 := (l.headD (0, 0)).1
  let n : Int := l.length
  let t (e : Nat × Int) : Int := ((e.1 - t0 : Nat) : Int)
  let st := l.foldl (fun a e => a + t e) 0
  let sy := l.foldl (fun a e => a + e.2) 0
  let sty := l.foldl (fun a e => a + t e * e.2) 0
  let stt := l.foldl (fun a e => a + t e * t e) 0
  ((n * sty - st * sy) * 1250000000, n * stt - st * st)

/-- One input's evaluation. -/
def State.evalSlope (s : State) (i : Nat) : State :=
  let x := s.sensor i
  let (num, den) := slope (x.samples.filter fun e => decide (s.now < e.1 + sec))
  if !s.sampled i || x.broken || den ≤ 0 then s
  else
    let warn : Int := s.keyN 0x0706 0 2
    let crit : Int := s.keyN 0x0706 2 2
    let rising := if warn * den ≤ num then x.rising + 1 else 0
    let calm := if 2 * num < warn * den then x.calm + 1 else 0
    let recorded := x.recorded && decide (calm < 100)
    let hit := decide (20 ≤ rising) && !recorded
    let s := s.modSensor i fun x => { x with rising := rising, calm := calm, recorded := recorded || hit }
    let s := if hit then s.note 0x9105 10 (0x280 + i) [pattern 64 (num / den)] else s
    if crit * den ≤ num then s.fault 0x298 [] else s

/-- R632: every 100 ms the slope of each input. -/
def execRateOfRiseEvaluation (s : State) : Host.Outcome State Fault Refusal :=
  if s.pwr.crst then .next s
  else
    let s := s.reach (s.therm.rateAt + 100 * ms)
    .next ((List.range 24).foldl (fun s i => s.evalSlope i) (s.modTherm fun t => { t with rateAt := s.now }))

/-! The composite (R630, R635, R637) -/

/-- A temperature in K, as the thresholds and NVMe count it; to the nearest degree. -/
def kelvin (t : Int) : Nat := ((t + 4) / 8 + 273).toNat

/-- Temperature of selection 0 (composite) or sensor 1 to 6 (R511), if there is one. -/
def State.selTemp (s : State) (sel : Nat) : Option Int :=
  match sel with
  | 0 => some s.therm.composite
  | 1 => (s.hottest 0 16).map (·.2)
  | 2 => (s.hottest 16 4).map (·.2)
  | n => s.contrib (17 + n)

/-- Some threshold of Temperature Threshold is crossed. -/
def State.thresholdCrossed (s : State) : Bool :=
  (List.range 7).any fun sel => match s.selTemp sel with
    | none => false
    | some t =>
      let p := s.threshold sel
      decide (8 * (p.1 : Int) ≤ t + 2184) || decide (t + 2184 ≤ 8 * (p.2 : Int))

/-- The throttle level that HCTM asks for (R637). -/
def State.wantThrottle (s : State) : Nat :=
  let k := s.therm.composite + 2184
  let t1 := bits s.nvme.hctm.toNat 16 16
  let t2 := bits s.nvme.hctm.toNat 0 16
  if t2 ≠ 0 && 8 * (t2 : Int) ≤ k then 2 else if t1 ≠ 0 && 8 * (t1 : Int) ≤ k then 1 else 0

/-- R630, R635, R637: every 10 ms. -/
def execCompositeTemperatureUpdate (s : State) : Host.Outcome State Fault Refusal :=
  if s.pwr.crst then .next s
  else
    let s := s.reach (s.therm.compAt + 10 * ms)
    let c := ((s.hottest 0 24).map (·.2)).getD s.therm.composite
    let s := s.modTherm fun t => { t with composite := c, compAt := s.now }
    let hot := s.thresholdCrossed
    let broken := (List.range 24).any fun i => s.sampled i && (s.sensor i).broken
    let s := s.modTherm fun t => { t with crossed := hot }
    let s := if hot || broken then s.warnBit 1 else s.clearWarnBit 1
    let k := c + 2184
    let s := if 8 * (s.key2 0x0702 : Int) ≤ k then s.modTherm fun t => { t with critTime := t.critTime + 1 }
      else if 8 * (s.key2 0x0701 : Int) ≤ k then s.modTherm fun t => { t with warnTime := t.warnTime + 1 } else s
    let old := s.therm.throttle
    let lv := s.wantThrottle
    let s := s.modTherm fun t => { t with
      throttle := lv
      tmtCount := if lv = old || lv = 0 then t.tmtCount else lmod t.tmtCount (lv - 1) (· + 1)
      tmtTime := if lv = 0 then t.tmtTime else lmod t.tmtTime (lv - 1) (· + 1) }
    .next (if lv = old then s else s.note 0x9109 0 0 [lv])

/-! SMART / Health (R303, R511, R514) -/

/-- R511, R514: the 512 bytes as NVMe lays them out. Data units are thousands of 512 bytes, rounded up; the controller busy time is a free value: no rule
says when the controller counts as busy (log 39). -/
def execGetLogSmartHealth (stamp : Nat) (s : State) : Host.Outcome State Fault Refusal :=
  let n := s.nvme
  let t := s.therm
  let minutes (k : Nat) : Nat := k / 6000
  s.onLog stamp 0x02 512
    (fun _ =>
      [(0, 1, n.critWarn.toNat), (1, 2, kelvin t.composite), (3, 1, s.availableSpare), (4, 1, 10), (5, 1, min 255 s.percentUsed),
       (32, 16, ceilDiv n.dataRead 512000), (48, 16, ceilDiv n.dataWritten 512000), (64, 16, n.cmdsRead), (80, 16, n.cmdsWritten),
       (96, 16, (Config.freeValue 128 s.free).toNat), (112, 16, n.powerCycles), (128, 16, (n.onTime + s.time) / hour),
       (144, 16, n.unsafeOff), (160, 16, n.mediaErrs), (176, 16, n.errCount), (192, 4, minutes t.warnTime), (196, 4, minutes t.critTime)] ++
      ((List.range 6).map fun i => (200 + 2 * i, 2, ((s.selTemp (i + 1)).map kelvin).getD 0)) ++
      [(216, 4, t.tmtCount.getD 0 0), (220, 4, t.tmtCount.getD 1 0), (224, 4, t.tmtTime.getD 0 0 / 100), (228, 4, t.tmtTime.getD 1 0 / 100)])
    (fun c s => (clearUnlessRae 1 0x02 c s).drawn)

end Sys2Proof.Machine
end

