-- ==== Sys2Proof/Machine/Mi.lean ====
section
/-!
DEFINITION. The management endpoint: the NVMe-MI commands, tunnelled admin commands, and the arbitration cycle between host and management
orders (R518 to R520, R540, R586). Response layouts are those of NVMe-MI (log 42).
-/
namespace Sys2Proof.Machine
open Sys2Proof

/-- The endpoint acknowledges its address: CORE runs, and the recovery function is not presented (R518). -/
def State.miOpen (s : State) : Bool := (s.fw.stage = .core || s.fw.stage = .mounted) && !s.pwr.crst && !s.pwr.pl.running && !s.pcie.recovery

/-- Answer an NVMe-MI command. -/
def State.miAnswer (s : State) (tag len : Nat) (fields : List (Nat × Nat × Nat)) (dw0 : Nat) : Host.Outcome State Fault Refusal :=
  .next ((if len = 0 then s else s.send (.miData tag len fields)).send (.mi tag 0 (BitVec.ofNat 32 dw0)))

/-- NVMe-MI response status Invalid Parameter. -/
def miInvalid : Nat := 0x04

/-- R519: Read NVMe-MI Data Structure: 0 the subsystem, 1 a port, 2 the controllers, 3 a controller, 4 optional commands. The NVMe-MI version that the subsystem
reports is a free value. -/
def execMiReadDataStructure (tag dtyp port : Nat) (s : State) : Host.Outcome State Fault Refusal :=
  if !s.miOpen then .next s
  else match dtyp with
    | 0 =>
      let (v, s) := s.fresh 16
      s.miAnswer tag 32 [(0, 1, 1), (1, 2, v.toNat)] 32
    | 1 =>
      if port = 0 then s.miAnswer tag 32 [(0, 1, 1), (2, 2, 64), (8, 1, 2), (9, 1, 0x3F), (10, 1, 8)] 32
      else if port = 1 then s.miAnswer tag 32 [(0, 1, 2), (2, 2, 64), (10, 1, 0x3A), (11, 1, 3)] 32
      else .next (s.send (.mi tag miInvalid 0))
    | 2 => s.miAnswer tag 4 [(0, 2, 1), (2, 2, 0)] 4
    | 3 => s.miAnswer tag 32 [(5, 1, 1), (8, 2, 0x1F4B), (10, 2, 0x7400), (12, 2, s.key2 0x0801), (14, 2, s.key2 0x0802)] 32
    | 4 => s.miAnswer tag 2 [(0, 2, 0)] 2
    | _ => .next (s.send (.mi tag miInvalid 0))

/-- Controller status as both polls give it: RDY, CFS, SHST, PP. -/
def State.miCsts (s : State) : Nat := b2n s.nvme.rdy + 2 * b2n s.nvme.cfs + 4 * s.nvme.shst.toNat + 32 * b2n s.nvme.pp

/-- R519: NVM Subsystem Health Status Poll. -/
def execMiSubsystemHealthPoll (tag : Nat) (s : State) : Host.Outcome State Fault Refusal :=
  if !s.miOpen then .next s
  else
    let nss := 32 * b2n (!s.safeState) + 16 + 8 * b2n s.pcie.linkUp
    s.miAnswer tag 8 [(0, 1, nss), (1, 1, 255 - s.nvme.critWarn.toNat), (2, 1, pattern 8 (s.therm.composite / 8)), (3, 1, min 255 s.percentUsed), (4, 2, s.miCsts)] 0

/-- R519: Controller Health Status Poll: one controller, number 0. -/
def execMiControllerHealthPoll (tag first : Nat) (s : State) : Host.Outcome State Fault Refusal :=
  if !s.miOpen then .next s
  else if 0 < first then s.miAnswer tag 0 [] 0
  else
    s.miAnswer tag 16 [(2, 2, s.miCsts), (4, 2, kelvin s.therm.composite), (6, 1, min 255 s.percentUsed), (7, 1, s.availableSpare), (8, 1, s.nvme.critWarn.toNat)] 1

/-- Value of a configuration of a port: SMBus frequency (1), transmission unit (3). -/
def State.miValue (s : State) (cfg port : Nat) : Nat := tgetD s.nvme.miCfg (256 * cfg + port) (if cfg = 1 then 1 else 64)

/-- R518, R519: Configuration Set: 1 the bus frequency (100 kHz, 400 kHz, 1 MHz), 2 Health Status Change, 3 the MCTP transmission unit. -/
def execMiConfigurationSet (tag cfg port v : Nat) (s : State) : Host.Outcome State Fault Refusal :=
  if !s.miOpen then .next s
  else if cfg = 2 then s.miAnswer tag 0 [] 0
  else if (cfg = 1 && port = 1 && 1 ≤ v && v ≤ 3) || (cfg = 3 && port ≤ 1 && 64 ≤ v && v < 65536) then
    (s.modNvme fun n => { n with miCfg := tput n.miCfg (256 * cfg + port) v }).miAnswer tag 0 [] 0
  else .next (s.send (.mi tag miInvalid 0))

/-- R519: Configuration Get. -/
def execMiConfigurationGet (tag cfg port : Nat) (s : State) : Host.Outcome State Fault Refusal :=
  if !s.miOpen then .next s
  else if cfg = 2 then s.miAnswer tag 0 [] 0
  else if (cfg = 1 && port = 1) || (cfg = 3 && port ≤ 1) then s.miAnswer tag 0 [] (s.miValue cfg port)
  else .next (s.send (.mi tag miInvalid 0))

/-! Tunnelled admin commands (R519, R520, R586) -/

/-- Opcodes that the endpoint accepts. -/
def tunnelled (op : Nat) : Bool := [0x02, 0x06, 0x09, 0x0A, 0x10, 0x11, 0xC0, 0xC4, 0xC8].contains op

/-- The status with which a tunnelled command is turned away, 0 for none. -/
def tunnelStatus (q : Sqe) : Nat :=
  let op := q.opcode.toNat
  let fid := bits (q.cdw.getD 0 0).toNat 0 8
  if !tunnelled op then scInvalidOpcode
  else if op = 0x09 && !([0x04, 0xC1, 0xC3, 0xC4].contains fid) then scInvalidField
  else adminStatus op q.cdw q.sgl

/-- What the safe state still serves: logs 0xC1, 0xC3 and 0xC4, and Event Recorder Clear. -/
def safeServed (q : Sqe) : Bool :=
  (q.opcode.toNat == 0x02 && [0xC1, 0xC3, 0xC4].contains (bits (q.cdw.getD 0 0).toNat 0 8)) || q.opcode.toNat == 0xC8

/-- Admit a management command. -/
def State.admitMgmt (s : State) (o : MgmtOrder) : State :=
  s.letIn (s.newCtx (.mgmt o.tag) { opcode := o.op, cid := 0, nsid := BitVec.ofNat 32 o.nsid, prp := 0, cdw := o.cdw, sgl := [] } [] [] true)

/-- R519, R520, R586: a tunnelled admin command: turned away, or, an order, held for the arbitration cycle, or admitted. -/
def execMiTunnelledAdminCommand (tag : Nat) (sqe : Sqe) (s : State) : Host.Outcome State Fault Refusal :=
  if !s.miOpen then .next s
  else
    let st := if s.safeState && !safeServed sqe then scInternal else tunnelStatus sqe
    let o : MgmtOrder := { host := false, op := sqe.opcode, nsid := sqe.nsid.toNat, cdw := sqe.cdw, tag := tag }
    if st ≠ 0 then .next (s.send (.mi tag st 0))
    else if orders sqe.opcode.toNat then .next (s.modNvme fun n => { n with cycle := n.cycle ++ [o] })
    else .next (s.admitMgmt o)

/-- The object that an order names: the active profile, a feature, the activation, the recorder, the force bits (R520). -/
def MgmtOrder.object (o : MgmtOrder) : Nat :=
  let op := o.op.toNat
  if op = 0x09 then 0x900 + bits (o.cdw.getD 0 0).toNat 0 8 else op

/-- Two orders on fault force bits meet: one bit in common (CLEAR_ALL names every bit). -/
def sameForce (a b : Nat) : Bool := bitAt a 17 || bitAt b 17 || bits a 0 10 == bits b 0 10

/-- A management order contradicts a host order: the same object, another state of it. `same`: the data of the two is identical. -/
def MgmtOrder.contradicts (m h : MgmtOrder) (same : Bool) : Bool :=
  let a := (m.cdw.getD 0 0).toNat
  let b := (h.cdw.getD 0 0).toNat
  m.object == h.object &&
    (if m.op.toNat = 0xC0 then bitAt a 0 != bitAt b 0
     else if m.op.toNat = 0xC4 then sameForce a b && (bitAt a 17 != bitAt b 17 || (!bitAt a 17 && bitAt a 16 != bitAt b 16))
     else m.cdw != h.cdw || (m.op.toNat == 0x09 && !same))

/-- R520, R540: a cycle of 1 µs ends: a management order that contradicts a host order of the cycle is refused with 0xE0, the others go on. `sameData`: tags of
management Set Features whose data equals that of the host's. -/
def execOrderArbitrationCycle (sameData : List Nat) (s : State) : Host.Outcome State Fault Refusal :=
  let os := s.nvme.cycle
  let hosts := os.filter (·.host)
  let s := s.setNow (s.now + us)
  let s := s.modNvme fun n => { n with cycle := [] }
  .next ((os.filter fun o => !o.host).foldl (fun s o =>
    if hosts.any fun h => o.contradicts h (sameData.contains o.tag) then s.send (.mi o.tag 0xE0 0)
    else if s.safeState && o.op.toNat != 0xC8 then s.send (.mi o.tag scInternal 0)
    else s.admitMgmt o) s)

end Sys2Proof.Machine
end

