-- ==== Sys2Proof/Machine/ServoMath.lean ====
section
/-!
DEFINITION. Arithmetic of the Servo Control Engine: formats and rounding, filters and their preloading, compensator banks, stage inputs, friction,
bias and cross-actuator terms, regions (R390 to R399, R402, R405, R406). Quantities are integers that count the least significant bit of their format.
-/
namespace Sys2Proof.Machine
open Sys2Proof

/-! Rounding and saturation (R391, R392) -/

/-- Saturate to w bits in two's complement; the count is 1 when it saturates. -/
def satI (w : Nat) (v : Int) : Int × Nat :=
  let hi : Int := 2 ^ (w - 1) - 1
  if hi < v then (hi, 1) else if v < -hi - 1 then (-hi - 1, 1) else (v, 0)

/-- Shift right by k with rounding to nearest, ties toward +∞ (R391). -/
def roundShift (k : Nat) (v : Int) : Int := if k = 0 then v else (v + 2 ^ (k - 1)) / 2 ^ k

/-- A quotient to nearest, ties toward +∞. -/
def roundDiv (a : Int) (b : Nat) : Int := (2 * a + b) / (2 * b)

/-- Bring a sum of products of Q2.30 and Q8.24 to Q8.24. -/
def toQ24 (acc : Int) : Int × Nat := satI 32 (roundShift 30 acc)

/-- DAC code of w bits from a Q8.24 output (R392). -/
def dacCode (w : Nat) (u : Int) : Int := (satI w (roundShift (24 - (w - 1)) u)).1

/-- Square root by bits, from bit k down: the floor. -/
def rootBits (n : Nat) : Nat → Nat → Nat
  | 0, r => if (r + 1) * (r + 1) ≤ n then r + 1 else r
  | k + 1, r => rootBits n k (if (r + 2 ^ (k + 1)) * (r + 2 ^ (k + 1)) ≤ n then r + 2 ^ (k + 1) else r)

/-- Square root to nearest (R391's rounding; log 40). -/
def sqrtNear (n : Nat) : Nat := let r := rootBits n 47 0; if r * r + r < n then r + 1 else r

/-! Filters (R396, R402) -/

/-- b[0..N] and a[1..N] in Q2.30. -/
structure Filt where
  b : List Int := [2 ^ 30]
  a : List Int := []
  deriving DecidableEq, Repr, Inhabited

/-- Output from the states and an input. -/
def Filt.output (f : Filt) (st : List Int) (x : Int) : Int × Nat := toQ24 (f.b.getD 0 0 * x + st.getD 0 0 * 2 ^ 30)

/-- The states after an output. -/
def Filt.states (f : Filt) (st : List Int) (x y : Int) : List (Int × Nat) :=
  (List.range f.a.length).map fun j => toQ24 (f.b.getD (j + 1) 0 * x - f.a.getD j 0 * y + st.getD (j + 1) 0 * 2 ^ 30)

/-- One step: output, states, saturations. -/
def Filt.step (f : Filt) (st : List Int) (x : Int) : Int × List Int × Nat :=
  let (y, n) := f.output st x
  let ss := f.states st x y
  (y, ss.map (·.1), n + ss.foldl (fun m e => m + e.2) 0)

/-- States 2 to N of a preload, from the pairs (b[k], a[k]). -/
def preloadTail (x y : Int) : List (Int × Int) → List (Int × Nat)
  | [] => []
  | (b, a) :: t =>
    let r := preloadTail x y t
    toQ24 (b * x - a * y + (r.headD (0, 0)).1 * 2 ^ 30) :: r

/-- Preloading: with input x the output equals y. -/
def Filt.preload (f : Filt) (x y : Int) : List Int × Nat :=
  let r := toQ24 (y * 2 ^ 30 - f.b.getD 0 0 * x) :: preloadTail x y ((f.b.drop 2).zip (f.a.drop 1))
  (r.map (·.1), r.foldl (fun m e => m + e.2) 0)

/-- A chain of biquads, the first one first. -/
def chainStep : List Filt → List (List Int) → Int → Int × List (List Int) × Nat
  | [], _, x => (x, [], 0)
  | f :: fs, sts, x =>
    let (y, st, n) := f.step (sts.headD []) x
    let (z, rest, m) := chainStep fs (sts.drop 1) y
    (z, st :: rest, n + m)

/-- The output of a chain alone. -/
def chainOut : List Filt → List (List Int) → Int → Int
  | [], _, x => x
  | f :: fs, sts, x => chainOut fs (sts.drop 1) (f.output (sts.headD []) x).1

/-! Banks (R398) -/

/-- Little-endian signed values of 4 bytes. -/
def ints4 (bs : List Byte) (n : Nat) : List Int := (List.range n).map fun i => signed 32 (fieldAt bs (4 * i) 4)

/-- A compensator record. -/
structure BankRec where
  v : Filt := {}
  m : Filt := {}
  inV : Nat := 0
  inM : Nat := 0
  maEn : Bool := false
  xfEn : Bool := false
  kma : Int := 0
  deriving DecidableEq, Repr, Inhabited

/-- Record 3r + m of an actuator. -/
def State.bankRec (s : State) (a r m : Nat) : BankRec :=
  let bs := ((s.key (0x0502 + a)).drop (64 * (3 * r + m))).take 64
  let w := ints4 bs 12
  let f := fieldAt bs 0x30 4
  { v := { b := w.take 4, a := (w.drop 4).take 3 }, m := { b := (w.drop 7).take 3, a := (w.drop 10).take 2 }
    inV := bits f 0 4, inM := bits f 4 4, maEn := bitAt f 8, xfEn := bitAt f 9, kma := signed 32 (fieldAt bs 0x34 4) }

/-- The notch chains of a region: voice coil, milliactuator. -/
def State.notches (s : State) (a r : Nat) : List Filt × List Filt :=
  let bs := ((s.key (0x0502 + a)).drop (1536 + 256 * r)).take 256
  let q := (List.range 12).map fun i => let w := ints4 (bs.drop (20 * i)) 5; ({ b := w.take 3, a := w.drop 3 } : Filt)
  (q.take 6, q.drop 6)

/-! Stroke and regions (R399) -/

/-- Tracks of an actuator, and its boundaries 1 to 7. -/
def State.stroke (s : State) (a : Nat) : Nat := s.keyN 0x0501 (32 * a) 4
def State.boundary (s : State) (a r : Nat) : Nat := if r = 0 then 0 else if 8 ≤ r then s.stroke a else s.keyN 0x0501 (32 * a + 4 * r) 4

/-- The region that holds a track. -/
def State.regionOf (s : State) (a : Nat) (track : Int) : Nat :=
  ((List.range 7).filter fun r => decide ((s.boundary a (r + 1) : Int) ≤ track)).length

/-- The region at a position: in seek it follows the position, otherwise it changes beyond the hysteresis of key 0x050B. -/
def State.nextRegion (s : State) (a r : Nat) (seek : Bool) (x : Int) : Nat :=
  let t := x / 16384
  let h : Int := s.keyN 0x050B 6 2
  if seek || (s.boundary a (r + 1) : Int) + h < t || t < (s.boundary a r : Int) - h then s.regionOf a t else r

/-! Stage inputs (R393, R394) -/

/-- Voice-coil and milliactuator stage inputs with their saturations. d in Q26.14, v in Q16.16. -/
def State.stageIn (s : State) (b : BankRec) (m : Nat) (d v uM : Int) : Int × Int × Nat :=
  if m = 0 then
    let vmax : Int := s.keyN 0x0509 0 4
    let r : Int := sqrtNear (8 * s.keyN 0x0509 4 4 * d.natAbs)
    let vref := if d < 0 then -(min vmax r) else if d = 0 then 0 else min vmax r
    let (e, n) := satI 32 (roundShift b.inV ((vref - v) * 256))
    (e, 0, n)
  else
    let (eV, n) := satI 32 (roundShift b.inV (d * 1024 + roundShift 24 (b.kma * uM)))
    let (eM, k) := satI 32 (roundShift b.inM (d * 1024))
    (eV, eM, n + k)

/-! Feed-forward (R405, R406) -/

/-- Entry i of the friction and bias table with the sign of the velocity, Q1.15. -/
def State.fricBias (s : State) (a i : Nat) (sg : Int) : Int :=
  let bs := ((s.key (0x0504 + a)).drop (4 * i)).take 4
  signed 16 (fieldAt bs 2 2) + sg * signed 16 (fieldAt bs 0 2)

/-- FB in Q8.24 at a position: linear between the entries at floor(p) and the next, to nearest. -/
def State.fbTerm (s : State) (a : Nat) (x v : Int) : Int :=
  let den := 16 * s.stroke a
  let sg : Int := if 0 < v then 1 else if v < 0 then -1 else 0
  if den = 0 then 0
  else
    let p : Nat := min x.toNat (1023 * den)
    let i := p / den
    let k : Int := (p % den : Nat)
    roundDiv ((((den : Int) - k) * s.fricBias a i sg + k * s.fricBias a (min (i + 1) 1023) sg) * 512) den

/-- XF in Q8.24 from the last 16 voice-coil codes of the other actuator, newest first, with its saturation. -/
def State.xfTerm (s : State) (a : Nat) (hist : List Int) : Int × Nat :=
  let h := ints4 ((s.key 0x0506).drop (64 * a)) 16
  toQ24 ((h.zip hist).foldl (fun t e => t + e.1 * (e.2 * 128)) 0)

end Sys2Proof.Machine
end

