-- ==== Sys2Proof/Machine/ServoLoop.lean ====
section
/-!
DEFINITION. One sample of an actuator's position loop: position, modes and regions, the two stages under the bank that drives, hand-over to a new
bank, DAC codes, seek retries and lock (R393 to R409, R420).
-/
namespace Sys2Proof.Machine
open Sys2Proof

def State.sact (s : State) (a : Nat) : ServoAct := s.servo.acts.getD a {}
def State.modSact (s : State) (a : Nat) (f : ServoAct → ServoAct) : State := s.modServo fun v => { v with acts := lmod v.acts a f }
def State.modSpindle (s : State) (f : SpindleSt → SpindleSt) : State := s.modServo fun v => { v with spindle := f v.spindle }

/-! Repeatable runout (R407) -/

/-- Table of the surface and region in use. -/
def State.rroTable (s : State) (a : Nat) : Option (List (BitVec 16)) :=
  let z := s.sact a
  tget s.servo.rro (8 * (12 * a + z.head.toNat) + z.region)

/-- The entry of a wedge, and the actuator with its queue moved on: 0 and an underrun where the entry has not arrived. -/
def State.takeRro (s : State) (a w : Nat) : Int × ServoAct :=
  let z := s.sact a
  if (s.rroTable a).isNone then (0, z)
  else
    let i := (w + 480 - z.rroAt % 480) % 480
    let hit := decide (i < z.runout.length)
    let rest := if hit then z.runout.drop (i + 1) else []
    ((if hit then signed 16 (z.runout.getD i 0).toNat else 0),
     { z with runout := rest, rroAt := (w + 1) % 480, panic := decide (rest.length < 16), rround := if hit then z.rround else satInc z.rround })

/-! Seeks (R401) -/

/-- A seek that is retried; past the retry count of key 0x0509 it fails, and the third failure in a row raises the source of the actuator. A failed seek
of a write is a write fault without a charge (R334). -/
def State.retrySeek (s : State) (a : Nat) : State :=
  let z := s.sact a
  if z.seekTries < s.keyN 0x0509 24 2 then
    s.modSact a fun z => { z with retries := satInc z.retries, seekTries := z.seekTries + 1, seekAt := s.now, reseek := true, seekActive := true, hand := none }
  else
    let n := z.seekFails + 1
    let s := s.modSact a fun z => { z with
      seekFail := satInc z.seekFail, seekActive := false, seekTries := 0, reseek := false, hand := none, seekFails := if 3 ≤ n then 0 else n }
    let s := if z.seekOp = 1 then s.writeFault a 1 none else s
    if 3 ≤ n then s.fault (0x210 + a) [] else s

/-! One sample -/

/-- Position, velocity and distance of a sample: measured at a valid wedge, predicted at an invalid one (R393, R408). -/
def ServoAct.position (z : ServoAct) (ok : Bool) (track pes rro : Int) : Int × Int × Int :=
  let x := if ok then track * 16384 + pes - rro else z.x + z.v / 4
  let v := if !ok then z.v else if z.first then 0 else (satI 32 ((x - z.x) * 4)).1
  (x, v, z.curTarget * 64 - x)

/-- |d| within a Q16.16 limit of key 0x0509. -/
def State.within (s : State) (off : Nat) (d : Int) : Bool := decide (4 * (d.natAbs : Int) ≤ s.keyN 0x0509 off 4)

/-- The mode wanted at a valid sample, and the actuator with its counts (R400). Modes: 0 seek, 1 settle, 2 follow. -/
def State.wantMode (s : State) (a m : Nat) (d v : Int) : Nat × ServoAct :=
  let z := s.sact a
  let far := !s.within 8 d
  let near := s.within 16 d
  let cnt := if m = 1 && near then z.followCnt + 1 else 0
  let slow := decide ((v.natAbs : Int) ≤ s.keyN 0x0509 12 4)
  let m' := if z.reseek || (z.newTarget && far) then 0
    else if z.newTarget && m = 2 then (if near then 2 else 1)
    else if m = 0 then (if !far && slow then 1 else 0)
    else if m = 1 then (if s.keyN 0x0509 20 2 ≤ cnt then 2 else 1)
    else 2
  let begins := z.newTarget && !near && !z.seekActive
  (m', { z with newTarget := false, reseek := false, followCnt := cnt, seekActive := z.seekActive || begins, seekTries := if begins then 0 else z.seekTries })

/-- The states of a bank on an actuator. -/
structure BankState where
  vs : List Int
  ms : List Int
  vn : List (List Int)
  mn : List (List Int)
  deriving DecidableEq, Repr, Inhabited

/-- Run a bank on its inputs: both stage outputs after their notch chains, new states, saturations. The milliactuator stage is 0 without MA_EN (R395). -/
def BankRec.run (b : BankRec) (n : List Filt × List Filt) (t : BankState) (eV eM : Int) : Int × Int × BankState × Nat :=
  let (cv, vs, k1) := b.v.step t.vs eV
  let (yv, vn, k2) := chainStep n.1 t.vn cv
  if b.maEn then
    let (cm, ms, k3) := b.m.step t.ms eM
    let (ym, mn, k4) := chainStep n.2 t.mn cm
    (yv, ym, ⟨vs, ms, vn, mn⟩, k1 + k2 + k3 + k4)
  else (yv, 0, ⟨vs, t.ms, vn, t.mn⟩, k1 + k2)

/-- Outputs of a bank from the states left by the sample before. -/
def BankRec.peek (b : BankRec) (n : List Filt × List Filt) (t : BankState) (eV eM : Int) : Int × Int :=
  (chainOut n.1 t.vn (b.v.output t.vs eV).1, if b.maEn then chainOut n.2 t.mn (b.m.output t.ms eM).1 else 0)

/-- A stage whose old and new records are identical keeps its states, and its difference counts as 0 (R403). -/
def BankRec.sameV (new old : BankRec) : Bool := new.v = old.v && new.inV = old.inV
def BankRec.sameM (new old : BankRec) : Bool := new.m = old.m && new.inM = old.inM && new.maEn = old.maEn

/-- One stage of the shadow step: its compensator preloaded from an output, its notch chain from what that gives, then both updated. -/
def shadowStage (f : Filt) (n : List Filt) (same : Bool) (st : List Int) (x y : Int) : List Int × List (List Int) :=
  let st0 := if same then st else (f.preload x y).1
  let (c, st1, _) := f.step st0 x
  (st1, (chainStep n (n.map fun q => (q.preload c c).1) c).2.1)

/-- The shadow step of R403: the new bank's outputs are made those of the old one, and its states updated. `before` are the driving states before this
sample, `after` those after it; notch chains are replaced only when the region changes. -/
def BankRec.shadow (new old : BankRec) (n : List Filt × List Filt) (newRegion : Bool) (before after : BankState) (eV eM yV yM : Int) : BankState :=
  let v := shadowStage new.v n.1 (new.sameV old) before.vs eV yV
  let m := shadowStage new.m n.2 (new.sameM old) before.ms eM (if old.maEn then yM else 0)
  { vs := if new.sameV old then after.vs else v.1, ms := if new.sameM old then after.ms else m.1
    vn := if newRegion then v.2 else after.vn, mn := if newRegion then m.2 else after.mn }

/-- The comparison of R403: every stage within HB, an identical or disabled stage counting as 0. -/
def State.handOk (s : State) (new old : BankRec) (yN yO : Int × Int) : Bool :=
  let hb : Int := s.keyN 0x050A 0 4
  (new.sameV old || decide (((yN.1 - yO.1).natAbs : Int) ≤ hb)) && (!new.maEn || new.sameM old || decide (((yN.2 - yO.2).natAbs : Int) ≤ hb))

/-- Mode of the actuator with a bank. -/
def bankMode (m : Nat) : ServoMode := if m = 0 then .seek else if m = 1 then .settle else .follow

/-- States of the bank that drives. -/
def ServoAct.bankState (z : ServoAct) : BankState := ⟨z.vs, z.ms, z.vn, z.mn⟩

/-- An actuator driven by another bank; a change of region empties the runout queue (R407). -/
def ServoAct.takeBank (z : ServoAct) (r m : Nat) (t : BankState) : ServoAct :=
  { z with
    region := r, bank := m, mode := bankMode m, hand := none, vs := t.vs, ms := t.ms, vn := t.vn, mn := t.mn
    followCnt := if m = 1 then 0 else z.followCnt
    runout := if r = z.region then z.runout else [] }

/-- What one sample of the two stages comes to: outputs without feed-forward, the actuator, and whether a hand-over failed. -/
structure StageOut where
  yV : Int
  yM : Int
  z : ServoAct
  xf : Bool
  failed : Bool
  deriving Inhabited

/-- The two stages at a sample with a wanted bank (R395, R402 to R404, R420). -/
def State.stages (s : State) (a : Nat) (z : ServoAct) (ok : Bool) (d v : Int) (want : Nat × Nat) : StageOut :=
  let old := s.bankRec a z.region z.bank
  let oldN := s.notches a z.region
  let (eV, eM, k0) := s.stageIn old z.bank d v z.uM
  let (yV, yM, t, k) := old.run oldN z.bankState eV eM
  let z := { z with satCnt := satAdd z.satCnt (k0 + k) }
  let left : ServoAct := { z with vs := t.vs, ms := t.ms, vn := t.vn, mn := t.mn }
  let pend := match z.hand with | some h => (h.region, h.mode) | none => (z.region, z.bank)
  let want := if ok then want else pend
  let new := s.bankRec a want.1 want.2
  let newReg := decide (want.1 ≠ z.region)
  let newN := if newReg then s.notches a want.1 else oldN
  let (nV, nM, _) := s.stageIn new want.2 d v z.uM
  let u := new.shadow old newN newReg z.bankState t nV nM yV yM
  let hold (k : Nat) : ServoAct := { left with hand := some { region := want.1, mode := want.2, samples := k, vs := u.vs, ms := u.ms, vn := u.vn, mn := u.mn } }
  if want = (z.region, z.bank) then ⟨yV, yM, { left with hand := none }, old.xfEn, false⟩
  else if ok && want.2 = 0 && pend ≠ want then ⟨yV, if new.maEn then yM else 0, left.takeBank want.1 want.2 u, new.xfEn, false⟩
  else
    match z.hand with
    | none => ⟨yV, yM, hold 0, old.xfEn, false⟩
    | some h =>
      let hs : BankState := { vs := if new.sameV old then z.vs else h.vs, ms := if new.sameM old then z.ms else h.ms
                              vn := if newReg then h.vn else z.vn, mn := if newReg then h.mn else z.mn }
      let yN := new.peek newN hs nV nM
      if ok && pend = want && s.handOk new old yN (yV, yM) then
        ⟨yN.1, yN.2, left.takeBank want.1 want.2 (new.run newN hs nV nM).2.2.1, new.xfEn, false⟩
      else if 7 ≤ h.samples then ⟨yV, yM, { left with hand := none, hoFail := satInc z.hoFail }, old.xfEn, true⟩
      else ⟨yV, yM, hold (h.samples + 1), old.xfEn, false⟩

/-- Send the codes of a sample: FB always, XF where the record asks for it (R395, R405, R406). The milliactuator holds its output at an invalid wedge
(R408). -/
def State.drive (s : State) (a : Nat) (z : ServoAct) (yV yM : Int) (xf ok : Bool) : State :=
  let (x, k1) := if xf then s.xfTerm a (s.sact (1 - a)).hist else (0, 0)
  let (uV, k2) := satI 32 (yV + s.fbTerm a z.x z.v + x)
  let uM := if ok then yM else z.uM
  let cV := dacCode 18 uV
  s.modSact a fun _ => { z with dacV := cV, dacM := dacCode 16 uM, uM := uM, satCnt := satAdd z.satCnt (k1 + k2) }

/-- Voice-coil history of an actuator for its own wedge interval: the code sent, or 0 where the engine did not drive it (R406). -/
def State.pushHist (s : State) (a : Nat) (c : Int) : State := s.modSact a fun z => { z with hist := (c :: z.hist).take 16 }

/-- Cleared compensators and notch chains (R408). -/
def ServoAct.cleared (z : ServoAct) : ServoAct := { z with
  vs := [0, 0, 0], ms := [0, 0], vn := List.replicate 6 [0, 0], mn := List.replicate 6 [0, 0], hand := none, bank := 0 }

/-- Position lost for too long: REACQUIRE (R408). -/
def State.reacquire (s : State) (a : Nat) : State :=
  (s.modSact a fun z => { z.cleared with mode := .reacquire, locked := false, lockCnt := 0 }).modPlace fun p => { p with unlocked := lmod p.unlocked a fun _ => s.now }

/-- Counts that a valid sample keeps: on track, which ends a seek, and lock (R400, R409). -/
def State.judge (s : State) (a : Nat) : State :=
  let z := s.sact a
  let d := (z.curTarget * 64 - z.x).natAbs
  let follow := decide (z.mode = .follow)
  let on := if follow && 100 * d ≤ s.keyN 0x0416 0 2 * 16384 then z.onTrackCnt + 1 else 0
  let inLock := follow && decide (d ≤ s.keyN 0x050B 2 2 * 16)
  let lk := if inLock then z.lockCnt + 1 else 0
  let ends := z.seekActive && decide (8 ≤ on)
  (s.modSact a fun z => { z with
    onTrackCnt := on, lockCnt := lk, locked := decide (32 ≤ lk)
    seekActive := z.seekActive && !ends, seekTries := if ends then 0 else z.seekTries, seekFails := if ends then 0 else z.seekFails }).rackLockCheck

/-- One sample of an actuator in a servo mode (R393 to R409). `w` is the wedge index. -/
def State.servoSample (s : State) (a w : Nat) (ok : Bool) (track pes : Int) : State :=
  let (rro, z) := s.takeRro a w
  let (x, v, d) := z.position ok track pes rro
  let s := s.modSact a fun _ => { z with
    x := x, v := v, first := z.first && !ok, pes := if ok then BitVec.ofInt 16 pes else z.pes
    misses := if ok then 0 else z.misses + 1, missCnt := if ok then z.missCnt else satInc z.missCnt, hoWait := z.hoWait - 1 }
  let z := s.sact a
  if !ok && (if z.bank = 0 then 32 else s.keyN 0x050B 4 2) ≤ z.misses then s.reacquire a
  else
    let force := z.reseek || (z.newTarget && !s.within 8 d)
    let (m, z) := if ok then s.wantMode a z.bank d v else (z.bank, { z with followCnt := 0 })
    let m' := match z.hand with | some h => if m = z.bank && !force then h.mode else m | none => m
    let r0 := match z.hand with | some h => h.region | none => z.region
    let r := if ok && z.hoWait = 0 then s.nextRegion a r0 (decide (z.bank = 0)) x else r0
    let mode0 := z.bank
    let regOnly := match z.hand with | some h => h.mode == z.bank | none => false
    let o := s.stages a z ok d v (r, m')
    let s := s.drive a o.z o.yV o.yM o.xf ok
    let s := s.pushHist a (s.sact a).dacV
    let s := if o.failed then
        (if regOnly && mode0 = 2 then (s.modSact a fun z => { z with hoWait := 64 }).noteOther 5 5 a else s.retrySeek a) else s
    if ok then s.judge a else s.modSact a fun z => { z with locked := false, lockCnt := 0, onTrackCnt := 0 }

/-- A wedge in REACQUIRE: FB alone drives; a valid one starts a seek to the current target, which counts as a retry (R408). -/
def State.reacquireSample (s : State) (a : Nat) (ok : Bool) (track pes : Int) : State :=
  let s := s.modSact a fun z => if ok then z else { z with misses := z.misses + 1, missCnt := satInc z.missCnt }
  if ok then
    let s := s.modSact a fun z => { z with mode := .seek, bank := 0, x := track * 16384 + pes, v := 0, misses := 0, pes := BitVec.ofInt 16 pes
                                           region := s.regionOf a track, runout := [], first := false }
    let s := s.retrySeek a
    (s.drive a (s.sact a) 0 0 false true).pushHist a (s.sact a).dacV
  else (s.drive a { s.sact a with uM := 0 } 0 0 false true).pushHist a (s.sact a).dacV

end Sys2Proof.Machine
end

