-- ==== Sys2Proof/Machine/Servo.lean ====
section
/-!
DEFINITION. Servo and spindle as commands: wedges with the SRV lock and write gating, targets, seeks, spindle start and speed, loading,
unloading and braking (R26, R365, R370, R372, R386 to R416, R419).
-/
namespace Sys2Proof.Machine
open Sys2Proof

/-! The SRV lock (R26, R387) -/

/-- A servo mode: the actuator's loop runs on wedges. -/
def ServoMode.servo (m : ServoMode) : Bool := m = .seek || m = .settle || m = .follow

/-- The lock and loss counts at a wedge of an actuator with its timing error in ns, or none without a servo address mark. 480 wedges within the window of key
0x050B lock the domain and put the speed loop on wedges; 8 without any valid error unlock it. -/
def State.srvWedge (s : State) (a : Nat) (terr : Option Int) : State :=
  let p := s.servo.spindle
  let lone := decide (p.lockAct = 0) && decide (a = 0) && terr.isNone && (s.sact 1).mode.servo
  let s := s.modSpindle fun p => { p with lockAct := if lone || (p.lockAct = 0 && (s.sact 0).mode = .fenced) then 1 else p.lockAct }
  let mine := decide (a = p.lockAct)
  let good := terr.any fun t => decide (t.natAbs ≤ s.keyN 0x050B 0 2)
  let run := if !mine then p.lockRun else if good then p.lockRun + 1 else 0
  let loss := if terr.isSome then 0 else if mine then p.lossRun + 1 else p.lossRun
  if p.srvLock && 8 ≤ loss then
    s.modSpindle fun p => { p with srvLock := false, lockRun := 0, lossRun := 0, lockAct := 0, state := if p.state = .wedge then .bemf else p.state }
  else if !p.srvLock && 480 ≤ run then
    s.modSpindle fun p => { p with srvLock := true, lockRun := run, lossRun := loss, state := if p.state = .bemf then .wedge else p.state }
  else s.modSpindle fun p => { p with lockRun := min run 480, lossRun := loss }

/-! Write gating (R370, R413) -/

/-- A burst ends; what was begun after the last good wedge is written again. -/
def RwSt.inhibit (w : RwSt) : RwSt :=
  if w.burst then { w with wg := false, assistEn := false, burst := false, writing := some w.lastGood } else { w with wg := false, assistEn := false }

/-- The gates after a wedge. `write`: the next sector of the band being written, and whether a positive PES points at the track written before; none
while nothing is written. -/
def State.gate (s : State) (a : Nat) (ok : Bool) (pes : Int) (write : Option (Nat × Bool)) : State :=
  match write with
  | none =>
    let s := if (s.rw a).writing.isSome then s.loadSet a else s
    s.modRw a fun w => { w with wg := false, assistEn := false, burst := false, writing := none }
  | some (k, up) =>
    let lim (off : Nat) : Bool := decide ((s.keyN 0x0416 off 2 : Int) * 16384 < 100 * pes.natAbs)
    let squeezed := ok && lim 2 && (decide (0 < pes) == up)
    if ok && !lim 0 && !s.servo.spindle.winhibit && !s.pwr.pl.running && !s.safeState && (s.rw a).fltN then
      let s := if (s.rw a).writing.isNone then s.loadSet a else s
      s.modRw a fun w => { w with wg := true, assistEn := true, burst := true, writing := some k, lastGood := k }
    else s.modRw a fun w => { w.inhibit with squeezeCheck := w.squeezeCheck || (w.burst && squeezed) }

/-- R365, R366, R370, R386 to R409: a wedge record of an actuator. -/
def execWedgeRecord (act : Nat) (rec : BitVec 128) (write : Option (Nat × Bool)) (s : State) : Host.Outcome State Fault Refusal :=
  if 2 ≤ act then .next s
  else
    let r := rec.toNat
    let sam := bitAt r 49
    let valid := sam && bitAt r 50 && bitAt r 51
    let pes := signed 16 (bits r 0 16)
    let track : Int := bits r 16 24
    let s := s.srvWedge act (if sam then some (signed 12 (bits r 64 12)) else none)
    let ok := valid && s.servo.spindle.srvLock
    let other := (s.sact (1 - act)).mode
    let s := if other.servo || other = .reacquire then s else s.pushHist (1 - act) 0
    let z := s.sact act
    let s := match z.mode with
      | .loading => s.modSact act fun z => { z with samRun := if sam then z.samRun + 1 else 0 }
      | .reacquire => s.reacquireSample act ok track pes
      | .parked => s
      | .unloading => s
      | .fenced => s
      | _ => if z.first && !s.servo.spindle.srvLock then s else s.servoSample act (bits r 40 9 % 480) ok track pes
    .next (s.gate act ok pes write)

/-- A step of the band writer has no burst (R413, R370): both channels are inhibited. -/
def State.inhibitAll (s : State) : State := s.modChan fun c => { c with rw := c.rw.map RwSt.inhibit }

/-! Targets and seeks (R372, R400, R401, R419) -/

/-- R419: GO applies TARGET and HEAD_SEL; a retired head is refused (R372). A head switch empties the runout queue and begins the settle time. `op`: 1 a
write, 2 a read, else a load or seek test (R401). -/
def execServoGo (act : Nat) (target : BitVec 32) (head : BitVec 4) (op : Nat) (s : State) : Host.Outcome State Fault Refusal :=
  if 2 ≤ act then .next s
  else
    let s := s.modSact act fun z => { z with target := target, headSel := head }
    if s.rackHeads act ≤ head.toNat || bitAt (s.place.fenceHead.getD act 0).toNat head.toNat then .next s
    else
      let swap := decide (head ≠ (s.sact act).head)
      .next (s.modSact act fun z => { z with
        curTarget := signed 32 target.toNat, newTarget := true, seekAt := s.now, seekOp := op
        head := head, runout := if swap then [] else z.runout, first := z.first || swap, settling := z.settling || swap
        settleAt := if swap then s.now else z.settleAt })

/-- R372: tHSW after a head switch: the new head's parameters are loaded. -/
def execHeadSwitchSettle (act : Nat) (s : State) : Host.Outcome State Fault Refusal :=
  let z := s.sact act
  if 2 ≤ act || !z.settling then .next s
  else .next (((s.reach (z.settleAt + s.keyN 0x0415 4 2 * us)).modSact act fun z => { z with settling := false }).loadSet act)

/-- R401: a seek has not reached its track within the limit of key 0x0509. -/
def execSeekTimeLimit (act : Nat) (s : State) : Host.Outcome State Fault Refusal :=
  let z := s.sact act
  if 2 ≤ act || !z.seekActive then .next s else .next ((s.reach (z.seekAt + s.keyN 0x0509 22 2 * ms)).retrySeek act)

/-- R407: a block of 32 runout entries arrives; the panic signal follows the entries ahead. -/
def execRunoutQueueRefill (act : Nat) (s : State) : Host.Outcome State Fault Refusal :=
  match s.rroTable act with
  | none => .next s
  | some t =>
    let z := s.sact act
    if 2 ≤ act || 32 < z.runout.length then .next s
    else
      let q := z.runout ++ (List.range 32).map fun i => t.getD ((z.rroAt + z.runout.length + i) % 480) 0
      .next (s.modSact act fun z => { z with runout := q, panic := decide (q.length < 16) })

/-! Speed (R410 to R414) -/

/-- Target speed in rpm. -/
def State.targetRpm (s : State) : Nat := if s.servo.spindle.state = .reduced then s.keyN 0x0508 10 2 else 7200

/-- Nominal period in 400 MHz counts as a fraction: of a wedge, or of 60° electrical (R411). -/
def State.nominal (s : State) (wedge : Bool) : Nat × Nat :=
  if wedge then (50000000, s.targetRpm) else (4000000000, s.targetRpm * s.keyN 0x0508 0 2)

/-- Cogging term in Q8.24: by wedge, or by commutation sector before wedge lock (R412). -/
def State.cogTerm (s : State) (wedge : Bool) (at_ : Nat) : Int :=
  let i := if wedge then (s.servo.spindle.theta0 + at_ * s.keyN 0x0508 0 2 * 256 / 480) % 256 else at_ % 6 * 256 / 6
  signed 16 (s.keyN 0x0507 (2 * i) 2) * 512

/-- The speed compensator (key 0x0508: b0, b1, b2, a1, a2). -/
def State.speedFilt (s : State) : Filt := let w := ints4 ((s.key 0x0508).drop 12) 5; { b := w.take 3, a := w.drop 3 }

/-- A wedge's period against Pnom: beyond 0.1 % the burst ends, beyond 1 % the error time runs; 480 good wedges release the gates (R413). -/
def State.speedJudge (s : State) (num den period : Nat) : State :=
  let dev := (num : Int) - period * den
  let off (k : Nat) : Bool := decide (num < k * dev.natAbs)
  let s := s.modSpindle fun p =>
    let run := if off 1000 then 0 else p.goodRun + 1
    { p with goodRun := min run 480, winhibit := p.winhibit && decide (run < 480), errSince := if off 100 then (if p.errSince.isSome then p.errSince else some s.now) else none }
  if off 1000 then s.inhibitAll else s

/-- R411 to R413: the speed loop runs, on the wedge period once the wedges drive it, else on the commutation period. `period` in 400 MHz counts, `at_` the
wedge index or the commutation sector, `theta` the angle index at wedge 0 when the power die reports it. -/
def execSpeedLoopUpdate (period at_ : Nat) (theta : Option Nat) (s : State) : Host.Outcome State Fault Refusal :=
  let p := s.servo.spindle
  if period = 0 || !(p.state = .bemf || p.state = .wedge || p.state = .reduced) then .next s
  else
    let wedge := decide (p.state = .wedge)
    let s := match theta with | some t => s.modSpindle fun p => { p with theta0 := t % 256 } | none => s
    let (num, den) := s.nominal wedge
    let err := (satI 32 (roundDiv (((num : Int) - period * den) * 2 ^ 24) num)).1
    let (y, st, _) := s.speedFilt.step p.sp err
    let u := (satI 32 (y + s.cogTerm wedge at_)).1
    let top : Int := if p.state = .bemf then s.keyN 0x0508 4 2 else 32767
    let cmd := clampI 0 (min top 32767) (roundShift 9 u)
    let rpm16 := if wedge then 800000000 / period else 64000000000 / (period * max 1 (s.keyN 0x0508 0 2))
    let s := (s.modSpindle fun p => { p with sp := st, cmd := cmd, speed := BitVec.ofNat 32 rpm16 }).send (.spindle cmd)
    .next (if wedge then s.speedJudge num den period else s)

/-- R413: a departure of more than 1 % has lasted 1 s: source 0x212, and the write gates stay low. -/
def execSpindleSpeedErrorTimeout (s : State) : Host.Outcome State Fault Refusal :=
  match s.servo.spindle.errSince with
  | none => .next s
  | some t =>
    let s := (s.reach (t + sec)).modSpindle fun p => { p with winhibit := true, goodRun := 0, errSince := none }
    .next ((s.fault 0x212 []).inhibitAll)

/-! Spindle start (R410) -/

/-- Motor commands are obeyed: the power die has been re-armed (R9, R418). -/
def State.motorOn (s : State) : Bool := !s.link.silent && !s.link.retract

/-- R410 step 2: rotor sensing ends; an ambiguous result aligns the rotor for 200 ms. The open-loop ramp begins. -/
def execRotorSensingEnd (ambiguous : Bool) (s : State) : Host.Outcome State Fault Refusal :=
  let p := s.servo.spindle
  if s.rack.spin ≠ .spinup || p.state ≠ .sense || !s.motorOn || s.pwr.vinMain < 10800 ||
     !(s.servo.acts.all fun a => decide (a.mode = .parked) || decide (a.mode = .fenced)) then .next s
  else
    let s := if ambiguous then s.setNow (s.now + 200 * ms) else s
    .next (s.modSpindle fun p => { p with state := .openloop, attempts := satInc p.attempts, stageAt := s.now, cmd := s.keyN 0x0508 2 2 })

/-- R410 step 3: no back-EMF within 2 s: sensing and ramp again, 3 times in all. -/
def execOpenLoopRampTimeout (s : State) : Host.Outcome State Fault Refusal :=
  let p := s.servo.spindle
  if p.state ≠ .openloop then .next s
  else
    let s := s.reach (p.stageAt + 2 * sec)
    .next (s.modSpindle fun p => { p with state := if p.attempts.toNat < 3 then .sense else .stopped, stageAt := s.now, cmd := 0 })

/-- R410 step 4: back-EMF at the hand-over speed closes the speed loop. -/
def execBackEmfDetected (s : State) : Host.Outcome State Fault Refusal :=
  if s.servo.spindle.state ≠ .openloop || s.rack.spin ≠ .spinup then .next s
  else .next (s.modSpindle fun p => { p with state := .bemf, sp := [0, 0], stageAt := s.now })

/-- An actuator that is not fenced begins a load (R415). -/
def ServoAct.load (z : ServoAct) (now : Nat) : ServoAct :=
  if z.mode = .parked then { z with mode := .loading, loadTries := z.loadTries + 1, loadAt := now, samRun := 0, first := true, misses := 0 } else z

/-- R410 step 5: the speed is within 0.5 % of 7,200 rpm: both actuators load. -/
def execRunUpSpeedReached (s : State) : Host.Outcome State Fault Refusal :=
  if s.servo.spindle.state ≠ .bemf || s.rack.spin ≠ .spinup || !s.motorOn then .next s
  else .next (s.modServo fun v => { v with acts := v.acts.map fun z => ({ z with loadTries := 0 } : ServoAct).load s.now, spindle := { v.spindle with speed := 115200 } })

/-! Load, unload, braking (R415, R416) -/

/-- R415: servo marks on four wedges in a row end a load: the track is read, and a seek goes to the last target or, after a start, to the middle of
region 0. -/
def execActuatorLoadEnd (act track : Nat) (s : State) : Host.Outcome State Fault Refusal :=
  let z := s.sact act
  if 2 ≤ act || z.mode ≠ .loading || z.samRun < 4 then .next s
  else
    let mid := signed 32 (s.boundary act 1 / 2 * 256)
    .next ((s.modSact act fun z => { z.cleared with
      mode := .seek, bank := 0, x := track * 16384, v := 0, region := s.regionOf act track, curTarget := if z.curTarget = 0 then mid else z.curTarget
      newTarget := true, seekActive := true, seekTries := 0, seekAt := s.now, seekOp := 0, runout := [], first := true, followCnt := 0 }).loadSet act)

/-- R415: no mark within the load timeout of key 0x050C: the actuator unloads. -/
def execLoadTimeout (act : Nat) (s : State) : Host.Outcome State Fault Refusal :=
  let z := s.sact act
  if 2 ≤ act || z.mode ≠ .loading then .next s
  else .next ((s.reach (z.loadAt + s.keyN 0x050C 8 2 * ms)).modSact act fun z => { z with mode := .unloading, uM := 0 })

/-- R415, R416: back-EMF has stayed low for 2 ms and the 5 ms hold is over: parked. A first load that failed is tried once more; in SPINDOWN the spindle
brakes once both are parked. -/
def execUnloadEnd (act : Nat) (s : State) : Host.Outcome State Fault Refusal :=
  let z := s.sact act
  if 2 ≤ act || z.mode ≠ .unloading then .next s
  else
    let s := ((s.setNow (s.now + 5 * ms)).modSact act fun z =>
      { z with mode := .parked, locked := false, dacV := 0, dacM := 0, uM := 0, seekActive := false }).heatersOff act
    if s.rack.spin = .spinup && z.loadTries = 1 && s.motorOn then .next (s.modSact act fun z => z.load s.now) else .next s.brakeWhenParked

/-- R416: reverse-torque braking has come down to 600 rpm; the power die short-brakes. -/
def execBrakingSpeedReached (s : State) : Host.Outcome State Fault Refusal :=
  if s.servo.spindle.state ≠ .braking || s.rack.toReduced then .next s
  else .next (s.modSpindle fun p => { p with cmd := 0, speed := 9600 })

end Sys2Proof.Machine
end

