-- ==== Sys2Proof/Machine/Motion.lean ====
section
/-!
DEFINITION. The die-to-die link and the retract of both actuators; preamplifier faults and head calibration (R8 to R10, R355, R371, R376 to
R383, R417, R418).
-/
namespace Sys2Proof.Machine
open Sys2Proof

/-! Retract (R417, R418) -/

/-- The power die takes both actuators: milliactuators to 0, voice coils toward the ramps, engine commands ignored until re-armed. -/
def State.retractBoth (s : State) : State :=
  (s.modServo fun v => { v with
    acts := v.acts.map fun a => if a.mode = .parked || a.mode = .fenced then a else
      { a with mode := .unloading, locked := false, uM := 0, dacM := 0, hand := none, seekActive := false }
    spindle := { v.spindle with srvLock := false } }).modLink fun l => { l with silent := true }

/-- R10, R417: the engine asserts the retract line: within 20 µs of the power-fail line, on entry to the safe state, or by order of device firmware. -/
def execRetractLineAssert (s : State) : Host.Outcome State Fault Refusal :=
  if s.pwr.crst then .next s
  else
    let s := if s.pwr.pl.running then s.setNow (max s.now (min (s.now + 20 * us) (s.pwr.pl.start + 20 * us))) else s
    .next (s.modLink fun l => { l with retract := true }).retractBoth

/-- R417: VIN_MAIN is below its threshold and the retract line has stayed low for 100 µs: the power die retracts without an order, which is reported
as R9 gives. -/
def execPowerDieRetractTimeout (s : State) : Host.Outcome State Fault Refusal :=
  if s.key2 0x0601 ≤ s.pwr.vinMain || s.link.retract || s.link.silent then .next s
  else .next ((s.setNow (s.now + 100 * us)).retractBoth.modLink fun l => { l with retractReport := true })

/-- R418: both actuators are parked and the spindle is short-braked. -/
def execRetractParked (s : State) : Host.Outcome State Fault Refusal :=
  if !s.link.silent then .next s
  else
    let s := s.modServo fun v => { v with
      acts := v.acts.map fun a => if a.mode = .fenced then a else { a with mode := .parked, dacV := 0, dacM := 0, uM := 0, locked := false }
      spindle := { v.spindle with state := .retracted, cmd := 0 } }
    let spin := s.rack.spin
    .next (s.modRack fun r => { r with spin := if spin = .spinup || spin = .ready || spin = .reduced || spin = .spindown then .stopped else spin })

/-! The link (R8, R9) -/

/-- R9: the power die has received no valid frame for 50 µs: it retracts and brakes on its own. -/
def execLinkSilenceTimeout (s : State) : Host.Outcome State Fault Refusal :=
  if s.link.silent || s.pwr.crst then .next s
  else .next ((s.reach (s.link.lastGood + 50 * us)).retractBoth.modLink fun l => { l with retractReport := true })

/-- R9: the controller die sends a frame at least every 2 µs. -/
def execLinkFrameInterval (s : State) : Host.Outcome State Fault Refusal :=
  if s.pwr.crst then .next s else .next (((s.reach (s.link.lastSent + 2 * us)).modLink fun l => { l with lastSent := max s.now (l.lastSent + 2 * us) }).send .frame)

/-- R8, R9: a frame arrives, at the power die or from it; `dac` is the actuator whose codes it carries. A frame whose CRC-8 fails is discarded and counted;
the second DAC update in a row that is lost for an actuator raises its source. A frame from the power die after an autonomous retract reports it. -/
def execDieLinkFrame (toPower good : Bool) (dac : Option Nat) (s : State) : Host.Outcome State Fault Refusal :=
  if s.pwr.crst then .next s
  else if !good then
    let s := (s.modLink fun l => { l with crcErrors := l.crcErrors + 1 }).fault 0x200 []
    match (if toPower then dac else none) with
    | none => .next s
    | some a =>
      if 2 ≤ a then .next s
      else
        let n := s.link.dacMiss.getD a 0 + 1
        let s := s.modLink fun l => { l with dacMiss := lmod l.dacMiss a fun _ => if 2 ≤ n then 0 else n }
        .next (if 2 ≤ n then s.fault (0x201 + a) [] else s)
  else if toPower then
    let s := s.modLink fun l => { l with lastGood := s.now }
    match dac with
    | none => .next s
    | some a =>
      let z := s.sact a
      if 2 ≤ a then .next s
      else
        let s := s.modLink fun l => { l with dacMiss := lmod l.dacMiss a fun _ => 0 }
        if s.link.silent then .next s
        else .next ((s.modLink fun l => { l with
          dac := lmod l.dac a fun _ => BitVec.ofInt 18 z.dacV
          madac := lmod l.madac a fun _ => BitVec.ofInt 16 z.dacM }).send (.motor a z.dacV z.dacM))
  else if s.link.retractReport then .next ((s.modLink fun l => { l with retractReport := false }).fault 0x203 [])
  else .next s

/-- R9, R418: device firmware re-arms the power die; the retract line is released outside the safe state and the power-loss sequence. -/
def execPowerDieRearm (s : State) : Host.Outcome State Fault Refusal :=
  if s.pwr.crst || s.pwr.pl.running || s.safeState then .next s
  else
    let s := s.modLink fun l => { l with silent := false, retract := false, lastGood := s.now }
    let s := s.modServo fun v => { v with spindle := { v.spindle with state := if v.spindle.state = .retracted then .stopped else v.spindle.state } }
    .next (if s.rackWork then s.flowDemand else s)

/-! Preamplifier faults (R371) -/

/-- What the fault register reports. -/
inductive PreampFault where
  /-- Writer open or short. -/
  | writer
  /-- Write current low, or an assist fault. -/
  | assist
  /-- Reader open or short. -/
  | reader
  /-- Supply or thermal fault. -/
  | supply
  /-- No fault bit set. -/
  | clear
  deriving DecidableEq, Repr

/-- The report by the code of the operand. -/
def preampOf (k : Nat) : PreampFault := if k = 0 then .writer else if k = 1 then .assist else if k = 2 then .reader else if k = 3 then .supply else .clear

/-- R371: Pa_FLT_N goes low: the gates drop, the fault register is read, and the row of its report applies. During a read the sector is a decode failure,
which its read reports; a supply or thermal fault is a write fault then too (assumption log 59). `kind`: 0 writer, 1 write current or assist, 2 reader, 3 supply or thermal, else none; `again`: a repeat read after a head
re-select confirms it, which retires the head for an open or short (R381). -/
def execPreampFault (act kind : Nat) (again : Bool) (s : State) : Host.Outcome State Fault Refusal :=
  if 2 ≤ act then .next s
  else
    let head := (s.sact act).head.toNat
    let surface := 12 * act + head
    let burst := (s.rw act).burst
    let k := preampOf kind
    let s := s.modRw act fun w => { w with
      wg := false, assistEn := false, fltN := false, burst := false, writing := none
      faultSince := if k = .supply then (if w.faultSince.isSome then w.faultSince else some s.now) else none }
    let s := if burst || k = .supply then s.writeFault act 1 (if k = .writer || k = .assist then some head else none) else s
    let s := if burst && k = .clear then s.noteOther 5 5 act else s
    let s := if !burst && k = .reader then s.chargeHead surface else s
    let s := if again && (k = .writer || k = .reader) then s.retireHead surface 5 else s
    .next (s.modRw act fun w => { w with fltN := decide (k ≠ .supply) })

/-- R371: a supply or thermal fault has persisted for 1 s: source 0x238 + a, and the actuator is fenced. -/
def execPreampFaultPersistence (act : Nat) (s : State) : Host.Outcome State Fault Refusal :=
  match (if act < 2 then (s.rw act).faultSince else none) with
  | none => .next s
  | some t =>
    let s := ((s.reach (t + sec)).modRw act fun w => { w with faultSince := none }).fault (0x238 + act) []
    .next (s.fenceActuator act)

/-! Calibration (R374, R376 to R383) -/

/-- The due head of an actuator that goes first: one without a record, else the one whose record is older (R384). -/
def State.calPick (s : State) (a : Nat) : Option Nat :=
  let due := (s.liveHeads a).filter fun h => s.calNeeded (12 * a + h)
  leastBy (fun h => match s.calRec (12 * a + h) with | none => 0 | some r => (r.entries.foldl (fun m e => max m e.epoch.toNat) 0) + 1) due

/-- R376: a due calibration starts on an actuator in READY, between band writes and inside the write window. -/
def execHeadCalibrationDue (act : Nat) (s : State) : Host.Outcome State Fault Refusal :=
  if 2 ≤ act || !s.actRuns act || !s.rackWindow 0 || (s.rw act).burst || (s.rw act).calib.isSome then .next s
  else match s.calPick act with
    | none => .next s
    | some h =>
      let e := s.paramSet (12 * act + h)
      .next (s.modRw act fun w => { w with calib := some { head := h, step := 1, rhtr := e.rhtr, whtr := e.whtr, assist := e.assist, wcur := e.wcur } })

/-- Assist full scale in register codes. Key 0x0411 holds it at a place that no rule gives (log 41). -/
def State.assistScale (s : State) : Nat := Config.assistScale (s.key 0x0411)

/-- The assist limit of a head (R383). -/
def State.assistLimit (s : State) (surface : Nat) : Nat :=
  match s.calRec surface with
  | some r => if r.baseAssist = 0 then s.assistScale else min (r.baseAssist.toNat * s.key2 0x0419 / 100) s.assistScale
  | none => s.assistScale

/-- Level i of 16, evenly spaced from 0.9 × the present level to the limit, to nearest (log 41). -/
def assistLevel (present limit i : Nat) : Nat := ((9 * present * (15 - i) + 10 * limit * i) * 2 + 150) / 300

/-- The record is written, into the other copy (R378). -/
def State.putCal (s : State) (surface : Nat) (f : CalRec → CalRec) : State :=
  s.modChan fun c => { c with heads := tmod c.heads surface {} fun h =>
    let r := h.cal.getD {}
    { h with calDue := false, cal := some (f { r with seq := r.seq + 1, slot := 1 - r.slot }) } }

/-- A calibration ends without a result: the previous entry stays, CAL_FAILS counts, and the second failure in a row retires the head (R378, R381). -/
def State.calFailed (s : State) (a h : Nat) : State :=
  let f := 12 * a + h
  let s := (s.modRw a fun w => { w with calib := none }).putCal f fun r => { r with calFails := satInc r.calFails }
  let n := ((s.calRec f).map fun r => r.calFails.toNat).getD 0
  let s := s.healthWarn 1 f 3 n 1
  if 2 ≤ n then s.retireHead f 3 else s

/-- Step 5 of a good calibration: the entry of the band, the base values at the first one, and the measures of R381. -/
def State.calGood (s : State) (a : Nat) (r : CalRun) (rres : Nat) : State :=
  let f := 12 * a + r.head
  let old := s.paramSet f
  let s := ((s.modRw a fun w => { w with calib := none }).putCal f fun c =>
    let first := decide (c.baseAssist = 0)
    { c with
      baseAssist := if first then r.assist else c.baseAssist, baseRres := if first then BitVec.ofNat 16 rres else c.baseRres
      lastRres := BitVec.ofNat 16 rres, calFails := 0, calCount := c.calCount + 1
      entries := c.entries.set s.chan.band { assist := r.assist, wcur := r.wcur, wos := old.wos, whtr := r.whtr, rhtr := r.rhtr
                                             epoch := s.place.epoch, temp := BitVec.ofInt 8 (s.chan.rackTemp / 8), valid := true } }).bandParams
  let c := (s.calRec f).getD {}
  let base := c.baseAssist.toNat
  let ratio := if base = 0 then 0 else r.assist.toNat * 1000 / base
  let warn := 1000 + 8 * (s.key2 0x0419 - 100)
  let s := if warn ≤ ratio then s.healthWarn 1 f 1 ratio warn else s
  let bres := c.baseRres.toNat
  let change := if bres = 0 then 0 else ((rres : Int) - bres).natAbs * 1000 / bres
  let lim := s.key2 0x041A
  let s := if 8 * lim ≤ change then s.healthWarn 1 f 2 change (8 * lim) else s
  if 10 * lim < change then s.retireHead f 2 else s

/-- R377: a step of a calibration ends. `again`: a host read waits, the step is repeated. `contact`: the heater code of contact, in step 1; `rates`: pre-decode
error rates in 10⁻¹² of the 16 levels in step 2, and of the 3 codes in step 3; `rres`: the reader resistance in 0.1 Ω, in steps 4 and 5. -/
def execCalibrationStepEnd (act : Nat) (again : Bool) (contact : Option Nat) (rates : List Nat) (rres : Nat) (s : State) : Host.Outcome State Fault Refusal :=
  match (if act < 2 then (s.rw act).calib else none) with
  | none => .next s
  | some r =>
    let f := 12 * act + r.head
    let next (r : CalRun) : State := s.modRw act fun w => { w with calib := some { r with step := r.step + 1, again := false } }
    if again then .next (s.modRw act fun w => { w with calib := some { r with again := true } })
    else match r.step with
      | 1 => match contact with
        | none => .next (s.calFailed act r.head)
        | some c => .next (next { r with rhtr := BitVec.ofNat 16 (c - s.keyN 0x0417 0 2), whtr := BitVec.ofNat 16 (c - s.keyN 0x0417 2 2) })
      | 2 =>
        let lim := s.assistLimit f
        let rs := rates.take 16
        let low := rs.foldl min (rs.headD (10 ^ 12))
        match rs.findIdx? fun x => decide (10 * x ≤ 12 * low) with
        | none => .next (s.calFailed act r.head)
        | some i =>
          let level := assistLevel r.assist.toNat lim i * 103 / 100
          if 10 ^ (12 - s.keyN 0x0417 4 2) ≤ low then .next (s.calFailed act r.head)
          else if lim < level then .next ((s.modRw act fun w => { w with calib := none }).retireHead f 1)
          else .next (next { r with assist := BitVec.ofNat 16 level })
      | 3 =>
        let codes : List Int := [-4, 0, 4]
        let low := rates.foldl min (rates.headD 0)
        let i := (rates.findIdx? fun x => decide (x = low)).getD 1
        .next (next { r with wcur := BitVec.ofInt 8 (clampI 0 255 (r.wcur.toNat + codes.getD i 0)) })
      | 4 => .next (next r)
      | _ => .next (s.calGood act r rres)

end Sys2Proof.Machine
end

