-- ==== Sys2Proof/Machine/Dispatch.lean ====
section
/-! DEFINITION. The dispatch: one arm for each constructor of `Instr`, each one direct call of the meaning of that command. -/
namespace Sys2Proof.Machine
open Sys2Proof

def exec (i : Instr) (s : State) : Host.Outcome State Fault Refusal :=
  match i with
  | .powerUpSequence vin vb failed cold => Sys2Proof.Machine.execPowerUpSequence vin vb failed cold s
  | .railRetryTimeout failed => Sys2Proof.Machine.execRailRetryTimeout failed s
  | .bootStart bankSize bad otpBad margins => Sys2Proof.Machine.execBootStart bankSize bad otpBad margins s
  | .bootFetchFault bad => Sys2Proof.Machine.execBootFetchFault bad s
  | .nvmWindowBusFault addr => Sys2Proof.Machine.execNvmWindowBusFault addr s
  | .dramTrainingEnd passes eyes => Sys2Proof.Machine.execDramTrainingEnd passes eyes s
  | .microcodeLoad base patches custom failed bad => Sys2Proof.Machine.execMicrocodeLoad base patches custom failed bad s
  | .channelInitialisation ch rb dies => Sys2Proof.Machine.execChannelInitialisation ch rb dies s
  | .mount lost => Sys2Proof.Machine.execMount lost s
  | .controllerReady => Sys2Proof.Machine.execControllerReady s
  | .vinMainUndervoltage vin => Sys2Proof.Machine.execVinMainUndervoltage vin s
  | .powerLossSequenceEnd dur vend => Sys2Proof.Machine.execPowerLossSequenceEnd dur vend s
  | .vinBkupBrownOut dur vend steps => Sys2Proof.Machine.execVinBkupBrownOut dur vend steps s
  | .sysrstNLow => Sys2Proof.Machine.execSysrstNLow s
  | .sysrstNRelease => Sys2Proof.Machine.execSysrstNRelease s
  | .railOutOfRegulation rail long => Sys2Proof.Machine.execRailOutOfRegulation rail long s
  | .crystalStopped => Sys2Proof.Machine.execCrystalStopped s
  | .vinOvervoltage bkup mv => Sys2Proof.Machine.execVinOvervoltage bkup mv s
  | .vinMainBelowRackMinimum mv => Sys2Proof.Machine.execVinMainBelowRackMinimum mv s
  | .rackVoltageRestored mv => Sys2Proof.Machine.execRackVoltageRestored mv s
  | .chargeVoltageReached => Sys2Proof.Machine.execChargeVoltageReached s
  | .holdupCheckStart vb => Sys2Proof.Machine.execHoldupCheckStart vb s
  | .holdupCheckEnd step fall t => Sys2Proof.Machine.execHoldupCheckEnd step fall t s
  | .writeHoldLimit => Sys2Proof.Machine.execWriteHoldLimit s
  | .budgetGovernorTick activity => Sys2Proof.Machine.execBudgetGovernorTick activity s
  | .domainIdleTimeout dom => Sys2Proof.Machine.execDomainIdleTimeout dom s
  | .domainWake dom => Sys2Proof.Machine.execDomainWake dom s
  | .opTransitionEnd monitorsOk => Sys2Proof.Machine.execOpTransitionEnd monitorsOk s
  | .temperatureSample input reading => Sys2Proof.Machine.execTemperatureSample input reading s
  | .compositeTemperatureUpdate => Sys2Proof.Machine.execCompositeTemperatureUpdate s
  | .rateOfRiseEvaluation => Sys2Proof.Machine.execRateOfRiseEvaluation s
  | .cpmTrip n => Sys2Proof.Machine.execCpmTrip n s
  | .dieLinkFrame toPower good dac => Sys2Proof.Machine.execDieLinkFrame toPower good dac s
  | .linkFrameInterval => Sys2Proof.Machine.execLinkFrameInterval s
  | .linkSilenceTimeout => Sys2Proof.Machine.execLinkSilenceTimeout s
  | .powerDieRearm => Sys2Proof.Machine.execPowerDieRearm s
  | .retractLineAssert => Sys2Proof.Machine.execRetractLineAssert s
  | .powerDieRetractTimeout => Sys2Proof.Machine.execPowerDieRetractTimeout s
  | .retractParked => Sys2Proof.Machine.execRetractParked s
  | .fabricBlockReceive src dst blk flow id lcn good => Sys2Proof.Machine.execFabricBlockReceive src dst blk flow id lcn good s
  | .unitRelease kind n => Sys2Proof.Machine.execUnitRelease kind n s
  | .actuatorUnlockTimeout act => Sys2Proof.Machine.execActuatorUnlockTimeout act s
  | .controllerEnable cc => Sys2Proof.Machine.execControllerEnable cc s
  | .controllerReset cc => Sys2Proof.Machine.execControllerReset cc s
  | .shutdownNotification shn => Sys2Proof.Machine.execShutdownNotification shn s
  | .submissionQueueDoorbell qid tail => Sys2Proof.Machine.execSubmissionQueueDoorbell qid tail s
  | .completionQueueDoorbell qid head => Sys2Proof.Machine.execCompletionQueueDoorbell qid head s
  | .interruptMaskSet mask => Sys2Proof.Machine.execInterruptMaskSet mask s
  | .interruptMaskClear mask => Sys2Proof.Machine.execInterruptMaskClear mask s
  | .registerWrite block core off v => Sys2Proof.Machine.execRegisterWrite block core off v s
  | .commandFetch qid sqe ranges window => Sys2Proof.Machine.execCommandFetch qid sqe ranges window s
  | .fetchResume => Sys2Proof.Machine.execFetchResume s
  | .versionIdleTimeout vid => Sys2Proof.Machine.execVersionIdleTimeout vid s
  | .writeAssignment vid => Sys2Proof.Machine.execWriteAssignment vid s
  | .encodeJobEnd vid parity => Sys2Proof.Machine.execEncodeJobEnd vid parity s
  | .decodeJobEnd job parity mismatch => Sys2Proof.Machine.execDecodeJobEnd job parity mismatch s
  | .cipherJobEnd encrypt id parity => Sys2Proof.Machine.execCipherJobEnd encrypt id parity s
  | .batchCloseTimeout span batch => Sys2Proof.Machine.execBatchCloseTimeout span batch s
  | .programComplete span batch member good last => Sys2Proof.Machine.execProgramComplete span batch member good last s
  | .interruptAggregationTimeout qid => Sys2Proof.Machine.execInterruptAggregationTimeout qid s
  | .flashReadComplete job => Sys2Proof.Machine.execFlashReadComplete job s
  | .codewordDecodeEnd job good maxBits entry lost => Sys2Proof.Machine.execCodewordDecodeEnd job good maxBits entry lost s
  | .eraseComplete span failed => Sys2Proof.Machine.execEraseComplete span failed s
  | .statusPoll die op ready => Sys2Proof.Machine.execStatusPoll die op ready s
  | .operationTimeout die op a b c resetOk => Sys2Proof.Machine.execOperationTimeout die op a b c resetOk s
  | .retrainInterval die eye full => Sys2Proof.Machine.execRetrainInterval die eye full s
  | .sequencerSubmit seq off data handles => Sys2Proof.Machine.execSequencerSubmit seq off data handles s
  | .completionRecordRead seq last => Sys2Proof.Machine.execCompletionRecordRead seq last s
  | .sequencerHold seq => Sys2Proof.Machine.execSequencerHold seq s
  | .sequencerHoldRelease seq => Sys2Proof.Machine.execSequencerHoldRelease seq s
  | .machineCheckClear seq => Sys2Proof.Machine.execMachineCheckClear seq s
  | .operationDispatch seq parity => Sys2Proof.Machine.execOperationDispatch seq parity s
  | .microwordExecute seq par status strobe lost cwfail maxbits => Sys2Proof.Machine.execMicrowordExecute seq par status strobe lost cwfail maxbits s
  | .yieldDelayEnd seq ctx => Sys2Proof.Machine.execYieldDelayEnd seq ctx s
  | .watchdogTrap seq ctx => Sys2Proof.Machine.execWatchdogTrap seq ctx s
  | .mapPageLoadComplete page good => Sys2Proof.Machine.execMapPageLoadComplete page good s
  | .mapPageSpill page => Sys2Proof.Machine.execMapPageSpill page s
  | .journalPageProgramComplete good die block => Sys2Proof.Machine.execJournalPageProgramComplete good die block s
  | .deallocationJournalDelay => Sys2Proof.Machine.execDeallocationJournalDelay s
  | .checkpointRoundStart => Sys2Proof.Machine.execCheckpointRoundStart s
  | .checkpointRootDurable => Sys2Proof.Machine.execCheckpointRootDurable s
  | .epochAdvance margins eyes => Sys2Proof.Machine.execEpochAdvance margins eyes s
  | .ageingSweepVisit nsid lcn => Sys2Proof.Machine.execAgeingSweepVisit nsid lcn s
  | .evacuationChoice nsid lcn => Sys2Proof.Machine.execEvacuationChoice nsid lcn s
  | .migrationQueueRoom act => Sys2Proof.Machine.execMigrationQueueRoom act s
  | .copySourceReadEnd copy good ladder bits lost => Sys2Proof.Machine.execCopySourceReadEnd copy good ladder bits lost s
  | .copyReadVerifyEnd copy good bits member => Sys2Proof.Machine.execCopyReadVerifyEnd copy good bits member s
  | .kneadSpanSelection => Sys2Proof.Machine.execKneadSpanSelection s
  | .retentionAgeUpdate => Sys2Proof.Machine.execRetentionAgeUpdate s
  | .scrubRead span member bits ladder nsid lcn lost last => Sys2Proof.Machine.execScrubRead span member bits ladder nsid lcn lost last s
  | .channelFenceRebuildTimeout ch => Sys2Proof.Machine.execChannelFenceRebuildTimeout ch s
  | .peelStart ch => Sys2Proof.Machine.execPeelStart ch s
  | .peelStop ch => Sys2Proof.Machine.execPeelStop ch s
  | .peelResume ch => Sys2Proof.Machine.execPeelResume ch s
  | .peelDescriptorReadComplete ch data => Sys2Proof.Machine.execPeelDescriptorReadComplete ch data s
  | .peelDescriptorAccept ch => Sys2Proof.Machine.execPeelDescriptorAccept ch s
  | .peelPollInterval ch => Sys2Proof.Machine.execPeelPollInterval ch s
  | .peelSourceReadComplete ch stamp off data => Sys2Proof.Machine.execPeelSourceReadComplete ch stamp off data s
  | .peelRetirement ch => Sys2Proof.Machine.execPeelRetirement ch s
  | .pushLease slot => Sys2Proof.Machine.execPushLease slot s
  | .apertureWrite handle off data => Sys2Proof.Machine.execApertureWrite handle off data s
  | .leaseExpiry handle => Sys2Proof.Machine.execLeaseExpiry handle s
  | .pushCommit slot off data => Sys2Proof.Machine.execPushCommit slot off data s
  | .slotResume slot => Sys2Proof.Machine.execSlotResume slot s
  | .slotReleaseAll slot => Sys2Proof.Machine.execSlotReleaseAll slot s
  | .commitRecordAccept slot => Sys2Proof.Machine.execCommitRecordAccept slot s
  | .commitRetirement slot => Sys2Proof.Machine.execCommitRetirement slot s
  | .recordPinChange level => Sys2Proof.Machine.execRecordPinChange level s
  | .recordDebounceComplete => Sys2Proof.Machine.execRecordDebounceComplete s
  | .swapPoint => Sys2Proof.Machine.execSwapPoint s
  | .swapFallbackTimeout => Sys2Proof.Machine.execSwapFallbackTimeout s
  | .scheduledSwapCompare => Sys2Proof.Machine.execScheduledSwapCompare s
  | .orderArbitrationCycle sameData => Sys2Proof.Machine.execOrderArbitrationCycle sameData s
  | .ospiProgram addr len data => Sys2Proof.Machine.execOspiProgram addr len data s
  | .ospiErase addr => Sys2Proof.Machine.execOspiErase addr s
  | .ospiOperationEnd bank outcome ready => Sys2Proof.Machine.execOspiOperationEnd bank outcome ready s
  | .ospiLock => Sys2Proof.Machine.execOspiLock s
  | .activationCompare => Sys2Proof.Machine.execActivationCompare s
  | .activationPoint base patches custom failed => Sys2Proof.Machine.execActivationPoint base patches custom failed s
  | .activationCoreReady ok => Sys2Proof.Machine.execActivationCoreReady ok s
  | .recoveryInstall bad fails => Sys2Proof.Machine.execRecoveryInstall bad fails s
  | .recoveryRestart bad => Sys2Proof.Machine.execRecoveryRestart bad s
  | .recoveryWindowWrite k data => Sys2Proof.Machine.execRecoveryWindowWrite k data s
  | .hardwareFaultDetected id detail => Sys2Proof.Machine.execHardwareFaultDetected id detail s
  | .correctedSuppressionSecond => Sys2Proof.Machine.execCorrectedSuppressionSecond s
  | .reactionTimerExpiry id => Sys2Proof.Machine.execReactionTimerExpiry id s
  | .faultAck id cleared => Sys2Proof.Machine.execFaultAck id cleared s
  | .heartbeatWrite core => Sys2Proof.Machine.execHeartbeatWrite core s
  | .heartbeatMissed core => Sys2Proof.Machine.execHeartbeatMissed core s
  | .safeStateFlashDone => Sys2Proof.Machine.execSafeStateFlashDone s
  | .quietPeriodExpiry => Sys2Proof.Machine.execQuietPeriodExpiry s
  | .safeStateRecoveryEnd failed lost => Sys2Proof.Machine.execSafeStateRecoveryEnd failed lost s
  | .forceBitWrite id v => Sys2Proof.Machine.execForceBitWrite id v s
  | .mirrorPageProgram good => Sys2Proof.Machine.execMirrorPageProgram good s
  | .patternRunStart sub => Sys2Proof.Machine.execPatternRunStart sub s
  | .patternCompareClear sub => Sys2Proof.Machine.execPatternCompareClear sub s
  | .patternRunEnd sub bad => Sys2Proof.Machine.execPatternRunEnd sub bad s
  | .dqsTrackingInterval sub drift => Sys2Proof.Machine.execDqsTrackingInterval sub drift s
  | .refreshRateCheck hot => Sys2Proof.Machine.execRefreshRateCheck hot s
  | .refreshInterval sub => Sys2Proof.Machine.execRefreshInterval sub s
  | .patrolScrubBurst result holds key => Sys2Proof.Machine.execPatrolScrubBurst result holds key s
  | .selfRefreshExit drift => Sys2Proof.Machine.execSelfRefreshExit drift s
  | .dramAlert sub fresh => Sys2Proof.Machine.execDramAlert sub fresh s
  | .dramRequestChoice sub arrivals levels => Sys2Proof.Machine.execDramRequestChoice sub arrivals levels s
  | .dramBurstReadEnd sub id result => Sys2Proof.Machine.execDramBurstReadEnd sub id result s
  | .bufferAlloc owner pool count linkBad => Sys2Proof.Machine.execBufferAlloc owner pool count linkBad s
  | .bufferFree owner handle => Sys2Proof.Machine.execBufferFree owner handle s
  | .bufferTransfer owner handle receiver => Sys2Proof.Machine.execBufferTransfer owner handle receiver s
  | .bufferShare owner handle list last => Sys2Proof.Machine.execBufferShare owner handle list last s
  | .bufferRelease owner handle => Sys2Proof.Machine.execBufferRelease owner handle s
  | .bufferGroupGrant pool => Sys2Proof.Machine.execBufferGroupGrant pool s
  | .freeListRebuild pool order => Sys2Proof.Machine.execFreeListRebuild pool order s
  | .poolMinfreeClear pool => Sys2Proof.Machine.execPoolMinfreeClear pool s
  | .linkTrainingEnd width speed flit => Sys2Proof.Machine.execLinkTrainingEnd width speed flit s
  | .partnerLinkChange width speed => Sys2Proof.Machine.execPartnerLinkChange width speed s
  | .aspmL1IdleTimeout => Sys2Proof.Machine.execAspmL1IdleTimeout s
  | .l0pWidthChange down => Sys2Proof.Machine.execL0pWidthChange down s
  | .configurationRequest off write ready => Sys2Proof.Machine.execConfigurationRequest off write ready s
  | .inboundMemoryRequest addr req => Sys2Proof.Machine.execInboundMemoryRequest addr req s
  | .poisonedWriteReceived => Sys2Proof.Machine.execPoisonedWriteReceived s
  | .readCompletionReceived tag status => Sys2Proof.Machine.execReadCompletionReceived tag status s
  | .completionTimeout tag => Sys2Proof.Machine.execCompletionTimeout tag s
  | .unexpectedCompletion tag => Sys2Proof.Machine.execUnexpectedCompletion tag s
  | .busMasterEnableClear => Sys2Proof.Machine.execBusMasterEnableClear s
  | .busMasterEnableSet => Sys2Proof.Machine.execBusMasterEnableSet s
  | .msixVectorUnmask v => Sys2Proof.Machine.execMsixVectorUnmask v s
  | .d3hotEntry => Sys2Proof.Machine.execD3hotEntry s
  | .d0Return => Sys2Proof.Machine.execD0Return s
  | .functionLevelReset => Sys2Proof.Machine.execFunctionLevelReset s
  | .perstNAssert => Sys2Proof.Machine.execPerstNAssert s
  | .perstNRelease => Sys2Proof.Machine.execPerstNRelease s
  | .hotReset => Sys2Proof.Machine.execHotReset s
  | .linkDown => Sys2Proof.Machine.execLinkDown s
  | .refclkLoss => Sys2Proof.Machine.execRefclkLoss s
  | .jtagInstruction boundary => Sys2Proof.Machine.execJtagInstruction boundary s
  | .write stamp data => Sys2Proof.Machine.execWrite stamp data s
  | .read stamp => Sys2Proof.Machine.execRead stamp s
  | .compare stamp data => Sys2Proof.Machine.execCompare stamp data s
  | .verify stamp => Sys2Proof.Machine.execVerify stamp s
  | .flush stamp => Sys2Proof.Machine.execFlush stamp s
  | .writeZeroes stamp => Sys2Proof.Machine.execWriteZeroes stamp s
  | .deallocate stamp => Sys2Proof.Machine.execDeallocate stamp s
  | .datasetManagementHint stamp => Sys2Proof.Machine.execDatasetManagementHint stamp s
  | .rawThroughRead stamp => Sys2Proof.Machine.execRawThroughRead stamp s
  | .placementQuery stamp => Sys2Proof.Machine.execPlacementQuery stamp s
  | .createIoSubmissionQueue stamp => Sys2Proof.Machine.execCreateIoSubmissionQueue stamp s
  | .deleteIoSubmissionQueue stamp => Sys2Proof.Machine.execDeleteIoSubmissionQueue stamp s
  | .createIoCompletionQueue stamp => Sys2Proof.Machine.execCreateIoCompletionQueue stamp s
  | .deleteIoCompletionQueue stamp => Sys2Proof.Machine.execDeleteIoCompletionQueue stamp s
  | .identifyController stamp => Sys2Proof.Machine.execIdentifyController stamp s
  | .identifyNamespace stamp => Sys2Proof.Machine.execIdentifyNamespace stamp s
  | .identifyLists stamp => Sys2Proof.Machine.execIdentifyLists stamp s
  | .abort stamp => Sys2Proof.Machine.execAbort stamp s
  | .asynchronousEventRequest stamp => Sys2Proof.Machine.execAsynchronousEventRequest stamp s
  | .namespaceCreate stamp nsze ncap flbas => Sys2Proof.Machine.execNamespaceCreate stamp nsze ncap flbas s
  | .namespaceDelete stamp => Sys2Proof.Machine.execNamespaceDelete stamp s
  | .namespaceAttach stamp ctrls => Sys2Proof.Machine.execNamespaceAttach stamp ctrls s
  | .namespaceDetach stamp ctrls => Sys2Proof.Machine.execNamespaceDetach stamp ctrls s
  | .firmwareImageDownload stamp data => Sys2Proof.Machine.execFirmwareImageDownload stamp data s
  | .firmwareCommitReplace stamp bad fails => Sys2Proof.Machine.execFirmwareCommitReplace stamp bad fails s
  | .firmwareCommitNextReset stamp bad fails => Sys2Proof.Machine.execFirmwareCommitNextReset stamp bad fails s
  | .firmwareCommitActivateSlot stamp bad fails => Sys2Proof.Machine.execFirmwareCommitActivateSlot stamp bad fails s
  | .firmwareCommitImmediate stamp bad fails => Sys2Proof.Machine.execFirmwareCommitImmediate stamp bad fails s
  | .deviceSelfTestShort stamp result => Sys2Proof.Machine.execDeviceSelfTestShort stamp result s
  | .deviceSelfTestExtended stamp result lost => Sys2Proof.Machine.execDeviceSelfTestExtended stamp result lost s
  | .streamsAllocateResources stamp => Sys2Proof.Machine.execStreamsAllocateResources stamp s
  | .streamsReleaseIdentifier stamp => Sys2Proof.Machine.execStreamsReleaseIdentifier stamp s
  | .streamsReturnParameters stamp => Sys2Proof.Machine.execStreamsReturnParameters stamp s
  | .formatNvm stamp => Sys2Proof.Machine.execFormatNvm stamp s
  | .formatNvmCryptoErase stamp => Sys2Proof.Machine.execFormatNvmCryptoErase stamp s
  | .sanitizeExitFailure stamp => Sys2Proof.Machine.execSanitizeExitFailure stamp s
  | .sanitizeBlockErase stamp => Sys2Proof.Machine.execSanitizeBlockErase stamp s
  | .sanitizeCryptoErase stamp => Sys2Proof.Machine.execSanitizeCryptoErase stamp s
  | .profileSwap stamp => Sys2Proof.Machine.execProfileSwap stamp s
  | .faultInjectForce stamp => Sys2Proof.Machine.execFaultInjectForce stamp s
  | .faultInjectClearAll stamp => Sys2Proof.Machine.execFaultInjectClearAll stamp s
  | .eventRecorderClearUpto stamp => Sys2Proof.Machine.execEventRecorderClearUpto stamp s
  | .eventRecorderClearAll stamp => Sys2Proof.Machine.execEventRecorderClearAll stamp s
  | .setArbitration stamp => Sys2Proof.Machine.execSetArbitration stamp s
  | .getArbitration stamp => Sys2Proof.Machine.execGetArbitration stamp s
  | .setPowerManagement stamp => Sys2Proof.Machine.execSetPowerManagement stamp s
  | .getPowerManagement stamp => Sys2Proof.Machine.execGetPowerManagement stamp s
  | .setTemperatureThreshold stamp => Sys2Proof.Machine.execSetTemperatureThreshold stamp s
  | .getTemperatureThreshold stamp => Sys2Proof.Machine.execGetTemperatureThreshold stamp s
  | .setErrorRecovery stamp => Sys2Proof.Machine.execSetErrorRecovery stamp s
  | .getErrorRecovery stamp => Sys2Proof.Machine.execGetErrorRecovery stamp s
  | .setNumberOfQueues stamp => Sys2Proof.Machine.execSetNumberOfQueues stamp s
  | .getNumberOfQueues stamp => Sys2Proof.Machine.execGetNumberOfQueues stamp s
  | .setInterruptCoalescing stamp => Sys2Proof.Machine.execSetInterruptCoalescing stamp s
  | .getInterruptCoalescing stamp => Sys2Proof.Machine.execGetInterruptCoalescing stamp s
  | .setInterruptVectorConfig stamp => Sys2Proof.Machine.execSetInterruptVectorConfig stamp s
  | .getInterruptVectorConfig stamp => Sys2Proof.Machine.execGetInterruptVectorConfig stamp s
  | .setWriteAtomicityNormal stamp => Sys2Proof.Machine.execSetWriteAtomicityNormal stamp s
  | .getWriteAtomicityNormal stamp => Sys2Proof.Machine.execGetWriteAtomicityNormal stamp s
  | .setAsyncEventConfig stamp => Sys2Proof.Machine.execSetAsyncEventConfig stamp s
  | .getAsyncEventConfig stamp => Sys2Proof.Machine.execGetAsyncEventConfig stamp s
  | .setTimestamp stamp value => Sys2Proof.Machine.execSetTimestamp stamp value s
  | .getTimestamp stamp => Sys2Proof.Machine.execGetTimestamp stamp s
  | .setHctm stamp => Sys2Proof.Machine.execSetHctm stamp s
  | .getHctm stamp => Sys2Proof.Machine.execGetHctm stamp s
  | .setStreamFormat stamp data => Sys2Proof.Machine.execSetStreamFormat stamp data s
  | .getStreamFormat stamp => Sys2Proof.Machine.execGetStreamFormat stamp s
  | .setProfileControl stamp data => Sys2Proof.Machine.execSetProfileControl stamp data s
  | .getProfileControl stamp => Sys2Proof.Machine.execGetProfileControl stamp s
  | .setScheduledActivation stamp data => Sys2Proof.Machine.execSetScheduledActivation stamp data s
  | .getScheduledActivation stamp => Sys2Proof.Machine.execGetScheduledActivation stamp s
  | .setRackSpindleControl stamp => Sys2Proof.Machine.execSetRackSpindleControl stamp s
  | .rackSpinUpAction stamp => Sys2Proof.Machine.execRackSpinUpAction stamp s
  | .rackSpinDownAction stamp => Sys2Proof.Machine.execRackSpinDownAction stamp s
  | .getRackSpindleControl stamp => Sys2Proof.Machine.execGetRackSpindleControl stamp s
  | .placementHintsAdd stamp data => Sys2Proof.Machine.execPlacementHintsAdd stamp data s
  | .placementHintsRemove stamp data => Sys2Proof.Machine.execPlacementHintsRemove stamp data s
  | .placementHintsRemoveAll stamp => Sys2Proof.Machine.execPlacementHintsRemoveAll stamp s
  | .getPlacementHints stamp => Sys2Proof.Machine.execGetPlacementHints stamp s
  | .setCaptureWindowControl stamp => Sys2Proof.Machine.execSetCaptureWindowControl stamp s
  | .getCaptureWindowControl stamp => Sys2Proof.Machine.execGetCaptureWindowControl stamp s
  | .getLogSupportedPages stamp => Sys2Proof.Machine.execGetLogSupportedPages stamp s
  | .getLogErrorInformation stamp => Sys2Proof.Machine.execGetLogErrorInformation stamp s
  | .getLogSmartHealth stamp => Sys2Proof.Machine.execGetLogSmartHealth stamp s
  | .getLogFirmwareSlot stamp => Sys2Proof.Machine.execGetLogFirmwareSlot stamp s
  | .getLogChangedNamespaces stamp => Sys2Proof.Machine.execGetLogChangedNamespaces stamp s
  | .getLogCommandsEffects stamp => Sys2Proof.Machine.execGetLogCommandsEffects stamp s
  | .getLogDeviceSelfTest stamp => Sys2Proof.Machine.execGetLogDeviceSelfTest stamp s
  | .getLogSanitizeStatus stamp => Sys2Proof.Machine.execGetLogSanitizeStatus stamp s
  | .getLogPlacementReport stamp => Sys2Proof.Machine.execGetLogPlacementReport stamp s
  | .getLogEventRecorder stamp => Sys2Proof.Machine.execGetLogEventRecorder stamp s
  | .getLogDeferredError stamp => Sys2Proof.Machine.execGetLogDeferredError stamp s
  | .getLogFaultStatus stamp => Sys2Proof.Machine.execGetLogFaultStatus stamp s
  | .getLogHealthEarlyWarning stamp => Sys2Proof.Machine.execGetLogHealthEarlyWarning stamp s
  | .getLogAgeing stamp => Sys2Proof.Machine.execGetLogAgeing stamp s
  | .getLogMediaGeometry stamp => Sys2Proof.Machine.execGetLogMediaGeometry stamp s
  | .miReadDataStructure tag dtyp port => Sys2Proof.Machine.execMiReadDataStructure tag dtyp port s
  | .miSubsystemHealthPoll tag => Sys2Proof.Machine.execMiSubsystemHealthPoll tag s
  | .miControllerHealthPoll tag first => Sys2Proof.Machine.execMiControllerHealthPoll tag first s
  | .miConfigurationSet tag cfg port v => Sys2Proof.Machine.execMiConfigurationSet tag cfg port v s
  | .miConfigurationGet tag cfg port => Sys2Proof.Machine.execMiConfigurationGet tag cfg port s
  | .miTunnelledAdminCommand tag sqe => Sys2Proof.Machine.execMiTunnelledAdminCommand tag sqe s
  | .rackSpinupTimeout => Sys2Proof.Machine.execRackSpinupTimeout s
  | .spinupRetryWait => Sys2Proof.Machine.execSpinupRetryWait s
  | .rackStandbyTimeout => Sys2Proof.Machine.execRackStandbyTimeout s
  | .spindleStopped => Sys2Proof.Machine.execSpindleStopped s
  | .stagingReadEnd act good lost => Sys2Proof.Machine.execStagingReadEnd act good lost s
  | .bandWriteEnd act good charge => Sys2Proof.Machine.execBandWriteEnd act good charge s
  | .lastTrackCheckEnd act good charge => Sys2Proof.Machine.execLastTrackCheckEnd act good charge s
  | .parityBandReadbackEnd act good charge => Sys2Proof.Machine.execParityBandReadbackEnd act good charge s
  | .stackSummaryWriteEnd act copies => Sys2Proof.Machine.execStackSummaryWriteEnd act copies s
  | .stackIdleCloseTimeout act => Sys2Proof.Machine.execStackIdleCloseTimeout act s
  | .rackSectorReadEnd job good bits lost => Sys2Proof.Machine.execRackSectorReadEnd job good bits lost s
  | .rackKneadSelection act => Sys2Proof.Machine.execRackKneadSelection act s
  | .rackScrubRead act index bits ladder nsid lcn lost last => Sys2Proof.Machine.execRackScrubRead act index bits ladder nsid lcn lost last s
  | .rootCopyToRack => Sys2Proof.Machine.execRootCopyToRack s
  | .wedgeRecord act rec write => Sys2Proof.Machine.execWedgeRecord act rec write s
  | .servoGo act target head op => Sys2Proof.Machine.execServoGo act target head op s
  | .headSwitchSettle act => Sys2Proof.Machine.execHeadSwitchSettle act s
  | .seekTimeLimit act => Sys2Proof.Machine.execSeekTimeLimit act s
  | .speedLoopUpdate period at_ theta => Sys2Proof.Machine.execSpeedLoopUpdate period at_ theta s
  | .rotorSensingEnd ambiguous => Sys2Proof.Machine.execRotorSensingEnd ambiguous s
  | .openLoopRampTimeout => Sys2Proof.Machine.execOpenLoopRampTimeout s
  | .backEmfDetected => Sys2Proof.Machine.execBackEmfDetected s
  | .runUpSpeedReached => Sys2Proof.Machine.execRunUpSpeedReached s
  | .actuatorLoadEnd act track => Sys2Proof.Machine.execActuatorLoadEnd act track s
  | .loadTimeout act => Sys2Proof.Machine.execLoadTimeout act s
  | .unloadEnd act => Sys2Proof.Machine.execUnloadEnd act s
  | .spindleSpeedErrorTimeout => Sys2Proof.Machine.execSpindleSpeedErrorTimeout s
  | .brakingSpeedReached => Sys2Proof.Machine.execBrakingSpeedReached s
  | .runoutQueueRefill act => Sys2Proof.Machine.execRunoutQueueRefill act s
  | .preampFault act kind again => Sys2Proof.Machine.execPreampFault act kind again s
  | .headCalibrationDue act => Sys2Proof.Machine.execHeadCalibrationDue act s
  | .calibrationStepEnd act again contact rates rres => Sys2Proof.Machine.execCalibrationStepEnd act again contact rates rres s
  | .sqFetchRetry => Sys2Proof.Machine.execSqFetchRetry s
  | .tagReuseTimeout tag => Sys2Proof.Machine.execTagReuseTimeout tag s
  | .refclkReturn => Sys2Proof.Machine.execRefclkReturn s
  | .activationStepTimeout => Sys2Proof.Machine.execActivationStepTimeout s
  | .timestampWaitExpiry => Sys2Proof.Machine.execTimestampWaitExpiry s
  | .preampFaultPersistence act => Sys2Proof.Machine.execPreampFaultPersistence act s
  | .vinOvervoltageCleared mv => Sys2Proof.Machine.execVinOvervoltageCleared mv s

end Sys2Proof.Machine
end

