-- ==== Sys2Proof/WellFormed.lean ====
section
/-!
DEFINITION. Well-formed commands: every operand that names a unit of the block names one that exists. Meanings are total: a command that is not
well-formed names a unit that the block does not have, and its meaning changes nothing of such a unit.
-/
namespace Sys2Proof

/-- A submission queue entry has at most the six dwords CDW10 to CDW15, and a command identifier of 16 bits (R65). -/
def Sqe.wf (q : Sqe) : Bool := decide (q.cdw.length ≤ 6) && decide (q.cid < 65536) && decide (q.prp < 2 ^ 64)

/-- Numbers of actuators, channels, dies, slots, buffers, domains, inputs, queues and tags are in range. -/
def Instr.wf (i : Instr) : Bool :=
  match i with
  | .powerUpSequence _ _ failed _ => (failed.all fun n => decide (n < 16))
  | .railRetryTimeout failed => (failed.all fun n => decide (n < 16))
  | .bootStart _ _ _ _ => true
  | .bootFetchFault _ => true
  | .nvmWindowBusFault _ => true
  | .dramTrainingEnd _ _ => true
  | .microcodeLoad _ _ _ _ _ => true
  | .channelInitialisation ch _ dies => decide (ch < 32) && (dies.all fun d => decide (d.addr < 32))
  | .mount _ => true
  | .controllerReady => true
  | .vinMainUndervoltage _ => true
  | .powerLossSequenceEnd _ _ => true
  | .vinBkupBrownOut _ _ _ => true
  | .sysrstNLow => true
  | .sysrstNRelease => true
  | .railOutOfRegulation rail _ => decide (rail < 16)
  | .crystalStopped => true
  | .vinOvervoltage _ _ => true
  | .vinMainBelowRackMinimum _ => true
  | .rackVoltageRestored _ => true
  | .chargeVoltageReached => true
  | .holdupCheckStart _ => true
  | .holdupCheckEnd _ _ _ => true
  | .writeHoldLimit => true
  | .budgetGovernorTick _ => true
  | .domainIdleTimeout dom => decide (dom < 28)
  | .domainWake dom => decide (dom < 28)
  | .opTransitionEnd _ => true
  | .temperatureSample input _ => decide (input < 24)
  | .compositeTemperatureUpdate => true
  | .rateOfRiseEvaluation => true
  | .cpmTrip n => decide (n < 8)
  | .dieLinkFrame _ _ dac => (dac.all fun n => decide (n < 2))
  | .linkFrameInterval => true
  | .linkSilenceTimeout => true
  | .powerDieRearm => true
  | .retractLineAssert => true
  | .powerDieRetractTimeout => true
  | .retractParked => true
  | .fabricBlockReceive _ _ _ _ _ _ _ => true
  | .unitRelease kind _ => decide (kind < 6)
  | .actuatorUnlockTimeout act => decide (act < 2)
  | .controllerEnable _ => true
  | .controllerReset _ => true
  | .shutdownNotification _ => true
  | .submissionQueueDoorbell qid _ => decide (qid < 65536)
  | .completionQueueDoorbell qid _ => decide (qid < 65536)
  | .interruptMaskSet _ => true
  | .interruptMaskClear _ => true
  | .registerWrite _ core _ _ => decide (core < 12)
  | .commandFetch qid sqe _ _ => decide (qid < 65536) && sqe.wf
  | .fetchResume => true
  | .versionIdleTimeout _ => true
  | .writeAssignment _ => true
  | .encodeJobEnd _ _ => true
  | .decodeJobEnd _ _ _ => true
  | .cipherJobEnd _ _ _ => true
  | .batchCloseTimeout _ _ => true
  | .programComplete _ _ _ _ _ => true
  | .interruptAggregationTimeout qid => decide (qid < 65536)
  | .flashReadComplete _ => true
  | .codewordDecodeEnd _ _ _ _ _ => true
  | .eraseComplete _ _ => true
  | .statusPoll die _ _ => decide (die < 1024)
  | .operationTimeout die _ _ _ _ _ => decide (die < 1024)
  | .retrainInterval die _ _ => decide (die < 1024)
  | .sequencerSubmit seq _ _ _ => decide (seq < 34)
  | .completionRecordRead seq _ => decide (seq < 34)
  | .sequencerHold seq => decide (seq < 34)
  | .sequencerHoldRelease seq => decide (seq < 34)
  | .machineCheckClear seq => decide (seq < 34)
  | .operationDispatch seq _ => decide (seq < 34)
  | .microwordExecute _ _ _ _ _ _ _ => true
  | .yieldDelayEnd seq ctx => decide (seq < 34) && decide (ctx < 8)
  | .watchdogTrap seq ctx => decide (seq < 34) && decide (ctx < 8)
  | .mapPageLoadComplete _ _ => true
  | .mapPageSpill _ => true
  | .journalPageProgramComplete _ die _ => decide (die < 1024)
  | .deallocationJournalDelay => true
  | .checkpointRoundStart => true
  | .checkpointRootDurable => true
  | .epochAdvance _ _ => true
  | .ageingSweepVisit _ _ => true
  | .evacuationChoice _ _ => true
  | .migrationQueueRoom _ => true
  | .copySourceReadEnd _ _ _ _ _ => true
  | .copyReadVerifyEnd _ _ _ _ => true
  | .kneadSpanSelection => true
  | .retentionAgeUpdate => true
  | .scrubRead _ _ _ _ _ _ _ _ => true
  | .channelFenceRebuildTimeout ch => decide (ch < 32)
  | .peelStart ch => decide (ch < 64)
  | .peelStop ch => decide (ch < 64)
  | .peelResume ch => decide (ch < 64)
  | .peelDescriptorReadComplete ch _ => decide (ch < 64)
  | .peelDescriptorAccept ch => decide (ch < 64)
  | .peelPollInterval ch => decide (ch < 64)
  | .peelSourceReadComplete ch _ _ _ => decide (ch < 64)
  | .peelRetirement ch => decide (ch < 64)
  | .pushLease slot => decide (slot < 16)
  | .apertureWrite handle _ _ => decide (handle < 12288)
  | .leaseExpiry handle => decide (handle < 12288)
  | .pushCommit slot _ _ => decide (slot < 16)
  | .slotResume slot => decide (slot < 16)
  | .slotReleaseAll slot => decide (slot < 16)
  | .commitRecordAccept slot => decide (slot < 16)
  | .commitRetirement slot => decide (slot < 16)
  | .recordPinChange _ => true
  | .recordDebounceComplete => true
  | .swapPoint => true
  | .swapFallbackTimeout => true
  | .scheduledSwapCompare => true
  | .orderArbitrationCycle _ => true
  | .ospiProgram _ _ _ => true
  | .ospiErase _ => true
  | .ospiOperationEnd bank _ _ => decide (bank < 2)
  | .ospiLock => true
  | .activationCompare => true
  | .activationPoint _ _ _ _ => true
  | .activationCoreReady _ => true
  | .recoveryInstall _ _ => true
  | .recoveryRestart _ => true
  | .recoveryWindowWrite _ _ => true
  | .hardwareFaultDetected id _ => decide (id < 1024)
  | .correctedSuppressionSecond => true
  | .reactionTimerExpiry id => decide (id < 1024)
  | .faultAck id _ => decide (id < 1024)
  | .heartbeatWrite core => decide (core < 12)
  | .heartbeatMissed core => decide (core < 12)
  | .safeStateFlashDone => true
  | .quietPeriodExpiry => true
  | .safeStateRecoveryEnd _ _ => true
  | .forceBitWrite id _ => decide (id < 1024)
  | .mirrorPageProgram _ => true
  | .patternRunStart sub => decide (sub < 4)
  | .patternCompareClear sub => decide (sub < 4)
  | .patternRunEnd sub _ => decide (sub < 4)
  | .dqsTrackingInterval sub _ => decide (sub < 4)
  | .refreshRateCheck _ => true
  | .refreshInterval sub => decide (sub < 4)
  | .patrolScrubBurst _ _ _ => true
  | .selfRefreshExit _ => true
  | .dramAlert sub _ => decide (sub < 4)
  | .dramRequestChoice sub _ _ => decide (sub < 4)
  | .dramBurstReadEnd sub _ _ => decide (sub < 4)
  | .bufferAlloc owner pool _ _ => decide (owner < 64) && decide (pool < 16)
  | .bufferFree owner handle => decide (owner < 64) && decide (handle < 65536)
  | .bufferTransfer owner handle _ => decide (owner < 64) && decide (handle < 65536)
  | .bufferShare owner handle _ _ => decide (owner < 64) && decide (handle < 65536)
  | .bufferRelease owner handle => decide (owner < 64) && decide (handle < 65536)
  | .bufferGroupGrant pool => decide (pool < 16)
  | .freeListRebuild pool _ => decide (pool < 16)
  | .poolMinfreeClear pool => decide (pool < 16)
  | .linkTrainingEnd _ _ _ => true
  | .partnerLinkChange _ _ => true
  | .aspmL1IdleTimeout => true
  | .l0pWidthChange _ => true
  | .configurationRequest _ _ _ => true
  | .inboundMemoryRequest _ _ => true
  | .poisonedWriteReceived => true
  | .readCompletionReceived tag _ => decide (tag < 16384)
  | .completionTimeout tag => decide (tag < 16384)
  | .unexpectedCompletion tag => decide (tag < 16384)
  | .busMasterEnableClear => true
  | .busMasterEnableSet => true
  | .msixVectorUnmask _ => true
  | .d3hotEntry => true
  | .d0Return => true
  | .functionLevelReset => true
  | .perstNAssert => true
  | .perstNRelease => true
  | .hotReset => true
  | .linkDown => true
  | .refclkLoss => true
  | .jtagInstruction _ => true
  | .write _ _ => true
  | .read _ => true
  | .compare _ _ => true
  | .verify _ => true
  | .flush _ => true
  | .writeZeroes _ => true
  | .deallocate _ => true
  | .datasetManagementHint _ => true
  | .rawThroughRead _ => true
  | .placementQuery _ => true
  | .createIoSubmissionQueue _ => true
  | .deleteIoSubmissionQueue _ => true
  | .createIoCompletionQueue _ => true
  | .deleteIoCompletionQueue _ => true
  | .identifyController _ => true
  | .identifyNamespace _ => true
  | .identifyLists _ => true
  | .abort _ => true
  | .asynchronousEventRequest _ => true
  | .namespaceCreate _ _ _ _ => true
  | .namespaceDelete _ => true
  | .namespaceAttach _ _ => true
  | .namespaceDetach _ _ => true
  | .firmwareImageDownload _ _ => true
  | .firmwareCommitReplace _ _ _ => true
  | .firmwareCommitNextReset _ _ _ => true
  | .firmwareCommitActivateSlot _ _ _ => true
  | .firmwareCommitImmediate _ _ _ => true
  | .deviceSelfTestShort _ _ => true
  | .deviceSelfTestExtended _ _ _ => true
  | .streamsAllocateResources _ => true
  | .streamsReleaseIdentifier _ => true
  | .streamsReturnParameters _ => true
  | .formatNvm _ => true
  | .formatNvmCryptoErase _ => true
  | .sanitizeExitFailure _ => true
  | .sanitizeBlockErase _ => true
  | .sanitizeCryptoErase _ => true
  | .profileSwap _ => true
  | .faultInjectForce _ => true
  | .faultInjectClearAll _ => true
  | .eventRecorderClearUpto _ => true
  | .eventRecorderClearAll _ => true
  | .setArbitration _ => true
  | .getArbitration _ => true
  | .setPowerManagement _ => true
  | .getPowerManagement _ => true
  | .setTemperatureThreshold _ => true
  | .getTemperatureThreshold _ => true
  | .setErrorRecovery _ => true
  | .getErrorRecovery _ => true
  | .setNumberOfQueues _ => true
  | .getNumberOfQueues _ => true
  | .setInterruptCoalescing _ => true
  | .getInterruptCoalescing _ => true
  | .setInterruptVectorConfig _ => true
  | .getInterruptVectorConfig _ => true
  | .setWriteAtomicityNormal _ => true
  | .getWriteAtomicityNormal _ => true
  | .setAsyncEventConfig _ => true
  | .getAsyncEventConfig _ => true
  | .setTimestamp _ _ => true
  | .getTimestamp _ => true
  | .setHctm _ => true
  | .getHctm _ => true
  | .setStreamFormat _ _ => true
  | .getStreamFormat _ => true
  | .setProfileControl _ _ => true
  | .getProfileControl _ => true
  | .setScheduledActivation _ _ => true
  | .getScheduledActivation _ => true
  | .setRackSpindleControl _ => true
  | .rackSpinUpAction _ => true
  | .rackSpinDownAction _ => true
  | .getRackSpindleControl _ => true
  | .placementHintsAdd _ _ => true
  | .placementHintsRemove _ _ => true
  | .placementHintsRemoveAll _ => true
  | .getPlacementHints _ => true
  | .setCaptureWindowControl _ => true
  | .getCaptureWindowControl _ => true
  | .getLogSupportedPages _ => true
  | .getLogErrorInformation _ => true
  | .getLogSmartHealth _ => true
  | .getLogFirmwareSlot _ => true
  | .getLogChangedNamespaces _ => true
  | .getLogCommandsEffects _ => true
  | .getLogDeviceSelfTest _ => true
  | .getLogSanitizeStatus _ => true
  | .getLogPlacementReport _ => true
  | .getLogEventRecorder _ => true
  | .getLogDeferredError _ => true
  | .getLogFaultStatus _ => true
  | .getLogHealthEarlyWarning _ => true
  | .getLogAgeing _ => true
  | .getLogMediaGeometry _ => true
  | .miReadDataStructure _ dtyp _ => decide (dtyp < 256)
  | .miSubsystemHealthPoll _ => true
  | .miControllerHealthPoll _ _ => true
  | .miConfigurationSet _ _ _ _ => true
  | .miConfigurationGet _ _ _ => true
  | .miTunnelledAdminCommand _ sqe => sqe.wf
  | .rackSpinupTimeout => true
  | .spinupRetryWait => true
  | .rackStandbyTimeout => true
  | .spindleStopped => true
  | .stagingReadEnd act _ _ => decide (act < 2)
  | .bandWriteEnd act _ _ => decide (act < 2)
  | .lastTrackCheckEnd act _ _ => decide (act < 2)
  | .parityBandReadbackEnd act _ _ => decide (act < 2)
  | .stackSummaryWriteEnd act _ => decide (act < 2)
  | .stackIdleCloseTimeout act => decide (act < 2)
  | .rackSectorReadEnd _ _ _ _ => true
  | .rackKneadSelection act => decide (act < 2)
  | .rackScrubRead act _ _ _ _ _ _ _ => decide (act < 2)
  | .rootCopyToRack => true
  | .wedgeRecord act _ _ => decide (act < 2)
  | .servoGo act _ _ _ => decide (act < 2)
  | .headSwitchSettle act => decide (act < 2)
  | .seekTimeLimit act => decide (act < 2)
  | .speedLoopUpdate _ _ _ => true
  | .rotorSensingEnd _ => true
  | .openLoopRampTimeout => true
  | .backEmfDetected => true
  | .runUpSpeedReached => true
  | .actuatorLoadEnd act track => decide (act < 2) && decide (track < 16777216)
  | .loadTimeout act => decide (act < 2)
  | .unloadEnd act => decide (act < 2)
  | .spindleSpeedErrorTimeout => true
  | .brakingSpeedReached => true
  | .runoutQueueRefill act => decide (act < 2)
  | .preampFault act _ _ => decide (act < 2)
  | .headCalibrationDue act => decide (act < 2)
  | .calibrationStepEnd act _ _ _ rres => decide (act < 2) && decide (rres < 65536)
  | .sqFetchRetry => true
  | .tagReuseTimeout tag => decide (tag < 16384)
  | .refclkReturn => true
  | .activationStepTimeout => true
  | .timestampWaitExpiry => true
  | .preampFaultPersistence act => decide (act < 2)
  | .vinOvervoltageCleared _ => true

end Sys2Proof
end

