-- ==== Sys2Proof/Safety.lean ====
section
/-!
DEFINITION. What the claims are stated in: the effect of a command that goes on, what a step keeps whatever the command is, and the
invariants of the model.
-/
namespace Sys2Proof.Machine
open Sys2Proof

/-- A command answers a next state, and that state has a property. -/
def Does (c : Instr) (s : State) (p : State → Prop) : Prop := ∃ t, exec c s = .next t ∧ p t

/-- An admin command that is held, has an opcode and waits for no barrier. -/
abbrev Held (s : State) (st op : Nat) (c : Ctx) : Prop :=
  s.ctx? st = some c ∧ c.isAdmin = true ∧ c.opcode.toNat = op ∧ s.behindBarrier c = false

/-- An I/O command that is held, has an opcode, waits for no barrier, and is not a write-class command under the write hold. -/
abbrev HeldIo (s : State) (st op : Nat) (c : Ctx) : Prop :=
  s.ctx? st = some c ∧ c.isIo = true ∧ c.opcode.toNat = op ∧ s.behindBarrier c = false ∧ (s.writesHeld && c.cls == .write) = false

/-- A Set Features of a feature that does not ask to save it. -/
abbrev HeldSet (s : State) (st fid : Nat) (c : Ctx) : Prop :=
  Held s st 0x09 c ∧ bits (c.dw 10) 0 8 = fid ∧ bitAt (c.dw 10) 31 = false

/-- A Get Features of a feature with a SEL other than 3. -/
abbrev HeldGet (s : State) (st fid sel : Nat) (c : Ctx) : Prop :=
  Held s st 0x0A c ∧ bits (c.dw 10) 0 8 = fid ∧ bits (c.dw 10) 8 3 = sel ∧ sel ≠ 3

/-- A Get Log Page of a page at an offset that the page has. -/
abbrev HeldLog (s : State) (st lid size : Nat) (c : Ctx) : Prop :=
  Held s st 0x02 c ∧ c.lid = lid ∧ c.logOff % 4 = 0 ∧ c.logOff < size

/-- The state without what posting a completion, an event or a message may change: contexts, the Capture Window, buffers, the endpoint, the queues, and
what was sent. -/
def State.hostless (s : State) : State := { s with host := {}, win := {}, pool := {}, pcie := {}, nvme := {}, out := [] }

/-- The boot NVM is in the canonical form of a byte memory. -/
def NvmCanonical (s : State) : Prop := Memory.wf nvmFill s.ospi.nvm = true

/-- An ageing offset and a ceiling as re-planning can leave them (R640): the offset a multiple of 5 mV up to 50 mV, the ceiling OP0 or OP1. -/
def AgeingLegal (offset ceiling : Nat) : Prop := offset ≤ 50 ∧ offset % 5 = 0 ∧ ceiling ≤ 1

/-- The ageing offset and the ceiling are legal, in force and in the recorder partition. -/
def AgeingInv (s : State) : Prop :=
  AgeingLegal s.pwr.ageOffset s.pwr.ceiling ∧ AgeingLegal s.evt.mirror.ageOffset s.evt.mirror.ceiling

/-- The start of this run does not lie in the future of the AON counter (R598). -/
def StartPast (s : State) : Prop := s.fw.startAt ≤ s.now

/-- What no command undoes: it does not touch the queue; the AON counter and the model's own counter do not fall; nothing that was sent is taken
back; the ageing offset and the ceiling of the recorder partition do not fall; and the invariants hold on. -/
structure Keeps (s t : State) : Prop where
  /-- The queue is as before. -/
  pending : t.pending = s.pending
  /-- What was sent stays sent. -/
  out : s.out <+: t.out
  /-- The AON counter does not fall. -/
  clock : s.now ≤ t.now
  /-- Free values are not drawn twice. -/
  free : s.free ≤ t.free
  /-- The start stays in the past. -/
  start : StartPast s → StartPast t
  /-- The boot NVM stays in its canonical form. -/
  nvm : NvmCanonical s → NvmCanonical t
  /-- The ageing offset kept for life does not fall (R640). -/
  offset : s.evt.mirror.ageOffset ≤ t.evt.mirror.ageOffset
  /-- A withdrawn OP0 stays withdrawn (R640). -/
  ceiling : s.evt.mirror.ceiling ≤ t.evt.mirror.ceiling
  /-- Legal ageing stays legal. -/
  ageing : AgeingInv s → AgeingInv t

/-- A command goes on, and undoes nothing of `Keeps`. -/
def NextKeeps (s : State) (o : Host.Outcome State Fault Refusal) : Prop := ∃ t, o = .next t ∧ Keeps s t

/-- The state after n steps, if every one of them goes on. -/
def State.after : Nat → State → Option State
  | 0, s => some s
  | n + 1, s => match step s with
    | .next t => t.after n
    | .fault _ => none
    | .refused _ => none

/-- Every waiting command is well formed, as far as a command has operands that can be ill formed. -/
def QueueWf (s : State) : Prop := s.pending.all Instr.wf = true

end Sys2Proof.Machine
end

