-- ==== Sys2Proof/Certificates/Slice0/Obligations.lean ====
section
/-!
DEFINITION. The statements for the provers, one definition each; OBLIGATIONS.json lists them in this order.
-/
open Sys2Proof Sys2Proof.Machine

/-- A step with a command at the front of the queue is that command on the state with the queue's rest (the queue is the model's own). -/
def Obligations.AStepRunsTheFrontCommand : Prop := ∀ (s : State) (c : Instr) (rest : List Instr), s.pending = c :: rest → step s = exec c (s.setPending rest)

/-- An idle step: the AON counter goes on by one cycle of its 25 MHz clock (the model's choice, assumption log 3). -/
def Obligations.AnEmptyQueueIdles : Prop := ∀ s : State, s.pending = [] → ∃ t, step s = .next t ∧ t.now = s.now + 40 ∧ t.setNow s.now = s

/-- The invariants hold after reset. -/
def Obligations.ResetHoldsTheInvariants : Prop := NvmCanonical State.reset ∧ AgeingInv State.reset ∧ StartPast State.reset ∧ QueueWf State.reset ∧ State.reset.pending = []

/-- Set Features of a feature whose value is CDW11 stores it and completes with status 0; Number of Queues answers 0x03FF_03FF whatever the host asked
(R492, R500, R515, R637). -/
def Obligations.SetFeatureStoresValue : Prop := ∀ (s : State) (st : Nat) (c : Ctx),
  (HeldSet s st 0x01 c → exec (.setArbitration st) s = .next ((s.modNvme fun n => { n with arb := BitVec.ofNat 32 (c.dw 11) }).complete st 0 0)) ∧
  (HeldSet s st 0x05 c → bitAt (c.dw 11) 16 = false →
    exec (.setErrorRecovery st) s = .next ((s.modNvme fun n => { n with errRec := BitVec.ofNat 32 (c.dw 11) }).complete st 0 0)) ∧
  (HeldSet s st 0x07 c → exec (.setNumberOfQueues st) s = .next (s.complete st 0 0x03FF03FF)) ∧
  (HeldSet s st 0x08 c →
    exec (.setInterruptCoalescing st) s = .next ((s.modNvme fun n => { n with coal := BitVec.ofNat 16 (c.dw 11) }).complete st 0 0)) ∧
  (HeldSet s st 0x09 c → bits (c.dw 11) 0 16 ≤ 1024 → ∃ t : State, exec (.setInterruptVectorConfig st) s = .next (t.complete st 0 0) ∧
    (∀ v, v ∈ t.nvme.coalDis ↔ if v = bits (c.dw 11) 0 16 then bitAt (c.dw 11) 16 = true else v ∈ s.nvme.coalDis) ∧
    t = s.modNvme fun n => { n with coalDis := t.nvme.coalDis }) ∧
  (HeldSet s st 0x0A c →
    exec (.setWriteAtomicityNormal st) s = .next ((s.modNvme fun n => { n with atomicity := BitVec.ofNat 32 (c.dw 11) }).complete st 0 0)) ∧
  (HeldSet s st 0x0B c →
    exec (.setAsyncEventConfig st) s = .next ((s.modNvme fun n => { n with aecfg := BitVec.ofNat 32 (c.dw 11) }).complete st 0 0)) ∧
  (HeldSet s st 0x10 c → (bits (c.dw 11) 16 16 = 0 ∨ bits (c.dw 11) 0 16 = 0 ∨ bits (c.dw 11) 16 16 < bits (c.dw 11) 0 16) →
    exec (.setHctm st) s = .next ((s.modNvme fun n => { n with hctm := BitVec.ofNat 32 (c.dw 11) }).complete st 0 0))

/-- Get Features of the dword features: Dword 0 is the current value, or with SEL 1 the value after controller enable
(R492, R500, R501, R505, R507, R515, R635, R637). -/
def Obligations.GetFeatureAnswersValue : Prop := ∀ (s : State) (st sel : Nat) (c : Ctx),
  let answers (i : Instr) (now dflt : Nat) : Prop := exec i s = .next (s.complete st 0 (BitVec.ofNat 32 (if sel = 1 then dflt else now)))
  (HeldGet s st 0x01 sel c → answers (.getArbitration st) s.nvme.arb.toNat 6) ∧
  (HeldGet s st 0x04 sel c → bits (c.dw 11) 16 4 ≤ 6 → bits (c.dw 11) 20 2 = 0 →
    answers (.getTemperatureThreshold st) (s.threshold (bits (c.dw 11) 16 4)).1 (s.key2 0x0701)) ∧
  (HeldGet s st 0x04 sel c → bits (c.dw 11) 16 4 ≤ 6 → bits (c.dw 11) 20 2 = 1 →
    answers (.getTemperatureThreshold st) (s.threshold (bits (c.dw 11) 16 4)).2 0) ∧
  (HeldGet s st 0x05 sel c → answers (.getErrorRecovery st) s.nvme.errRec.toNat 0) ∧
  (HeldGet s st 0x07 sel c → answers (.getNumberOfQueues st) 0x03FF03FF 0x03FF03FF) ∧
  (HeldGet s st 0x08 sel c → answers (.getInterruptCoalescing st) s.nvme.coal.toNat 0) ∧
  (HeldGet s st 0x09 sel c → bits (c.dw 11) 0 16 ≤ 1024 →
    answers (.getInterruptVectorConfig st) (bits (c.dw 11) 0 16 + if bits (c.dw 11) 0 16 ∈ s.nvme.coalDis then 65536 else 0) (bits (c.dw 11) 0 16)) ∧
  (HeldGet s st 0x0A sel c → answers (.getWriteAtomicityNormal st) s.nvme.atomicity.toNat 0) ∧
  (HeldGet s st 0x0B sel c → answers (.getAsyncEventConfig st) s.nvme.aecfg.toNat 0) ∧
  (HeldGet s st 0x10 sel c → answers (.getHctm st) s.nvme.hctm.toNat 0) ∧
  (HeldGet s st 0xC3 sel c → answers (.getRackSpindleControl st)
    ((if s.rack.spinAllowed then 1 else 0) + 2 * s.rack.spin.code + 256 * s.standbyTime)
    ((if s.key2 0x0404 = 1 then 1 else 0) + 2 * s.rack.spin.code + 256 * s.keyN 0x0405 0 4)) ∧
  (HeldGet s st 0xC5 sel c → answers (.getCaptureWindowControl st)
    ((if s.win.pushEn then 1 else 0) + 2 * s.win.poolSize + 16384 * (s.win.leaseUs.toNat / 100)) (1 + 2 * 1024 + 16384 * 100))

/-- A Set that asks to save completes with status 0x0D, a Get with SEL 3 answers the capabilities, and a value that the rule does not letIn completes
with status 0x02; no feature changes (R492, R500, R501, R635, R637). -/
def Obligations.FeatureRefusals : Prop := ∀ (s : State) (st sel : Nat) (c : Ctx),
  (∀ i ∈ [(Instr.setArbitration st, 0x01), (.setPowerManagement st, 0x02), (.setTemperatureThreshold st, 0x04), (.setErrorRecovery st, 0x05),
      (.setNumberOfQueues st, 0x07), (.setInterruptCoalescing st, 0x08), (.setInterruptVectorConfig st, 0x09), (.setWriteAtomicityNormal st, 0x0A),
      (.setAsyncEventConfig st, 0x0B), (.setHctm st, 0x10), (.setRackSpindleControl st, 0xC3), (.setCaptureWindowControl st, 0xC5)],
    Held s st 0x09 c → bits (c.dw 10) 0 8 = i.2 → bitAt (c.dw 10) 31 = true → exec i.1 s = .next (s.complete st 0x0D 0)) ∧
  (∀ i ∈ [(Instr.getArbitration st, 0x01), (.getPowerManagement st, 0x02), (.getTemperatureThreshold st, 0x04), (.getErrorRecovery st, 0x05),
      (.getNumberOfQueues st, 0x07), (.getInterruptCoalescing st, 0x08), (.getInterruptVectorConfig st, 0x09), (.getWriteAtomicityNormal st, 0x0A),
      (.getAsyncEventConfig st, 0x0B), (.getTimestamp st, 0x0E), (.getHctm st, 0x10), (.getStreamFormat st, 0xC0), (.getRackSpindleControl st, 0xC3),
      (.getPlacementHints st, 0xC4), (.getCaptureWindowControl st, 0xC5)],
    Held s st 0x0A c → bits (c.dw 10) 0 8 = i.2 → bits (c.dw 10) 8 3 = 3 → exec i.1 s = .next (s.complete st 0 4)) ∧
  (HeldSet s st 0x05 c → bitAt (c.dw 11) 16 = true → exec (.setErrorRecovery st) s = .next (s.complete st 0x02 0)) ∧
  (HeldSet s st 0x09 c → 1024 < bits (c.dw 11) 0 16 → exec (.setInterruptVectorConfig st) s = .next (s.complete st 0x02 0)) ∧
  (HeldGet s st 0x09 sel c → 1024 < bits (c.dw 11) 0 16 → exec (.getInterruptVectorConfig st) s = .next (s.complete st 0x02 0)) ∧
  (HeldSet s st 0x10 c → bits (c.dw 11) 0 16 ≠ 0 → bits (c.dw 11) 0 16 ≤ bits (c.dw 11) 16 16 → exec (.setHctm st) s = .next (s.complete st 0x02 0)) ∧
  (HeldSet s st 0x04 c → (6 < bits (c.dw 11) 16 4 ∧ bits (c.dw 11) 16 4 ≠ 15 ∨ 1 < bits (c.dw 11) 20 2) →
    exec (.setTemperatureThreshold st) s = .next (s.complete st 0x02 0)) ∧
  (HeldGet s st 0x04 sel c → (6 < bits (c.dw 11) 16 4 ∨ 1 < bits (c.dw 11) 20 2) → exec (.getTemperatureThreshold st) s = .next (s.complete st 0x02 0))

/-- The thresholds of R635 per input and the Timestamp of R500: what a Set stores, what a Get transfers, and the end of the wait of R306. -/
def Obligations.TemperatureThresholdAndTimestamp : Prop := ∀ (s : State) (st sel : Nat) (c : Ctx) (v : BitVec 48),
  (HeldSet s st 0x04 c → bits (c.dw 11) 16 4 ≤ 6 → bits (c.dw 11) 20 2 = 0 → ∃ t : State, exec (.setTemperatureThreshold st) s = .next (t.complete st 0 0) ∧
    t = s.modNvme (fun n => { n with tempThr := t.nvme.tempThr }) ∧
    t.threshold (bits (c.dw 11) 16 4) = (bits (c.dw 11) 0 16, (s.threshold (bits (c.dw 11) 16 4)).2)) ∧
  (HeldSet s st 0x04 c → bits (c.dw 11) 16 4 ≤ 6 → bits (c.dw 11) 20 2 = 1 → ∃ t : State, exec (.setTemperatureThreshold st) s = .next (t.complete st 0 0) ∧
    t = s.modNvme (fun n => { n with tempThr := t.nvme.tempThr }) ∧
    t.threshold (bits (c.dw 11) 16 4) = ((s.threshold (bits (c.dw 11) 16 4)).1, bits (c.dw 11) 0 16)) ∧
  (HeldSet s st 0x04 c → bits (c.dw 11) 16 4 = 15 → bits (c.dw 11) 20 2 = 0 → ∃ t : State, exec (.setTemperatureThreshold st) s = .next (t.complete st 0 0) ∧
    ∀ i < 7, (t.threshold i).1 = bits (c.dw 11) 0 16) ∧
  (HeldSet s st 0x0E c → ∃ t : State, exec (.setTimestamp st v) s = .next (t.complete st 0 0) ∧ t.nvme.tsBase = some (v.toNat, s.now) ∧ t.now = s.now) ∧
  (HeldGet s st 0x0E sel c → ∃ t : State, exec (.getTimestamp st) s = .next (t.complete st 0 0) ∧
    t = s.giveData c 8 [(0, 6, if s.nvme.tsBase.isSome && sel ≠ 1 then s.stamp % 2 ^ 48 else if sel = 1 then 0 else s.time / ms),
      (6, 1, if s.nvme.tsBase.isSome && sel ≠ 1 then 2 else 0)]) ∧
  (∀ r, s.nvme.readyAt = some r → Does .timestampWaitExpiry s fun t => t.nvme.readyAt = none ∧ t.now = max s.now (r + 60 * sec))

/-- Get Log Page transfers the slice of the page that its offset and length select and completes with status 0; what each of these pages holds
(R497, R511, R512, R602, R642). -/
def Obligations.LogPagesAnswerTheirContents : Prop := ∀ (s : State) (st : Nat) (c : Ctx),
  let gives (i : Instr) (page : List (Nat × Nat × Nat)) (after : State → State) : Prop :=
    exec i s = .next ((after (s.giveData c c.logLen (sliceFields page c.logOff c.logLen))).complete st 0 0)
  let cleared (ty log : Nat) (t : State) : State := if c.rae = true then t else t.clearEvent ty log
  (HeldLog s st 0x00 1024 c → ∃ page, gives (.getLogSupportedPages st) page id ∧
    ∀ l, (4 * l, 4, 1) ∈ page ↔ l ∈ [0x00, 0x01, 0x02, 0x03, 0x04, 0x05, 0x06, 0x81, 0xC0, 0xC1, 0xC2, 0xC3, 0xC4, 0xC5, 0xC6]) ∧
  (HeldLog s st 0x01 4096 c → ∃ page, gives (.getLogErrorInformation st) page id ∧
    ∀ i (h : i < s.nvme.errLog.length), (64 * i, 8, s.nvme.errCount - i) ∈ page ∧ (64 * i + 8, 2, s.nvme.errLog[i].1) ∈ page ∧
      (64 * i + 10, 2, s.nvme.errLog[i].2.1) ∈ page ∧ (64 * i + 12, 2, 2 * s.nvme.errLog[i].2.2) ∈ page) ∧
  (HeldLog s st 0x05 4096 c → ∃ page, gives (.getLogCommandsEffects st) page id ∧
    ∀ op < 256, (4 * op, 4, adminEffects op) ∈ page ∧ (1024 + 4 * op, 4, ioEffects op) ∈ page) ∧
  (HeldLog s st 0x06 564 c → ∃ page, gives (.getLogDeviceSelfTest st) page id ∧ (0, 1, 0) ∈ page ∧
    ∀ i < 20, (4 + 28 * i, 1, match s.nvme.selfTest.results[i]? with | some r => 16 * r.1 + r.2 | none => 0x0F) ∈ page) ∧
  (HeldLog s st 0x81 512 c → gives (.getLogSanitizeStatus st)
    [(0, 2, if s.nvme.sanitize = 2 then 0 else 0xFFFF), (2, 2, s.nvme.sanitize), (4, 4, s.nvme.sanAction)] (cleared 2 0x81)) ∧
  (HeldLog s st 0xC0 512 c → gives (.getLogPlacementReport st) s.placementReport (cleared 7 0xC0)) ∧
  (HeldLog s st 0xC1 ringEnd c → ∃ page, gives (.getLogEventRecorder st) page id ∧ (∀ x ∈ s.ringHeader, x ∈ page) ∧
    ∀ e ∈ s.evt.recs, ∀ x ∈ e.2.fields e.1, x ∈ page) ∧
  (HeldLog s st 0xC5 512 c → ∃ page, gives (.getLogAgeing st) page (cleared 7 0xC5) ∧
    (0, 4, 1 + 2 ^ 8 * s.pwr.ceiling + 2 ^ 16 * s.pwr.ageOffset) ∈ page ∧ (0x40, 4, s.pwr.bank.eUsable) ∈ page ∧ (0x44, 4, s.eRequired) ∈ page ∧
    (∀ ch < 32, (0x80 + 4 * ch, 4, s.ageFlash ch) ∈ page) ∧ ∀ f < 24, (0x100 + 8 * f, 8, s.ageHead f) ∈ page) ∧
  (HeldLog s st 0xC6 4096 c → gives (.getLogMediaGeometry st) s.nvme.geoLog (cleared 7 0xC6))

/-- The pages whose reading with RAE 0 changes what they show (R98, R511, R512, R514, R569, R593, R596). -/
def Obligations.LogPagesThatClearWhatTheyShow : Prop := ∀ (s : State) (st : Nat) (c : Ctx),
  let gives (i : Instr) (page : List (Nat × Nat × Nat)) (after : State → State) : Prop :=
    exec i s = .next ((after (s.giveData c c.logLen (sliceFields page c.logOff c.logLen))).complete st 0 0)
  let cleared (ty log : Nat) (t : State) : State := if c.rae = true then t else t.clearEvent ty log
  (HeldLog s st 0x02 512 c → ∃ page, gives (.getLogSmartHealth st) page (fun t => (cleared 1 0x02 t).drawn) ∧
    (0, 1, s.nvme.critWarn.toNat) ∈ page ∧ (1, 2, kelvin s.therm.composite) ∈ page ∧ (3, 1, s.availableSpare) ∈ page ∧
    (64, 16, s.nvme.cmdsRead) ∈ page ∧ (80, 16, s.nvme.cmdsWritten) ∈ page ∧ (160, 16, s.nvme.mediaErrs) ∈ page) ∧
  (HeldLog s st 0x03 512 c → ∃ page, gives (.getLogFirmwareSlot st) page (cleared 2 0) ∧ (0, 1, s.fw.runSlot + 16 * s.fw.nextSlot) ∈ page) ∧
  (HeldLog s st 0x04 4096 c → ∃ page, gives (.getLogChangedNamespaces st) page
      (fun t => if c.rae = true then t else (t.modNvme fun n => { n with changedNs := [] }).clearEvent 2 0x04) ∧
    ∀ i (h : i < s.nvme.changedNs.length), (4 * i, 4, s.nvme.changedNs[i]) ∈ page) ∧
  (Held s st 0x02 c → c.lid = 0xC2 → c.logOff % 4 = 0 → c.logOff < 4096 → c.nsid ≠ 0xFFFFFFFF → s.nsActive c.nsid = true →
    gives (.getLogDeferredError st) ((tgetD s.host.deferred c.nsid {}).page c.nsid) (fun t => if c.rae = true ∨ c.logOff ≠ 0 then t else
      ((t.modHost fun h => { h with deferred := tput h.deferred c.nsid ((tgetD s.host.deferred c.nsid {}).afterRead c.logLen) }).clearEvent 7 0xC2).announceDeferred)) ∧
  (Held s st 0x02 c → c.lid = 0xC2 → c.logOff % 4 = 0 → c.logOff < 4096 → c.nsid ≠ 0xFFFFFFFF → s.nsActive c.nsid = false →
    exec (.getLogDeferredError st) s = .next (s.complete st 0x0B 0)) ∧
  (HeldLog s st 0xC3 16448 c → ∃ page, gives (.getLogFaultStatus st) page (cleared 7 0xC3) ∧ (∀ x ∈ s.faultHeader, x ∈ page) ∧
    ∀ id < 1024, ∀ x ∈ s.srcFields id, x ∈ page) ∧
  (HeldLog s st 0xC4 4096 c → ∃ page, gives (.getLogHealthEarlyWarning st) page (fun t => if (c.rae || decide (c.logOff ≠ 0)) = true then t else
      (t.modEvt fun e => { e with warns := (e.warns.zipIdx).map fun (w, i) => if 0x40 + 0x20 * i < c.logLen then { w with seen := true } else w }).clearEvent 7 0xC4) ∧
    (8, 2, s.evt.warns.length) ∈ page ∧ ∀ i (h : i < s.evt.warns.length), ∀ x ∈ (s.evt.warns[i]).fields (0x40 + 0x20 * i), x ∈ page)

/-- The vendor features with a state beyond one dword (R149, R187, R188, R353, R354, R502, R505 to R507, R670). -/
def Obligations.VendorFeaturesTakeEffect : Prop := ∀ (s : State) (st sel : Nat) (c : Ctx) (data : List Byte),
  let w := c.dw 11
  let spin (act : Nat) : State := s.modRack fun r =>
    { r with spinAllowed := bitAt w 0, standby := if bitAt w 3 then r.standby else some (BitVec.ofNat 32 (bits w 8 24))
             demandHeld := r.demandHeld || decide (act = 2) }
  let standbyOk : Prop := bits w 4 4 = 0 ∧ (bitAt w 3 = true ∨ bits w 8 24 = 0 ∨ 10 ≤ bits w 8 24 ∧ bits w 8 24 ≤ 86400)
  (HeldSet s st 0xC0 c → s.barrierClear c = true → c.jwait = none → bits w 8 24 = 0 → (formatOfBytes data).valid = true → formatReserved data = false →
    s.formatOk (bits w 0 8) (formatOfBytes data) false = true → exec (.setStreamFormat st data) s =
      .next (((s.modCoder fun k => { k with formats := tput k.formats (bits w 0 8) (formatOfBytes data) }).journal 1 0
        (.side (.format (bits w 0 8) (formatOfBytes data)))).awaitJournal st 0).settle) ∧
  (HeldSet s st 0xC0 c → s.barrierClear c = true → c.jwait = none → bits w 8 24 = 0 → (formatOfBytes data).valid = true → formatReserved data = false →
    s.formatOk (bits w 0 8) (formatOfBytes data) false = false → exec (.setStreamFormat st data) s = .next (s.complete st 0x7C3 0).settle) ∧
  (HeldGet s st 0xC0 sel c → bits w 8 24 = 0 → exec (.getStreamFormat st) s =
    .next ((s.giveData c 64 ((tgetD s.coder.formats (bits w 0 8) {}).fields (tgetD s.coder.counts (bits w 0 8) {}))).complete st 0 0)) ∧
  (HeldSet s st 0xC3 c → bits w 1 2 = 0 → standbyOk → exec (.setRackSpindleControl st) s = .next ((spin 0).complete st 0 0)) ∧
  (HeldSet s st 0xC3 c → bits w 1 2 = 1 → standbyOk → bitAt w 0 = true → s.rack.spin ≠ .absent → s.rack.spin ≠ .failed → s.rack.spin ≠ .lowv →
    exec (.rackSpinUpAction st) s = .next ((spin 1).demandSpin.complete st 0 0)) ∧
  (HeldSet s st 0xC3 c → bits w 1 2 = 1 → standbyOk → bitAt w 0 = true → s.rack.spin = .failed ∨ s.rack.spin = .lowv →
    exec (.rackSpinUpAction st) s = .next (s.complete st 0x7C1 0)) ∧
  (HeldSet s st 0xC3 c → bits w 1 2 = 2 → standbyOk → exec (.rackSpinDownAction st) s = .next (((spin 2).spinDown false false).complete st 0 0)) ∧
  (HeldSet s st 0xC4 c → bits w 9 2 = 0 → bits w 11 21 = 0 → 1 ≤ bits w 0 9 → bits w 0 9 ≤ 256 →
    ∀ hs, s.hintsOf true s.place.hints.length ((List.range (bits w 0 9)).map fun i => (data.drop (32 * i)).take 32) = (0, hs) →
    exec (.placementHintsAdd st data) s = .next ((s.setHints (s.place.hints ++ hs)).complete st 0 0)) ∧
  (HeldSet s st 0xC4 c → bits w 9 2 = 1 → bits w 11 21 = 0 → 1 ≤ bits w 0 9 → bits w 0 9 ≤ 256 →
    ∀ hs, s.hintsOf false s.place.hints.length ((List.range (bits w 0 9)).map fun i => (data.drop (32 * i)).take 32) = (0, hs) →
    exec (.placementHintsRemove st data) s = .next ((s.setHints (s.place.hints.filter fun h => !hs.contains h)).complete st 0 0)) ∧
  (HeldSet s st 0xC4 c → bits w 9 2 = 2 → bits w 11 21 = 0 → exec (.placementHintsRemoveAll st) s = .next ((s.setHints []).complete st 0 0)) ∧
  (HeldGet s st 0xC4 sel c → ∃ page, exec (.getPlacementHints st) s =
      .next ((s.giveData c 8192 page).complete st 0 (BitVec.ofNat 32 s.place.hints.length)) ∧
    ∀ i (h : i < s.place.hints.length), ∀ x ∈ (s.place.hints[i]).fields (32 * i), x ∈ page) ∧
  (HeldSet s st 0xC5 c → (∀ e ∈ s.win.setQ, e.1 ≠ st) → bits w 28 4 = 0 → bits w 1 13 ≤ 4096 → 10 ≤ bits w 14 14 → bits w 14 14 ≤ 10000 →
    exec (.setCaptureWindowControl st) s =
      .next ((s.modCtx st fun x => { x with begun := true }).queueSet (st, bits w 0 1, bits w 1 13, 100 * bits w 14 14)))

/-- Fault Inject (R509, R591) and Event Recorder Clear (R510, R603). -/
def Obligations.FaultInjectAndEventClears : Prop := ∀ (s : State) (st : Nat) (c : Ctx),
  let w := c.dw 10
  let who := if c.isMgmt = true then 2 else 1
  (Held s st 0xC4 c → bitAt w 17 = false → bits w 10 6 = 0 → bits w 18 14 = 0 → s.cfg.testMode = true → defaultClass (bits w 0 10) ≠ 0 →
    exec (.faultInjectForce st) s = .next ((s.complete st 0 0).setForce (bits w 0 10) (bitAt w 16))) ∧
  (Held s st 0xC4 c → bits w 10 6 = 0 → bits w 18 14 = 0 → s.cfg.testMode = false → exec (.faultInjectForce st) s = .next (s.complete st 0x7C7 0)) ∧
  (Held s st 0xC4 c → bitAt w 17 = true → bits w 10 6 = 0 → bits w 18 14 = 0 → s.cfg.testMode = true →
    Does (.faultInjectClearAll st) s fun t => t = ((s.complete st 0 0).modFlt fun x => { x with srcs := t.flt.srcs }) ∧
      ∀ e ∈ t.flt.srcs, e.2.force = false) ∧
  (Held s st 0xC8 c → c.dw 11 = 0 → (∀ e ∈ s.evt.clears, e.2.2 ≠ some st) → c.stamp = st → s.evt.started = true → s.dram.selfRefresh = false →
    exec (.eventRecorderClearUpto st) s = .next ((s.clearRecords who (some (BitVec.ofNat 32 w))).2.complete st 0
      (BitVec.ofNat 32 (s.clearRecords who (some (BitVec.ofNat 32 w))).1))) ∧
  (Held s st 0xC8 c → c.dw 11 = 1 → (∀ e ∈ s.evt.clears, e.2.2 ≠ some st) → c.stamp = st → s.evt.started = true → s.dram.selfRefresh = false →
    Does (.eventRecorderClearAll st) s fun t => t = (s.clearRecords who none).2.complete st 0 (BitVec.ofNat 32 s.evt.recs.length)) ∧
  (Held s st 0xC8 c → c.dw 11 = 1 → (∀ e ∈ s.evt.clears, e.2.2 ≠ some st) → c.stamp = st → s.evt.started = false →
    exec (.eventRecorderClearAll st) s = .next ((s.modEvt fun e => { e with clears := e.clears ++ [(who, none, some st)] }).modCtx st
      fun x => { x with begun := true }))

/-- Firmware Image Download (R570), Firmware Commit of each action (R571, R572) and Scheduled Activation (R504, R576). -/
def Obligations.FirmwareDownloadAndCommit : Prop := ∀ (s : State) (st sel : Nat) (c : Ctx) (data : List Byte) (bad : List Nat) (p : Tab (List Byte)),
  let w := c.dw 10
  let len := 4 * (w + 1)
  let slot := if bits w 0 3 = 0 then 3 - s.fw.runSlot else bits w 0 3
  let images := p.foldl (fun t e => tput t e.1 (storedBytes e.1 e.2)) s.runningImages
  let set := p.foldl (fun t e => tput t e.1 (wrapInfo e.2)) s.fw.running
  let passes (ca : Nat) : Prop := Held s st 0x10 c ∧ bits w 3 3 = ca ∧ bitAt w 31 = false ∧ bits w 0 3 ≤ 2 ∧ s.fw.act = none
  let fits (twin : Option Bool) : Prop := slot ≠ s.fw.runSlot ∧ packageOf s.fw.buf = some p ∧ (∀ e ∈ p, s.wrapGood bad e.2 = true) ∧
    compatible set = true ∧ ∀ n ∈ s.commitSectors slot images twin, n ∉ s.ospi.prot
  let slotSet := if slot = s.fw.runSlot then s.fw.running else s.fw.other
  (Held s st 0x11 c → s.fw.act = none → len ≤ 12582912 → c.dw 11 = 0 →
    exec (.firmwareImageDownload st data) s = .next ((s.modFw fun f => { f with buf := data.take len }).complete st 0 0)) ∧
  (Held s st 0x11 c → s.fw.act = none → 4 * c.dw 11 + len ≤ 12582912 → c.dw 11 ≠ 0 → s.fw.buf.length = 4 * c.dw 11 →
    exec (.firmwareImageDownload st data) s = .next ((s.modFw fun f => { f with buf := f.buf ++ data.take len }).complete st 0 0)) ∧
  (Held s st 0x11 c → s.fw.act = none → 4 * c.dw 11 + len ≤ 12582912 → c.dw 11 ≠ 0 → s.fw.buf.length ≠ 4 * c.dw 11 →
    exec (.firmwareImageDownload st data) s = .next (s.complete st 0x114 0)) ∧
  (passes 0 → fits none → exec (.firmwareCommitReplace st bad false) s = .next (s.doCommit st 0 slot set images)) ∧
  (passes 1 → fits (some (!s.fw.bootB)) → exec (.firmwareCommitNextReset st bad false) s = .next (s.doCommit st 1 slot set images)) ∧
  (passes 2 → slotSet ≠ [] → (∀ k ∈ bad, thas slotSet k = false) → (∀ e ∈ slotSet, e.1 = 5 ∨ s.fw.svnFloor ≤ e.2.svn) → compatible slotSet = true →
    (∀ n ∈ s.commitSectors slot [] (some (!s.fw.bootB)), n ∉ s.ospi.prot) →
    exec (.firmwareCommitActivateSlot st bad false) s =
      .next (s.doCommit st 2 slot slotSet (slotSet.map fun e => (e.1, s.nvmBytes e.2.addr e.2.len)))) ∧
  (passes 3 → fits (some (!s.fw.bootB)) → exec (.firmwareCommitImmediate st bad false) s = .next (s.doCommit st 3 slot set images)) ∧
  (HeldSet s st 0xC2 c → fieldAt data 0 4 = 1 → fieldAt data 6 2 = 0 → fieldAt data 8 8 < 2 ^ 48 → s.nvme.tsBase.isSome = true →
    exec (.setScheduledActivation st data) s =
      .next ((s.modFw fun f => { f with armed := true, actTime := BitVec.ofNat 64 (fieldAt data 8 8) }).complete st 0 0)) ∧
  (HeldSet s st 0xC2 c → fieldAt data 0 4 = 0 → fieldAt data 6 2 = 0 → fieldAt data 8 8 < 2 ^ 48 →
    exec (.setScheduledActivation st data) s =
      .next ((s.modFw fun f => { f with armed := false, actTime := BitVec.ofNat 64 (fieldAt data 8 8) }).cancelScheduled.complete st 0 0)) ∧
  (HeldGet s st 0xC2 sel c → sel ≠ 1 → exec (.getScheduledActivation st) s =
    .next ((s.giveData c 16 [(0, 4, (if s.fw.armed then 1 else 0) + (if s.actPending then 256 else 0)), (4, 2, 500), (8, 6, s.fw.actTime.toNat)]).complete st 0 0))

/-- The ways of a profile swap (R503, R508, R534 to R540). -/
def Obligations.ProfileChangesAtItsTrigger : Prop := ∀ (s : State) (st sel : Nat) (c : Ctx) (data : List Byte) (p : Swap) (level : Bool),
  let d := bitAt (c.dw 10) 0
  let t := fieldAt data 8 8
  (Held s st 0xC0 c → s.nvme.pp = false → s.pwr.pl.running = false → st ∉ s.cfg.waiters → bits (c.dw 10) 1 31 = 0 →
    (s.cfg.pinEn = true → d = pinDrain s.cfg.recordDeb) → s.cfg.swap = none → s.cfg.drainActive = d →
    exec (.profileSwap st) s = .next (s.complete st 0 (if d = true then 1 else 0))) ∧
  (Held s st 0xC0 c → s.nvme.pp = false → s.pwr.pl.running = false → st ∉ s.cfg.waiters → bits (c.dw 10) 1 31 = 0 →
    (s.cfg.pinEn = true → d = pinDrain s.cfg.recordDeb) → s.cfg.swap = none → s.cfg.drainActive ≠ d →
    exec (.profileSwap st) s = .next ((s.modCfg fun x => { x with swap := some { drain := d, trig := c.trig, trigAt := s.now }, waiters := x.waiters ++ [st] }).modCtx st
      fun x => { x with begun := true })) ∧
  (Held s st 0xC0 c → s.nvme.pp = false → s.pwr.pl.running = false → st ∉ s.cfg.waiters → bits (c.dw 10) 1 31 = 0 →
    s.cfg.pinEn = true → d ≠ pinDrain s.cfg.recordDeb → exec (.profileSwap st) s = .next (s.complete st 0x7C2 0)) ∧
  (HeldSet s st 0xC1 c → fieldAt data 0 4 = 2 → fieldAt data 4 4 = 0 → t < 2 ^ 48 → s.nvme.tsBase.isSome = true → s.stamp < t →
    exec (.setProfileControl st data) s =
      .next ((s.modCfg fun x => { x with pinEn := false, schedEn := true, schedDrain := false, schedTime := BitVec.ofNat 64 t }).complete st 0 0)) ∧
  (HeldGet s st 0xC1 sel c → exec (.getProfileControl st) s = .next ((s.giveData c 16 (s.profileControl (decide (sel = 1)))).complete st 0 0)) ∧
  (s.cfg.swap = some p → s.safeState = false → s.nvme.pp = false → s.pwr.pl.running = false → exec .swapPoint s = .next (s.swapTo p.drain p.trig)) ∧
  (s.cfg.swap = some p → s.safeState = false → s.nvme.pp = false → s.pwr.pl.running = false →
    exec .swapFallbackTimeout s = .next ((s.reach (max p.trigAt s.cfg.swapBlockedAt + 400 * us)).swapTo p.drain p.trig)) ∧
  (level ≠ s.cfg.record → exec (.recordPinChange level) s = .next (s.modCfg fun x => { x with record := level, recordSince := s.now })) ∧
  (s.cfg.record ≠ s.cfg.recordDeb → s.pwr.aon = true → s.cfg.pinEn = false →
    exec .recordDebounceComplete s = .next ((s.reach (s.cfg.recordSince + 10 * us)).modCfg fun x => { x with recordDeb := x.record })) ∧
  (s.cfg.record ≠ s.cfg.recordDeb → s.pwr.aon = true → s.cfg.pinEn = true → Does .recordDebounceComplete s fun u =>
    u = ((s.reach (s.cfg.recordSince + 10 * us)).modCfg fun x => { x with recordDeb := x.record }).trigger (pinDrain s.cfg.record) .pin) ∧
  (s.cfg.schedEn = true → s.nvme.tsBase.isSome = true → s.cfg.schedTime.toNat ≤ s.stamp → s.swapOrder (!s.cfg.schedDrain) = false →
    exec .scheduledSwapCompare s = .next ((s.modCfg fun x => { x with schedEn := false }).trigger s.cfg.schedDrain .schedule)) ∧
  (s.cfg.schedEn = true → s.nvme.tsBase.isSome = true → s.cfg.schedTime.toNat ≤ s.stamp → s.swapOrder (!s.cfg.schedDrain) = true →
    exec .scheduledSwapCompare s = .next ((s.modCfg fun x => { x with schedEn := false }).note 0x2006 0 0 [b2n s.cfg.schedDrain]))

/-- The steps of an activation (R573 to R576). -/
def Obligations.ActivationReplacesTheSet : Prop := ∀ (s : State) (a : Activation) (base : McuModule) (patches : List McuModule) (custom : Option McuModule)
    (failed : List Nat) (ok : Bool), s.fw.act = some a →
  (a.scheduled = true → a.trigger = none → s.nvme.tsBase.isSome = true → s.fw.actTime.toNat ≤ s.stamp → s.pwr.pl.running = false →
    exec .activationCompare s = .next (s.modFw fun f => { f with armed := false, act := some { a with trigger := some s.now } })) ∧
  (a.trigger.isSome = true → a.step = .waiting → s.mayActivate = true → exec (.activationPoint base patches custom failed) s =
    .next ((s.beginPause a).2.runActivation (s.beginPause a).1 base patches custom failed)) ∧
  (a.trigger.isSome = true → a.step = .running →
    exec (.activationPoint base patches custom failed) s = .next (s.runActivation a base patches custom failed)) ∧
  (a.trigger.isSome = true → a.step = .waiting → s.safeState = true →
    exec (.activationPoint base patches custom failed) s = .next (s.modFw fun f => { f with act := some { a with delayed := true } })) ∧
  (a.step = .coreWait → s.safeState = false → exec (.activationCoreReady true) s = .next (s.finishActivation a)) ∧
  (a.step = .coreWait → (ok = false ∨ s.safeState = true) → exec (.activationCoreReady ok) s = .next (s.revertActivation a)) ∧
  (a.step = .coreWait → exec .activationStepTimeout s = .next ((s.reach (a.began + sec)).revertActivation a))

/-- The operations on the boot NVM (R547 to R549, R551). -/
def Obligations.BootNvmOperations : Prop := ∀ (s : State) (addr len bank outcome : Nat) (data : List Byte) (op : OspiOp),
  (Does (.ospiProgram addr len data) s fun t => t.ospi.addr = BitVec.ofNat 32 addr ∧ t.ospi.len = BitVec.ofNat 9 len ∧ t.ospi.nvm = s.ospi.nvm ∧
    t = (s.modOspi fun o => { o with addr := BitVec.ofNat 32 addr, len := BitVec.ofNat 9 len, data := mwriteN 0 o.data 0 (data.take 256) }).ospiGo false
      (addr % 2 ^ 32) (len % 2 ^ 9) (mreadN 0 (mwriteN 0 s.ospi.data 0 (data.take 256)) 0 256)) ∧
  (Does (.ospiErase addr) s fun t => t.ospi.addr = BitVec.ofNat 32 addr ∧ t.ospi.nvm = s.ospi.nvm ∧
    t = (s.modOspi fun o => { o with addr := BitVec.ofNat 32 addr }).ospiGo true (addr % 2 ^ 32) 0 []) ∧
  (s.ospi.busy.getD bank none = some op → op.failed = false → op.erase = false → ∀ ready, exec (.ospiOperationEnd bank 0 ready) s =
    .next (s.modOspi fun o => { o with nvm := mwriteN nvmFill o.nvm op.addr op.bytes, done := true, result := 0, busy := o.busy.set bank none })) ∧
  (s.ospi.busy.getD bank none = some op → op.failed = false → op.erase = true → ∀ ready, exec (.ospiOperationEnd bank 0 ready) s =
    .next (s.modOspi fun o => { o with nvm := mclear o.nvm op.addr 65536, done := true, result := 0, busy := o.busy.set bank none })) ∧
  (s.ospi.busy.getD bank none = some op → op.failed = true → exec (.ospiOperationEnd bank outcome true) s =
    .next (s.modOspi fun o => { o with busy := o.busy.set bank none })) ∧
  (exec .ospiLock s = .next (s.modOspi fun o => { o with lock := true })) ∧
  ((s.ospi.busy.getD (s.bankOf addr) none).isSome = true → exec (.nvmWindowBusFault addr) s = .next (s.send (.busFault addr)))

/-- Power states, governor, gating, operating points and epochs (R32, R433, R516, R622 to R628, R640, R647). -/
def Obligations.PowerStatesAndGovernor : Prop := ∀ (s : State) (st sel : Nat) (c : Ctx) (dom n o : Nat) (ok : Bool) (activity : List Nat) (margins : List (List (List Int))),
  let ps := bits (c.dw 11) 0 5
  let est := (activity.zipIdx).foldl (fun n e => n + e.1 * Config.activityWeight e.2) 0
  let r := s.reach (s.pwr.tickAt + 10 * us)
  let ticked := r.modPwr fun p =>
    { p with tickAt := r.now, ests := (p.ests ++ [est]).drop (p.ests.length + 1 - 1000) }
  let sum := ticked.pwr.ests.foldl (· + ·) 0
  let runs : Prop := s.pwr.crst = false ∧ s.pwr.pl.running = false
  (HeldSet s st 0x02 c → ps ≤ 4 → c.isMgmt = false → exec (.setPowerManagement st) s = .next ((s.setPs ps 1).complete st 0 0)) ∧
  (HeldSet s st 0x02 c → 4 < ps → exec (.setPowerManagement st) s = .next (s.complete st 0x02 0)) ∧
  (HeldGet s st 0x02 sel c → exec (.getPowerManagement st) s = .next (s.complete st 0 (BitVec.ofNat 32 s.pwr.ps))) ∧
  (runs → ticked.budget * ticked.pwr.ests.length < sum → exec (.budgetGovernorTick activity) s = .next (ticked.modPwr fun p => { p with below := 0 }).governDown) ∧
  (runs → sum ≤ ticked.budget * ticked.pwr.ests.length → 9 * ticked.budget * ticked.pwr.ests.length ≤ 10 * sum →
    exec (.budgetGovernorTick activity) s = .next (ticked.modPwr fun p => { p with below := 0 })) ∧
  (runs → dom ∉ s.pwr.gated → gatable s.pwr.ps dom = true → s.domainIdle dom = true → dom ≠ 4 → exec (.domainIdleTimeout dom) s =
    .next (s.modPwr fun p => { p with gated := p.gated ++ [dom], gatedAt := tput p.gatedAt dom s.now })) ∧
  (runs → 4 ∉ s.pwr.gated → gatable s.pwr.ps 4 = true → Does (.domainIdleTimeout 4) s fun t =>
    t.dram.selfRefresh = s.dram.inService ∧ t.pwr.gated = s.pwr.gated ++ [4]) ∧
  (dom ∈ s.pwr.gated → dom < 4 → Does (.domainWake dom) s fun t => t.now = s.now + wakeNs dom ∧ dom ∉ t.pwr.gated ∧
    ∀ d, d ≠ dom → (d ∈ t.pwr.gated ↔ d ∈ s.pwr.gated)) ∧
  (s.pwr.opTarget = some o → s.pwr.opNext = none → (ok = true ∨ s.pwr.op ≤ o) →
    exec (.opTransitionEnd ok) s = .next (s.modPwr fun p => { p with op := o, opTarget := none, opNext := none })) ∧
  (n < 8 → s.pwr.crst = false → exec (.cpmTrip n) s =
    .next ((s.modPwr fun p => { p with trips := satInc p.trips, stretched := some s.now }).fault (0x2A0 + n) [])) ∧
  (s.pwr.crst = false → Does (.epochAdvance margins []) s fun t => t = (((s.reach (s.place.epochStart + s.key4 0x0201 * sec)).modPlace fun p =>
      { p with epoch := p.epoch + 1, epochStart := max s.now (s.place.epochStart + s.key4 0x0201 * sec) }).modFlashIf fun f =>
        { f with dies := f.dies.map fun e => (e.1, { e.2 with step4 := 0 }) }).replan margins)

/-- The fault collector's own commands (R55, R482, R579 to R581, R588, R591, R592, R604). -/
def Obligations.FaultsRaiseAckEscalate : Prop := ∀ (s : State) (id core a : Nat) (detail : List Nat) (v good : Bool),
  let ready : Prop := s.evt.pend ≠ [] ∧ s.evt.started = true ∧ s.pwr.pl.running = false ∧ s.map.mounted = true
  (8 ≤ id → id ≠ 0x1F1 → id ≠ 0x1F2 → exec (.hardwareFaultDetected id detail) s = .next (s.fault id detail)) ∧
  (id < 8 → exec (.hardwareFaultDetected id detail) s = .next ((s.modFlt fun t => { t with suspect := true }).fault id detail)) ∧
  (exec (.hardwareFaultDetected 0x1F1 detail) s = .next ((s.aerCorrectable 14).fault 0x1F1 detail)) ∧
  (exec (.hardwareFaultDetected 0x1F2 detail) s = .next ((s.aerUncorrectable aerInternal false).fault 0x1F2 detail)) ∧
  ((s.src id).pending = true → s.monitorsPaused = false → s.flt.suspect = false → s.safeState = false → exec (.reactionTimerExpiry id) s =
    .next (((s.reach ((s.src id).pendAt + s.flt.reactionMs.toNat * ms)).faultRecord id (s.faultClass id) true []).fatal id true)) ∧
  ((s.src id).pending = true → exec (.faultAck id true) s = .next (s.modSrc id fun x => { x with pending := false }).driveFaultN) ∧
  ((s.src id).pending = true → actuatorSource id = some a →
    exec (.faultAck id false) s = .next ((s.modSrc id fun x => { x with pending := false }).driveFaultN.fenceActuator a)) ∧
  (core < 12 → exec (.heartbeatWrite core) s = .next (s.modFlt fun t => { t with heart := tput t.heart core s.now })) ∧
  (core < 12 → s.monitorsPaused = false → s.flt.collector = true → (s.fw.stage = .core ∨ s.fw.stage = .mounted) → Does (.heartbeatMissed core) s fun t =>
    t = ((s.reach (tgetD s.flt.heart core s.fw.startAt + 20 * ms)).modFlt fun t =>
      { t with heart := tput t.heart core (max s.now (tgetD s.flt.heart core s.fw.startAt + 20 * ms)) }).fault (0x020 + core)) ∧
  (exec (.forceBitWrite id v) s = .next (s.setForce id v)) ∧
  (s.cfg.testMode = false → exec (.forceBitWrite id v) s = .next s) ∧
  (∀ x, s.flt.srcs.filter (fun e => decide (e.2.suppressed ≠ 0)) = [(id, x)] → exec .correctedSuppressionSecond s =
    .next (((s.reach ((x.secStart + 1) * sec)).note 0x1400 0 0 [id, x.suppressed]).modSrc id fun y => { y with suppressed := 0 })) ∧
  (ready → (∀ r ∈ s.evt.pend, r.urgent = false) → s.evt.pend.foldl (fun n r => n + r.len) 0 < 16384 →
    exec (.mirrorPageProgram true) s = .next (s.reach (s.evt.pendSince + 100 * ms)).mirrorPage) ∧
  (ready → (∃ r ∈ s.evt.pend, r.urgent = true) → exec (.mirrorPageProgram good) s = .next (if good = true then s.mirrorPage else s.fault 0x2C1))

/-- The safe state and the units that faults fence (R12, R13, R55, R585 to R587). -/
def Obligations.SafeStateEntryAndRecovery : Prop := ∀ (s : State) (src dst blk flow id lcn kind n act : Nat) (failed : List Nat) (lost : List (Nat × Nat)),
  let here (x : FabXfer) : Bool := x.src == portOf src && x.dst == portOf dst && x.blk == blk
  let rest := s.fab.xfers.filter fun x => !here x
  let resends := ((s.fab.xfers.find? here).map (·.resends)).getD 0
  (s.safeState = true → s.flt.entryDone = false → Does .safeStateFlashDone s fun t => t.flt.entryDone = true) ∧
  (s.flt.state = .safe → s.flt.entryDone = true → s.pwr.pl.running = false → Does .quietPeriodExpiry s fun t => t.flt.state = .recovering ∧
    t.flt.suspect = false ∧ (∀ e ∈ t.flt.srcs, e.2.pending = false) ∧ t.now = max s.now (s.flt.quietStart + s.flt.quietMs.toNat * ms)) ∧
  (s.flt.state = .recovering → s.pwr.pl.running = false → ∃ t, exec (.safeStateRecoveryEnd failed lost) s = .next t) ∧
  (resends = 0 → exec (.fabricBlockReceive src dst blk flow id lcn true) s = .next (s.modFab fun f => { f with xfers := rest })) ∧
  (resends ≠ 0 → exec (.fabricBlockReceive src dst blk flow id lcn true) s =
    .next ((s.modFab fun f => { f with xfers := rest }).fault (0x180 + (Config.portIndex dst).val) [src, dst])) ∧
  (resends < 3 → exec (.fabricBlockReceive src dst blk flow id lcn false) s = .next (s.modFab fun f => { f with xfers := rest ++
    [{ src := portOf src, dst := portOf dst, blk := blk, resends := resends + 1, flow := flowOf flow id lcn }] })) ∧
  (3 ≤ resends → (portOf dst).isEngine = true → exec (.fabricBlockReceive src dst blk flow id lcn false) s =
    .next ((((s.modFab fun f => { f with xfers := rest }).fault (0x150 + (Config.portIndex dst).val) [src, dst]).fencePort (portOf dst)).fabricLost (flowOf flow id lcn))) ∧
  (kind < 4 → s.isFenced kind n = true → tgetD s.place.unfences (64 * kind + n) 0 < s.key2 0x0231 → exec (.unitRelease kind n) s =
    .next ((((s.unfence kind n).modPlace fun p => { p with unfences := tput p.unfences (64 * kind + n) (tgetD s.place.unfences (64 * kind + n) 0 + 1) }).note
      0x2007 (unitSubject kind n).1 (unitSubject kind n).2 []).placeWaiting)) ∧
  (act < 2 → s.servo.spindle.state = .wedge → s.actFenced act = false → ((s.servo.acts.getD act {}).mode = .reacquire ∨ (s.servo.acts.getD act {}).mode = .loading) →
    exec (.actuatorUnlockTimeout act) s = .next ((s.reach (s.place.unlocked.getD act 0 + sec)).fenceActuator act))

/-- The supply monitors (R11, R351, R612 to R614, R621, R643, R669). -/
def Obligations.SupplyMonitorsAct : Prop := ∀ (s : State) (vin dur vend rail mv : Nat) (steps : BitVec 6),
  (vin < s.key2 0x0601 → exec (.vinMainUndervoltage vin) s = .next (s.modPwr fun p => { p with vinMain := vin, onBkup := true }).powerFail) ∧
  (s.pwr.pl.running = true → exec (.powerLossSequenceEnd dur vend) s =
    .next ((s.reach (s.pwr.pl.start + min dur 40000 * us)).controllerLost (min dur 40000) vend 0x7F false)) ∧
  (s.pwr.pl.running = true → vend < 4500 → exec (.vinBkupBrownOut dur vend steps) s =
    .next ((s.reach (s.pwr.pl.start + min dur 40000 * us)).controllerLost (min dur 40000) vend (steps.zeroExtend 8) true)) ∧
  (rail < 16 → s.pwr.crst = false → exec (.railOutOfRegulation rail false) s =
    .next ((s.modPins fun p => { p with railOut := tput p.railOut rail s.now }).fault (0x240 + rail) [])) ∧
  (rail ≤ 12 → s.pwr.crst = false → Does (.railOutOfRegulation rail true) s fun t =>
    ∃ u, u = (s.modPins fun p => { p with railOut := tput p.railOut rail s.now }).fault (0x240 + rail) [] ∧ t = (u.reach (u.now + 20 * us)).powerFail) ∧
  (s.pwr.crst = false → exec .crystalStopped s = .next (((s.modPwr fun p => { p with crystal := false }).fault 0x27B []).fatal 0x27B false)) ∧
  (18500 < mv → s.pwr.crst = false → exec (.vinOvervoltage true mv) s = .next ((s.modPwr fun p => { p with vinBkup := mv }).fault 0x273 [])) ∧
  (18500 < mv → s.pwr.crst = false → exec (.vinOvervoltage false mv) s =
    .next (((s.modPwr fun p => { p with vinMain := mv }).modPins fun p => { p with overvolt := true }).fault 0x272 []).toLowv) ∧
  (s.pins.overvolt = true → mv < 18500 → s.pwr.crst = false → exec (.vinOvervoltageCleared mv) s =
    .next ((s.modPwr fun p => { p with vinMain := mv }).modPins fun p => { p with overvolt := false }).leaveLowv) ∧
  (mv < 10800 → s.pwr.crst = false → exec (.vinMainBelowRackMinimum mv) s = .next (s.modPwr fun p => { p with vinMain := mv }).toLowv) ∧
  (10800 ≤ mv → s.pwr.crst = false → exec (.rackVoltageRestored mv) s = .next (s.modPwr fun p => { p with vinMain := mv }).leaveLowv)

/-- Power-up and the hold-up bank (R611, R615, R617 to R620, R656, R657). -/
def Obligations.PowerUpAndHoldUpBank : Prop := ∀ (s : State) (vin vb step fall dt n : Nat) (failed : Option Nat),
  let up := s.mainAt vin vb
  let esr := bankEsr step
  let cap := bankC fall (min dt 50000)
  let e := bankEnergy cap esr (s.key2 0x0602)
  (4200 ≤ vin → s.pwr.crst = false → exec (.powerUpSequence vin vb failed false) s = .next up) ∧
  (4200 ≤ vin → s.pwr.crst = true → s.pwr.aon = true → s.pwr.heldOff = false → s.pwr.rampAt = none → exec (.powerUpSequence vin vb failed false) s =
    .next ((up.modPwr fun p => { p with aon := true }).ramp failed)) ∧
  (4200 ≤ vin → s.pwr.crst = true → exec (.powerUpSequence vin vb failed true) s =
    .next ((up.aonLost.modPwr fun p => { p with aon := true }).ramp failed)) ∧
  (s.pwr.rampAt = some n → s.pwr.crst = true → 4200 ≤ s.pwr.vinMain → exec (.railRetryTimeout failed) s = .next ((s.reach (n + sec)).ramp failed)) ∧
  (exec .sysrstNLow s = .next (s.modPins fun p => { p with sysrstN := false }).powerFail) ∧
  (s.pins.sysrstN = false → exec .sysrstNRelease s = .next (s.modPins fun p => { p with sysrstN := true, sysrstAt := s.now })) ∧
  (s.pwr.charger = .current → exec .chargeVoltageReached s = .next (s.modPwr fun p => { p with charger := .hold, vinBkup := s.key2 0x0602 })) ∧
  (s.pwr.crst = false → s.pwr.charger = .hold → s.key2 0x0601 < s.pwr.vinMain → s.pwr.checked = false → exec (.holdupCheckStart vb) s =
    .next ((s.setNow (s.now + ms)).modPwr fun p => { p with charger := .checking, checkVb := vb, checkAt := s.now + ms })) ∧
  (s.pwr.charger = .checking → fall ≠ 0 → 1250 ≤ nearest (1000 * e) s.eRequired → s.pwr.hold = none → Does (.holdupCheckEnd step fall dt) s fun t =>
    t.pwr.charger = (if 4 ≤ s.therm.bandPwr then .off else .current) ∧ t.pwr.checked = true ∧ t.pwr.bank.c = cap ∧ t.pwr.bank.esr = esr ∧ t.pwr.bank.eUsable = e ∧
    t.pwr.bank.margin = nearest (1000 * e) s.eRequired ∧ t.now = s.now + min dt 50000 * us) ∧
  (s.pwr.hold = some n → exec .writeHoldLimit s = .next ((((s.reach (n + s.keyN 0x0605 2 2 * ms)).fault 0x278 []).warnBit 4).endHold false))

/-- R611: the controller die leaves reset at BOOT_START only on VIN_MAIN; VIN_BKUP alone never starts the YH7400. -/
def Obligations.TheYhStartsOnlyOnVinMain : Prop := ∀ (s : State) (bankSize : Nat) (bad : List (Nat × Nat)) (otpBad : Bool) (margins : List (List (List Int))),
  (∀ t, exec (.bootStart bankSize bad otpBad margins) s = .next t → s.pwr.crst = true → t.pwr.crst = false →
    s.key2 0x0601 + 300 ≤ s.pwr.vinMain ∧ s.pwr.mainSince + 10 * ms ≤ t.now ∧ s.therm.shutHold = false ∧ s.pwr.heldOff = false) ∧
  (s.pwr.vinMain < s.key2 0x0601 + 300 → ∀ vb : Nat, exec (.bootStart bankSize bad otpBad margins) (s.modPwr fun p => { p with vinBkup := vb }) =
    .next (s.modPwr fun p => { p with vinBkup := vb }))

/-- Samples (R629, R636), the composite temperature (R630, R635, R637) and the rate of rise (R632). -/
def Obligations.TemperaturesAreTaken : Prop := ∀ (s : State) (input : Nat) (reading : Option Int) (v ref : Int),
  let r := s.reach ((s.sensor input).sampledAt + samplePeriod input)
  let taken := r.takeReading input reading (r.stuckRef input)
  let x := s.sensor input
  let q := s.reach (s.therm.compAt + 10 * ms)
  (s.sampled input = true → s.pwr.aon = true → s.pwr.crst = true → exec (.temperatureSample input reading) s = .next taken.shutRelease) ∧
  (s.sampled input = true → s.pwr.aon = true → s.pwr.crst = false →
    exec (.temperatureSample input reading) s = .next (taken.judgeReading input (r.stuckRef input))) ∧
  (((s.takeReading input (some v) ref).sensor input).reading = v ∧ ((s.takeReading input (some v) ref).sensor input).sampledAt = s.now) ∧
  (x.broken = true ∨ x.brokenBy (decide (20 ≤ input)) ref s.now = none → (s.bands.sensor input).hot < 3 → s.judgeReading input ref = s.bands) ∧
  (x.broken = true ∨ x.brokenBy (decide (20 ≤ input)) ref s.now = none → 3 ≤ (s.bands.sensor input).hot → s.bands.therm.shutHold = false →
    s.judgeReading input ref = s.bands.protectiveShutdown input (s.bands.sensor input).reading) ∧
  (s.pwr.crst = false → Does .compositeTemperatureUpdate s fun t => t.now = q.now ∧ t.therm.compAt = q.now ∧
    t.therm.composite = ((q.hottest 0 24).map (·.2)).getD s.therm.composite ∧ t.therm.sensors = s.therm.sensors) ∧
  (s.pwr.crst = false → Does .rateOfRiseEvaluation s fun t => t = (List.range 24).foldl (fun u i => u.evalSlope i)
    ((s.reach (s.therm.rateAt + 100 * ms)).modTherm fun x => { x with rateAt := max s.now (s.therm.rateAt + 100 * ms) }))

/-- The resets of the controller and of the endpoint (R25, R88, R128, R479, R480, R486, R487, R658, R669). -/
def Obligations.ResetsAndEnable : Prop := ∀ (s : State) (cc : Dword) (shn : BitVec 2),
  (s.nvmeOpen = true → s.nvme.en = false → bitAt cc.toNat 0 = true → exec (.controllerEnable cc) s = .next (s.writeCc cc.toNat)) ∧
  (s.nvmeOpen = true → s.nvme.en = true → bitAt cc.toNat 0 = false → Does (.controllerReset cc) s fun t => t = s.writeCc cc.toNat ∧
    t.nvme.en = false ∧ t.nvme.rdy = false ∧ t.nvme.sqs = [] ∧ t.nvme.cqs = [] ∧ t.nvme.aers = [] ∧ t.nvme.errLog = []) ∧
  (s.nvmeOpen = true → exec (.shutdownNotification shn) s = .next (s.writeCc (s.nvme.cc - 2 ^ 14 * s.nvme.shn.toNat + 2 ^ 14 * shn.toNat))) ∧
  (s.pcie.present = true → s.pcie.linkUp = true → exec .functionLevelReset s = .next s.functionReset) ∧
  (Does .perstNAssert s fun t => t.pcie.perstN = false ∧ t = s.endpointReset.modPcie fun p => { p with perstN := false, crs := none }) ∧
  (s.pcie.perstN = false → exec .perstNRelease s = .next (s.modPcie fun p => { p with perstN := true, crs := some s.now })) ∧
  (s.pcie.linkUp = true → exec .hotReset s = .next s.endpointReset) ∧
  (s.pcie.linkUp = true → exec .linkDown s = .next s.endpointReset) ∧
  (s.pcie.linkUp = true → exec .refclkLoss s = .next (s.modPcie fun p => { p with refclk := false }).endpointReset) ∧
  (s.pcie.linkUp = false → exec .refclkLoss s = .next (s.modPcie fun p => { p with refclk := false })) ∧
  (exec .refclkReturn s = .next (s.modPcie fun p => { p with refclk := true }))

/-- The steps of a start (R132, R267, R426, R552, R562, R563, R565, R567, R568, R605, R610). -/
def Obligations.StartStepsRun : Prop := ∀ (s : State) (bankSize k : Nat) (bad : List (Nat × Nat)) (otpBad : Bool) (margins : List (List (List Int)))
    (eyes : List (Nat × Nat × Nat × Nat)) (base : McuModule) (patches : List McuModule) (custom : Option McuModule) (failed badComps : List Nat) (data : List Byte)
    (lost : List (Nat × Nat)) (r : Root),
  (s.mayStart = true → Does (.bootStart bankSize bad otpBad margins) s fun t => s.pwr.mainSince + 10 * ms ≤ t.now ∧ s.pins.sysrstAt + ms ≤ t.now) ∧
  ((s.fw.stage = .rom ∨ s.fw.stage = .boot) → s.ospi.busy.any (·.isSome) = true → exec (.bootFetchFault bad) s =
    .next (((s.modOspi fun o => { o with busy := [none, none], fetchFaults := satInc o.fetchFaults }).modFw fun f => { f with stage := .rom }).romStart bad
      (decide (3 ≤ (satInc s.ospi.fetchFaults).toNat)))) ∧
  (s.fw.stage = .boot → s.dram.inService = false → ∀ rate rest, dramRates.filter (fun r => r ≤ s.key2 0x0151 && s.key2 0x0152 ≤ r) = rate :: rest →
    Does (.dramTrainingEnd [true] eyes) s fun t => t.dram.inService = true ∧ t.dram.rate = rate ∧ t.fw.stage = .core) ∧
  (s.fw.stage = .boot → s.dram.inService = false → exec (.dramTrainingEnd ((dramRates.filter (fun r => r ≤ s.key2 0x0151 && s.key2 0x0152 ≤ r)).map fun _ => false) eyes) s =
    .next ((s.modFw fun f => { f with stage := .dram }).fault 0x1C8 [])) ∧
  (s.fw.stage = .boot → base.verifies = true → exec (.microcodeLoad base patches custom failed bad) s =
    .next (((s.takeModules base patches (if s.cfg.img.present 0x0110 then custom else none)).loadSeqs (List.range 34) failed).takeOverrides)) ∧
  (s.fw.stage = .recovery → 0x8000 ≤ k → k + data.length ≤ 0x10000 → s.fw.recWinBase.toNat + k + data.length ≤ 12582912 → exec (.recoveryWindowWrite k data) s =
    .next (s.modFw fun f => { f with recStaging := mwriteN 0 f.recStaging (s.fw.recWinBase.toNat + k - 0x8000) data })) ∧
  (s.fw.stage = .recovery → packageOf (mreadN 0 s.fw.recStaging 0 (min s.fw.recPkgLen.toNat 12582912)) = none →
    exec (.recoveryInstall badComps false) s = .next (s.installFails 1)) ∧
  (s.fw.stage = .recovery → ∀ p, packageOf (mreadN 0 s.fw.recStaging 0 (min s.fw.recPkgLen.toNat 12582912)) = some p → (∀ e ∈ p, s.wrapGood badComps e.2 = true) →
    (∀ i < 5, thas p (i + 1) = true) → compatible (p.map fun e => (e.1, wrapInfo e.2)) = true →
    Does (.recoveryInstall badComps false) s fun t => t.fw.recState = 2 ∧ t.fw.recResult = 0) ∧
  (s.fw.stage = .recovery → Does (.recoveryRestart bad) s fun t => ∃ u : State, u.pwr.crst = false ∧ u.pcie.linkUp = s.pcie.linkUp ∧
    u.fw.startAt = u.now ∧ t = u.romStart bad false) ∧
  (s.fw.stage = .core → s.seqs.base.isSome = true → s.dram.inService = true → s.flashIf.chans.any (·.2.inited) = true → s.flashRoot = some r →
    Does (.mount lost) s fun t => ∃ u : State, t = u.settle ∧ u.map.mounted = true ∧ u.fw.stage = .mounted ∧ u.fw.startDone = true ∧ u.media.lastSpans = []) ∧
  (s.mayReady = true → exec .controllerReady s = .next (s.modNvme fun n => { n with rdy := true, enAt := none }).firstReady)

/-- The link and the retract (R8, R9, R10, R417, R418). -/
def Obligations.TheDieLinkAndTheRetract : Prop := ∀ (s : State) (a : Nat) (toPower : Bool),
  let counted := (s.modLink fun l => { l with crcErrors := l.crcErrors + 1 }).fault 0x200 []
  (s.pwr.crst = false → exec (.dieLinkFrame false false (some a)) s = .next counted ∧ exec (.dieLinkFrame toPower false none) s = .next counted) ∧
  (s.pwr.crst = false → a < 2 → (counted.link.dacMiss.getD a 0 + 1 < 2 → exec (.dieLinkFrame true false (some a)) s =
      .next (counted.modLink fun l => { l with dacMiss := lmod l.dacMiss a fun _ => counted.link.dacMiss.getD a 0 + 1 })) ∧
    (2 ≤ counted.link.dacMiss.getD a 0 + 1 → exec (.dieLinkFrame true false (some a)) s =
      .next ((counted.modLink fun l => { l with dacMiss := lmod l.dacMiss a fun _ => 0 }).fault (0x201 + a) []))) ∧
  (s.pwr.crst = false → exec (.dieLinkFrame true true none) s = .next (s.modLink fun l => { l with lastGood := s.now })) ∧
  (s.pwr.crst = false → a < 2 → s.link.silent = false → s.link.dac.length = 2 → s.link.madac.length = 2 → Does (.dieLinkFrame true true (some a)) s fun t =>
    t.link.lastGood = s.now ∧ t.link.dac[a]? = some (BitVec.ofInt 18 (s.sact a).dacV) ∧ t.link.madac[a]? = some (BitVec.ofInt 16 (s.sact a).dacM) ∧
    t.out = s.out ++ [.motor a (s.sact a).dacV (s.sact a).dacM]) ∧
  (s.pwr.crst = false → s.link.retractReport = true → exec (.dieLinkFrame false true none) s =
    .next ((s.modLink fun l => { l with retractReport := false }).fault 0x203 [])) ∧
  (s.pwr.crst = false → Does .linkFrameInterval s fun t => t.out = s.out ++ [.frame] ∧ t.now = max s.now (s.link.lastSent + 2 * us) ∧ t.servo = s.servo) ∧
  (s.pwr.crst = false → Does .retractLineAssert s fun t => t.link.retract = true ∧ t.link.silent = true ∧ (s.pwr.pl.running = true → t.now ≤ max s.now (s.pwr.pl.start + 20 * us)) ∧
    (s.pwr.pl.running = false → t.now = s.now) ∧
    ∀ x ∈ t.servo.acts, x.mode = .parked ∨ x.mode = .fenced ∨ (x.mode = .unloading ∧ x.dacM = 0 ∧ x.locked = false)) ∧
  (s.pwr.crst = false → s.link.silent = false → Does .linkSilenceTimeout s fun t => t.now = max s.now (s.link.lastGood + 50 * us) ∧ t.link.silent = true ∧ t.link.retractReport = true ∧
    ∀ x ∈ t.servo.acts, x.mode = .parked ∨ x.mode = .fenced ∨ (x.mode = .unloading ∧ x.dacM = 0 ∧ x.locked = false)) ∧
  (s.pwr.vinMain < s.key2 0x0601 → s.link.retract = false → s.link.silent = false → Does .powerDieRetractTimeout s fun t => t.now = s.now + 100 * us ∧ t.link.silent = true ∧
    t.link.retractReport = true ∧ ∀ x ∈ t.servo.acts, x.mode = .parked ∨ x.mode = .fenced ∨ (x.mode = .unloading ∧ x.dacM = 0 ∧ x.locked = false)) ∧
  (s.link.silent = true → Does .retractParked s fun t => t.servo.spindle.state = .retracted ∧ t.servo.spindle.cmd = 0 ∧
    (∀ x ∈ t.servo.acts, x.mode = .fenced ∨ (x.mode = .parked ∧ x.dacV = 0 ∧ x.dacM = 0)) ∧ (s.rack.spin = .ready → t.rack.spin = .stopped)) ∧
  (s.pwr.crst = false → s.pwr.pl.running = false → s.safeState = false → s.rackWork = false → s.link.silent = true → Does .powerDieRearm s fun t =>
    t.link.silent = false ∧ t.link.retract = false ∧ t.link.lastGood = s.now ∧ t.servo.acts = s.servo.acts ∧
    (s.servo.spindle.state = .retracted → t.servo.spindle.state = .stopped))

/-- Preamplifier faults (R371) and head calibration (R376 to R378, R381, R384). -/
def Obligations.PreampFaultsAndHeadCalibration : Prop := ∀ (s : State) (act kind rres h c : Nat) (contact : Option Nat) (rates : List Nat) (r : CalRun) (since : Nat),
  let surface := 12 * act + (s.sact act).head.toNat
  let q (k : PreampFault) : State := s.modRw act fun w => { w with
    wg := false, assistEn := false, fltN := false, burst := false, writing := none
    faultSince := if k = .supply then (if w.faultSince.isSome then w.faultSince else some s.now) else none }
  let high (u : State) : State := u.modRw act fun w => { w with fltN := true }
  (act < 2 → (s.rw act).burst = true → kind < 2 → exec (.preampFault act kind false) s = .next (high ((q (preampOf kind)).writeFault act 1 (some (s.sact act).head.toNat)))) ∧
  (act < 2 → (s.rw act).burst = false → exec (.preampFault act 2 false) s = .next (high ((q .reader).chargeHead surface))) ∧
  (act < 2 → (s.rw act).burst = false → exec (.preampFault act 2 true) s = .next (high (((q .reader).chargeHead surface).retireHead surface 5))) ∧
  (act < 2 → (s.rw act).burst = false → exec (.preampFault act 0 true) s = .next (high ((q .writer).retireHead surface 5))) ∧
  (act < 2 → exec (.preampFault act 3 false) s = .next (((q .supply).writeFault act 1 none).modRw act fun w => { w with fltN := false })) ∧
  (act < 2 → (s.rw act).faultSince = some since → exec (.preampFaultPersistence act) s =
    .next ((((s.reach (since + sec)).modRw act fun w => { w with faultSince := none }).fault (0x238 + act) []).fenceActuator act)) ∧
  (act < 2 → s.actRuns act = true → s.rackWindow 0 = true → (s.rw act).burst = false → (s.rw act).calib = none → s.calPick act = some h →
    exec (.headCalibrationDue act) s = .next (s.modRw act fun w => { w with
      calib := some { head := h, step := 1, rhtr := (s.paramSet (12 * act + h)).rhtr, whtr := (s.paramSet (12 * act + h)).whtr
                      assist := (s.paramSet (12 * act + h)).assist, wcur := (s.paramSet (12 * act + h)).wcur } })) ∧
  (act < 2 → (s.rw act).calib = some r →
    (exec (.calibrationStepEnd act true contact rates rres) s = .next (s.modRw act fun w => { w with calib := some { r with again := true } })) ∧
    (r.step = 1 → exec (.calibrationStepEnd act false none rates rres) s = .next (s.calFailed act r.head)) ∧
    (r.step = 1 → exec (.calibrationStepEnd act false (some c) rates rres) s = .next (s.modRw act fun w => { w with
      calib := some { r with step := 2, again := false, rhtr := BitVec.ofNat 16 (c - s.keyN 0x0417 0 2), whtr := BitVec.ofNat 16 (c - s.keyN 0x0417 2 2) } })) ∧
    (r.step = 2 → ∀ x, 0 < x → x < 10 ^ (12 - s.keyN 0x0417 4 2) →
      exec (.calibrationStepEnd act false contact (List.replicate 16 x) rres) s =
        if s.assistLimit (12 * act + r.head) < assistLevel r.assist.toNat (s.assistLimit (12 * act + r.head)) 0 * 103 / 100 then
          .next ((s.modRw act fun w => { w with calib := none }).retireHead (12 * act + r.head) 1)
        else .next (s.modRw act fun w => { w with
          calib := some { r with step := 3, again := false, assist := BitVec.ofNat 16 (assistLevel r.assist.toNat (s.assistLimit (12 * act + r.head)) 0 * 103 / 100) } })) ∧
    (r.step = 3 → exec (.calibrationStepEnd act false contact [5, 4, 3] rres) s = .next (s.modRw act fun w => { w with
      calib := some { r with step := 4, again := false, wcur := BitVec.ofInt 8 (clampI 0 255 (r.wcur.toNat + 4)) } })) ∧
    (r.step = 4 → exec (.calibrationStepEnd act false contact rates rres) s = .next (s.modRw act fun w => { w with calib := some { r with step := 5, again := false } })) ∧
    (r.step = 5 → exec (.calibrationStepEnd act false contact rates rres) s = .next (s.calGood act r rres)))

/-- Copies and media care (R22, R35, R46, R48, R56, R293, R296, R302, R305, R307, R317, R319). -/
def Obligations.CopiesAndRetentionRun : Prop := ∀ (s : State) (nsid lcn act n ch bits lost member since : Nat) (ladder : Bool) (c : CopyStep),
  let d := s.decay (s.desc nsid lcn)
  let v := s.evalEmergency.evalEvacuation.evalMigration
  let k := s.flagWear.kneadUpdate
  let r := s.reach (s.flash.retainedAt + hour)
  let g := s.reach (since + 600 * sec)
  (s.age d < 16383 → d ≠ s.desc nsid lcn → exec (.ageingSweepVisit nsid lcn) s = .next (s.putDesc nsid lcn d)) ∧
  (s.age d < 16383 → d = s.desc nsid lcn → exec (.ageingSweepVisit nsid lcn) s = .next s) ∧
  (16383 ≤ s.age d → ∃ d', s.age d' = 16383 ∧ d'.rc = d.rc ∧ d'.wc = d.wc ∧ d'.loc = d.loc ∧
    exec (.ageingSweepVisit nsid lcn) s = .next (if d' = s.desc nsid lcn then s else s.putDesc nsid lcn d')) ∧
  (v.flowsPaused = false → v.upForChoice nsid lcn = true → exec (.evacuationChoice nsid lcn) s =
    .next ((v.putDesc nsid lcn (v.classify (v.desc nsid lcn))).carryOut nsid lcn (v.classify (v.desc nsid lcn)))) ∧
  (∀ w, s.place.waitEvac.find? (fun w => w.1 == act) = some w → s.names (s.desc w.2.nsid w.2.lcn) w.2.src = true →
    s.queueBytes act + 512 * w.2.crumbs ≤ s.queueLimit → exec (.migrationQueueRoom act) s =
      .next ((s.modPlace fun p => { p with waitEvac := p.waitEvac.erase w }).enqueue act w.2)) ∧
  (s.copy? n = some c → c.phase = .reading → s.flowsPaused = false → s.names (s.desc c.nsid c.lcn) c.src = true →
    (exec (.copySourceReadEnd n false ladder bits lost) s =
      .next (((s.countReads c.src.span (s.blocksOf c.src)).endCopy n).loseSource c.nsid c.lcn lost c.kind.cause c.src)) ∧
    Does (.copySourceReadEnd n true ladder bits lost) s fun t => ∃ (u : State) (x : CopyStep), t = (u.modCopy n fun _ => x).placeCopy x ∧ x.src = c.src ∧ x.nsid = c.nsid ∧ x.lcn = c.lcn ∧
      x.payload = (u.carry (s.desc c.nsid c.lcn)).1) ∧
  (s.copy? n = some c → c.phase = .verifying → bits < s.key2 0x012E → Does (.copyReadVerifyEnd n true bits member) s fun t => ∃ (u : State) (w : Nat),
    u.media.copies = s.media.copies ++ [{ wsn := c.wsn, nsid := c.nsid, lcn := c.lcn, key := c.key, loc := c.dst, payload := c.payload, units := c.units }] ∧
    (w, t) = ((u.unclean.jform c.nsid c.lcn (.move c.src c.dst)).1, (u.unclean.jform c.nsid c.lcn (.move c.src c.dst)).2.modCopy n fun c => { c with phase := .journalling, moveWsn := w })) ∧
  (k.flowsPaused = false → k.kneadPick = none → exec .kneadSpanSelection s = .next k) ∧
  (k.flowsPaused = false → k.kneadPick = some n → Does .kneadSpanSelection s fun t => ∃ u : State, n ∈ u.flash.kneadSpans ∧
    t = ((u.chunksIn (k.span n).tier n).foldl (fun s c => if s.copying c.1 c.2 then s else
      s.startCopy (if (k.span n).priority = 0 || (k.span n).priority = 3 then .refresh else if (k.span n).priority ≤ 2 then .rebuild else .knead) c.1 c.2) u).releaseEmpty) ∧
  (Does .retentionAgeUpdate s fun t => t = ((r.modFlash fun f => { f with
    retainedAt := r.now
    spans := f.spans.map fun e => if e.2.phase = .closed then (e.1,
      let a := e.2.age + bandWeight (e.2.members.foldl (fun b m => max b (r.therm.bandFlash.getD (m.1 / 128) 1)) 0)
      { e.2 with age := a, refreshDue := e.2.refreshDue || decide (2 * r.keyN 0x0127 (if e.2.dense then 0 else 4) 4 ≤ a) }) else e }).spareUpdate)) ∧
  ((s.span n).phase = .closed → s.flowsPaused = false → bits < s.key2 0x012E →
    let u := s.countReads n [(s.span n).members.getD member (0, 0)]
    exec (.scrubRead n member bits false nsid lcn 0 true) s = .next (u.modSpan n fun x => { x with scrubbed := u.now, scrubSoon := false })) ∧
  ((tgetD s.flashIf.chans ch {}).trainFence = some since → exec (.channelFenceRebuildTimeout ch) s = .next (g.modFlash fun f => { f with
    spans := f.spans.map fun e => if (e.2.phase = .opened || e.2.phase = .closed) && e.2.members.any (fun m => m.1 / 32 == ch) then (e.1, { e.2 with rebuildDue := true }) else e }))

/-- The journal, the checkpoint (R122 to R128) and the pages of the map (R130, R131). -/
def Obligations.TheJournalAndTheCheckpoint : Prop := ∀ (s : State) (good : Bool) (die block due h page : Nat),
  let half := s.replayWindow ≤ 2 * s.map.sinceHorizon ∧ 0 < s.map.sinceHorizon
  let w := s.writeRoot (s.formRoot (decide (s.nvme.shn ≠ 0) && s.quiet) h)
  let ds := s.map.map.filter fun e => e.1 / 256 == page
  (exec (.journalPageProgramComplete true die block) s = .next s.journalDurable) ∧
  (exec (.journalPageProgramComplete false die block) s = .next (s.memberFailed die block).2) ∧
  (s.map.jDelay = some due → exec .deallocationJournalDelay s = .next ((s.reach (due + s.key2 0x0142 * ms)).journalDurable)) ∧
  (s.map.ckActive = none → s.map.mounted = true → half ∨ s.nvme.shn ≠ 0 → Does .checkpointRoundStart s fun t =>
    t.map = { s.map with ckActive := some s.ckHorizon, lastRound := s.now, dirty := false } ∧ t.now = s.now ∧ t.media = s.media) ∧
  (s.map.ckActive = none → s.map.mounted = true → ¬ half → s.nvme.shn = 0 → s.map.dirty = true → Does .checkpointRoundStart s fun t =>
    t.now = max s.now (s.map.lastRound + s.key2 0x0143 * sec) ∧ t.map = { s.map with ckActive := some s.ckHorizon, lastRound := t.now, dirty := false } ∧ t.media = s.media) ∧
  (s.map.ckActive = some h → Does .checkpointRootDurable s fun t => ∃ u : State, t = u.shutdownCheck ∧ u.map.ckActive = none ∧ u.map.windowFull = false ∧
    u.media = w.media ∧ u.map.sinceHorizon = w.media.copies.foldl (fun n c => if h < c.wsn && c.loc.tier ≠ .rack then n + 512 * c.payload.length else n) 0) ∧
  (s.map.absent.contains page = true → exec (.mapPageLoadComplete page good) s =
    .next ((((s.modMap fun m => { m with absent := m.absent.filter (· != page) }).evict page).effectParked).settle)) ∧
  (s.key2 0x0144 = 1 → s.rackOnline = true → ds ≠ [] → (∀ e ∈ ds, e.2.split = false ∧ (e.2.state = .mapped → e.2.loc.tier = .rack)) →
    s.map.spilled.contains page = false → s.map.absent.contains page = false → Does (.mapPageSpill page) s fun t =>
      tget t.media.spill page = some ds ∧ t.map.spilled = s.map.spilled ++ [page] ∧ (∀ e ∈ t.map.map, e.1 / 256 ≠ page) ∧
      ∀ e ∈ s.map.map, e.1 / 256 ≠ page → e ∈ t.map.map)

/-- The DRAM controller at work (R424, R425, R427, R429 to R435, R454). -/
def Obligations.DramRunsAndCorrects : Prop := ∀ (s : State) (sub id holds key : Nat) (bad : List (Nat × Nat)) (drift : List Int) (drifts : List (List Int)) (r : DramReq)
    (arrivals : List DramArrival) (levels : List Nat),
  let n := s.dram.patrol
  let p := s.modDram fun d => { d with patrol := if n + 1 ≥ s.dramGib * 2 ^ 24 then 0 else n + 1 }
  let wake := (s.modDram fun d => { d with selfRefresh := false }).modPwr fun p => { p with gated := p.gated.filter (· != 4) }
  let done := s.modSub sub fun x => { x with inflight := x.inflight.filter fun y => y.id != id }
  let came := arrivals.foldl (fun s a =>
    (s.modSub sub fun x => { x with reqs := x.reqs ++ [{ id := s.dram.nextReq, port := a.port, row := a.row, bank := a.bank, write := a.write, arrived := s.now,
                                                          holds := a.holds, burst := a.key }] }).modDram fun d => { d with nextReq := d.nextReq + 1 }) (s.setLevels levels)
  (s.dram.selfRefresh = false → exec (.patternRunStart sub) s = .next (s.modHelper sub fun h => { h with active := true, done := false })) ∧
  (exec (.patternCompareClear sub) s = .next (s.modHelper sub fun h => { h with errMaskD := 0, errMaskE := 0, errCnt := [] })) ∧
  (s.dram.subs.length = 4 → sub < 4 → (s.sub sub).helper.active = true → Does (.patternRunEnd sub bad) s fun t =>
    (t.sub sub).helper.active = false ∧ (t.sub sub).helper.done = true ∧
    (t.sub sub).helper.errMaskD = (s.sub sub).helper.errMaskD ||| BitVec.ofNat 32 (listMask (bad.map (·.1)) % 2 ^ 32) ∧
    (t.sub sub).helper.errMaskE = (s.sub sub).helper.errMaskE ||| BitVec.ofNat 8 (listMask (bad.map (·.1)) / 2 ^ 32)) ∧
  (s.dramRuns = true → sub < 4 → exec (.dqsTrackingInterval sub drift) s = .next (s.track sub drift)) ∧
  (s.dramRuns = true → s.dram.subs.length = 4 → Does (.refreshRateCheck [0, 1, 2, 2]) s fun t =>
    (t.sub 0).rate = 1 ∧ (t.sub 1).rate = 2 ∧ (t.sub 2).rate = 4 ∧ (t.sub 3).rate = 4 ∧ t.flt = s.flt) ∧
  (s.dramRuns = true → exec (.refreshRateCheck [3, 0, 0, 0]) s = .next
    ((((((s.modSub 0 fun x => { x with rate := 4 }).fault 0x1C4 []).modSub 1 fun x => { x with rate := 1 }).modSub 2 fun x => { x with rate := 1 }).modSub 3 fun x => { x with rate := 1 }))) ∧
  (s.dramRuns = true → s.dram.panic.contains true = true → exec (.refreshInterval sub) s =
    .next (s.modSub sub fun x => if x.owed < 4 then { x with owed := x.owed + 1 } else x.refresh 1)) ∧
  (s.dramRuns = true → s.dram.panic.contains true = false → exec (.refreshInterval sub) s = .next (s.modSub sub fun x => { x.refresh (x.owed + 1) with owed := 0 })) ∧
  (s.dramRuns = true → s.pwr.ps < 3 → exec (.patrolScrubBurst 0 holds key) s = .next p ∧ exec (.patrolScrubBurst 1 holds key) s = .next (p.fault (0x1B0 + n % 4)) ∧
    exec (.patrolScrubBurst 2 holds key) s = .next ((p.fault (0x1B4 + n % 4)).poisoned holds key)) ∧
  (s.dram.selfRefresh = true → exec (.selfRefreshExit drifts) s =
    .next ((List.range 4).foldl (fun s i => s.track i (drifts.getD i [])) (if s.evt.started then wake.flushStaged else wake))) ∧
  (s.dramRuns = true → sub < 4 → s.dram.subs.length = 4 → Does (.dramAlert sub true) s fun t => ∃ u : State, (u.sub sub).replays = 0 ∧ t = u.fault (0x1B8 + sub)) ∧
  (s.dramRuns = true → sub < 4 → 2 ≤ (s.sub sub).replays → Does (.dramAlert sub false) s fun t => ∃ u : State, t = u.fault (0x1BC + sub)) ∧
  (sub < 4 → came.dramRuns = true → (came.sub sub).helper.active = false → came.nextReq (came.sub sub) = some r → exec (.dramRequestChoice sub arrivals levels) s =
    .next (came.modSub sub fun x => { x with
      reqs := x.reqs.filter fun y => y.id != r.id
      openRow := tput x.openRow r.bank r.row
      dir := r.write, dirRun := if r.write = x.dir then x.dirRun + 1 else 1
      retry := (x.retry ++ [r]).drop (x.retry.length - 63)
      inflight := if r.write then x.inflight else x.inflight ++ [r] })) ∧
  (((s.sub sub).inflight.find? fun r => r.id == id) = some r →
    exec (.dramBurstReadEnd sub id 0) s = .next done ∧ exec (.dramBurstReadEnd sub id 1) s = .next (done.fault (0x1B0 + sub)) ∧
    (r.again = false → exec (.dramBurstReadEnd sub id 2) s =
      .next (s.modSub sub fun x => { x with inflight := x.inflight.map fun y => if y.id = id then { y with again := true } else y })) ∧
    (r.again = true → exec (.dramBurstReadEnd sub id 2) s = .next ((done.fault (0x1B4 + sub)).poisoned r.holds r.burst)))

/-- Flash channels and dies (R220, R225, R226, R228 to R230, R318, R652). -/
def Obligations.FlashChannelsAndDies : Prop := ∀ (s : State) (ch die op a eye full : Nat) (rb : Bool) (dies : List DieReport) (j : ReadJob),
  let d := s.die die
  let hit := (s.fault (0x0C0 + die / 32) [die]).modDie die fun x => { x with op := none, polls := 0, timeouts := x.timeouts + 1, again := op == 0 && !x.again }
  let r := if d.retrainDue then s else s.reach (d.lastTrain + s.key2 0x0109 * sec)
  (ch < 32 → (tgetD s.flashIf.chans ch {}).inited = false → s.pwr.rails.contains 6 = true → s.fw.stage = .dram ∨ s.fw.stage = .core → s.pwr.pl.running = false →
    (rb = false → s.keyN 0x0104 (4 * ch) 4 = 0 → exec (.channelInitialisation ch rb dies) s = .next ((s.note 0x4001 2 ch [5]).modChannel ch fun c => { c with inited := true })) ∧
    (rb = true ∨ s.keyN 0x0104 (4 * ch) 4 ≠ 0 →
    Does (.channelInitialisation ch rb dies) s fun t => ∃ u : State, (tgetD u.flashIf.chans ch {}).inited = true ∧ (tgetD u.flashIf.chans ch {}).wp = !u.safeState ∧
      t = if (u.flashIf.dies.any fun e => e.1 / 32 == ch && e.2.trained && !e.2.failed) = true then u
        else (u.modChannel ch fun c => { c with trainFence := some u.now, wp := false }).fault (0x060 + ch))) ∧
  (d.usable = true → d.failed = false → exec (.statusPoll die op true) s = .next (s.modDie die fun d => { d with op := none, polls := 0, timeouts := 0, again := false }) ∧
    exec (.statusPoll die op false) s = .next (s.modDie die fun d => { d with op := some (dieOpOf op), polls := d.polls + 1 })) ∧
  (d.usable = true → d.failed = false → d.timeouts = 0 → 2 ≤ op → exec (.operationTimeout die op a 0 0 true) s = .next hit) ∧
  (d.usable = true → d.failed = false → 1 ≤ d.timeouts → 2 ≤ op → exec (.operationTimeout die op a 0 0 true) s = .next (hit.dieFailed die)) ∧
  (d.usable = true → d.failed = false → 2 ≤ op → exec (.operationTimeout die op a 0 0 false) s = .next (hit.dieFailed die)) ∧
  (d.usable = true → d.failed = false → d.timeouts = 0 → d.again = false → hit.job? a = some j → op = 0 → exec (.operationTimeout die op a 0 0 true) s = .next hit) ∧
  (d.trained = true → d.failed = false → s.pwr.pl.running = false → d.op.isSome = true ∨ r.pwr.gated.contains (5 + die / 128) = true →
    exec (.retrainInterval die eye full) s = .next (r.modDie die fun d => { d with retrainDue := true })) ∧
  (d.trained = true → d.failed = false → s.pwr.pl.running = false → d.op = none → r.pwr.gated.contains (5 + die / 128) = false →
    (r.key2 0x010A ≤ eye → exec (.retrainInterval die eye full) s = .next (r.modDie die fun d => { d with retrainDue := false, lastTrain := r.now, eye := eye, retrainFails := 0 })) ∧
    (eye < r.key2 0x010A → r.key2 0x010A ≤ full → exec (.retrainInterval die eye full) s =
      .next (r.modDie die fun d => { d with retrainDue := false, lastTrain := r.now, eye := full, retrainFails := 0 })) ∧
    (eye < r.key2 0x010A → full < r.key2 0x010A → exec (.retrainInterval die eye full) s =
      .next ((r.modDie die fun d => { d with retrainDue := false, lastTrain := r.now, retrainFails := 2 }).dieFailed die)))

/-- Assignment and coding (R13, R14, R40, R43, R55, R81, R127, R202, R296). -/
def Obligations.VersionsAreAssignedAndCoded : Prop := ∀ (s : State) (vid n b : Nat) (v : Version) (e : Nat) (x u : State),
  let q := s.evalDirect
  let tier : Tier := if q.place.directBake then .bake else .proof
  let assigned := (x.modFlash fun f => { f with stalled := f.stalled.filter (· != vid) }).modVersion vid fun w => { w with
    tier := tier, slot := q.writeSlot v, span := n, batch := b }
  let f := tgetD s.coder.formats (v.fmt.getD 0) {}
  let done := s.coderDone v.engine false
  let r := (f.geo (f.firstChunk (lbaBytes ((done.ns? v.nsid).getD {}).flbas)) v.lcn).encode (done.codedLimit f) (v.fmt.getD 0) (s.versionData v)
  let free := s.map.windowFull = false ∧ s.kneadPressed = false ∧ s.mediaStopped = false
  (s.version? vid = some v → v.phase = .opened → s.joinersFull v = true → exec (.versionIdleTimeout vid) s =
    .next (((s.reach (v.lastJoin + 20 * us)).seal vid (v.joiners.getLastD 0)).settle)) ∧
  (s.version? vid = some v → v.phase = .ready → free → q.reserveIn tier (q.writeSlot v) (2 * vid) = none → exec (.writeAssignment vid) s =
    .next (q.modFlash fun f => { f with stalled := if f.stalled.contains vid then f.stalled else f.stalled ++ [vid] })) ∧
  (s.version? vid = some v → v.phase = .ready → free → q.reserveIn tier (q.writeSlot v) (2 * vid) = some (n, b, x) →
    (v.fmt.isSome = true → assigned.queueCoder = some (e, u) → exec (.writeAssignment vid) s = .next (u.modVersion vid fun v => { v with phase := .encoding, engine := e })) ∧
    (v.fmt.isSome = false ∨ assigned.queueCoder = none → exec (.writeAssignment vid) s = .next (assigned.toCipher vid (assigned.versionData v) false))) ∧
  (s.version? vid = some v → v.phase = .encoding →
    exec (.encodeJobEnd vid true) s = .next ((done.failVersion v scInternal).fault (0x128 + v.engine) []) ∧
    (∀ p, r = .coded p → exec (.encodeJobEnd vid false) s = .next ((done.countFormat (v.fmt.getD 0) fun c => { c with coded := satInc c.coded }).toCipher vid p true)) ∧
    (r = .limit → exec (.encodeJobEnd vid false) s = .next ((done.countFormat (v.fmt.getD 0) fun c => { c with rawLimit := satInc c.rawLimit }).toCipher vid (s.versionData v) false)) ∧
    (r = .range → exec (.encodeJobEnd vid false) s = .next ((done.countFormat (v.fmt.getD 0) fun c => { c with rawRange := satInc c.rawRange }).toCipher vid (s.versionData v) false)))

/-- Programs and erases (R41, R282, R289, R300, R303, R317). -/
def Obligations.PagesAreProgrammedAndErased : Prop := ∀ (s : State) (n b member g since : Nat) (failed : List Nat) (last : Bool),
  let sp := s.span n
  let bt := sp.batches.getD b {}
  let t := s.reach (since + s.key4 0x0212 * us)
  let m := sp.members.getD (memberPos sp.members.length b member) (0, 0)
  let o := sp.phase = .opened ∧ b < sp.batches.length ∧ s.openPending n = false ∧ (s.safeState && s.flt.entryDone) = false
  (s.oldestPlaced n b = some since → sp.phase = .opened → s.groupCrumbs sp.dense = g → 0 < g → exec (.batchCloseTimeout n b) s =
    .next ((t.modBatch n b fun y => { y with used := min (ceilDiv y.used g * g) (t.batchData sp.dense sp.members.length) }).fillTail n)) ∧
  (o → sp.dense = false → member + 1 < sp.members.length → (member + 1) * s.groupCrumbs false ≤ bt.used → bt.prog.contains member = false → bt.bad.contains member = false →
    (exec (.programComplete n b member true true) s =
      .next (((s.unclean.modBatch n b fun x => { x with prog := x.prog ++ [member] }).countProgrammed (s.groupCrumbs false)).afterProgram n b)) ∧
    exec (.programComplete n b member false last) s =
      .next ((((s.unclean.memberFailed m.1 m.2).2.redoGroup n b member (some (s.unclean.memberFailed m.1 m.2).1)).modSpan n fun x => { x with rebuildDue := true }).settle)) ∧
  (o → sp.members.length = member + 1 → bt.dataDone sp.members.length = true → bt.prot = .opened →
    exec (.programComplete n b member true true) s = .next ((s.unclean.modBatch n b fun x => { x with prot := .full }).closeIfDone n)) ∧
  (sp.phase = .released → (s.safeState && s.flt.entryDone) = false → Does (.eraseComplete n failed) s fun t => ∃ w : State,
    t = w.kneadUpdate.placeWaiting.sanitizeCheck ∧ tget w.flash.spans n = none ∧ n ∉ w.flash.kneadSpans ∧
    (∀ c ∈ w.media.copies, c.loc.tier = .rack ∨ c.loc.span ≠ n) ∧ ∀ c ∈ w.media.recs, c.loc.tier = .rack ∨ c.loc.span ≠ n)

/-- The read path (R18, R204, R205, R304, R308, R310, R318). -/
def Obligations.ReadsReturnFromTheMedia : Prop := ∀ (s : State) (id e bits entry lost : Nat) (parity : Bool) (j : ReadJob) (v : Version) (u : State),
  let c := s.countReads j.loc.span (s.blocksOf j.loc)
  let p := s.modPlace fun p => if j.step = 3 then { p with softQ := p.softQ.pop j.engine j.loc.codewords } else { p with hardQ := p.hardQ.pop j.engine j.loc.codewords }
  let k := s.coderDone j.engine true
  let ok := match k.copyAt j.loc with | some c => (yrcDecode (k.desc j.nsid j.lcn).format.toNat c.payload).isSome | none => false
  (s.job? id = some j → j.phase = .fetch → j.loc.tier ≠ .rack →
    (j.step ≠ 3 → c.queueHard j.loc.codewords = some (e, u) → exec (.flashReadComplete id) s = .next (u.modJob id fun x => { x with phase := .decode, engine := e })) ∧
    (j.step = 3 → c.queueSoft j.loc.codewords = some (e, u) → exec (.flashReadComplete id) s = .next (u.modJob id fun x => { x with phase := .decode, engine := e }))) ∧
  (s.job? id = some j → j.phase = .decode →
    (exec (.codewordDecodeEnd id false bits entry lost) s = .next (p.ladder j lost)) ∧
    (j.step = 1 → bits < p.key2 0x012E → ∀ e u, p.queueCipher (512 * j.loc.crumbs) = some (e, u) →
      exec (.codewordDecodeEnd id true bits entry lost) s = .next (u.modJob id fun x => { x with phase := .cipher, engine := e })) ∧
    (j.step = 1 → p.key2 0x012E ≤ bits → (p.flagRefresh j.loc.span).queueCipher (512 * j.loc.crumbs) = some (e, u) →
      exec (.codewordDecodeEnd id true bits entry lost) s = .next (u.modJob id fun x => { x with phase := .cipher, engine := e }))) ∧
  (s.version? id = some v → v.phase = .ciphering → exec (.cipherJobEnd true id parity) s = .next (s.encrypted v parity)) ∧
  (s.job? id = some j → j.phase = .cipher → exec (.cipherJobEnd false id parity) s = .next (s.decrypted j parity)) ∧
  (s.job? id = some j → j.phase = .coder →
    exec (.decodeJobEnd id true false) s = .next ((k.retryJob j).fault (0x128 + j.engine) []) ∧ exec (.decodeJobEnd id false true) s = .next (k.ladder j 0) ∧
    exec (.decodeJobEnd id false false) s = .next (if ok = true then k.deliverJob j else k.ladder j 0))

/-- The buffer pool (R445, R446, R448 to R450, R453, R671). -/
def Obligations.BuffersAreAllocatedAndFreed : Prop := ∀ (s : State) (owner pool h last i recv : Nat) (tail list order : List Nat) (g : Sys2Proof.Machine.Group) (gs : List Sys2Proof.Machine.Group),
  let q := s.poolOf pool
  let b := s.buf h
  (ownerValid owner = true → pool < 16 → q.paused = false → q.free = h :: tail → q.reserved ≤ tail.length → Does (.bufferAlloc owner pool 1 false) s fun t =>
    (t.poolOf pool).free = tail ∧ (t.buf h).alloc = true ∧ (t.buf h).shared = false ∧ t.out = s.out ++ [.answer h] ∧ t.map = s.map) ∧
  (ownerValid owner = true → pool < 16 → q.paused = false → q.free.length ≤ q.reserved → Does (.bufferAlloc owner pool 1 false) s fun t =>
    t.poolOf pool = { q with noneCnt := satInc q.noneCnt } ∧ t.out = s.out ++ [.answer 0xFFFF]) ∧
  (ownerValid owner = true → pool < 16 → q.paused = false → q.reserved < q.free.length → exec (.bufferAlloc owner pool 1 true) s =
    .next ((((s.modPoolOf pool fun x => { x with paused := true, badLink := true, noneCnt := satInc x.noneCnt }).fault 0x1D3 [pool]).poolResult owner 1 noHandle).send (.answer noHandle))) ∧
  (ownerValid owner = true → ownerCore owner = false → pool < 16 → 1 < i → exec (.bufferAlloc owner pool i false) s =
    .next (s.modPoolOf pool fun x => { x with groups := x.groups ++ [{ owner := BitVec.ofNat 6 owner, need := i }] })) ∧
  (ownerValid owner = true → (s.poolOf b.pool.toNat).paused = false → h < 12288 →
    (b.alloc = false → exec (.bufferFree owner h) s = .next (s.poolReject owner 2 h)) ∧
    (b.alloc = true → b.shared = false → (b.owners.getD 0 0).toNat = owner → exec (.bufferFree owner h) s = .next (((s.pushBuf h).setsDone).poolResult owner 0 noHandle)) ∧
    (b.alloc = true → b.shared = false → (b.owners.getD 0 0).toNat ≠ owner → exec (.bufferFree owner h) s = .next (s.poolReject owner 4 h)) ∧
    (b.alloc = true → b.shared = true → (b.owners.getD b.last.toNat 0).toNat = owner → b.othersHeld = true → exec (.bufferFree owner h) s = .next (s.poolReject owner 3 h)) ∧
    (b.alloc = true → b.shared = true → (b.owners.getD b.last.toNat 0).toNat = owner → b.othersHeld = false → exec (.bufferFree owner h) s =
      .next (((s.pushBuf h).setsDone).poolResult owner 0 noHandle))) ∧
  (ownerValid owner = true → 12288 ≤ h → exec (.bufferFree owner h) s = .next (s.poolReject owner 5 h)) ∧
  (ownerValid owner = true → pool < 16 → q.paused = true → exec (.bufferAlloc owner pool 1 false) s = .next (s.modPoolOf pool fun x => { x with heldAllocs := x.heldAllocs ++ [(owner, none)] })) ∧
  (ownerValid owner = true → h < 12288 → (s.poolOf b.pool.toNat).paused = true → exec (.bufferFree owner h) s =
    .next (s.modPoolOf b.pool.toNat fun x => { x with heldFrees := x.heldFrees ++ [(owner, h)] })) ∧
  (ownerValid owner = true → s.soleOwner owner h = true →
    (ownerValid recv = true → exec (.bufferTransfer owner h recv) s = .next ((s.modBuf h fun b => { b with owners := b.owners.set 0 (BitVec.ofNat 6 recv) }).poolResult owner 0 noHandle)) ∧
    (ownerValid recv = false → exec (.bufferTransfer owner h recv) s = .next (s.poolReject owner 6 h)) ∧
    (list ≠ [] → list.length ≤ 4 → last < list.length → list.all ownerValid = true → list.Nodup → Does (.bufferShare owner h list last) s fun t =>
      (t.buf h).shared = true ∧ (t.buf h).last = BitVec.ofNat 2 last ∧ (t.buf h).held = BitVec.ofNat 4 (2 ^ list.length - 1) ∧
      (t.buf h).owners = (List.range 4).map fun i => BitVec.ofNat 6 (list.getD i 0))) ∧
  (ownerValid owner = true → h < 12288 → b.alloc = true → b.shared = true → b.indexOf owner = some i → i ≠ b.last.toNat → bitAt b.held.toNat i = true →
    exec (.bufferRelease owner h) s = .next ((s.modBuf h fun b => { b with held := b.held &&& ~~~(BitVec.ofNat 4 (2 ^ i)) }).poolResult owner 0 noHandle)) ∧
  (ownerValid owner = true → h < 12288 → b.alloc = true → b.shared = true → b.indexOf owner = some b.last.toNat → exec (.bufferRelease owner h) s = .next (s.poolReject owner 4 h)) ∧
  (q.groups = g :: gs → q.paused = false → g.need ≤ q.free.length → exec (.bufferGroupGrant pool) s =
    .next ((List.range g.need).foldl (fun s _ => match s.popBuf pool g.owner.toNat with
      | some (h, s) => s.send (.answer h)
      | none => s) (s.modPoolOf pool fun x => { x with groups := gs }))) ∧
  (q.paused = true → order.mergeSort = s.freeOf pool → exec (.freeListRebuild pool order) s =
    .next ((s.modPoolOf pool fun x => { x with free := order, paused := false, badLink := false }).serveHeld pool)) ∧
  (exec (.poolMinfreeClear pool) s = .next (s.modPoolOf pool fun x => { x with minFree := x.free.length }))

/-- Requests from the host, and register writes (R4, R5, R145, R459, R470, R478 to R480, R485). -/
def Obligations.RequestsAndRegistersAreServed : Prop := ∀ (s : State) (off v be n addr o core : Nat) (data : List (Option Byte)) (ready : Bool),
  let r := s.modPcie fun p => { p with linkL1 := 0 }
  let w := r.modPcie fun p => { p with crs := none }
  let bytes := (leBytes 4 v).map some
  (s.pcie.linkUp = true → s.pcie.perstN = true → off < 4096 → off % 4 = 0 →
    (s.pcie.present = false → exec (.configurationRequest off none ready) s = .next (r.send .crs)) ∧
    (s.pcie.crs = some n → s.now < n + 100 * ms → exec (.configurationRequest off none false) s = .next (r.send .crs)) ∧
    (s.pcie.present = true → s.pcie.crs = none ∨ ready = true → exec (.configurationRequest off none ready) s = .next ((w.cfgRead off).2.send (.cpl (w.cfgRead off).1)) ∧
      exec (.configurationRequest off (some (be, v)) ready) s = .next ((w.cfgWrite off be v).send (.cpl 0)))) ∧
  (s.pcie.linkUp = true →
    exec (.inboundMemoryRequest addr .locked) s = .next (r.unsupported false) ∧ exec (.inboundMemoryRequest addr .atomic) s = .next (r.unsupported false) ∧
    ((s.memOpen && s.pcie.present) = false → exec (.inboundMemoryRequest addr (.read n)) s = .next (r.unsupported false) ∧
      exec (.inboundMemoryRequest addr (.write data)) s = .next (r.unsupported true)) ∧
    ((s.memOpen && s.pcie.present) = true → s.pcie.bar addr = some (0, o) → exec (.inboundMemoryRequest addr (.read n)) s = .next (r.send (.cpl (r.bar0Read o n))) ∧
      exec (.inboundMemoryRequest addr (.write data)) s = .next (r.bar0Write o data)) ∧
    ((s.memOpen && s.pcie.present) = true → s.pcie.bar addr = some (2, o) → exec (.inboundMemoryRequest addr (.read n)) s =
        (if 0x4000 ≤ o && o < 0x5000 && o % 0x100 = 0 && n = 4 then .next (r.readLease (bits o 8 4)) else .next ((r.winRead o n).2.send (.cpl (r.winRead o n).1))) ∧
      exec (.inboundMemoryRequest addr (.write data)) s = .next (r.winWrite o data)) ∧
    ((s.memOpen && s.pcie.present) = true → s.pcie.bar addr = some (4, o) → o % 4 = 0 → exec (.inboundMemoryRequest addr (.read n)) s = .next (r.send (.cpl (r.bar4Read o n))) ∧
      exec (.inboundMemoryRequest addr (.write bytes)) s = .next (r.bar4Write o (leNat (leBytes 4 v))))) ∧
  (off % 4 = 0 → v < 2 ^ 32 →
    (s.memOpen = true → s.pcie.present = true → exec (.registerWrite .bar0 core off v) s = .next (s.bar0Write off bytes)) ∧
    (s.memOpen = true → s.pcie.present = true → s.pcie.recovery = false → exec (.registerWrite .bar2 core off v) s = .next (s.winWrite off bytes)) ∧
    exec (.registerWrite .collector core off v) s = .next (s.collectorWrite off v) ∧
    (core = 0 → exec (.registerWrite .ospi core off v) s = .next (s.ospiWrite off v)) ∧ (core ≠ 0 → exec (.registerWrite .ospi core off v) s = .next s) ∧
    (off < 0x1000 → exec (.registerWrite .helper core off v) s =
      .next (s.modDram fun d => { d with subs := lmod d.subs (off / 0x400) fun x => { x with helper := x.helper.write (off % 0x400) v } })) ∧
    exec (.registerWrite .pool core off v) s = .next (s.poolWrite off v) ∧ exec (.registerWrite .servo core off v) s = .next (s.servoWrite off v) ∧
    (n < 34 → off = 0x1C → bitAt v 14 = true → exec (.registerWrite (.seq n) core off v) s = .next (s.modSeqs fun x => { x with seqs := tupd x.seqs n fun q => { q with drop := false } })))

/-- Management (R518 to R520, R540, R586). -/
def Obligations.ManagementCommandsAreAnswered : Prop := ∀ (s : State) (tag dtyp port v first : Nat) (sqe : Sqe) (o h : MgmtOrder) (sameData : List Nat),
  let turned := if s.safeState && !safeServed sqe then scInternal else tunnelStatus sqe
  let order : MgmtOrder := { host := false, op := sqe.opcode, nsid := sqe.nsid.toNat, cdw := sqe.cdw, tag := tag }
  let ended := (s.setNow (s.now + us)).modNvme fun n => { n with cycle := [] }
  s.miOpen = true →
  (∀ d ∈ [0, 2, 3, 4], Does (.miReadDataStructure tag d port) s fun t => ∃ len fields dw0, t.out = s.out ++ [.miData tag len fields, .mi tag 0 dw0]) ∧
  (port ≤ 1 → Does (.miReadDataStructure tag 1 port) s fun t => ∃ fields, t.out = s.out ++ [.miData tag 32 fields, .mi tag 0 32]) ∧
  (4 < dtyp → exec (.miReadDataStructure tag dtyp port) s = .next (s.send (.mi tag miInvalid 0))) ∧
  (Does (.miSubsystemHealthPoll tag) s fun t => t.out = s.out ++ [.miData tag 8 [(0, 1, 32 * b2n (!s.safeState) + 16 + 8 * b2n s.pcie.linkUp), (1, 1, 255 - s.nvme.critWarn.toNat),
    (2, 1, pattern 8 (s.therm.composite / 8)), (3, 1, min 255 s.percentUsed), (4, 2, s.miCsts)], .mi tag 0 0] ∧ t.nvme = s.nvme) ∧
  (Does (.miControllerHealthPoll tag 0) s fun t => t.out = s.out ++ [.miData tag 16 [(2, 2, s.miCsts), (4, 2, kelvin s.therm.composite), (6, 1, min 255 s.percentUsed),
    (7, 1, s.availableSpare), (8, 1, s.nvme.critWarn.toNat)], .mi tag 0 1] ∧ t.nvme = s.nvme) ∧
  (0 < first → exec (.miControllerHealthPoll tag first) s = .next (s.send (.mi tag 0 0))) ∧
  (port ≤ 1 → 64 ≤ v → v < 65536 → Does (.miConfigurationSet tag 3 port v) s fun t => t.miValue 3 port = v ∧ t.out = s.out ++ [.mi tag 0 0] ∧
    exec (.miConfigurationGet tag 3 port) t = .next (t.send (.mi tag 0 (BitVec.ofNat 32 v)))) ∧
  (1 ≤ v → v ≤ 3 → Does (.miConfigurationSet tag 1 1 v) s fun t => t.miValue 1 1 = v ∧ exec (.miConfigurationGet tag 1 1) t = .next (t.send (.mi tag 0 (BitVec.ofNat 32 v)))) ∧
  (exec (.miConfigurationSet tag 1 0 v) s = .next (s.send (.mi tag miInvalid 0)) ∧ exec (.miConfigurationGet tag 1 0) s = .next (s.send (.mi tag miInvalid 0))) ∧
  (turned ≠ 0 → exec (.miTunnelledAdminCommand tag sqe) s = .next (s.send (.mi tag turned 0))) ∧
  (turned = 0 → orders sqe.opcode.toNat = true → exec (.miTunnelledAdminCommand tag sqe) s = .next (s.modNvme fun n => { n with cycle := n.cycle ++ [order] })) ∧
  (turned = 0 → orders sqe.opcode.toNat = false → exec (.miTunnelledAdminCommand tag sqe) s = .next (s.admitMgmt order)) ∧
  (s.nvme.cycle = [h, o] → h.host = true → o.host = false →
    (o.contradicts h (sameData.contains o.tag) = true → exec (.orderArbitrationCycle sameData) s = .next (ended.send (.mi o.tag 0xE0 0))) ∧
    (o.contradicts h (sameData.contains o.tag) = false → ended.safeState = false → exec (.orderArbitrationCycle sameData) s = .next (ended.admitMgmt o)))

/-- The link (R464 to R468) and completions (R474 to R476, R481, R482). -/
def Obligations.TheLinkAndItsCompletions : Prop := ∀ (s : State) (width speed tag status q since : Nat) (flit : Bool) (r : OutReq) (d : DeadTag) (x : SqSt),
  let moved := s.pcie.width ≠ width ∨ s.pcie.speed ≠ speed
  let retry := (s.reach (since + 10 * us)).modPcie fun p => { p with fetchRetry := none }
  let accepted := s.modPcie fun p => { p with outstanding := p.outstanding.map fun x => if x.tag == tag && !x.arrived then { x with arrived := true } else x }
  (s.pcie.refclk = true → s.pcie.perstN = true → s.pcie.present = true → s.pcie.linkUp = false → s.linkFits width speed = true → Does (.linkTrainingEnd width speed flit) s fun t =>
    t.pcie.linkUp = true ∧ t.pcie.width = width ∧ t.pcie.l0pWidth = width ∧ t.pcie.speed = speed ∧ t.pcie.flit = (flit || speed == 6) ∧ t.nvme = s.nvme) ∧
  (s.pcie.linkUp = true → s.linkFits width speed = true → Does (.partnerLinkChange width speed) s fun t =>
    t.pcie.linkUp = true ∧ t.pcie.width = width ∧ t.pcie.l0pWidth = width ∧ t.pcie.speed = speed ∧ (¬ moved → t.evt = s.evt) ∧ t.nvme = s.nvme) ∧
  (s.pcie.aspmL1 = true → s.pcie.linkUp = true → s.pcie.linkL1 = 0 → (∀ r ∈ s.pcie.outstanding, r.arrived = true) → s.pcie.waitReads = [] →
    exec .aspmL1IdleTimeout s = .next (s.modPcie fun p => { p with linkL1 := s.l1Depth })) ∧
  (s.pcie.l0pEn = true → s.pcie.flit = true → s.pcie.linkUp = true → Does (.l0pWidthChange true) s (fun t =>
      t.pcie = { s.pcie with l0pWidth := if s.pcie.l0pWidth ≤ 2 then s.pcie.l0pWidth else s.pcie.l0pWidth / 2 }) ∧
    exec (.l0pWidthChange false) s = .next (s.modPcie fun p => { p with l0pWidth := p.width })) ∧
  (s.reqOf tag = some r → r.timeout ≠ 0 → exec (.completionTimeout tag) s = .next (((s.reach (r.issued + r.timeout)).aerUncorrectable 14 false).failRead r true)) ∧
  (s.reqOf tag = none → exec (.unexpectedCompletion tag) s = .next (s.unexpected tag) ∧ exec (.readCompletionReceived tag status) s = .next (s.unexpected tag)) ∧
  (s.reqOf tag = some r → r.timeout = 0 ∨ s.now ≤ r.issued + r.timeout →
    exec (.readCompletionReceived tag 0) s = .next accepted.pumpReads ∧ (∀ k ∈ [1, 2], exec (.readCompletionReceived tag k) s = .next ((s.headerErr k).failRead r false)) ∧
    exec (.readCompletionReceived tag 3) s = .next (((s.headerErr 3).aerUncorrectable 12 true).failRead r false)) ∧
  (s.reqOf tag = some r → r.timeout ≠ 0 → r.issued + r.timeout < s.now → exec (.readCompletionReceived tag status) s = .next ((s.expire r).unexpected tag)) ∧
  (∀ u : State, (u.unexpected tag).place = u.place ∧ (u.unexpected tag).pool = u.pool ∧ (u.unexpected tag).host = u.host ∧ (u.unexpected tag).nvme = u.nvme) ∧
  (s.pcie.fetchRetry = some (q, since) → tget s.nvme.sqs q = some x → exec .sqFetchRetry s = .next (retry.issueRead (.sqFetch q) (x.base + 64 * x.head) 64 true)) ∧
  ((s.pcie.deadTags.find? fun d => d.tag == tag) = some d → exec (.tagReuseTimeout tag) s =
    .next ((s.reach (d.start + d.period)).modPcie fun p => { p with deadTags := p.deadTags.filter fun x => x.tag != tag }).pumpReads) ∧
  (s.pcie.linkUp = true → Does .poisonedWriteReceived s fun t => ∃ f g, t = (s.modPcie f).modEvt g ∧ bitAt (f s.pcie).aerUnc.toNat 12 = true ∧
    (f s.pcie).bar0 = s.pcie.bar0 ∧ (f s.pcie).memEn = s.pcie.memEn)

/-- Mastering, doorbells and fetching (R67, R68, R87, R166, R459, R463, R469, R470, R477, R485, R492, R658). -/
def Obligations.FetchingAndSignalling : Prop := ∀ (s : State) (v qid n : Nat) (mask : Dword) (q : SqSt) (cq : CqSt) (sqe : Sqe) (arb : State),
  let c := s.newCtx (.sq qid sqe.cid) sqe [] (s.setWindows sqe []) (decide (qid = 0))
  let advanced := (arb.dropReq (.sqFetch qid)).modNvme fun m => { m with sqs := tput m.sqs qid { q with head := (q.head + 1) % q.size } }
  (s.pcie.bmEn = true → Does .busMasterEnableClear s fun t => t = (s.modPcie fun p => { p with bmEn := false }).peelBmClear) ∧
  (s.pcie.present = true → s.pcie.crs = none → s.pcie.bmEn = false → exec .busMasterEnableSet s = .next (s.modPcie fun p => { p with bmEn := true }).resumeRequests) ∧
  (s.pcie.crs = none → v < 1025 → exec (.msixVectorUnmask (some v)) s =
    .next (s.modPcie fun p => { p with unmasked := if p.unmasked.contains v then p.unmasked else p.unmasked ++ [v] }).sendPending) ∧
  (s.pcie.crs = none → exec (.msixVectorUnmask none) s = .next (s.modPcie fun p => { p with msixMask := false }).sendPending) ∧
  (s.pcie.present = true → s.pcie.dstate = .d0 → exec .d3hotEntry s = .next ((s.sendLtr 3000).modPcie fun p => { p with dstate := .d3hot }).peelBmClear) ∧
  (s.pcie.present = true → s.pcie.dstate = .d3hot → exec .d0Return s = .next (s.modPcie fun p => { p with dstate := .d0 }).resumeRequests) ∧
  (s.fw.stage ≠ .off → exec (.jtagInstruction true) s = .next (s.modPins fun p => { p with jtag := .boundary }) ∧
    (s.cfg.testMode = false → exec (.jtagInstruction false) s = .next (s.modPins fun p => { p with jtag := .refused }))) ∧
  (s.memOpen = true → s.nvme.en = true → s.pwr.pl.running = false → tget s.nvme.sqs qid = some q → n < q.size → n ≠ q.tail → exec (.submissionQueueDoorbell qid n) s =
    .next (if (s.pcie.outstanding.any (fun r => decide (r.kind = .sqFetch qid)) || s.pcie.waitReads.any (fun r => decide (r.1 = .sqFetch qid)) || s.pcie.fetchDead) = true
      then s.modNvme fun m => { m with sqs := tput m.sqs qid { q with tail := n } }
      else (s.modNvme fun m => { m with sqs := tput m.sqs qid { q with tail := n } }).issueRead (.sqFetch qid) (q.base + 64 * q.head) 64)) ∧
  (s.memOpen = true → s.nvme.en = true → s.pwr.pl.running = false → tget s.nvme.cqs qid = some cq → n < cq.size →
    exec (.completionQueueDoorbell qid n) s = .next ((s.modNvme fun m => { m with cqs := tput m.cqs qid { cq with head := n } }).flushCqes.settle)) ∧
  (s.memOpen = true → Does (.interruptMaskSet mask) s (fun t => t.nvme = { s.nvme with intms := s.nvme.intms ||| mask }) ∧
    Does (.interruptMaskClear mask) s fun t => t.nvme = { s.nvme with intms := s.nvme.intms &&& ~~~mask }) ∧
  (tget s.nvme.cqs qid = some cq → cq.aggr ≠ 0 → exec (.interruptAggregationTimeout qid) s =
    .next ((s.modNvme fun m => { m with cqs := tput m.cqs qid { cq with aggr := 0 } }).fireVector cq.vector)) ∧
  (s.host.stalled = some n → s.contexts.length < 65536 → n ≤ s.trackerFree → exec .fetchResume s = .next (s.modHost fun h => { h with stalled := none })) ∧
  (s.fetchBlocked = false → qid ≠ ingestQid → s.arbitrate = some (qid, arb) → tget s.nvme.sqs qid = some q →
    (65536 ≤ s.contexts.length ∨ s.trackerFree < c.ents.length → exec (.commandFetch qid sqe [] []) s = .next (s.modHost fun h => { h with stalled := some c.ents.length })) ∧
    (s.contexts.length < 65536 → c.ents.length ≤ s.trackerFree → (q.head + 1) % q.size = q.tail → (advanced.contexts.any fun x => x.origin == .sq qid sqe.cid) = false →
      (qid = 0 → adminStatus sqe.opcode.toNat sqe.cdw sqe.sgl = 0 → exec (.commandFetch qid sqe [] []) s = .next ((advanced.noteOrder c).letIn c)) ∧
      (qid = 0 → adminStatus sqe.opcode.toNat sqe.cdw sqe.sgl ≠ 0 → exec (.commandFetch qid sqe [] []) s =
        .next ((advanced.modHost fun h => { h with lastStamp := c.stamp }).answer c (adminStatus sqe.opcode.toNat sqe.cdw sqe.sgl) 0)) ∧
      (qid ≠ 0 → advanced.ioReject sqe [] = 0 → exec (.commandFetch qid sqe [] []) s = .next ((advanced.wake.letIn c).startFetched c))))

/-- R491: the CNS values of Identify. -/
def Obligations.IdentifyAcceptsTenValues : Prop := ∀ (s arb : State) (sqe : Sqe) (q : SqSt),
  let c := s.newCtx (.sq 0 sqe.cid) sqe [] (s.setWindows sqe []) true
  let advanced := (arb.dropReq (.sqFetch 0)).modNvme fun m => { m with sqs := tput m.sqs 0 { q with head := (q.head + 1) % q.size } }
  let cns := (sqe.cdw.getD 0 0).toNat % 256
  sqe.opcode = 0x06 → sqe.sgl = [] → s.fetchBlocked = false → s.arbitrate = some (0, arb) → tget s.nvme.sqs 0 = some q → s.contexts.length < 65536 →
  c.ents.length ≤ s.trackerFree → (q.head + 1) % q.size = q.tail → (advanced.contexts.any fun x => x.origin == .sq 0 sqe.cid) = false →
  (cns ∈ [0x00, 0x01, 0x02, 0x03, 0x05, 0x06, 0x10, 0x11, 0x12, 0x13] → exec (.commandFetch 0 sqe [] []) s = .next (advanced.letIn c)) ∧
  (cns ∉ [0x00, 0x01, 0x02, 0x03, 0x05, 0x06, 0x10, 0x11, 0x12, 0x13] → exec (.commandFetch 0 sqe [] []) s =
    .next ((advanced.modHost fun h => { h with lastStamp := c.stamp }).answer c 0x02 0))

/-- Peel channels (R152, R153, R155, R156, R158 to R160, R163, R164, R170). -/
def Obligations.PeelChannelsRun : Prop := ∀ (s : State) (ch stamp off st : Nat) (data : List Byte) (d : PeelDesc) (rsv : Bool) (arb : State) (r : OutReq) (j : PeelJob) (js : List PeelJob),
  let p := s.peelCh ch
  let got := (s.dropReq (.peelDesc ch p.cur.toNat)).pumpReads
  let src := (s.dropReq (.peelSrc ch stamp off)).pumpReads
  let n := (s.ingestCtx (.peel ch d.addr) d.nsid.toNat d.slba.toNat d.len.toNat).ents.length
  let keep := p.mode && (st = 0 || p.cause = 8)
  let retired := (s.modPeel ch fun p => { p with
    jobs := js, retired := p.retired + 1, sc := if keep then p.sc else BitVec.ofNat 8 st, sct := if keep then p.sct else BitVec.ofNat 3 (st / 256) }).retireCtx j.stamp
  let wrote := if p.mode then (retired.hostWrite (.bytes (j.d.addr + 0x30) (retireBytes st j.stamp))).hostWrite (.bytes (j.d.addr + 0x3C) (leBytes 4 0)) else retired
  (s.memOpen = true → ch < 64 →
    (s.winReady = true → p.state = .idle ∨ p.state = .halted → exec (.peelStart ch) s = .next (s.runPeel ch p.chain)) ∧
    (s.winReady = false ∨ (p.state ≠ .idle ∧ p.state ≠ .halted) → exec (.peelStart ch) s = .next (s.modPeel ch fun p => { p with startIgnored := true })) ∧
    (exec (.peelStop ch) s = .next (s.stopPeel ch 1)) ∧
    (s.winReady = true → p.mode = true → p.state = .halted → exec (.peelResume ch) s = .next (s.runPeel ch p.cur)) ∧
    (p.state ≠ .halted → exec (.peelResume ch) s = .next (s.modPeel ch fun p => { p with startIgnored := true }))) ∧
  ((s.pcie.outstanding.any fun r => decide (r.kind = .peelDesc ch p.cur.toNat)) = true → data.length = 64 → p.state = .run ∨ p.state = .poll → peelDescOf p.cur.toNat data = (d, rsv) →
    (d.own = false → exec (.peelDescriptorReadComplete ch data) s = .next (got.modPeel ch fun p => { p with state := .poll })) ∧
    (d.own = true → d.ok rsv = true → exec (.peelDescriptorReadComplete ch data) s =
      .next (((got.modPeel ch fun p => { p with state := .run }).modPeel ch fun p => { p with ready := some d }).offerPeel ch)) ∧
    (d.own = true → d.ok rsv = false → exec (.peelDescriptorReadComplete ch data) s = .next ((got.modPeel ch fun p => { p with state := .run }).stopPeel ch 7))) ∧
  (p.state = .poll → exec (.peelPollInterval ch) s = .next (s.fetchDesc ch)) ∧
  (p.ready = some d → s.ingestTurn (.peel ch) = some arb → p.state = .run → p.jobs.length ≤ p.inflight.toNat →
    (s.contexts.length < 65536 → n ≤ s.trackerFree → exec (.peelDescriptorAccept ch) s = .next (arb.acceptPeel ch d)) ∧
    (65536 ≤ s.contexts.length ∨ s.trackerFree < n → exec (.peelDescriptorAccept ch) s = .next (s.modHost fun h => { h with stalled := some n }))) ∧
  ((s.pcie.outstanding.find? fun r => decide (r.kind = .peelSrc ch stamp off)) = some r → data.length = r.len →
    ((src.peelCh ch).jobs.find? (fun j => j.stamp == stamp) = none → exec (.peelSourceReadComplete ch stamp off data) s = .next src) ∧
    ((src.peelCh ch).jobs.find? (fun j => j.stamp == stamp) = some j → Does (.peelSourceReadComplete ch stamp off data) s fun t => ∃ k : PeelJob,
      k = { j with ooo := (inOrder (j.ooo.length + 1) j.got (j.ooo ++ [(off, data)])).2 }.feed (inOrder (j.ooo.length + 1) j.got (j.ooo ++ [(off, data)])).1 ∧
      t = (((src.modPeel ch fun p => { p with jobs := p.jobs.map fun x => if x.stamp = stamp then k else x }).placeBlocks ch k).settle).pumpPeel ch)) ∧
  (p.jobs = j :: js → j.done = some st → exec (.peelRetirement ch) s = .next
    (((if j.d.notify then wrote.hostWrite (.bytes p.notifyAddr.toNat (leBytes 4 p.notifyData.toNat)) else wrote).afterRetire ch st j.d.last).pumpPeel ch))

/-- Push slots (R146, R173 to R180). -/
def Obligations.PushSlotsRun : Prop := ∀ (s : State) (slot handle off h st : Nat) (data : List (Option Byte)) (bytes : List Byte) (tail : List Nat) (l : Lease) (r : CommitRec) (rs : List CommitRec) (arb : State),
  let p := s.slot slot
  let c := s.ingestCtx (.push slot r.handle.toNat) r.nsid.toNat r.slba.toNat r.count.toNat
  (s.memOpen = true → slot < 16 → s.winReady = true → s.win.pushEn = true → p.halted = false → (s.poolOf 2).paused = false → (s.poolOf 2).free = h :: tail → (s.poolOf 2).reserved ≤ tail.length →
    Does (.pushLease slot) s fun t => t.out = s.out ++ [.cpl h] ∧ tget t.win.leases h = some { slot := slot, granted := s.now, leaseUs := s.win.leaseUs.toNat } ∧ (t.poolOf 2).free = tail) ∧
  (s.memOpen = true → slot < 16 → s.winReady = false ∨ s.win.pushEn = false ∨ p.halted = true → exec (.pushLease slot) s = .next (s.send (.cpl 0xFFFF))) ∧
  (s.memOpen = true → handle < 12288 → tget s.win.leases handle = none → exec (.apertureWrite handle off data) s = .next s.discardWrite) ∧
  (s.memOpen = true → handle < 12288 → tget s.win.leases handle = some l → Does (.apertureWrite handle off data) s fun t => ∃ m, t = s.modWin (fun w => { w with leases := tput w.leases handle { l with data := m } })) ∧
  (∀ x : Byte, s.memOpen = true → handle < 12288 → off < 4096 → tget s.win.leases handle = some l → exec (.apertureWrite handle off [some x]) s =
    .next (s.modWin fun w => { w with leases := tput w.leases handle { l with data := tput l.data off x } })) ∧
  (tget s.win.leases handle = some l → exec (.leaseExpiry handle) s = .next (((s.reach (l.granted + l.leaseUs * us)).modWin fun w => { w with leases := tdel w.leases handle }).pushBuf handle)) ∧
  (s.memOpen = true → slot < 16 → exec (.slotResume slot) s = .next ((s.modSlot slot fun p => { p with halted := false, sc := 0, sct := 0, errHeld := false }).offerSlot slot) ∧
    exec (.slotReleaseAll slot) s = .next ((s.win.leases.filter fun e => e.2.slot == slot).foldl (fun s e => s.endLease e.1) s)) ∧
  (s.memOpen = true → slot < 16 → off ≤ 0x1F → 0x1F < off + bytes.length → off + bytes.length ≤ 0x100 → exec (.pushCommit slot off bytes) s =
    .next (s.winWrite (0x4000 + 0x100 * slot + off) (bytes.map some))) ∧
  (p.queue = r :: rs → s.ingestTurn (.push slot) = some arb → p.halted = false →
    (65536 ≤ s.contexts.length ∨ s.trackerFree < c.ents.length → exec (.commitRecordAccept slot) s = .next (s.modHost fun h => { h with stalled := some c.ents.length })) ∧
    (s.contexts.length < 65536 → c.ents.length ≤ s.trackerFree → Does (.commitRecordAccept slot) s fun t => ∃ (k : Ctx) (u : State), k.stamp = c.stamp ∧ k.origin = .push slot r.handle.toNat ∧
      k.xferred = true ∧ k.ents.length = c.ents.length ∧ u = ((arb.modSlot slot fun p => { p with
        queue := rs, accepted := p.accepted + 1, active := p.active ++ [{ r with stamp := c.stamp }] }).withdraw (.push slot)) ∧
      t = (u.stampIngest k (u.ingestStatus r.nsid.toNat r.slba.toNat r.count.toNat false)).offerSlot slot)) ∧
  (p.active = r :: rs → r.done = some st → p.notifyEn = false →
    (st = 0 → exec (.commitRetirement slot) s = .next ((s.modSlot slot fun q => { q with
      active := rs, done := q.done + 1, halted := q.halted || false, errHeld := q.errHeld || false, sc := q.sc, sct := q.sct }).retireCtx r.stamp)) ∧
    (st ≠ 0 → p.errHeld = false → exec (.commitRetirement slot) s = .next (((s.modSlot slot fun q => { q with
      active := rs, done := q.done + 1, halted := q.halted || true, errHeld := q.errHeld || true, sc := BitVec.ofNat 8 st, sct := BitVec.ofNat 3 (st / 256) }).withdraw (.push slot)).retireCtx r.stamp)))

/-- The channel sequencers (R239, R244, R250, R251, R253, R257, R260, R261, R269, R270). -/
def Obligations.SequencersRun : Prop := ∀ (s : State) (n i par : Nat) (data : List Byte) (handles : List Nat) (o : OpRec) (c : MCtx)
    (status cwfail maxbits : Byte) (strobe lost : Bool),
  let q := s.seq n
  let e := tgetD q.disp o.opcode.toNat 0
  let w := tgetD q.store (tgetD q.ctxs i {}).upc.toNat fillWord
  let on := s.modSeq n fun q => { q with cur := some i }
  let x : BusIn := { status := status, strobe := strobe, lost := lost, cwfail := cwfail, maxbits := maxbits }
  let cust := decide (n < 32) && decide (0xC00 ≤ (tgetD q.ctxs i {}).upc.toNat)
  let legal := illegalWord w cust false = false ∧ (cust && privWord w (tgetD q.ctxs i {}).cls.toNat (tgetD q.ctxs i {}).upc.toNat) = false ∧
    ((mwSeq w = 4 && (tgetD q.ctxs i {}).stack.length ≥ 4) || (mwSeq w = 5 && (tgetD q.ctxs i {}).stack.isEmpty)) = false
  (n < 34 → data.length = 32 →
    exec (.sequencerSubmit n 0 data handles) s = .next (s.modSeq n fun q => if q.queue.length ≥ 64 then { { q with submit := data } with drop := true } else
      { { q with submit := data } with queue := q.queue ++ [opOfBytes data], blists := tput q.blists (opOfBytes data).blist.toNat (handles.take 64) })) ∧
  (exec (.completionRecordRead n true) s = match q.cq with
    | [] => .next (s.send (.answer 0))
    | r :: t => .next ((s.modSeq n fun q => { q with cq := t }).send (.answer r.value))) ∧
  (n < 34 → exec (.sequencerHold n) s = .next (s.modSeq n fun q => ({ q with hold := true }).restate) ∧
    exec (.sequencerHoldRelease n) s = .next (s.modSeq n fun q => ({ q with hold := false }).restate)) ∧
  (q.state = .mcheck → exec (.machineCheckClear n) s = .next (s.modSeq n fun q => { q with state := .loading, maddr := 0, mkind := 0, mgroup := 0 })) ∧
  (q.live = true → q.hold = false → (decide (n < 32) && s.pwr.gated.contains (5 + n / 4)) = false → q.ploss = false → (q.queue.find? fun o => !q.dieBusy o.die.toNat) = some o → q.freeCtx = some i →
    exec (.operationDispatch n true) s = .next (s.machineCheck n o.opcode.toNat 1 0) ∧
    (entValid e = true → exec (.operationDispatch n false) s = .next (s.modSeq n fun q => { { q with queue := q.queue.erase o } with ctxs := tput q.ctxs i (MCtx.load o e s.now) }.restate)) ∧
    (entValid e = false → exec (.operationDispatch n false) s = .next (s.modSeq n fun q => { q with queue := q.queue.erase o, cq := q.cq ++ [o.ended .unsupported] }))) ∧
  (q.live = true → q.ploss = true → (decide (n < 32) && s.pwr.gated.contains (5 + n / 4)) = false → (q.queue.find? fun o => !o.pls) = some o →
    exec (.operationDispatch n false) s = .next (s.modSeq n fun q => { q with queue := q.queue.erase o, cq := q.cq ++ [o.ended .abandoned] })) ∧
  (tget q.ctxs i = some c → exec (.watchdogTrap n i) s = .next ((s.reach (c.wdStart + s.opLimit c.cls.toNat)).modSeq n fun q => { q with
    pend := q.pend.filter (· != (.watchdog, i)) ++ [(.watchdog, i)], ctxs := tupd q.ctxs i fun c => { c with parked := false } })) ∧
  (exec (.yieldDelayEnd n i) s = .next (s.modSeq n fun q => { q with ctxs := tupd q.ctxs i fun c => if c.parked then { c with parked := false, flg := c.flg ||| 8 } else c })) ∧
  (q.live = true → q.pick = some i → q.frame = none → q.dueCause i = none →
    (par ≠ 0 → exec (.microwordExecute n par status strobe lost cwfail maxbits) s = .next (on.machineCheck n (tgetD q.ctxs i {}).upc.toNat 0 par)) ∧
    (illegalWord w cust false = true → exec (.microwordExecute n 0 status strobe lost cwfail maxbits) s = .next (on.takeTrap n i .illegal (tgetD q.ctxs i {}).upc.toNat 0)) ∧
    (legal → exec (.microwordExecute n 0 status strobe lost cwfail maxbits) s = .next (on.runWord n i w x)))

/-- Actuators (R365, R366, R370, R372, R401, R407, R415, R416, R419). -/
def Obligations.ActuatorsTrackAndLoad : Prop := ∀ (s : State) (act track op : Nat) (rec : BitVec 128) (write : Option (Nat × Bool)) (target : BitVec 32) (head : BitVec 4) (table : List (BitVec 16)),
  let z := s.sact act
  let r := rec.toNat
  let ok := (bitAt r 49 && bitAt r 50 && bitAt r 51) && (s.srvWedge act (if bitAt r 49 then some (signed 12 (bits r 64 12)) else none)).servo.spindle.srvLock
  let s1 := s.srvWedge act (if bitAt r 49 then some (signed 12 (bits r 64 12)) else none)
  let u := if (s1.sact (1 - act)).mode.servo || (s1.sact (1 - act)).mode = .reacquire then s1 else s1.pushHist (1 - act) 0
  let pes := signed 16 (bits r 0 16)
  let g := s.modSact act fun z => { z with target := target, headSel := head }
  (act < 2 →
    ((u.sact act).mode = .loading → exec (.wedgeRecord act rec write) s = .next ((u.modSact act fun z => { z with samRun := if bitAt r 49 then z.samRun + 1 else 0 }).gate act ok pes write)) ∧
    ((u.sact act).mode = .reacquire → exec (.wedgeRecord act rec write) s = .next ((u.reacquireSample act ok (bits r 16 24) pes).gate act ok pes write)) ∧
    ((u.sact act).mode = .parked ∨ (u.sact act).mode = .unloading ∨ (u.sact act).mode = .fenced → exec (.wedgeRecord act rec write) s = .next (u.gate act ok pes write)) ∧
    ((u.sact act).mode.servo = true → (u.sact act).first = false ∨ u.servo.spindle.srvLock = true →
      exec (.wedgeRecord act rec write) s = .next ((u.servoSample act (bits r 40 9 % 480) ok (bits r 16 24) pes).gate act ok pes write))) ∧
  (act < 2 →
    (g.rackHeads act ≤ head.toNat ∨ bitAt (g.place.fenceHead.getD act 0).toNat head.toNat = true → exec (.servoGo act target head op) s = .next g) ∧
    (head.toNat < g.rackHeads act → bitAt (g.place.fenceHead.getD act 0).toNat head.toNat = false →
      (head = (g.sact act).head → exec (.servoGo act target head op) s = .next (g.modSact act fun z => { z with
        curTarget := signed 32 target.toNat, newTarget := true, seekAt := s.now, seekOp := op, head := head })) ∧
      (head ≠ (g.sact act).head → exec (.servoGo act target head op) s = .next (g.modSact act fun z => { z with
        curTarget := signed 32 target.toNat, newTarget := true, seekAt := s.now, seekOp := op, head := head, runout := [], first := true, settling := true, settleAt := s.now })))) ∧
  (act < 2 → z.settling = true → exec (.headSwitchSettle act) s = .next (((s.reach (z.settleAt + s.keyN 0x0415 4 2 * us)).modSact act fun z => { z with settling := false }).loadSet act)) ∧
  (act < 2 → z.seekActive = true → exec (.seekTimeLimit act) s = .next ((s.reach (z.seekAt + s.keyN 0x0509 22 2 * ms)).retrySeek act)) ∧
  (act < 2 → s.rroTable act = some table → z.runout.length ≤ 32 → exec (.runoutQueueRefill act) s = .next (s.modSact act fun y => { y with
    runout := z.runout ++ (List.range 32).map fun i => table.getD ((z.rroAt + z.runout.length + i) % 480) 0, panic := false })) ∧
  (act < 2 → z.mode = .loading → 4 ≤ z.samRun → Does (.actuatorLoadEnd act track) s fun t => t = (s.modSact act fun z => { z.cleared with
      mode := .seek, bank := 0, x := track * 16384, v := 0, region := s.regionOf act track, curTarget := if z.curTarget = 0 then signed 32 (s.boundary act 1 / 2 * 256) else z.curTarget
      newTarget := true, seekActive := true, seekTries := 0, seekAt := s.now, seekOp := 0, runout := [], first := true, followCnt := 0 }).loadSet act) ∧
  (act < 2 → z.mode = .loading → exec (.loadTimeout act) s = .next ((s.reach (z.loadAt + s.keyN 0x050C 8 2 * ms)).modSact act fun z => { z with mode := .unloading, uM := 0 })) ∧
  (act < 2 → z.mode = .unloading →
    let p := ((s.setNow (s.now + 5 * ms)).modSact act fun z => { z with mode := .parked, locked := false, dacV := 0, dacM := 0, uM := 0, seekActive := false }).heatersOff act
    (p.rack.spin ≠ .spinup → exec (.unloadEnd act) s = .next p.brakeWhenParked) ∧
    (p.rack.spin = .spinup → z.loadTries = 1 → p.motorOn = true → exec (.unloadEnd act) s = .next (p.modSact act fun z => z.load p.now)))

/-- Spindle (R410, R411, R412, R413, R415, R416). -/
def Obligations.TheSpindleRuns : Prop := ∀ (s : State) (period index t : Nat) (theta : Option Nat) (amb : Bool),
  let p := s.servo.spindle
  let q := match theta with | some t => s.modSpindle fun p => { p with theta0 := t % 256 } | none => s
  let wedge := decide (p.state = .wedge)
  let err := (satI 32 (roundDiv ((((q.nominal wedge).1 : Int) - period * (q.nominal wedge).2) * 2 ^ 24) (q.nominal wedge).1)).1
  let f := q.speedFilt.step p.sp err
  let top : Int := if p.state = .bemf then q.keyN 0x0508 4 2 else 32767
  let cmd := clampI 0 (min top 32767) (roundShift 9 (satI 32 (f.1 + q.cogTerm wedge index)).1)
  let rpm16 := if wedge then 800000000 / period else 64000000000 / (period * max 1 (q.keyN 0x0508 0 2))
  let v := (q.modSpindle fun p => { p with sp := f.2.1, cmd := cmd, speed := BitVec.ofNat 32 rpm16 }).send (.spindle cmd)
  let m := if amb then s.setNow (s.now + 200 * ms) else s
  (period ≠ 0 →
    (p.state = .bemf ∨ p.state = .reduced → exec (.speedLoopUpdate period index theta) s = .next v) ∧
    (p.state = .wedge → exec (.speedLoopUpdate period index theta) s = .next (v.speedJudge (q.nominal wedge).1 (q.nominal wedge).2 period))) ∧
  (p.errSince = some t → exec .spindleSpeedErrorTimeout s =
    .next ((((s.reach (t + sec)).modSpindle fun p => { p with winhibit := true, goodRun := 0, errSince := none }).fault 0x212 []).inhibitAll)) ∧
  (s.rack.spin = .spinup →
    (p.state = .sense → s.motorOn = true → 10800 ≤ s.pwr.vinMain → (s.servo.acts.all fun a => decide (a.mode = .parked) || decide (a.mode = .fenced)) = true →
      exec (.rotorSensingEnd amb) s = .next (m.modSpindle fun p => { p with state := .openloop, attempts := satInc p.attempts, stageAt := m.now, cmd := m.keyN 0x0508 2 2 })) ∧
    (p.state = .openloop → exec .backEmfDetected s = .next (s.modSpindle fun p => { p with state := .bemf, sp := [0, 0], stageAt := s.now })) ∧
    (p.state = .bemf → s.motorOn = true → exec .runUpSpeedReached s = .next (s.modServo fun v => { v with acts := v.acts.map fun z => ({ z with loadTries := 0 } : ServoAct).load s.now, spindle := { v.spindle with speed := 115200 } }))) ∧
  (p.state = .openloop → Does .openLoopRampTimeout s fun x => x = (s.reach (p.stageAt + 2 * sec)).modSpindle fun p => { p with
    state := if p.attempts.toNat < 3 then .sense else .stopped, stageAt := (s.reach (s.servo.spindle.stageAt + 2 * sec)).now, cmd := 0 }) ∧
  (p.state = .braking → s.rack.toReduced = false → exec .brakingSpeedReached s = .next (s.modSpindle fun p => { p with cmd := 0, speed := 9600 }))

/-- Spin states (R348, R351, R352, R353). -/
def Obligations.TheRackSpinsUpAndDown : Prop := ∀ (s : State) (r : Root),
  let u := s.reach (s.rack.spinupAt + 15 * sec)
  let l (a : Nat) : Bool := u.servo.spindle.srvLock && (u.servo.acts.getD a {}).locked
  let w := (s.reach (s.rack.spinupAt + 10 * sec)).modRack fun r => { r with retryWait := false }
  let spin : Spin := if s.rack.lowv then .lowv else if s.rack.toReduced then .reduced else .stopped
  let d := (s.modRack fun r => { r with spin := spin, lowv := false, toReduced := false, demand := false, spinupAt := s.now }).modServo fun v =>
      { v with
        acts := v.acts.map fun a => if a.mode = .fenced then a else { a with mode := .parked, locked := false }
        spindle := { v.spindle with state := if spin = .reduced then .reduced else .stopped, srvLock := false } }
  (s.rack.spin = .spinup →
    (l 0 = true → l 1 = true → exec .rackSpinupTimeout s = .next u.rackReady) ∧
    (l 0 = true → l 1 = false → exec .rackSpinupTimeout s = .next (u.rackReady.fenceActuator 1)) ∧
    (l 0 = false → l 1 = true → exec .rackSpinupTimeout s = .next (u.rackReady.fenceActuator 0)) ∧
    (l 0 = false → l 1 = false → exec .rackSpinupTimeout s =
      .next (((u.modRack fun r => { r with attempts := r.attempts + 1, retryWait := true }).note 0x5003 0 0 [u.rack.attempts + 1]).spinDown false false))) ∧
  (s.rack.spin = .stopped → s.rack.retryWait = true →
    (w.key2 0x0406 ≤ w.rack.attempts → exec .spinupRetryWait s = .next (((w.modRack fun r => { r with spin := .failed }).refuseRackJobs (fun _ => true) true).sanitizeCheck)) ∧
    (w.rack.attempts < w.key2 0x0406 → exec .spinupRetryWait s = .next w.demandSpin)) ∧
  (s.rack.spin = .ready ∨ s.rack.spin = .spinup → s.standby ≠ 0 → s.rackWork = false →
    exec .rackStandbyTimeout s = .next ((s.reach (s.rack.lastWork + s.standby * sec)).spinDown false false)) ∧
  (s.rack.spin = .spindown → exec .spindleStopped s = .next ((if s.rack.demand && spin ≠ .lowv then d.demandSpin else d).sanitizeCheck)) ∧
  (s.flashRoot = some r → s.rackOnline = true → s.rackWindow 0 = true → s.rack.rootCopied < r.ckseq → Does .rootCopyToRack s fun t =>
    t.rack.rootCopied = r.ckseq ∧ t.media.rackRoot = (s.media.rackRoot.filter fun e => e.1 != r.ckseq % 2) ++ [(r.ckseq % 2, r)])

/-- Stacks (R332 to R335, R339, R342, R344, R346). -/
def Obligations.StacksAreFilledAndClosed : Prop := ∀ (s : State) (act job bits lost lossUnits copies index nsid lcn b band n e : Nat) (charge ladder : Bool) (m : MigItem) (j : ReadJob) (u : State),
  let x := s.act act
  let q := (s.modPlace fun p => { p with queues := lmod p.queues act fun q => q.erase m }).modRack fun r => { r with lastWork := s.now }
  let k := (s.stack (stackNo act b)).bands
  let head := if charge then some (s.bandHead act b k) else none
  let phead := if charge then some (s.parityHead act b) else none
  let last := if charge then some (s.bandHead act b x.checked) else none
  let one := s.modAct act fun x => { x with parityTries := 1 }
  let seen := if ladder || bits ≥ s.key2 0x040A then s.modStack (stackNo act index) fun x => { x with refreshDue := true } else s
  let written := s.modRw act fun w => { w with squeezeCheck := false }
  let busy := (s.modRack fun r => { r with lastWork := s.now }).rackDecoded j
  let step (s : State) (f : ReadJob → ReadJob) : State := s.modFlash fun x => { x with jobs := x.jobs.map fun y => if y.id = job then f y else y }
  let near := if j.step ≥ 3 || bits ≥ busy.key2 0x040A || busy.onLostHead j.loc then busy.modStack j.loc.span fun x => { x with refreshDue := true } else busy
  let rel := (s.releaseRack act).rackKneadUpdate act
  let dem := rel.flowDemand.modAct act fun x => { x with rackKnead := some (n % 2 ^ 23) }
  (act ≤ 1 → s.actRuns act = true → s.rackWindow 0 = true → s.calDueOn act = false → x.staging = [] → x.closing = false → s.nextItem act = some m →
    q.names (q.desc m.nsid m.lcn) m.src = true → m.src.tier ≠ .rack →
    exec (.stagingReadEnd act true lost) s = .next ((((q.countReads m.src.span (q.blocksOf m.src)).modAct act fun x => { x with staging := [m] }).placeStaged act)) ∧
    exec (.stagingReadEnd act false lost) s = .next (q.loseSource m.nsid m.lcn lost (if m.knead then 3 else 4) m.src)) ∧
  (s.openOn act .filling = some (b, band) →
    exec (.bandWriteEnd act false charge) s = .next (written.writeFault act 1 head) ∧
    (band ≠ 0 → (k + 1) * band ≤ x.used → exec (.bandWriteEnd act true charge) s =
      .next ((written.unclean.modStack (stackNo act b) fun x => { x with bands := k + 1, wptr := band / 8 }).modAct act fun x => { x with step := .lastTrack })) ∧
    (s.migAllowed = true → exec (.stackIdleCloseTimeout act) s = .next ((s.reach (x.lastPlace + s.key2 0x0409 * sec)).modAct act fun x => { x with closing := true, step := .parityWrite }))) ∧
  (s.openOn act .lastTrack = some (b, band) →
    exec (.lastTrackCheckEnd act false charge) s = .next (s.writeFault act 2 last) ∧
    (x.closing = false → x.used < s.stackData b (s.stack (stackNo act b)).members.length → Does (.lastTrackCheckEnd act true charge) s fun t =>
      t = s.modAct act fun y => { y with checked := x.checked + 1, step := .filling }) ∧
    (x.closing = true → x.used ≤ (x.checked + 1) * band → Does (.lastTrackCheckEnd act true charge) s fun t => t = s.modAct act fun y => { y with checked := x.checked + 1, step := .parityWrite })) ∧
  (s.openOn act .parityWrite = some (b, band) →
    exec (.parityBandReadbackEnd act true charge) s = .next ((s.modStack (stackNo act b) fun x => { x with parity := true }).modAct act fun x => { x with step := .summary }) ∧
    (x.parityTries = 0 → exec (.parityBandReadbackEnd act false false) s = .next one ∧ exec (.parityBandReadbackEnd act false true) s = .next (one.chargeHead (12 * act + s.parityHead act b))) ∧
    (x.parityTries ≠ 0 → exec (.parityBandReadbackEnd act false charge) s = .next (s.writeFault act 3 phead))) ∧
  (s.openOn act .summary = some (b, band) → 2 ≤ copies → x.placed.length ≤ 65535 → exec (.stackSummaryWriteEnd act copies) s =
    .next (((s.modStack (stackNo act b) fun x => { x with phase := .closing, sumIncomplete := false }).modAct act fun x => { x with step := .close, sumBad := 2 - copies }).journal 1 0 (.stackClose act b))) ∧
  ((s.flash.jobs.find? fun y => y.id == job) = some j → j.phase = .rackWait → j.loc.tier = .rack → s.rackOnline = true → s.actFenced (rackAct j.loc.span) = false →
    (near.queueCipher (512 * j.loc.crumbs) = some (e, u) → exec (.rackSectorReadEnd job true bits lossUnits) s = .next (step u fun x => { x with phase := .cipher, engine := e })) ∧
    (near.queueCipher (512 * j.loc.crumbs) = none → exec (.rackSectorReadEnd job true bits lossUnits) s = .next (step near fun x => { x with phase := .cipher })) ∧
    (j.step < 4 → exec (.rackSectorReadEnd job false bits lossUnits) s = .next (step busy fun x => { x with step := busy.rackNextStep j, phase := .rackWait }))) ∧
  (act ≤ 1 → (rel.act act).rackKnead = none → rel.flowsPaused = false → rel.rackWindow 0 = true → rel.calDueOn act = false →
    (rel.rackKneadPick act = none → exec (.rackKneadSelection act) s = .next rel) ∧
    (rel.rackKneadPick act = some n → exec (.rackKneadSelection act) s = .next ((dem.modPlace fun p => { p with queues := lmod p.queues act fun q => q ++
      (((dem.chunksIn .rack n).filter fun c => !dem.queued c.1 c.2).map fun c => dem.migItem c.1 c.2 (dem.desc c.1 c.2) true) }).releaseRack act))) ∧
  ((s.stack (stackNo act index)).phase = .closed → s.rackOnline = true → s.actFenced act = false →
    exec (.rackScrubRead act index bits ladder nsid lcn 0 false) s = .next seen ∧
    exec (.rackScrubRead act index bits ladder nsid lcn 0 true) s = .next (seen.modStack (stackNo act index) fun x => { x with scrubbed := seen.now }))

/-- Identify, queues, Abort and Asynchronous Event Request (R88 to R92, R488, R490 to R492, R515). -/
def Obligations.IdentifyQueuesAndAborts : Prop := ∀ (s : State) (st : Nat) (c x : Ctx) (q : SqSt) (n : NsEntry) (e : Nat × Nat × Nat) (rest : List (Nat × Nat × Nat)),
  let cns := bits (c.dw 10) 0 8
  let qid := bits (c.dw 10) 0 16
  let n0 := bits (c.dw 10) 16 16
  let v := bits (c.dw 11) 16 16
  let cqs := queueStatus (thas s.nvme.cqs qid) qid n0 (decide (s.nvme.iocqes = 4))
  let sqs := queueStatus (thas s.nvme.sqs qid) qid n0 (decide (s.nvme.iosqes = 6))
  let org := Origin.sq qid n0
  let aborts := (s.contexts.filter fun x => x.isAdmin && decide (x.opcode.toNat = 0x08) && decide (x.stamp < st)).length
  let del := ((s.modNvme fun n => { n with sqs := tput n.sqs qid { q with deleting := some st } }).dropReq (.sqFetch qid)).modCtx st fun c => { c with begun := true }
  (Held s st 0x06 c →
    (cns = 0x01 → exec (.identifyController st) s = .next ((s.giveData c 4096 s.identifyCtrl).complete st 0 0)) ∧
    (cns = 0x00 ∨ cns = 0x11 →
      (c.nsid = 0 ∨ 64 < c.nsid → exec (.identifyNamespace st) s = .next (s.complete st scInvalidNs 0)) ∧
      (1 ≤ c.nsid → c.nsid ≤ 64 → s.ns? c.nsid = none → exec (.identifyNamespace st) s = .next ((s.giveData c 4096 []).complete st 0 0)) ∧
      (1 ≤ c.nsid → c.nsid ≤ 64 → s.ns? c.nsid = some n → exec (.identifyNamespace st) s =
        .next ((s.giveData c 4096 (if cns = 0x11 ∨ n.attached = true then s.identifyNs c.nsid n else [])).complete st 0 0))) ∧
    (cns = 0x02 → exec (.identifyLists st) s = .next ((s.giveData c 4096 (nsList ((s.nvme.nss.filter (·.2.attached)).map (·.1)) c.nsid)).complete st 0 0)) ∧
    (cns = 0x10 → exec (.identifyLists st) s = .next ((s.giveData c 4096 (nsList (s.nvme.nss.map (·.1)) c.nsid)).complete st 0 0)) ∧
    (cns = 0x03 → s.nsActive c.nsid = true → exec (.identifyLists st) s = .next ((s.giveData c 4096 [(0, 1, 2), (1, 1, 16), (4, 16, s.nguid c.nsid)]).complete st 0 0)) ∧
    (cns = 0x03 → s.nsActive c.nsid = false → exec (.identifyLists st) s = .next (s.complete st scInvalidNs 0))) ∧
  (Held s st 0x05 c →
    (cqs ≠ 0 → exec (.createIoCompletionQueue st) s = .next (s.complete st cqs 0)) ∧
    (cqs = 0 → 1024 < v → exec (.createIoCompletionQueue st) s = .next (s.complete st 0x108 0)) ∧
    (cqs = 0 → v ≤ 1024 → bitAt (c.dw 11) 0 = true → exec (.createIoCompletionQueue st) s = .next ((s.modNvme fun n => { n with
      cqs := tput n.cqs qid { size := n0 + 1, vector := v, ien := bitAt (c.dw 11) 1, base := c.prp } }).complete st 0 0))) ∧
  (Held s st 0x01 c →
    (sqs ≠ 0 → exec (.createIoSubmissionQueue st) s = .next (s.complete st sqs 0)) ∧
    (sqs = 0 → v = 0 ∨ thas s.nvme.cqs v = false → exec (.createIoSubmissionQueue st) s = .next (s.complete st 0x100 0)) ∧
    (sqs = 0 → v ≠ 0 → thas s.nvme.cqs v = true → bitAt (c.dw 11) 0 = true → exec (.createIoSubmissionQueue st) s = .next ((s.modNvme fun n => { n with
      sqs := tput n.sqs qid { size := n0 + 1, cqid := v, prio := bits (c.dw 11) 1 2, base := c.prp } }).complete st 0 0))) ∧
  (Held s st 0x00 c →
    (tget s.nvme.sqs qid = none ∨ qid = 0 → exec (.deleteIoSubmissionQueue st) s = .next (s.complete st 0x101 0)) ∧
    (tget s.nvme.sqs qid = some q → qid ≠ 0 → q.deleting = none → exec (.deleteIoSubmissionQueue st) s = .next
      (((((del.host.ctxs.filter fun x => match x.origin with | .sq k _ => k == qid | _ => false).foldl (fun s x => if s.catches x then s.catchCmd x scAbortSqDeleted else s) del).finishDeletes).settle)))) ∧
  (Held s st 0x04 c →
    (qid = 0 ∨ thas s.nvme.cqs qid = false → exec (.deleteIoCompletionQueue st) s = .next (s.complete st 0x101 0)) ∧
    (qid ≠ 0 → thas s.nvme.cqs qid = true → (s.nvme.sqs.any fun e => e.2.cqid == qid) = true → exec (.deleteIoCompletionQueue st) s = .next (s.complete st 0x10C 0)) ∧
    (qid ≠ 0 → thas s.nvme.cqs qid = true → (s.nvme.sqs.any fun e => e.2.cqid == qid) = false → exec (.deleteIoCompletionQueue st) s =
      .next ((s.modNvme fun n => { n with cqs := tdel n.cqs qid }).complete st 0 0))) ∧
  (Held s st 0x08 c →
    (16 ≤ aborts → exec (.abort st) s = .next (s.complete st 0x103 0)) ∧
    (aborts < 16 → (s.host.ctxs.find? fun x => x.origin == org) = some x → s.catches x = true → exec (.abort st) s = .next (((s.catchCmd x scAbortRequested).complete st 0 0).settle)) ∧
    (aborts < 16 → (s.host.ctxs.find? fun x => x.origin == org) = some x → s.catches x = false → exec (.abort st) s = .next (s.complete st 0 1)) ∧
    (aborts < 16 → (s.host.ctxs.find? fun x => x.origin == org) = none → exec (.abort st) s = .next (s.complete st 0 1))) ∧
  (Held s st 0x0C c → s.nvme.aers.contains st = false →
    (16 ≤ s.nvme.aers.length → exec (.asynchronousEventRequest st) s = .next (s.complete st 0x105 0)) ∧
    (s.nvme.aers.length < 16 → s.nvme.waitingEv = [] → exec (.asynchronousEventRequest st) s = .next (s.modNvme fun n => { n with aers := n.aers ++ [st] })) ∧
    (s.nvme.aers.length < 16 → s.nvme.waitingEv = e :: rest → exec (.asynchronousEventRequest st) s =
      .next ((s.modNvme fun n => { n with aers := n.aers ++ [st], waitingEv := rest }).deliver e.1 e.2.1 e.2.2)))

/-- Namespaces, Format NVM and Sanitize (R315, R316, R496 to R498). -/
def Obligations.NamespacesFormatsAndSanitize : Prop := ∀ (s u : State) (st nsze ncap flbas i g : Nat) (ctrls : List Nat) (c : Ctx) (n : NsEntry),
  let free := (List.range 64).find? fun i => !thas s.nvme.nss (i + 1)
  let e : NsEntry := { nsze := nsze, flbas := flbas, keyGen := g }
  let made := u.modNvme fun n => { n with nss := tput n.nss (i + 1) e }
  let sel := bits (c.dw 10) 0 4
  let ses := bits (c.dw 10) 9 3
  let act := bits (c.dw 10) 0 3
  let put (a : Bool) : State := ((s.modNvme fun x => { x with nss := tput x.nss c.nsid { n with attached := a } }).journal c.nsid 0 (.side (.ns (some { n with attached := a })))).nsChanged c.nsid
  let gone := ((s.resetNs c.nsid).modNvme fun n => { n with nss := tdel n.nss c.nsid }).modFlash fun f => { f with keys := tdel f.keys (c.nsid - 1) }
  let coded := gone.modCoder fun k => { k with formats := k.formats.map fun e => if e.2.valid && e.2.nsid.toNat = c.nsid then (e.1, { written := true }) else e }
  let noted := (gone.coder.formats.filter fun e => e.2.valid && e.2.nsid.toNat == c.nsid).foldl (fun s e => s.journal 1 0 (.side (.format e.1 { written := true }))) coded
  let hinted := noted.modPlace fun p => { p with hints := p.hints.filter fun h => h.nsid != c.nsid }
  let sane := ((s.modNvme fun n => { n with sanitize := 2, sanAction := 2 }).complete st 0 0).resetAll.drainJournal
  let dropped := [0, 1].foldl (fun s a => if (s.act a).openStack.isSome then s.dropOpenStack a 0 else s) sane
  (Held s st 0x0D c → sel = 0 → c.jwait = none →
    (1 < flbas ∨ nsze ≠ ncap ∨ nsze = 0 → exec (.namespaceCreate st nsze ncap flbas) s = .next (s.complete st scInvalidField 0)) ∧
    (flbas ≤ 1 → nsze = ncap → nsze ≠ 0 →
      (free = none → exec (.namespaceCreate st nsze ncap flbas) s = .next (s.complete st 0x116 0)) ∧
      (free = some i → s.nsCap < s.nsTotal + nsze * lbaBytes flbas → exec (.namespaceCreate st nsze ncap flbas) s = .next (s.complete st 0x115 0)) ∧
      (free = some i → s.nsTotal + nsze * lbaBytes flbas ≤ s.nsCap → s.newKey (i + 1) = (g, u) → exec (.namespaceCreate st nsze ncap flbas) s =
        .next (((made.journal (i + 1) 0 (.side (.ns (some e)))).journal (i + 1) 0 .nsReset).awaitJournal st (BitVec.ofNat 32 (i + 1)))))) ∧
  (Held s st 0x0D c → sel = 1 → s.barrierClear c = true → c.jwait = none →
    (thas s.nvme.nss c.nsid = false → exec (.namespaceDelete st) s = .next (s.complete st scInvalidNs 0)) ∧
    (thas s.nvme.nss c.nsid = true → exec (.namespaceDelete st) s =
      .next ((((hinted.journal 1 0 (.side (.hints hinted.place.hints))).journal c.nsid 0 (.side (.ns none))).nsChanged c.nsid).awaitJournal st 0))) ∧
  (Held s st 0x15 c →
    (sel = 0 →
      (s.ns? c.nsid = none → exec (.namespaceAttach st ctrls) s = .next (s.complete st scInvalidNs 0)) ∧
      (s.ns? c.nsid = some n → ctrls ≠ [0] → exec (.namespaceAttach st ctrls) s = .next (s.complete st 0x11C 0)) ∧
      (s.ns? c.nsid = some n → n.attached = true → exec (.namespaceAttach st [0]) s = .next (s.complete st 0x118 0)) ∧
      (s.ns? c.nsid = some n → n.attached = false → exec (.namespaceAttach st [0]) s = .next ((put true).complete st 0 0))) ∧
    (sel = 1 → s.barrierClear c = true →
      (s.ns? c.nsid = some n → n.attached = false → exec (.namespaceDetach st [0]) s = .next (s.complete st 0x11A 0)) ∧
      (s.ns? c.nsid = some n → n.attached = true → exec (.namespaceDetach st [0]) s = .next ((put false).complete st 0 0).settle))) ∧
  (Held s st 0x80 c → s.barrierClear c = true → c.jwait = none →
    (ses ≠ 2 → formatStatus (c.dw 10) ≠ 0 → exec (.formatNvm st) s = .next (s.complete st (formatStatus (c.dw 10)) 0)) ∧
    (ses ≠ 2 → formatStatus (c.dw 10) = 0 → s.ns? c.nsid = some n → exec (.formatNvm st) s = .next ((s.formatNs c.nsid n sel).awaitJournal st 0)) ∧
    (ses = 2 → formatStatus (c.dw 10) = 0 → s.ns? c.nsid = some n → exec (.formatNvmCryptoErase st) s =
      .next ((((s.formatNs c.nsid n sel).drainJournal.cryptoErase c.nsid).complete st 0 0).settle))) ∧
  (Held s st 0x84 c → s.barrierClear c = true →
    (act = 1 → exec (.sanitizeExitFailure st) s = .next (((s.modNvme fun n => { n with sanFailed := false }).complete st 0 0).settle)) ∧
    (act = 2 → exec (.sanitizeBlockErase st) s = .next (((dropped.modFlash fun f => { f with
        openSpan := [], kneading := [], kneadSpans := []
        spans := f.spans.map fun e => if e.2.phase = .opened || e.2.phase = .closed || e.2.phase = .releasing then (e.1, { e.2 with phase := .released, batches := [] }) else e }).modPlace fun p =>
      { p with evacuating := [], copies := [] }).drainJournal.sanitizeCheck.settle)) ∧
    (act = 4 → exec (.sanitizeCryptoErase st) s = .next (((((s.complete st 0 0).nvme.nss.map (·.1)).foldl (fun s n => s.cryptoErase n) ((s.complete st 0 0).resetAll.drainJournal)).modNvme fun n =>
      { n with sanitize := 1, sanAction := 4, sanFailed := false }).raiseEvent 2 3 0x81).settle))

/-- Self-test and streams (R307, R346, R493, R499). -/
def Obligations.SelfTestsAndStreamsAnswer : Prop := ∀ (s : State) (st result : Nat) (c : Ctx),
  let stc := bits (c.dw 10) 0 4
  let free := min (bits (c.dw 12) 0 16) (s.freeStreams c.nsid)
  let id := bits (c.dw 11) 16 16
  let ids := s.place.streams.filterMap fun e => match e.2.bind with | some (k, i) => if k = c.nsid then some i else none | none => none
  let tested := (s.complete st 0 0).testDone 2 (result % 16)
  let scrub := tested.modFlash fun f => { f with spans := f.spans.map fun e => if e.2.phase = .closed then (e.1, { e.2 with scrubbed := tested.now, scrubSoon := false }) else e }
  (Held s st 0x14 c →
    (stc = 0xF → exec (.deviceSelfTestShort st result) s = .next (s.complete st 0 0)) ∧
    (stc = 1 → exec (.deviceSelfTestShort st result) s = .next ((s.complete st 0 0).testDone 1 (result % 16))) ∧
    (stc = 2 → Does (.deviceSelfTestExtended st result []) s fun t => t = scrub.modRack fun r => { r with
      stackTab := r.stackTab.map fun e => if e.2.phase = .closed && r.spin = .ready then (e.1, { e.2 with scrubbed := scrub.now }) else e })) ∧
  (Held s st 0x1A c →
    (c.dir = (1, 3) → s.nsActive c.nsid = false → exec (.streamsAllocateResources st) s = .next (s.complete st scInvalidNs 0)) ∧
    (c.dir = (1, 3) → s.nsActive c.nsid = true → exec (.streamsAllocateResources st) s = .next ((s.modPlace fun p => { p with granted := tput p.granted c.nsid free }).complete st 0 (BitVec.ofNat 32 free))) ∧
    (c.dir = (0, 1) → exec (.streamsReturnParameters st) s = .next ((s.giveData c 4096 [(0, 1, 3), (32, 1, 3)]).complete st 0 0)) ∧
    (c.dir = (1, 1) → s.nsActive c.nsid = true → exec (.streamsReturnParameters st) s = .next ((s.giveData c 32 [(0, 2, 4096), (2, 2, 4096), (4, 2, 0),
      (16, 4, if ((s.ns? c.nsid).getD {}).flbas = 1 then 256 else 32), (20, 2, 1), (22, 2, tgetD s.place.granted c.nsid 0), (24, 2, ids.length)]).complete st 0 0)) ∧
    (c.dir = (1, 2) → s.nsActive c.nsid = true → exec (.streamsReturnParameters st) s =
      .next ((s.giveData c (2 + 2 * ids.length) ((0, 2, ids.length) :: (ids.zipIdx).map fun (x, i) => (2 + 2 * i, 2, x))).complete st 0 0))) ∧
  (Held s st 0x19 c →
    (c.dir = (0, 1) → exec (.streamsReleaseIdentifier st) s = .next (s.complete st 0 0)) ∧
    (c.dir ≠ (0, 1) → s.nsActive c.nsid = false → exec (.streamsReleaseIdentifier st) s = .next (s.complete st scInvalidNs 0)) ∧
    (c.dir = (1, 1) → s.nsActive c.nsid = true → exec (.streamsReleaseIdentifier st) s =
      .next ((s.modPlace fun p => { p with streams := p.streams.filter fun e => e.2.bind != some (c.nsid, id) }).complete st 0 0)) ∧
    (c.dir = (1, 2) → s.nsActive c.nsid = true → exec (.streamsReleaseIdentifier st) s = .next ((s.modPlace fun p => { p with granted := tdel p.granted c.nsid }).complete st 0 0)))

/-- I/O commands (R14, R18, R60, R72, R85, R140, R142, R210, R212). -/
def Obligations.IoCommandsTakeEffect : Prop := ∀ (s : State) (st : Nat) (data : List Crumb) (c : Ctx),
  let k := chunkBlocks / ((s.ns? c.nsid).getD {}).blocksPerLba
  let r := rawRecords k (c.dw 13) c.ents 0
  let begun := s.modCtx st fun c => { c with begun := true, phase := .media }
  let dealt := c.ents.foldl (fun s e =>
        if e.res = .pending && s.changeClear st e.nsid e.lcn then
          (s.deallocChunk e.nsid e.lcn e.blks).modEnt st e.nsid e.lcn fun y => { y with res := .effected }
        else s) begun
  let mine := s.descs.filter fun e => keyNs e.1 == c.nsid
  (HeldIo s st 0x01 c →
    (c.xferred = false → data.length = c.blockOrder.length → exec (.write st data) s = .next (s.takeData c data).settle) ∧
    (c.xferred = true → exec (.write st data) s = .next s)) ∧
  (HeldIo s st 0x02 c →
    (c.decided = false → exec (.read st) s = .next s) ∧
    (c.decided = true → c.outcome ≠ 0 → exec (.read st) s = .next (s.complete st c.outcome 0)) ∧
    (c.decided = true → c.outcome = 0 → exec (.read st) s = .next (((s.hostWrite (.blocks st (s.firstBlock c) c.readData)).countRead c).complete st 0 0))) ∧
  (HeldIo s st 0x05 c → c.decided = true → data.length = c.blockOrder.length →
    exec (.compare st data) s = .next ((s.modNvme fun n => { n with cmdsRead := n.cmdsRead + 1 }).complete st (c.compareWith data) 0)) ∧
  (HeldIo s st 0x0C c → (c.decided = true → exec (.verify st) s = .next (s.complete st c.outcome 0)) ∧ (c.decided = false → exec (.verify st) s = .next s)) ∧
  (HeldIo s st 0x00 c → exec (.flush st) s = .next (s.complete st 0 0)) ∧
  (HeldIo s st 0x08 c → exec (.writeZeroes st) s = .next (c.ents.foldl (fun s e => s.zeroChunk st e) begun).settle) ∧
  (HeldIo s st 0x09 c →
    (bitAt (c.dw 11) 2 = false → exec (.datasetManagementHint st) s = .next (s.complete st 0 0)) ∧
    (bitAt (c.dw 11) 2 = true → c.cls ≠ .barrier → exec (.deallocate st) s = .next (if c.ents = [] then dealt.complete st 0 0 else dealt).finishWrites.settle) ∧
    (bitAt (c.dw 11) 2 = true → c.cls = .barrier → s.barrierClear c = true → exec (.deallocate st) s =
      .next ((mine.foldl (fun s e => s.deallocChunk c.nsid (keyLcn e.1) (rangeMask c.ranges (keyLcn e.1))) s).complete st 0 0).settle) ∧
    (bitAt (c.dw 11) 2 = true → c.cls = .barrier → s.barrierClear c = false → exec (.deallocate st) s = .next s)) ∧
  (HeldIo s st 0x86 c → c.decided = true →
    (c.outcome ≠ 0 → exec (.rawThroughRead st) s = .next (s.complete st c.outcome 0)) ∧
    (c.outcome = 0 → exec (.rawThroughRead st) s = .next ((s.hostWrite (.data st r.2.1 r.1)).complete st 0 (BitVec.ofNat 32 r.2.2)))) ∧
  (HeldIo s st 0x8A c →
    (∀ e ∈ c.ents, s.earlierWrite st e.nsid e.lcn = false ∧ s.resident e.nsid e.lcn = true) → exec (.placementQuery st) s =
      .next ((((s.hostWrite (.data st (16 * c.ents.length) ((c.ents.zipIdx).flatMap fun (e, i) => s.queryFields e.nsid e.lcn k (16 * i)))).complete st 0 0).effectParked).settle))

/-- No command faults or is refused, in any state: where the block turns a command away, it goes on (R88, R253, R481), and no command touches the queue. -/
def Obligations.EveryCommandGoesOn : Prop := ∀ (c : Instr) (s : State), ∃ t, exec c s = .next t ∧ t.pending = s.pending

/-- The AON counter counts powered time and does not run back (R598); messages that were sent stay sent; the model's free values are drawn once (assumption logs 4, 5). -/
def Obligations.NothingIsTakenBack : Prop := ∀ (c : Instr) (s t : State), exec c s = .next t → s.out <+: t.out ∧ s.now ≤ t.now ∧ s.free ≤ t.free

/-- The ageing offset never falls, and OP0 once withdrawn stays withdrawn for the life of the part (R640). -/
def Obligations.TheAgeingOffsetNeverFalls : Prop := ∀ (c : Instr) (s t : State), exec c s = .next t →
  s.evt.mirror.ageOffset ≤ t.evt.mirror.ageOffset ∧ s.evt.mirror.ceiling ≤ t.evt.mirror.ceiling ∧ (AgeingInv s → AgeingInv t)

/-- The frame of a completion (R65, R88), and with it of Flush and of a read of the Commands Supported log (R512). -/
def Obligations.AnAnsweredCommandIsGone : Prop := ∀ (s : State) (st status : Nat) (dw0 : Dword) (c : Ctx),
  ((s.complete st status dw0).ctx? st = none ∧ (s.complete st status dw0).hostless = s.hostless) ∧
  (HeldIo s st 0x00 c → Does (.flush st) s fun t => t.ctx? st = none ∧ t.hostless = s.hostless) ∧
  (HeldLog s st 0x05 4096 c → Does (.getLogCommandsEffects st) s fun t => t.ctx? st = none ∧ t.hostless = s.hostless)

/-- The frame of an OSPI operation that ends with OK (R548, R549). -/
def Obligations.BootNvmBytesOutsideAnOperationStay : Prop := ∀ (s : State) (bank a : Nat) (ready : Bool) (op : OspiOp),
  let byte (s : State) (a : Nat) : Byte := mread nvmFill s.ospi.nvm a
  s.ospi.busy.getD bank none = some op → op.failed = false →
    (op.erase = false → Does (.ospiOperationEnd bank 0 ready) s fun t => byte t a = if op.addr ≤ a ∧ a < op.addr + op.bytes.length then op.bytes.getD (a - op.addr) nvmFill else byte s a) ∧
    (op.erase = true → Does (.ospiOperationEnd bank 0 ready) s fun t => byte t a = if op.addr ≤ a ∧ a < op.addr + 65536 then nvmFill else byte s a)

/-- The assist limit (R383): never above the full scale, at the full scale before the first successful calibration, and else the lower of BASE_ASSIST × ρ and the full scale. -/
def Obligations.TheAssistLimitIsTheLower : Prop := ∀ (s : State) (surface : Nat) (r : CalRec),
  s.assistLimit surface ≤ s.assistScale ∧ (s.calRec surface = none → s.assistLimit surface = s.assistScale) ∧
  (s.calRec surface = some r → r.baseAssist = 0 → s.assistLimit surface = s.assistScale) ∧
  (s.calRec surface = some r → r.baseAssist ≠ 0 → s.assistLimit surface = min (r.baseAssist.toNat * s.key2 0x0419 / 100) s.assistScale)

/-- Every step keeps the invariants: the boot NVM stays in canonical form, the ageing offset and ceiling stay legal (R640), and the start stays in the past of the AON counter (R598). -/
def Obligations.EveryStepKeepsTheInvariants : Prop := ∀ s t : State, NvmCanonical s → AgeingInv s → StartPast s → step s = .next t →
  NvmCanonical t ∧ AgeingInv t ∧ StartPast t ∧ t.pending = s.pending.tail

/-- The queue drains in as many steps as commands wait, whatever they are and whatever the state, and the invariants hold at its end (the queue is the model's own). -/
def Obligations.EveryQueueDrainsInOrder : Prop := ∀ s : State, ∃ t, s.after s.pending.length = some t ∧ t.pending = [] ∧ s.now ≤ t.now ∧ s.out <+: t.out ∧
  (NvmCanonical s → NvmCanonical t) ∧ (AgeingInv s → AgeingInv t) ∧ (StartPast s → StartPast t)
end

