-- ==== Sys2Proof/Laws/State.lean ====
section
/-!
SUPPORT. What each update of a part of the state leaves alone and what it changes: one lemma per part per update, true by
definition, so that no later proof unfolds a record update.
-/
namespace Sys2Proof.Machine
open Sys2Proof

@[simp] theorem State.modLink_link (s : State) (f : LinkSt → LinkSt) : (s.modLink f).link = f s.link := rfl
@[simp] theorem State.modLink_fab (s : State) (f : LinkSt → LinkSt) : (s.modLink f).fab = s.fab := rfl
@[simp] theorem State.modLink_place (s : State) (f : LinkSt → LinkSt) : (s.modLink f).place = s.place := rfl
@[simp] theorem State.modLink_host (s : State) (f : LinkSt → LinkSt) : (s.modLink f).host = s.host := rfl
@[simp] theorem State.modLink_map (s : State) (f : LinkSt → LinkSt) : (s.modLink f).map = s.map := rfl
@[simp] theorem State.modLink_media (s : State) (f : LinkSt → LinkSt) : (s.modLink f).media = s.media := rfl
@[simp] theorem State.modLink_win (s : State) (f : LinkSt → LinkSt) : (s.modLink f).win = s.win := rfl
@[simp] theorem State.modLink_coder (s : State) (f : LinkSt → LinkSt) : (s.modLink f).coder = s.coder := rfl
@[simp] theorem State.modLink_flashIf (s : State) (f : LinkSt → LinkSt) : (s.modLink f).flashIf = s.flashIf := rfl
@[simp] theorem State.modLink_seqs (s : State) (f : LinkSt → LinkSt) : (s.modLink f).seqs = s.seqs := rfl
@[simp] theorem State.modLink_flash (s : State) (f : LinkSt → LinkSt) : (s.modLink f).flash = s.flash := rfl
@[simp] theorem State.modLink_rack (s : State) (f : LinkSt → LinkSt) : (s.modLink f).rack = s.rack := rfl
@[simp] theorem State.modLink_chan (s : State) (f : LinkSt → LinkSt) : (s.modLink f).chan = s.chan := rfl
@[simp] theorem State.modLink_servo (s : State) (f : LinkSt → LinkSt) : (s.modLink f).servo = s.servo := rfl
@[simp] theorem State.modLink_dram (s : State) (f : LinkSt → LinkSt) : (s.modLink f).dram = s.dram := rfl
@[simp] theorem State.modLink_pool (s : State) (f : LinkSt → LinkSt) : (s.modLink f).pool = s.pool := rfl
@[simp] theorem State.modLink_pcie (s : State) (f : LinkSt → LinkSt) : (s.modLink f).pcie = s.pcie := rfl
@[simp] theorem State.modLink_nvme (s : State) (f : LinkSt → LinkSt) : (s.modLink f).nvme = s.nvme := rfl
@[simp] theorem State.modLink_cfg (s : State) (f : LinkSt → LinkSt) : (s.modLink f).cfg = s.cfg := rfl
@[simp] theorem State.modLink_ospi (s : State) (f : LinkSt → LinkSt) : (s.modLink f).ospi = s.ospi := rfl
@[simp] theorem State.modLink_fw (s : State) (f : LinkSt → LinkSt) : (s.modLink f).fw = s.fw := rfl
@[simp] theorem State.modLink_flt (s : State) (f : LinkSt → LinkSt) : (s.modLink f).flt = s.flt := rfl
@[simp] theorem State.modLink_evt (s : State) (f : LinkSt → LinkSt) : (s.modLink f).evt = s.evt := rfl
@[simp] theorem State.modLink_pwr (s : State) (f : LinkSt → LinkSt) : (s.modLink f).pwr = s.pwr := rfl
@[simp] theorem State.modLink_therm (s : State) (f : LinkSt → LinkSt) : (s.modLink f).therm = s.therm := rfl
@[simp] theorem State.modLink_pins (s : State) (f : LinkSt → LinkSt) : (s.modLink f).pins = s.pins := rfl
@[simp] theorem State.modLink_now (s : State) (f : LinkSt → LinkSt) : (s.modLink f).now = s.now := rfl
@[simp] theorem State.modLink_free (s : State) (f : LinkSt → LinkSt) : (s.modLink f).free = s.free := rfl
@[simp] theorem State.modLink_out (s : State) (f : LinkSt → LinkSt) : (s.modLink f).out = s.out := rfl
@[simp] theorem State.modLink_pending (s : State) (f : LinkSt → LinkSt) : (s.modLink f).pending = s.pending := rfl
@[simp] theorem State.modFab_link (s : State) (f : FabSt → FabSt) : (s.modFab f).link = s.link := rfl
@[simp] theorem State.modFab_fab (s : State) (f : FabSt → FabSt) : (s.modFab f).fab = f s.fab := rfl
@[simp] theorem State.modFab_place (s : State) (f : FabSt → FabSt) : (s.modFab f).place = s.place := rfl
@[simp] theorem State.modFab_host (s : State) (f : FabSt → FabSt) : (s.modFab f).host = s.host := rfl
@[simp] theorem State.modFab_map (s : State) (f : FabSt → FabSt) : (s.modFab f).map = s.map := rfl
@[simp] theorem State.modFab_media (s : State) (f : FabSt → FabSt) : (s.modFab f).media = s.media := rfl
@[simp] theorem State.modFab_win (s : State) (f : FabSt → FabSt) : (s.modFab f).win = s.win := rfl
@[simp] theorem State.modFab_coder (s : State) (f : FabSt → FabSt) : (s.modFab f).coder = s.coder := rfl
@[simp] theorem State.modFab_flashIf (s : State) (f : FabSt → FabSt) : (s.modFab f).flashIf = s.flashIf := rfl
@[simp] theorem State.modFab_seqs (s : State) (f : FabSt → FabSt) : (s.modFab f).seqs = s.seqs := rfl
@[simp] theorem State.modFab_flash (s : State) (f : FabSt → FabSt) : (s.modFab f).flash = s.flash := rfl
@[simp] theorem State.modFab_rack (s : State) (f : FabSt → FabSt) : (s.modFab f).rack = s.rack := rfl
@[simp] theorem State.modFab_chan (s : State) (f : FabSt → FabSt) : (s.modFab f).chan = s.chan := rfl
@[simp] theorem State.modFab_servo (s : State) (f : FabSt → FabSt) : (s.modFab f).servo = s.servo := rfl
@[simp] theorem State.modFab_dram (s : State) (f : FabSt → FabSt) : (s.modFab f).dram = s.dram := rfl
@[simp] theorem State.modFab_pool (s : State) (f : FabSt → FabSt) : (s.modFab f).pool = s.pool := rfl
@[simp] theorem State.modFab_pcie (s : State) (f : FabSt → FabSt) : (s.modFab f).pcie = s.pcie := rfl
@[simp] theorem State.modFab_nvme (s : State) (f : FabSt → FabSt) : (s.modFab f).nvme = s.nvme := rfl
@[simp] theorem State.modFab_cfg (s : State) (f : FabSt → FabSt) : (s.modFab f).cfg = s.cfg := rfl
@[simp] theorem State.modFab_ospi (s : State) (f : FabSt → FabSt) : (s.modFab f).ospi = s.ospi := rfl
@[simp] theorem State.modFab_fw (s : State) (f : FabSt → FabSt) : (s.modFab f).fw = s.fw := rfl
@[simp] theorem State.modFab_flt (s : State) (f : FabSt → FabSt) : (s.modFab f).flt = s.flt := rfl
@[simp] theorem State.modFab_evt (s : State) (f : FabSt → FabSt) : (s.modFab f).evt = s.evt := rfl
@[simp] theorem State.modFab_pwr (s : State) (f : FabSt → FabSt) : (s.modFab f).pwr = s.pwr := rfl
@[simp] theorem State.modFab_therm (s : State) (f : FabSt → FabSt) : (s.modFab f).therm = s.therm := rfl
@[simp] theorem State.modFab_pins (s : State) (f : FabSt → FabSt) : (s.modFab f).pins = s.pins := rfl
@[simp] theorem State.modFab_now (s : State) (f : FabSt → FabSt) : (s.modFab f).now = s.now := rfl
@[simp] theorem State.modFab_free (s : State) (f : FabSt → FabSt) : (s.modFab f).free = s.free := rfl
@[simp] theorem State.modFab_out (s : State) (f : FabSt → FabSt) : (s.modFab f).out = s.out := rfl
@[simp] theorem State.modFab_pending (s : State) (f : FabSt → FabSt) : (s.modFab f).pending = s.pending := rfl
@[simp] theorem State.modPlace_link (s : State) (f : PlaceSt → PlaceSt) : (s.modPlace f).link = s.link := rfl
@[simp] theorem State.modPlace_fab (s : State) (f : PlaceSt → PlaceSt) : (s.modPlace f).fab = s.fab := rfl
@[simp] theorem State.modPlace_place (s : State) (f : PlaceSt → PlaceSt) : (s.modPlace f).place = f s.place := rfl
@[simp] theorem State.modPlace_host (s : State) (f : PlaceSt → PlaceSt) : (s.modPlace f).host = s.host := rfl
@[simp] theorem State.modPlace_map (s : State) (f : PlaceSt → PlaceSt) : (s.modPlace f).map = s.map := rfl
@[simp] theorem State.modPlace_media (s : State) (f : PlaceSt → PlaceSt) : (s.modPlace f).media = s.media := rfl
@[simp] theorem State.modPlace_win (s : State) (f : PlaceSt → PlaceSt) : (s.modPlace f).win = s.win := rfl
@[simp] theorem State.modPlace_coder (s : State) (f : PlaceSt → PlaceSt) : (s.modPlace f).coder = s.coder := rfl
@[simp] theorem State.modPlace_flashIf (s : State) (f : PlaceSt → PlaceSt) : (s.modPlace f).flashIf = s.flashIf := rfl
@[simp] theorem State.modPlace_seqs (s : State) (f : PlaceSt → PlaceSt) : (s.modPlace f).seqs = s.seqs := rfl
@[simp] theorem State.modPlace_flash (s : State) (f : PlaceSt → PlaceSt) : (s.modPlace f).flash = s.flash := rfl
@[simp] theorem State.modPlace_rack (s : State) (f : PlaceSt → PlaceSt) : (s.modPlace f).rack = s.rack := rfl
@[simp] theorem State.modPlace_chan (s : State) (f : PlaceSt → PlaceSt) : (s.modPlace f).chan = s.chan := rfl
@[simp] theorem State.modPlace_servo (s : State) (f : PlaceSt → PlaceSt) : (s.modPlace f).servo = s.servo := rfl
@[simp] theorem State.modPlace_dram (s : State) (f : PlaceSt → PlaceSt) : (s.modPlace f).dram = s.dram := rfl
@[simp] theorem State.modPlace_pool (s : State) (f : PlaceSt → PlaceSt) : (s.modPlace f).pool = s.pool := rfl
@[simp] theorem State.modPlace_pcie (s : State) (f : PlaceSt → PlaceSt) : (s.modPlace f).pcie = s.pcie := rfl
@[simp] theorem State.modPlace_nvme (s : State) (f : PlaceSt → PlaceSt) : (s.modPlace f).nvme = s.nvme := rfl
@[simp] theorem State.modPlace_cfg (s : State) (f : PlaceSt → PlaceSt) : (s.modPlace f).cfg = s.cfg := rfl
@[simp] theorem State.modPlace_ospi (s : State) (f : PlaceSt → PlaceSt) : (s.modPlace f).ospi = s.ospi := rfl
@[simp] theorem State.modPlace_fw (s : State) (f : PlaceSt → PlaceSt) : (s.modPlace f).fw = s.fw := rfl
@[simp] theorem State.modPlace_flt (s : State) (f : PlaceSt → PlaceSt) : (s.modPlace f).flt = s.flt := rfl
@[simp] theorem State.modPlace_evt (s : State) (f : PlaceSt → PlaceSt) : (s.modPlace f).evt = s.evt := rfl
@[simp] theorem State.modPlace_pwr (s : State) (f : PlaceSt → PlaceSt) : (s.modPlace f).pwr = s.pwr := rfl
@[simp] theorem State.modPlace_therm (s : State) (f : PlaceSt → PlaceSt) : (s.modPlace f).therm = s.therm := rfl
@[simp] theorem State.modPlace_pins (s : State) (f : PlaceSt → PlaceSt) : (s.modPlace f).pins = s.pins := rfl
@[simp] theorem State.modPlace_now (s : State) (f : PlaceSt → PlaceSt) : (s.modPlace f).now = s.now := rfl
@[simp] theorem State.modPlace_free (s : State) (f : PlaceSt → PlaceSt) : (s.modPlace f).free = s.free := rfl
@[simp] theorem State.modPlace_out (s : State) (f : PlaceSt → PlaceSt) : (s.modPlace f).out = s.out := rfl
@[simp] theorem State.modPlace_pending (s : State) (f : PlaceSt → PlaceSt) : (s.modPlace f).pending = s.pending := rfl
@[simp] theorem State.modHost_link (s : State) (f : HostSt → HostSt) : (s.modHost f).link = s.link := rfl
@[simp] theorem State.modHost_fab (s : State) (f : HostSt → HostSt) : (s.modHost f).fab = s.fab := rfl
@[simp] theorem State.modHost_place (s : State) (f : HostSt → HostSt) : (s.modHost f).place = s.place := rfl
@[simp] theorem State.modHost_host (s : State) (f : HostSt → HostSt) : (s.modHost f).host = f s.host := rfl
@[simp] theorem State.modHost_map (s : State) (f : HostSt → HostSt) : (s.modHost f).map = s.map := rfl
@[simp] theorem State.modHost_media (s : State) (f : HostSt → HostSt) : (s.modHost f).media = s.media := rfl
@[simp] theorem State.modHost_win (s : State) (f : HostSt → HostSt) : (s.modHost f).win = s.win := rfl
@[simp] theorem State.modHost_coder (s : State) (f : HostSt → HostSt) : (s.modHost f).coder = s.coder := rfl
@[simp] theorem State.modHost_flashIf (s : State) (f : HostSt → HostSt) : (s.modHost f).flashIf = s.flashIf := rfl
@[simp] theorem State.modHost_seqs (s : State) (f : HostSt → HostSt) : (s.modHost f).seqs = s.seqs := rfl
@[simp] theorem State.modHost_flash (s : State) (f : HostSt → HostSt) : (s.modHost f).flash = s.flash := rfl
@[simp] theorem State.modHost_rack (s : State) (f : HostSt → HostSt) : (s.modHost f).rack = s.rack := rfl
@[simp] theorem State.modHost_chan (s : State) (f : HostSt → HostSt) : (s.modHost f).chan = s.chan := rfl
@[simp] theorem State.modHost_servo (s : State) (f : HostSt → HostSt) : (s.modHost f).servo = s.servo := rfl
@[simp] theorem State.modHost_dram (s : State) (f : HostSt → HostSt) : (s.modHost f).dram = s.dram := rfl
@[simp] theorem State.modHost_pool (s : State) (f : HostSt → HostSt) : (s.modHost f).pool = s.pool := rfl
@[simp] theorem State.modHost_pcie (s : State) (f : HostSt → HostSt) : (s.modHost f).pcie = s.pcie := rfl
@[simp] theorem State.modHost_nvme (s : State) (f : HostSt → HostSt) : (s.modHost f).nvme = s.nvme := rfl
@[simp] theorem State.modHost_cfg (s : State) (f : HostSt → HostSt) : (s.modHost f).cfg = s.cfg := rfl
@[simp] theorem State.modHost_ospi (s : State) (f : HostSt → HostSt) : (s.modHost f).ospi = s.ospi := rfl
@[simp] theorem State.modHost_fw (s : State) (f : HostSt → HostSt) : (s.modHost f).fw = s.fw := rfl
@[simp] theorem State.modHost_flt (s : State) (f : HostSt → HostSt) : (s.modHost f).flt = s.flt := rfl
@[simp] theorem State.modHost_evt (s : State) (f : HostSt → HostSt) : (s.modHost f).evt = s.evt := rfl
@[simp] theorem State.modHost_pwr (s : State) (f : HostSt → HostSt) : (s.modHost f).pwr = s.pwr := rfl
@[simp] theorem State.modHost_therm (s : State) (f : HostSt → HostSt) : (s.modHost f).therm = s.therm := rfl
@[simp] theorem State.modHost_pins (s : State) (f : HostSt → HostSt) : (s.modHost f).pins = s.pins := rfl
@[simp] theorem State.modHost_now (s : State) (f : HostSt → HostSt) : (s.modHost f).now = s.now := rfl
@[simp] theorem State.modHost_free (s : State) (f : HostSt → HostSt) : (s.modHost f).free = s.free := rfl
@[simp] theorem State.modHost_out (s : State) (f : HostSt → HostSt) : (s.modHost f).out = s.out := rfl
@[simp] theorem State.modHost_pending (s : State) (f : HostSt → HostSt) : (s.modHost f).pending = s.pending := rfl
@[simp] theorem State.modMap_link (s : State) (f : MapSt → MapSt) : (s.modMap f).link = s.link := rfl
@[simp] theorem State.modMap_fab (s : State) (f : MapSt → MapSt) : (s.modMap f).fab = s.fab := rfl
@[simp] theorem State.modMap_place (s : State) (f : MapSt → MapSt) : (s.modMap f).place = s.place := rfl
@[simp] theorem State.modMap_host (s : State) (f : MapSt → MapSt) : (s.modMap f).host = s.host := rfl
@[simp] theorem State.modMap_map (s : State) (f : MapSt → MapSt) : (s.modMap f).map = f s.map := rfl
@[simp] theorem State.modMap_media (s : State) (f : MapSt → MapSt) : (s.modMap f).media = s.media := rfl
@[simp] theorem State.modMap_win (s : State) (f : MapSt → MapSt) : (s.modMap f).win = s.win := rfl
@[simp] theorem State.modMap_coder (s : State) (f : MapSt → MapSt) : (s.modMap f).coder = s.coder := rfl
@[simp] theorem State.modMap_flashIf (s : State) (f : MapSt → MapSt) : (s.modMap f).flashIf = s.flashIf := rfl
@[simp] theorem State.modMap_seqs (s : State) (f : MapSt → MapSt) : (s.modMap f).seqs = s.seqs := rfl
@[simp] theorem State.modMap_flash (s : State) (f : MapSt → MapSt) : (s.modMap f).flash = s.flash := rfl
@[simp] theorem State.modMap_rack (s : State) (f : MapSt → MapSt) : (s.modMap f).rack = s.rack := rfl
@[simp] theorem State.modMap_chan (s : State) (f : MapSt → MapSt) : (s.modMap f).chan = s.chan := rfl
@[simp] theorem State.modMap_servo (s : State) (f : MapSt → MapSt) : (s.modMap f).servo = s.servo := rfl
@[simp] theorem State.modMap_dram (s : State) (f : MapSt → MapSt) : (s.modMap f).dram = s.dram := rfl
@[simp] theorem State.modMap_pool (s : State) (f : MapSt → MapSt) : (s.modMap f).pool = s.pool := rfl
@[simp] theorem State.modMap_pcie (s : State) (f : MapSt → MapSt) : (s.modMap f).pcie = s.pcie := rfl
@[simp] theorem State.modMap_nvme (s : State) (f : MapSt → MapSt) : (s.modMap f).nvme = s.nvme := rfl
@[simp] theorem State.modMap_cfg (s : State) (f : MapSt → MapSt) : (s.modMap f).cfg = s.cfg := rfl
@[simp] theorem State.modMap_ospi (s : State) (f : MapSt → MapSt) : (s.modMap f).ospi = s.ospi := rfl
@[simp] theorem State.modMap_fw (s : State) (f : MapSt → MapSt) : (s.modMap f).fw = s.fw := rfl
@[simp] theorem State.modMap_flt (s : State) (f : MapSt → MapSt) : (s.modMap f).flt = s.flt := rfl
@[simp] theorem State.modMap_evt (s : State) (f : MapSt → MapSt) : (s.modMap f).evt = s.evt := rfl
@[simp] theorem State.modMap_pwr (s : State) (f : MapSt → MapSt) : (s.modMap f).pwr = s.pwr := rfl
@[simp] theorem State.modMap_therm (s : State) (f : MapSt → MapSt) : (s.modMap f).therm = s.therm := rfl
@[simp] theorem State.modMap_pins (s : State) (f : MapSt → MapSt) : (s.modMap f).pins = s.pins := rfl
@[simp] theorem State.modMap_now (s : State) (f : MapSt → MapSt) : (s.modMap f).now = s.now := rfl
@[simp] theorem State.modMap_free (s : State) (f : MapSt → MapSt) : (s.modMap f).free = s.free := rfl
@[simp] theorem State.modMap_out (s : State) (f : MapSt → MapSt) : (s.modMap f).out = s.out := rfl
@[simp] theorem State.modMap_pending (s : State) (f : MapSt → MapSt) : (s.modMap f).pending = s.pending := rfl
@[simp] theorem State.modMedia_link (s : State) (f : MediaSt → MediaSt) : (s.modMedia f).link = s.link := rfl
@[simp] theorem State.modMedia_fab (s : State) (f : MediaSt → MediaSt) : (s.modMedia f).fab = s.fab := rfl
@[simp] theorem State.modMedia_place (s : State) (f : MediaSt → MediaSt) : (s.modMedia f).place = s.place := rfl
@[simp] theorem State.modMedia_host (s : State) (f : MediaSt → MediaSt) : (s.modMedia f).host = s.host := rfl
@[simp] theorem State.modMedia_map (s : State) (f : MediaSt → MediaSt) : (s.modMedia f).map = s.map := rfl
@[simp] theorem State.modMedia_media (s : State) (f : MediaSt → MediaSt) : (s.modMedia f).media = f s.media := rfl
@[simp] theorem State.modMedia_win (s : State) (f : MediaSt → MediaSt) : (s.modMedia f).win = s.win := rfl
@[simp] theorem State.modMedia_coder (s : State) (f : MediaSt → MediaSt) : (s.modMedia f).coder = s.coder := rfl
@[simp] theorem State.modMedia_flashIf (s : State) (f : MediaSt → MediaSt) : (s.modMedia f).flashIf = s.flashIf := rfl
@[simp] theorem State.modMedia_seqs (s : State) (f : MediaSt → MediaSt) : (s.modMedia f).seqs = s.seqs := rfl
@[simp] theorem State.modMedia_flash (s : State) (f : MediaSt → MediaSt) : (s.modMedia f).flash = s.flash := rfl
@[simp] theorem State.modMedia_rack (s : State) (f : MediaSt → MediaSt) : (s.modMedia f).rack = s.rack := rfl
@[simp] theorem State.modMedia_chan (s : State) (f : MediaSt → MediaSt) : (s.modMedia f).chan = s.chan := rfl
@[simp] theorem State.modMedia_servo (s : State) (f : MediaSt → MediaSt) : (s.modMedia f).servo = s.servo := rfl
@[simp] theorem State.modMedia_dram (s : State) (f : MediaSt → MediaSt) : (s.modMedia f).dram = s.dram := rfl
@[simp] theorem State.modMedia_pool (s : State) (f : MediaSt → MediaSt) : (s.modMedia f).pool = s.pool := rfl
@[simp] theorem State.modMedia_pcie (s : State) (f : MediaSt → MediaSt) : (s.modMedia f).pcie = s.pcie := rfl
@[simp] theorem State.modMedia_nvme (s : State) (f : MediaSt → MediaSt) : (s.modMedia f).nvme = s.nvme := rfl
@[simp] theorem State.modMedia_cfg (s : State) (f : MediaSt → MediaSt) : (s.modMedia f).cfg = s.cfg := rfl
@[simp] theorem State.modMedia_ospi (s : State) (f : MediaSt → MediaSt) : (s.modMedia f).ospi = s.ospi := rfl
@[simp] theorem State.modMedia_fw (s : State) (f : MediaSt → MediaSt) : (s.modMedia f).fw = s.fw := rfl
@[simp] theorem State.modMedia_flt (s : State) (f : MediaSt → MediaSt) : (s.modMedia f).flt = s.flt := rfl
@[simp] theorem State.modMedia_evt (s : State) (f : MediaSt → MediaSt) : (s.modMedia f).evt = s.evt := rfl
@[simp] theorem State.modMedia_pwr (s : State) (f : MediaSt → MediaSt) : (s.modMedia f).pwr = s.pwr := rfl
@[simp] theorem State.modMedia_therm (s : State) (f : MediaSt → MediaSt) : (s.modMedia f).therm = s.therm := rfl
@[simp] theorem State.modMedia_pins (s : State) (f : MediaSt → MediaSt) : (s.modMedia f).pins = s.pins := rfl
@[simp] theorem State.modMedia_now (s : State) (f : MediaSt → MediaSt) : (s.modMedia f).now = s.now := rfl
@[simp] theorem State.modMedia_free (s : State) (f : MediaSt → MediaSt) : (s.modMedia f).free = s.free := rfl
@[simp] theorem State.modMedia_out (s : State) (f : MediaSt → MediaSt) : (s.modMedia f).out = s.out := rfl
@[simp] theorem State.modMedia_pending (s : State) (f : MediaSt → MediaSt) : (s.modMedia f).pending = s.pending := rfl
@[simp] theorem State.modWin_link (s : State) (f : WinSt → WinSt) : (s.modWin f).link = s.link := rfl
@[simp] theorem State.modWin_fab (s : State) (f : WinSt → WinSt) : (s.modWin f).fab = s.fab := rfl
@[simp] theorem State.modWin_place (s : State) (f : WinSt → WinSt) : (s.modWin f).place = s.place := rfl
@[simp] theorem State.modWin_host (s : State) (f : WinSt → WinSt) : (s.modWin f).host = s.host := rfl
@[simp] theorem State.modWin_map (s : State) (f : WinSt → WinSt) : (s.modWin f).map = s.map := rfl
@[simp] theorem State.modWin_media (s : State) (f : WinSt → WinSt) : (s.modWin f).media = s.media := rfl
@[simp] theorem State.modWin_win (s : State) (f : WinSt → WinSt) : (s.modWin f).win = f s.win := rfl
@[simp] theorem State.modWin_coder (s : State) (f : WinSt → WinSt) : (s.modWin f).coder = s.coder := rfl
@[simp] theorem State.modWin_flashIf (s : State) (f : WinSt → WinSt) : (s.modWin f).flashIf = s.flashIf := rfl
@[simp] theorem State.modWin_seqs (s : State) (f : WinSt → WinSt) : (s.modWin f).seqs = s.seqs := rfl
@[simp] theorem State.modWin_flash (s : State) (f : WinSt → WinSt) : (s.modWin f).flash = s.flash := rfl
@[simp] theorem State.modWin_rack (s : State) (f : WinSt → WinSt) : (s.modWin f).rack = s.rack := rfl
@[simp] theorem State.modWin_chan (s : State) (f : WinSt → WinSt) : (s.modWin f).chan = s.chan := rfl
@[simp] theorem State.modWin_servo (s : State) (f : WinSt → WinSt) : (s.modWin f).servo = s.servo := rfl
@[simp] theorem State.modWin_dram (s : State) (f : WinSt → WinSt) : (s.modWin f).dram = s.dram := rfl
@[simp] theorem State.modWin_pool (s : State) (f : WinSt → WinSt) : (s.modWin f).pool = s.pool := rfl
@[simp] theorem State.modWin_pcie (s : State) (f : WinSt → WinSt) : (s.modWin f).pcie = s.pcie := rfl
@[simp] theorem State.modWin_nvme (s : State) (f : WinSt → WinSt) : (s.modWin f).nvme = s.nvme := rfl
@[simp] theorem State.modWin_cfg (s : State) (f : WinSt → WinSt) : (s.modWin f).cfg = s.cfg := rfl
@[simp] theorem State.modWin_ospi (s : State) (f : WinSt → WinSt) : (s.modWin f).ospi = s.ospi := rfl
@[simp] theorem State.modWin_fw (s : State) (f : WinSt → WinSt) : (s.modWin f).fw = s.fw := rfl
@[simp] theorem State.modWin_flt (s : State) (f : WinSt → WinSt) : (s.modWin f).flt = s.flt := rfl
@[simp] theorem State.modWin_evt (s : State) (f : WinSt → WinSt) : (s.modWin f).evt = s.evt := rfl
@[simp] theorem State.modWin_pwr (s : State) (f : WinSt → WinSt) : (s.modWin f).pwr = s.pwr := rfl
@[simp] theorem State.modWin_therm (s : State) (f : WinSt → WinSt) : (s.modWin f).therm = s.therm := rfl
@[simp] theorem State.modWin_pins (s : State) (f : WinSt → WinSt) : (s.modWin f).pins = s.pins := rfl
@[simp] theorem State.modWin_now (s : State) (f : WinSt → WinSt) : (s.modWin f).now = s.now := rfl
@[simp] theorem State.modWin_free (s : State) (f : WinSt → WinSt) : (s.modWin f).free = s.free := rfl
@[simp] theorem State.modWin_out (s : State) (f : WinSt → WinSt) : (s.modWin f).out = s.out := rfl
@[simp] theorem State.modWin_pending (s : State) (f : WinSt → WinSt) : (s.modWin f).pending = s.pending := rfl
@[simp] theorem State.modCoder_link (s : State) (f : CoderSt → CoderSt) : (s.modCoder f).link = s.link := rfl
@[simp] theorem State.modCoder_fab (s : State) (f : CoderSt → CoderSt) : (s.modCoder f).fab = s.fab := rfl
@[simp] theorem State.modCoder_place (s : State) (f : CoderSt → CoderSt) : (s.modCoder f).place = s.place := rfl
@[simp] theorem State.modCoder_host (s : State) (f : CoderSt → CoderSt) : (s.modCoder f).host = s.host := rfl
@[simp] theorem State.modCoder_map (s : State) (f : CoderSt → CoderSt) : (s.modCoder f).map = s.map := rfl
@[simp] theorem State.modCoder_media (s : State) (f : CoderSt → CoderSt) : (s.modCoder f).media = s.media := rfl
@[simp] theorem State.modCoder_win (s : State) (f : CoderSt → CoderSt) : (s.modCoder f).win = s.win := rfl
@[simp] theorem State.modCoder_coder (s : State) (f : CoderSt → CoderSt) : (s.modCoder f).coder = f s.coder := rfl
@[simp] theorem State.modCoder_flashIf (s : State) (f : CoderSt → CoderSt) : (s.modCoder f).flashIf = s.flashIf := rfl
@[simp] theorem State.modCoder_seqs (s : State) (f : CoderSt → CoderSt) : (s.modCoder f).seqs = s.seqs := rfl
@[simp] theorem State.modCoder_flash (s : State) (f : CoderSt → CoderSt) : (s.modCoder f).flash = s.flash := rfl
@[simp] theorem State.modCoder_rack (s : State) (f : CoderSt → CoderSt) : (s.modCoder f).rack = s.rack := rfl
@[simp] theorem State.modCoder_chan (s : State) (f : CoderSt → CoderSt) : (s.modCoder f).chan = s.chan := rfl
@[simp] theorem State.modCoder_servo (s : State) (f : CoderSt → CoderSt) : (s.modCoder f).servo = s.servo := rfl
@[simp] theorem State.modCoder_dram (s : State) (f : CoderSt → CoderSt) : (s.modCoder f).dram = s.dram := rfl
@[simp] theorem State.modCoder_pool (s : State) (f : CoderSt → CoderSt) : (s.modCoder f).pool = s.pool := rfl
@[simp] theorem State.modCoder_pcie (s : State) (f : CoderSt → CoderSt) : (s.modCoder f).pcie = s.pcie := rfl
@[simp] theorem State.modCoder_nvme (s : State) (f : CoderSt → CoderSt) : (s.modCoder f).nvme = s.nvme := rfl
@[simp] theorem State.modCoder_cfg (s : State) (f : CoderSt → CoderSt) : (s.modCoder f).cfg = s.cfg := rfl
@[simp] theorem State.modCoder_ospi (s : State) (f : CoderSt → CoderSt) : (s.modCoder f).ospi = s.ospi := rfl
@[simp] theorem State.modCoder_fw (s : State) (f : CoderSt → CoderSt) : (s.modCoder f).fw = s.fw := rfl
@[simp] theorem State.modCoder_flt (s : State) (f : CoderSt → CoderSt) : (s.modCoder f).flt = s.flt := rfl
@[simp] theorem State.modCoder_evt (s : State) (f : CoderSt → CoderSt) : (s.modCoder f).evt = s.evt := rfl
@[simp] theorem State.modCoder_pwr (s : State) (f : CoderSt → CoderSt) : (s.modCoder f).pwr = s.pwr := rfl
@[simp] theorem State.modCoder_therm (s : State) (f : CoderSt → CoderSt) : (s.modCoder f).therm = s.therm := rfl
@[simp] theorem State.modCoder_pins (s : State) (f : CoderSt → CoderSt) : (s.modCoder f).pins = s.pins := rfl
@[simp] theorem State.modCoder_now (s : State) (f : CoderSt → CoderSt) : (s.modCoder f).now = s.now := rfl
@[simp] theorem State.modCoder_free (s : State) (f : CoderSt → CoderSt) : (s.modCoder f).free = s.free := rfl
@[simp] theorem State.modCoder_out (s : State) (f : CoderSt → CoderSt) : (s.modCoder f).out = s.out := rfl
@[simp] theorem State.modCoder_pending (s : State) (f : CoderSt → CoderSt) : (s.modCoder f).pending = s.pending := rfl
@[simp] theorem State.modFlashIf_link (s : State) (f : FlashIfSt → FlashIfSt) : (s.modFlashIf f).link = s.link := rfl
@[simp] theorem State.modFlashIf_fab (s : State) (f : FlashIfSt → FlashIfSt) : (s.modFlashIf f).fab = s.fab := rfl
@[simp] theorem State.modFlashIf_place (s : State) (f : FlashIfSt → FlashIfSt) : (s.modFlashIf f).place = s.place := rfl
@[simp] theorem State.modFlashIf_host (s : State) (f : FlashIfSt → FlashIfSt) : (s.modFlashIf f).host = s.host := rfl
@[simp] theorem State.modFlashIf_map (s : State) (f : FlashIfSt → FlashIfSt) : (s.modFlashIf f).map = s.map := rfl
@[simp] theorem State.modFlashIf_media (s : State) (f : FlashIfSt → FlashIfSt) : (s.modFlashIf f).media = s.media := rfl
@[simp] theorem State.modFlashIf_win (s : State) (f : FlashIfSt → FlashIfSt) : (s.modFlashIf f).win = s.win := rfl
@[simp] theorem State.modFlashIf_coder (s : State) (f : FlashIfSt → FlashIfSt) : (s.modFlashIf f).coder = s.coder := rfl
@[simp] theorem State.modFlashIf_flashIf (s : State) (f : FlashIfSt → FlashIfSt) : (s.modFlashIf f).flashIf = f s.flashIf := rfl
@[simp] theorem State.modFlashIf_seqs (s : State) (f : FlashIfSt → FlashIfSt) : (s.modFlashIf f).seqs = s.seqs := rfl
@[simp] theorem State.modFlashIf_flash (s : State) (f : FlashIfSt → FlashIfSt) : (s.modFlashIf f).flash = s.flash := rfl
@[simp] theorem State.modFlashIf_rack (s : State) (f : FlashIfSt → FlashIfSt) : (s.modFlashIf f).rack = s.rack := rfl
@[simp] theorem State.modFlashIf_chan (s : State) (f : FlashIfSt → FlashIfSt) : (s.modFlashIf f).chan = s.chan := rfl
@[simp] theorem State.modFlashIf_servo (s : State) (f : FlashIfSt → FlashIfSt) : (s.modFlashIf f).servo = s.servo := rfl
@[simp] theorem State.modFlashIf_dram (s : State) (f : FlashIfSt → FlashIfSt) : (s.modFlashIf f).dram = s.dram := rfl
@[simp] theorem State.modFlashIf_pool (s : State) (f : FlashIfSt → FlashIfSt) : (s.modFlashIf f).pool = s.pool := rfl
@[simp] theorem State.modFlashIf_pcie (s : State) (f : FlashIfSt → FlashIfSt) : (s.modFlashIf f).pcie = s.pcie := rfl
@[simp] theorem State.modFlashIf_nvme (s : State) (f : FlashIfSt → FlashIfSt) : (s.modFlashIf f).nvme = s.nvme := rfl
@[simp] theorem State.modFlashIf_cfg (s : State) (f : FlashIfSt → FlashIfSt) : (s.modFlashIf f).cfg = s.cfg := rfl
@[simp] theorem State.modFlashIf_ospi (s : State) (f : FlashIfSt → FlashIfSt) : (s.modFlashIf f).ospi = s.ospi := rfl
@[simp] theorem State.modFlashIf_fw (s : State) (f : FlashIfSt → FlashIfSt) : (s.modFlashIf f).fw = s.fw := rfl
@[simp] theorem State.modFlashIf_flt (s : State) (f : FlashIfSt → FlashIfSt) : (s.modFlashIf f).flt = s.flt := rfl
@[simp] theorem State.modFlashIf_evt (s : State) (f : FlashIfSt → FlashIfSt) : (s.modFlashIf f).evt = s.evt := rfl
@[simp] theorem State.modFlashIf_pwr (s : State) (f : FlashIfSt → FlashIfSt) : (s.modFlashIf f).pwr = s.pwr := rfl
@[simp] theorem State.modFlashIf_therm (s : State) (f : FlashIfSt → FlashIfSt) : (s.modFlashIf f).therm = s.therm := rfl
@[simp] theorem State.modFlashIf_pins (s : State) (f : FlashIfSt → FlashIfSt) : (s.modFlashIf f).pins = s.pins := rfl
@[simp] theorem State.modFlashIf_now (s : State) (f : FlashIfSt → FlashIfSt) : (s.modFlashIf f).now = s.now := rfl
@[simp] theorem State.modFlashIf_free (s : State) (f : FlashIfSt → FlashIfSt) : (s.modFlashIf f).free = s.free := rfl
@[simp] theorem State.modFlashIf_out (s : State) (f : FlashIfSt → FlashIfSt) : (s.modFlashIf f).out = s.out := rfl
@[simp] theorem State.modFlashIf_pending (s : State) (f : FlashIfSt → FlashIfSt) : (s.modFlashIf f).pending = s.pending := rfl
@[simp] theorem State.modSeqs_link (s : State) (f : SeqsSt → SeqsSt) : (s.modSeqs f).link = s.link := rfl
@[simp] theorem State.modSeqs_fab (s : State) (f : SeqsSt → SeqsSt) : (s.modSeqs f).fab = s.fab := rfl
@[simp] theorem State.modSeqs_place (s : State) (f : SeqsSt → SeqsSt) : (s.modSeqs f).place = s.place := rfl
@[simp] theorem State.modSeqs_host (s : State) (f : SeqsSt → SeqsSt) : (s.modSeqs f).host = s.host := rfl
@[simp] theorem State.modSeqs_map (s : State) (f : SeqsSt → SeqsSt) : (s.modSeqs f).map = s.map := rfl
@[simp] theorem State.modSeqs_media (s : State) (f : SeqsSt → SeqsSt) : (s.modSeqs f).media = s.media := rfl
@[simp] theorem State.modSeqs_win (s : State) (f : SeqsSt → SeqsSt) : (s.modSeqs f).win = s.win := rfl
@[simp] theorem State.modSeqs_coder (s : State) (f : SeqsSt → SeqsSt) : (s.modSeqs f).coder = s.coder := rfl
@[simp] theorem State.modSeqs_flashIf (s : State) (f : SeqsSt → SeqsSt) : (s.modSeqs f).flashIf = s.flashIf := rfl
@[simp] theorem State.modSeqs_seqs (s : State) (f : SeqsSt → SeqsSt) : (s.modSeqs f).seqs = f s.seqs := rfl
@[simp] theorem State.modSeqs_flash (s : State) (f : SeqsSt → SeqsSt) : (s.modSeqs f).flash = s.flash := rfl
@[simp] theorem State.modSeqs_rack (s : State) (f : SeqsSt → SeqsSt) : (s.modSeqs f).rack = s.rack := rfl
@[simp] theorem State.modSeqs_chan (s : State) (f : SeqsSt → SeqsSt) : (s.modSeqs f).chan = s.chan := rfl
@[simp] theorem State.modSeqs_servo (s : State) (f : SeqsSt → SeqsSt) : (s.modSeqs f).servo = s.servo := rfl
@[simp] theorem State.modSeqs_dram (s : State) (f : SeqsSt → SeqsSt) : (s.modSeqs f).dram = s.dram := rfl
@[simp] theorem State.modSeqs_pool (s : State) (f : SeqsSt → SeqsSt) : (s.modSeqs f).pool = s.pool := rfl
@[simp] theorem State.modSeqs_pcie (s : State) (f : SeqsSt → SeqsSt) : (s.modSeqs f).pcie = s.pcie := rfl
@[simp] theorem State.modSeqs_nvme (s : State) (f : SeqsSt → SeqsSt) : (s.modSeqs f).nvme = s.nvme := rfl
@[simp] theorem State.modSeqs_cfg (s : State) (f : SeqsSt → SeqsSt) : (s.modSeqs f).cfg = s.cfg := rfl
@[simp] theorem State.modSeqs_ospi (s : State) (f : SeqsSt → SeqsSt) : (s.modSeqs f).ospi = s.ospi := rfl
@[simp] theorem State.modSeqs_fw (s : State) (f : SeqsSt → SeqsSt) : (s.modSeqs f).fw = s.fw := rfl
@[simp] theorem State.modSeqs_flt (s : State) (f : SeqsSt → SeqsSt) : (s.modSeqs f).flt = s.flt := rfl
@[simp] theorem State.modSeqs_evt (s : State) (f : SeqsSt → SeqsSt) : (s.modSeqs f).evt = s.evt := rfl
@[simp] theorem State.modSeqs_pwr (s : State) (f : SeqsSt → SeqsSt) : (s.modSeqs f).pwr = s.pwr := rfl
@[simp] theorem State.modSeqs_therm (s : State) (f : SeqsSt → SeqsSt) : (s.modSeqs f).therm = s.therm := rfl
@[simp] theorem State.modSeqs_pins (s : State) (f : SeqsSt → SeqsSt) : (s.modSeqs f).pins = s.pins := rfl
@[simp] theorem State.modSeqs_now (s : State) (f : SeqsSt → SeqsSt) : (s.modSeqs f).now = s.now := rfl
@[simp] theorem State.modSeqs_free (s : State) (f : SeqsSt → SeqsSt) : (s.modSeqs f).free = s.free := rfl
@[simp] theorem State.modSeqs_out (s : State) (f : SeqsSt → SeqsSt) : (s.modSeqs f).out = s.out := rfl
@[simp] theorem State.modSeqs_pending (s : State) (f : SeqsSt → SeqsSt) : (s.modSeqs f).pending = s.pending := rfl
@[simp] theorem State.modFlash_link (s : State) (f : FlashSt → FlashSt) : (s.modFlash f).link = s.link := rfl
@[simp] theorem State.modFlash_fab (s : State) (f : FlashSt → FlashSt) : (s.modFlash f).fab = s.fab := rfl
@[simp] theorem State.modFlash_place (s : State) (f : FlashSt → FlashSt) : (s.modFlash f).place = s.place := rfl
@[simp] theorem State.modFlash_host (s : State) (f : FlashSt → FlashSt) : (s.modFlash f).host = s.host := rfl
@[simp] theorem State.modFlash_map (s : State) (f : FlashSt → FlashSt) : (s.modFlash f).map = s.map := rfl
@[simp] theorem State.modFlash_media (s : State) (f : FlashSt → FlashSt) : (s.modFlash f).media = s.media := rfl
@[simp] theorem State.modFlash_win (s : State) (f : FlashSt → FlashSt) : (s.modFlash f).win = s.win := rfl
@[simp] theorem State.modFlash_coder (s : State) (f : FlashSt → FlashSt) : (s.modFlash f).coder = s.coder := rfl
@[simp] theorem State.modFlash_flashIf (s : State) (f : FlashSt → FlashSt) : (s.modFlash f).flashIf = s.flashIf := rfl
@[simp] theorem State.modFlash_seqs (s : State) (f : FlashSt → FlashSt) : (s.modFlash f).seqs = s.seqs := rfl
@[simp] theorem State.modFlash_flash (s : State) (f : FlashSt → FlashSt) : (s.modFlash f).flash = f s.flash := rfl
@[simp] theorem State.modFlash_rack (s : State) (f : FlashSt → FlashSt) : (s.modFlash f).rack = s.rack := rfl
@[simp] theorem State.modFlash_chan (s : State) (f : FlashSt → FlashSt) : (s.modFlash f).chan = s.chan := rfl
@[simp] theorem State.modFlash_servo (s : State) (f : FlashSt → FlashSt) : (s.modFlash f).servo = s.servo := rfl
@[simp] theorem State.modFlash_dram (s : State) (f : FlashSt → FlashSt) : (s.modFlash f).dram = s.dram := rfl
@[simp] theorem State.modFlash_pool (s : State) (f : FlashSt → FlashSt) : (s.modFlash f).pool = s.pool := rfl
@[simp] theorem State.modFlash_pcie (s : State) (f : FlashSt → FlashSt) : (s.modFlash f).pcie = s.pcie := rfl
@[simp] theorem State.modFlash_nvme (s : State) (f : FlashSt → FlashSt) : (s.modFlash f).nvme = s.nvme := rfl
@[simp] theorem State.modFlash_cfg (s : State) (f : FlashSt → FlashSt) : (s.modFlash f).cfg = s.cfg := rfl
@[simp] theorem State.modFlash_ospi (s : State) (f : FlashSt → FlashSt) : (s.modFlash f).ospi = s.ospi := rfl
@[simp] theorem State.modFlash_fw (s : State) (f : FlashSt → FlashSt) : (s.modFlash f).fw = s.fw := rfl
@[simp] theorem State.modFlash_flt (s : State) (f : FlashSt → FlashSt) : (s.modFlash f).flt = s.flt := rfl
@[simp] theorem State.modFlash_evt (s : State) (f : FlashSt → FlashSt) : (s.modFlash f).evt = s.evt := rfl
@[simp] theorem State.modFlash_pwr (s : State) (f : FlashSt → FlashSt) : (s.modFlash f).pwr = s.pwr := rfl
@[simp] theorem State.modFlash_therm (s : State) (f : FlashSt → FlashSt) : (s.modFlash f).therm = s.therm := rfl
@[simp] theorem State.modFlash_pins (s : State) (f : FlashSt → FlashSt) : (s.modFlash f).pins = s.pins := rfl
@[simp] theorem State.modFlash_now (s : State) (f : FlashSt → FlashSt) : (s.modFlash f).now = s.now := rfl
@[simp] theorem State.modFlash_free (s : State) (f : FlashSt → FlashSt) : (s.modFlash f).free = s.free := rfl
@[simp] theorem State.modFlash_out (s : State) (f : FlashSt → FlashSt) : (s.modFlash f).out = s.out := rfl
@[simp] theorem State.modFlash_pending (s : State) (f : FlashSt → FlashSt) : (s.modFlash f).pending = s.pending := rfl
@[simp] theorem State.modRack_link (s : State) (f : RackSt → RackSt) : (s.modRack f).link = s.link := rfl
@[simp] theorem State.modRack_fab (s : State) (f : RackSt → RackSt) : (s.modRack f).fab = s.fab := rfl
@[simp] theorem State.modRack_place (s : State) (f : RackSt → RackSt) : (s.modRack f).place = s.place := rfl
@[simp] theorem State.modRack_host (s : State) (f : RackSt → RackSt) : (s.modRack f).host = s.host := rfl
@[simp] theorem State.modRack_map (s : State) (f : RackSt → RackSt) : (s.modRack f).map = s.map := rfl
@[simp] theorem State.modRack_media (s : State) (f : RackSt → RackSt) : (s.modRack f).media = s.media := rfl
@[simp] theorem State.modRack_win (s : State) (f : RackSt → RackSt) : (s.modRack f).win = s.win := rfl
@[simp] theorem State.modRack_coder (s : State) (f : RackSt → RackSt) : (s.modRack f).coder = s.coder := rfl
@[simp] theorem State.modRack_flashIf (s : State) (f : RackSt → RackSt) : (s.modRack f).flashIf = s.flashIf := rfl
@[simp] theorem State.modRack_seqs (s : State) (f : RackSt → RackSt) : (s.modRack f).seqs = s.seqs := rfl
@[simp] theorem State.modRack_flash (s : State) (f : RackSt → RackSt) : (s.modRack f).flash = s.flash := rfl
@[simp] theorem State.modRack_rack (s : State) (f : RackSt → RackSt) : (s.modRack f).rack = f s.rack := rfl
@[simp] theorem State.modRack_chan (s : State) (f : RackSt → RackSt) : (s.modRack f).chan = s.chan := rfl
@[simp] theorem State.modRack_servo (s : State) (f : RackSt → RackSt) : (s.modRack f).servo = s.servo := rfl
@[simp] theorem State.modRack_dram (s : State) (f : RackSt → RackSt) : (s.modRack f).dram = s.dram := rfl
@[simp] theorem State.modRack_pool (s : State) (f : RackSt → RackSt) : (s.modRack f).pool = s.pool := rfl
@[simp] theorem State.modRack_pcie (s : State) (f : RackSt → RackSt) : (s.modRack f).pcie = s.pcie := rfl
@[simp] theorem State.modRack_nvme (s : State) (f : RackSt → RackSt) : (s.modRack f).nvme = s.nvme := rfl
@[simp] theorem State.modRack_cfg (s : State) (f : RackSt → RackSt) : (s.modRack f).cfg = s.cfg := rfl
@[simp] theorem State.modRack_ospi (s : State) (f : RackSt → RackSt) : (s.modRack f).ospi = s.ospi := rfl
@[simp] theorem State.modRack_fw (s : State) (f : RackSt → RackSt) : (s.modRack f).fw = s.fw := rfl
@[simp] theorem State.modRack_flt (s : State) (f : RackSt → RackSt) : (s.modRack f).flt = s.flt := rfl
@[simp] theorem State.modRack_evt (s : State) (f : RackSt → RackSt) : (s.modRack f).evt = s.evt := rfl
@[simp] theorem State.modRack_pwr (s : State) (f : RackSt → RackSt) : (s.modRack f).pwr = s.pwr := rfl
@[simp] theorem State.modRack_therm (s : State) (f : RackSt → RackSt) : (s.modRack f).therm = s.therm := rfl
@[simp] theorem State.modRack_pins (s : State) (f : RackSt → RackSt) : (s.modRack f).pins = s.pins := rfl
@[simp] theorem State.modRack_now (s : State) (f : RackSt → RackSt) : (s.modRack f).now = s.now := rfl
@[simp] theorem State.modRack_free (s : State) (f : RackSt → RackSt) : (s.modRack f).free = s.free := rfl
@[simp] theorem State.modRack_out (s : State) (f : RackSt → RackSt) : (s.modRack f).out = s.out := rfl
@[simp] theorem State.modRack_pending (s : State) (f : RackSt → RackSt) : (s.modRack f).pending = s.pending := rfl
@[simp] theorem State.modChan_link (s : State) (f : ChanAssistSt → ChanAssistSt) : (s.modChan f).link = s.link := rfl
@[simp] theorem State.modChan_fab (s : State) (f : ChanAssistSt → ChanAssistSt) : (s.modChan f).fab = s.fab := rfl
@[simp] theorem State.modChan_place (s : State) (f : ChanAssistSt → ChanAssistSt) : (s.modChan f).place = s.place := rfl
@[simp] theorem State.modChan_host (s : State) (f : ChanAssistSt → ChanAssistSt) : (s.modChan f).host = s.host := rfl
@[simp] theorem State.modChan_map (s : State) (f : ChanAssistSt → ChanAssistSt) : (s.modChan f).map = s.map := rfl
@[simp] theorem State.modChan_media (s : State) (f : ChanAssistSt → ChanAssistSt) : (s.modChan f).media = s.media := rfl
@[simp] theorem State.modChan_win (s : State) (f : ChanAssistSt → ChanAssistSt) : (s.modChan f).win = s.win := rfl
@[simp] theorem State.modChan_coder (s : State) (f : ChanAssistSt → ChanAssistSt) : (s.modChan f).coder = s.coder := rfl
@[simp] theorem State.modChan_flashIf (s : State) (f : ChanAssistSt → ChanAssistSt) : (s.modChan f).flashIf = s.flashIf := rfl
@[simp] theorem State.modChan_seqs (s : State) (f : ChanAssistSt → ChanAssistSt) : (s.modChan f).seqs = s.seqs := rfl
@[simp] theorem State.modChan_flash (s : State) (f : ChanAssistSt → ChanAssistSt) : (s.modChan f).flash = s.flash := rfl
@[simp] theorem State.modChan_rack (s : State) (f : ChanAssistSt → ChanAssistSt) : (s.modChan f).rack = s.rack := rfl
@[simp] theorem State.modChan_chan (s : State) (f : ChanAssistSt → ChanAssistSt) : (s.modChan f).chan = f s.chan := rfl
@[simp] theorem State.modChan_servo (s : State) (f : ChanAssistSt → ChanAssistSt) : (s.modChan f).servo = s.servo := rfl
@[simp] theorem State.modChan_dram (s : State) (f : ChanAssistSt → ChanAssistSt) : (s.modChan f).dram = s.dram := rfl
@[simp] theorem State.modChan_pool (s : State) (f : ChanAssistSt → ChanAssistSt) : (s.modChan f).pool = s.pool := rfl
@[simp] theorem State.modChan_pcie (s : State) (f : ChanAssistSt → ChanAssistSt) : (s.modChan f).pcie = s.pcie := rfl
@[simp] theorem State.modChan_nvme (s : State) (f : ChanAssistSt → ChanAssistSt) : (s.modChan f).nvme = s.nvme := rfl
@[simp] theorem State.modChan_cfg (s : State) (f : ChanAssistSt → ChanAssistSt) : (s.modChan f).cfg = s.cfg := rfl
@[simp] theorem State.modChan_ospi (s : State) (f : ChanAssistSt → ChanAssistSt) : (s.modChan f).ospi = s.ospi := rfl
@[simp] theorem State.modChan_fw (s : State) (f : ChanAssistSt → ChanAssistSt) : (s.modChan f).fw = s.fw := rfl
@[simp] theorem State.modChan_flt (s : State) (f : ChanAssistSt → ChanAssistSt) : (s.modChan f).flt = s.flt := rfl
@[simp] theorem State.modChan_evt (s : State) (f : ChanAssistSt → ChanAssistSt) : (s.modChan f).evt = s.evt := rfl
@[simp] theorem State.modChan_pwr (s : State) (f : ChanAssistSt → ChanAssistSt) : (s.modChan f).pwr = s.pwr := rfl
@[simp] theorem State.modChan_therm (s : State) (f : ChanAssistSt → ChanAssistSt) : (s.modChan f).therm = s.therm := rfl
@[simp] theorem State.modChan_pins (s : State) (f : ChanAssistSt → ChanAssistSt) : (s.modChan f).pins = s.pins := rfl
@[simp] theorem State.modChan_now (s : State) (f : ChanAssistSt → ChanAssistSt) : (s.modChan f).now = s.now := rfl
@[simp] theorem State.modChan_free (s : State) (f : ChanAssistSt → ChanAssistSt) : (s.modChan f).free = s.free := rfl
@[simp] theorem State.modChan_out (s : State) (f : ChanAssistSt → ChanAssistSt) : (s.modChan f).out = s.out := rfl
@[simp] theorem State.modChan_pending (s : State) (f : ChanAssistSt → ChanAssistSt) : (s.modChan f).pending = s.pending := rfl
@[simp] theorem State.modServo_link (s : State) (f : ServoSt → ServoSt) : (s.modServo f).link = s.link := rfl
@[simp] theorem State.modServo_fab (s : State) (f : ServoSt → ServoSt) : (s.modServo f).fab = s.fab := rfl
@[simp] theorem State.modServo_place (s : State) (f : ServoSt → ServoSt) : (s.modServo f).place = s.place := rfl
@[simp] theorem State.modServo_host (s : State) (f : ServoSt → ServoSt) : (s.modServo f).host = s.host := rfl
@[simp] theorem State.modServo_map (s : State) (f : ServoSt → ServoSt) : (s.modServo f).map = s.map := rfl
@[simp] theorem State.modServo_media (s : State) (f : ServoSt → ServoSt) : (s.modServo f).media = s.media := rfl
@[simp] theorem State.modServo_win (s : State) (f : ServoSt → ServoSt) : (s.modServo f).win = s.win := rfl
@[simp] theorem State.modServo_coder (s : State) (f : ServoSt → ServoSt) : (s.modServo f).coder = s.coder := rfl
@[simp] theorem State.modServo_flashIf (s : State) (f : ServoSt → ServoSt) : (s.modServo f).flashIf = s.flashIf := rfl
@[simp] theorem State.modServo_seqs (s : State) (f : ServoSt → ServoSt) : (s.modServo f).seqs = s.seqs := rfl
@[simp] theorem State.modServo_flash (s : State) (f : ServoSt → ServoSt) : (s.modServo f).flash = s.flash := rfl
@[simp] theorem State.modServo_rack (s : State) (f : ServoSt → ServoSt) : (s.modServo f).rack = s.rack := rfl
@[simp] theorem State.modServo_chan (s : State) (f : ServoSt → ServoSt) : (s.modServo f).chan = s.chan := rfl
@[simp] theorem State.modServo_servo (s : State) (f : ServoSt → ServoSt) : (s.modServo f).servo = f s.servo := rfl
@[simp] theorem State.modServo_dram (s : State) (f : ServoSt → ServoSt) : (s.modServo f).dram = s.dram := rfl
@[simp] theorem State.modServo_pool (s : State) (f : ServoSt → ServoSt) : (s.modServo f).pool = s.pool := rfl
@[simp] theorem State.modServo_pcie (s : State) (f : ServoSt → ServoSt) : (s.modServo f).pcie = s.pcie := rfl
@[simp] theorem State.modServo_nvme (s : State) (f : ServoSt → ServoSt) : (s.modServo f).nvme = s.nvme := rfl
@[simp] theorem State.modServo_cfg (s : State) (f : ServoSt → ServoSt) : (s.modServo f).cfg = s.cfg := rfl
@[simp] theorem State.modServo_ospi (s : State) (f : ServoSt → ServoSt) : (s.modServo f).ospi = s.ospi := rfl
@[simp] theorem State.modServo_fw (s : State) (f : ServoSt → ServoSt) : (s.modServo f).fw = s.fw := rfl
@[simp] theorem State.modServo_flt (s : State) (f : ServoSt → ServoSt) : (s.modServo f).flt = s.flt := rfl
@[simp] theorem State.modServo_evt (s : State) (f : ServoSt → ServoSt) : (s.modServo f).evt = s.evt := rfl
@[simp] theorem State.modServo_pwr (s : State) (f : ServoSt → ServoSt) : (s.modServo f).pwr = s.pwr := rfl
@[simp] theorem State.modServo_therm (s : State) (f : ServoSt → ServoSt) : (s.modServo f).therm = s.therm := rfl
@[simp] theorem State.modServo_pins (s : State) (f : ServoSt → ServoSt) : (s.modServo f).pins = s.pins := rfl
@[simp] theorem State.modServo_now (s : State) (f : ServoSt → ServoSt) : (s.modServo f).now = s.now := rfl
@[simp] theorem State.modServo_free (s : State) (f : ServoSt → ServoSt) : (s.modServo f).free = s.free := rfl
@[simp] theorem State.modServo_out (s : State) (f : ServoSt → ServoSt) : (s.modServo f).out = s.out := rfl
@[simp] theorem State.modServo_pending (s : State) (f : ServoSt → ServoSt) : (s.modServo f).pending = s.pending := rfl
@[simp] theorem State.modDram_link (s : State) (f : DramSt → DramSt) : (s.modDram f).link = s.link := rfl
@[simp] theorem State.modDram_fab (s : State) (f : DramSt → DramSt) : (s.modDram f).fab = s.fab := rfl
@[simp] theorem State.modDram_place (s : State) (f : DramSt → DramSt) : (s.modDram f).place = s.place := rfl
@[simp] theorem State.modDram_host (s : State) (f : DramSt → DramSt) : (s.modDram f).host = s.host := rfl
@[simp] theorem State.modDram_map (s : State) (f : DramSt → DramSt) : (s.modDram f).map = s.map := rfl
@[simp] theorem State.modDram_media (s : State) (f : DramSt → DramSt) : (s.modDram f).media = s.media := rfl
@[simp] theorem State.modDram_win (s : State) (f : DramSt → DramSt) : (s.modDram f).win = s.win := rfl
@[simp] theorem State.modDram_coder (s : State) (f : DramSt → DramSt) : (s.modDram f).coder = s.coder := rfl
@[simp] theorem State.modDram_flashIf (s : State) (f : DramSt → DramSt) : (s.modDram f).flashIf = s.flashIf := rfl
@[simp] theorem State.modDram_seqs (s : State) (f : DramSt → DramSt) : (s.modDram f).seqs = s.seqs := rfl
@[simp] theorem State.modDram_flash (s : State) (f : DramSt → DramSt) : (s.modDram f).flash = s.flash := rfl
@[simp] theorem State.modDram_rack (s : State) (f : DramSt → DramSt) : (s.modDram f).rack = s.rack := rfl
@[simp] theorem State.modDram_chan (s : State) (f : DramSt → DramSt) : (s.modDram f).chan = s.chan := rfl
@[simp] theorem State.modDram_servo (s : State) (f : DramSt → DramSt) : (s.modDram f).servo = s.servo := rfl
@[simp] theorem State.modDram_dram (s : State) (f : DramSt → DramSt) : (s.modDram f).dram = f s.dram := rfl
@[simp] theorem State.modDram_pool (s : State) (f : DramSt → DramSt) : (s.modDram f).pool = s.pool := rfl
@[simp] theorem State.modDram_pcie (s : State) (f : DramSt → DramSt) : (s.modDram f).pcie = s.pcie := rfl
@[simp] theorem State.modDram_nvme (s : State) (f : DramSt → DramSt) : (s.modDram f).nvme = s.nvme := rfl
@[simp] theorem State.modDram_cfg (s : State) (f : DramSt → DramSt) : (s.modDram f).cfg = s.cfg := rfl
@[simp] theorem State.modDram_ospi (s : State) (f : DramSt → DramSt) : (s.modDram f).ospi = s.ospi := rfl
@[simp] theorem State.modDram_fw (s : State) (f : DramSt → DramSt) : (s.modDram f).fw = s.fw := rfl
@[simp] theorem State.modDram_flt (s : State) (f : DramSt → DramSt) : (s.modDram f).flt = s.flt := rfl
@[simp] theorem State.modDram_evt (s : State) (f : DramSt → DramSt) : (s.modDram f).evt = s.evt := rfl
@[simp] theorem State.modDram_pwr (s : State) (f : DramSt → DramSt) : (s.modDram f).pwr = s.pwr := rfl
@[simp] theorem State.modDram_therm (s : State) (f : DramSt → DramSt) : (s.modDram f).therm = s.therm := rfl
@[simp] theorem State.modDram_pins (s : State) (f : DramSt → DramSt) : (s.modDram f).pins = s.pins := rfl
@[simp] theorem State.modDram_now (s : State) (f : DramSt → DramSt) : (s.modDram f).now = s.now := rfl
@[simp] theorem State.modDram_free (s : State) (f : DramSt → DramSt) : (s.modDram f).free = s.free := rfl
@[simp] theorem State.modDram_out (s : State) (f : DramSt → DramSt) : (s.modDram f).out = s.out := rfl
@[simp] theorem State.modDram_pending (s : State) (f : DramSt → DramSt) : (s.modDram f).pending = s.pending := rfl
@[simp] theorem State.modPool_link (s : State) (f : PoolSt → PoolSt) : (s.modPool f).link = s.link := rfl
@[simp] theorem State.modPool_fab (s : State) (f : PoolSt → PoolSt) : (s.modPool f).fab = s.fab := rfl
@[simp] theorem State.modPool_place (s : State) (f : PoolSt → PoolSt) : (s.modPool f).place = s.place := rfl
@[simp] theorem State.modPool_host (s : State) (f : PoolSt → PoolSt) : (s.modPool f).host = s.host := rfl
@[simp] theorem State.modPool_map (s : State) (f : PoolSt → PoolSt) : (s.modPool f).map = s.map := rfl
@[simp] theorem State.modPool_media (s : State) (f : PoolSt → PoolSt) : (s.modPool f).media = s.media := rfl
@[simp] theorem State.modPool_win (s : State) (f : PoolSt → PoolSt) : (s.modPool f).win = s.win := rfl
@[simp] theorem State.modPool_coder (s : State) (f : PoolSt → PoolSt) : (s.modPool f).coder = s.coder := rfl
@[simp] theorem State.modPool_flashIf (s : State) (f : PoolSt → PoolSt) : (s.modPool f).flashIf = s.flashIf := rfl
@[simp] theorem State.modPool_seqs (s : State) (f : PoolSt → PoolSt) : (s.modPool f).seqs = s.seqs := rfl
@[simp] theorem State.modPool_flash (s : State) (f : PoolSt → PoolSt) : (s.modPool f).flash = s.flash := rfl
@[simp] theorem State.modPool_rack (s : State) (f : PoolSt → PoolSt) : (s.modPool f).rack = s.rack := rfl
@[simp] theorem State.modPool_chan (s : State) (f : PoolSt → PoolSt) : (s.modPool f).chan = s.chan := rfl
@[simp] theorem State.modPool_servo (s : State) (f : PoolSt → PoolSt) : (s.modPool f).servo = s.servo := rfl
@[simp] theorem State.modPool_dram (s : State) (f : PoolSt → PoolSt) : (s.modPool f).dram = s.dram := rfl
@[simp] theorem State.modPool_pool (s : State) (f : PoolSt → PoolSt) : (s.modPool f).pool = f s.pool := rfl
@[simp] theorem State.modPool_pcie (s : State) (f : PoolSt → PoolSt) : (s.modPool f).pcie = s.pcie := rfl
@[simp] theorem State.modPool_nvme (s : State) (f : PoolSt → PoolSt) : (s.modPool f).nvme = s.nvme := rfl
@[simp] theorem State.modPool_cfg (s : State) (f : PoolSt → PoolSt) : (s.modPool f).cfg = s.cfg := rfl
@[simp] theorem State.modPool_ospi (s : State) (f : PoolSt → PoolSt) : (s.modPool f).ospi = s.ospi := rfl
@[simp] theorem State.modPool_fw (s : State) (f : PoolSt → PoolSt) : (s.modPool f).fw = s.fw := rfl
@[simp] theorem State.modPool_flt (s : State) (f : PoolSt → PoolSt) : (s.modPool f).flt = s.flt := rfl
@[simp] theorem State.modPool_evt (s : State) (f : PoolSt → PoolSt) : (s.modPool f).evt = s.evt := rfl
@[simp] theorem State.modPool_pwr (s : State) (f : PoolSt → PoolSt) : (s.modPool f).pwr = s.pwr := rfl
@[simp] theorem State.modPool_therm (s : State) (f : PoolSt → PoolSt) : (s.modPool f).therm = s.therm := rfl
@[simp] theorem State.modPool_pins (s : State) (f : PoolSt → PoolSt) : (s.modPool f).pins = s.pins := rfl
@[simp] theorem State.modPool_now (s : State) (f : PoolSt → PoolSt) : (s.modPool f).now = s.now := rfl
@[simp] theorem State.modPool_free (s : State) (f : PoolSt → PoolSt) : (s.modPool f).free = s.free := rfl
@[simp] theorem State.modPool_out (s : State) (f : PoolSt → PoolSt) : (s.modPool f).out = s.out := rfl
@[simp] theorem State.modPool_pending (s : State) (f : PoolSt → PoolSt) : (s.modPool f).pending = s.pending := rfl
@[simp] theorem State.modPcie_link (s : State) (f : PcieSt → PcieSt) : (s.modPcie f).link = s.link := rfl
@[simp] theorem State.modPcie_fab (s : State) (f : PcieSt → PcieSt) : (s.modPcie f).fab = s.fab := rfl
@[simp] theorem State.modPcie_place (s : State) (f : PcieSt → PcieSt) : (s.modPcie f).place = s.place := rfl
@[simp] theorem State.modPcie_host (s : State) (f : PcieSt → PcieSt) : (s.modPcie f).host = s.host := rfl
@[simp] theorem State.modPcie_map (s : State) (f : PcieSt → PcieSt) : (s.modPcie f).map = s.map := rfl
@[simp] theorem State.modPcie_media (s : State) (f : PcieSt → PcieSt) : (s.modPcie f).media = s.media := rfl
@[simp] theorem State.modPcie_win (s : State) (f : PcieSt → PcieSt) : (s.modPcie f).win = s.win := rfl
@[simp] theorem State.modPcie_coder (s : State) (f : PcieSt → PcieSt) : (s.modPcie f).coder = s.coder := rfl
@[simp] theorem State.modPcie_flashIf (s : State) (f : PcieSt → PcieSt) : (s.modPcie f).flashIf = s.flashIf := rfl
@[simp] theorem State.modPcie_seqs (s : State) (f : PcieSt → PcieSt) : (s.modPcie f).seqs = s.seqs := rfl
@[simp] theorem State.modPcie_flash (s : State) (f : PcieSt → PcieSt) : (s.modPcie f).flash = s.flash := rfl
@[simp] theorem State.modPcie_rack (s : State) (f : PcieSt → PcieSt) : (s.modPcie f).rack = s.rack := rfl
@[simp] theorem State.modPcie_chan (s : State) (f : PcieSt → PcieSt) : (s.modPcie f).chan = s.chan := rfl
@[simp] theorem State.modPcie_servo (s : State) (f : PcieSt → PcieSt) : (s.modPcie f).servo = s.servo := rfl
@[simp] theorem State.modPcie_dram (s : State) (f : PcieSt → PcieSt) : (s.modPcie f).dram = s.dram := rfl
@[simp] theorem State.modPcie_pool (s : State) (f : PcieSt → PcieSt) : (s.modPcie f).pool = s.pool := rfl
@[simp] theorem State.modPcie_pcie (s : State) (f : PcieSt → PcieSt) : (s.modPcie f).pcie = f s.pcie := rfl
@[simp] theorem State.modPcie_nvme (s : State) (f : PcieSt → PcieSt) : (s.modPcie f).nvme = s.nvme := rfl
@[simp] theorem State.modPcie_cfg (s : State) (f : PcieSt → PcieSt) : (s.modPcie f).cfg = s.cfg := rfl
@[simp] theorem State.modPcie_ospi (s : State) (f : PcieSt → PcieSt) : (s.modPcie f).ospi = s.ospi := rfl
@[simp] theorem State.modPcie_fw (s : State) (f : PcieSt → PcieSt) : (s.modPcie f).fw = s.fw := rfl
@[simp] theorem State.modPcie_flt (s : State) (f : PcieSt → PcieSt) : (s.modPcie f).flt = s.flt := rfl
@[simp] theorem State.modPcie_evt (s : State) (f : PcieSt → PcieSt) : (s.modPcie f).evt = s.evt := rfl
@[simp] theorem State.modPcie_pwr (s : State) (f : PcieSt → PcieSt) : (s.modPcie f).pwr = s.pwr := rfl
@[simp] theorem State.modPcie_therm (s : State) (f : PcieSt → PcieSt) : (s.modPcie f).therm = s.therm := rfl
@[simp] theorem State.modPcie_pins (s : State) (f : PcieSt → PcieSt) : (s.modPcie f).pins = s.pins := rfl
@[simp] theorem State.modPcie_now (s : State) (f : PcieSt → PcieSt) : (s.modPcie f).now = s.now := rfl
@[simp] theorem State.modPcie_free (s : State) (f : PcieSt → PcieSt) : (s.modPcie f).free = s.free := rfl
@[simp] theorem State.modPcie_out (s : State) (f : PcieSt → PcieSt) : (s.modPcie f).out = s.out := rfl
@[simp] theorem State.modPcie_pending (s : State) (f : PcieSt → PcieSt) : (s.modPcie f).pending = s.pending := rfl
@[simp] theorem State.modNvme_link (s : State) (f : NvmeSt → NvmeSt) : (s.modNvme f).link = s.link := rfl
@[simp] theorem State.modNvme_fab (s : State) (f : NvmeSt → NvmeSt) : (s.modNvme f).fab = s.fab := rfl
@[simp] theorem State.modNvme_place (s : State) (f : NvmeSt → NvmeSt) : (s.modNvme f).place = s.place := rfl
@[simp] theorem State.modNvme_host (s : State) (f : NvmeSt → NvmeSt) : (s.modNvme f).host = s.host := rfl
@[simp] theorem State.modNvme_map (s : State) (f : NvmeSt → NvmeSt) : (s.modNvme f).map = s.map := rfl
@[simp] theorem State.modNvme_media (s : State) (f : NvmeSt → NvmeSt) : (s.modNvme f).media = s.media := rfl
@[simp] theorem State.modNvme_win (s : State) (f : NvmeSt → NvmeSt) : (s.modNvme f).win = s.win := rfl
@[simp] theorem State.modNvme_coder (s : State) (f : NvmeSt → NvmeSt) : (s.modNvme f).coder = s.coder := rfl
@[simp] theorem State.modNvme_flashIf (s : State) (f : NvmeSt → NvmeSt) : (s.modNvme f).flashIf = s.flashIf := rfl
@[simp] theorem State.modNvme_seqs (s : State) (f : NvmeSt → NvmeSt) : (s.modNvme f).seqs = s.seqs := rfl
@[simp] theorem State.modNvme_flash (s : State) (f : NvmeSt → NvmeSt) : (s.modNvme f).flash = s.flash := rfl
@[simp] theorem State.modNvme_rack (s : State) (f : NvmeSt → NvmeSt) : (s.modNvme f).rack = s.rack := rfl
@[simp] theorem State.modNvme_chan (s : State) (f : NvmeSt → NvmeSt) : (s.modNvme f).chan = s.chan := rfl
@[simp] theorem State.modNvme_servo (s : State) (f : NvmeSt → NvmeSt) : (s.modNvme f).servo = s.servo := rfl
@[simp] theorem State.modNvme_dram (s : State) (f : NvmeSt → NvmeSt) : (s.modNvme f).dram = s.dram := rfl
@[simp] theorem State.modNvme_pool (s : State) (f : NvmeSt → NvmeSt) : (s.modNvme f).pool = s.pool := rfl
@[simp] theorem State.modNvme_pcie (s : State) (f : NvmeSt → NvmeSt) : (s.modNvme f).pcie = s.pcie := rfl
@[simp] theorem State.modNvme_nvme (s : State) (f : NvmeSt → NvmeSt) : (s.modNvme f).nvme = f s.nvme := rfl
@[simp] theorem State.modNvme_cfg (s : State) (f : NvmeSt → NvmeSt) : (s.modNvme f).cfg = s.cfg := rfl
@[simp] theorem State.modNvme_ospi (s : State) (f : NvmeSt → NvmeSt) : (s.modNvme f).ospi = s.ospi := rfl
@[simp] theorem State.modNvme_fw (s : State) (f : NvmeSt → NvmeSt) : (s.modNvme f).fw = s.fw := rfl
@[simp] theorem State.modNvme_flt (s : State) (f : NvmeSt → NvmeSt) : (s.modNvme f).flt = s.flt := rfl
@[simp] theorem State.modNvme_evt (s : State) (f : NvmeSt → NvmeSt) : (s.modNvme f).evt = s.evt := rfl
@[simp] theorem State.modNvme_pwr (s : State) (f : NvmeSt → NvmeSt) : (s.modNvme f).pwr = s.pwr := rfl
@[simp] theorem State.modNvme_therm (s : State) (f : NvmeSt → NvmeSt) : (s.modNvme f).therm = s.therm := rfl
@[simp] theorem State.modNvme_pins (s : State) (f : NvmeSt → NvmeSt) : (s.modNvme f).pins = s.pins := rfl
@[simp] theorem State.modNvme_now (s : State) (f : NvmeSt → NvmeSt) : (s.modNvme f).now = s.now := rfl
@[simp] theorem State.modNvme_free (s : State) (f : NvmeSt → NvmeSt) : (s.modNvme f).free = s.free := rfl
@[simp] theorem State.modNvme_out (s : State) (f : NvmeSt → NvmeSt) : (s.modNvme f).out = s.out := rfl
@[simp] theorem State.modNvme_pending (s : State) (f : NvmeSt → NvmeSt) : (s.modNvme f).pending = s.pending := rfl
@[simp] theorem State.modCfg_link (s : State) (f : CfgSt → CfgSt) : (s.modCfg f).link = s.link := rfl
@[simp] theorem State.modCfg_fab (s : State) (f : CfgSt → CfgSt) : (s.modCfg f).fab = s.fab := rfl
@[simp] theorem State.modCfg_place (s : State) (f : CfgSt → CfgSt) : (s.modCfg f).place = s.place := rfl
@[simp] theorem State.modCfg_host (s : State) (f : CfgSt → CfgSt) : (s.modCfg f).host = s.host := rfl
@[simp] theorem State.modCfg_map (s : State) (f : CfgSt → CfgSt) : (s.modCfg f).map = s.map := rfl
@[simp] theorem State.modCfg_media (s : State) (f : CfgSt → CfgSt) : (s.modCfg f).media = s.media := rfl
@[simp] theorem State.modCfg_win (s : State) (f : CfgSt → CfgSt) : (s.modCfg f).win = s.win := rfl
@[simp] theorem State.modCfg_coder (s : State) (f : CfgSt → CfgSt) : (s.modCfg f).coder = s.coder := rfl
@[simp] theorem State.modCfg_flashIf (s : State) (f : CfgSt → CfgSt) : (s.modCfg f).flashIf = s.flashIf := rfl
@[simp] theorem State.modCfg_seqs (s : State) (f : CfgSt → CfgSt) : (s.modCfg f).seqs = s.seqs := rfl
@[simp] theorem State.modCfg_flash (s : State) (f : CfgSt → CfgSt) : (s.modCfg f).flash = s.flash := rfl
@[simp] theorem State.modCfg_rack (s : State) (f : CfgSt → CfgSt) : (s.modCfg f).rack = s.rack := rfl
@[simp] theorem State.modCfg_chan (s : State) (f : CfgSt → CfgSt) : (s.modCfg f).chan = s.chan := rfl
@[simp] theorem State.modCfg_servo (s : State) (f : CfgSt → CfgSt) : (s.modCfg f).servo = s.servo := rfl
@[simp] theorem State.modCfg_dram (s : State) (f : CfgSt → CfgSt) : (s.modCfg f).dram = s.dram := rfl
@[simp] theorem State.modCfg_pool (s : State) (f : CfgSt → CfgSt) : (s.modCfg f).pool = s.pool := rfl
@[simp] theorem State.modCfg_pcie (s : State) (f : CfgSt → CfgSt) : (s.modCfg f).pcie = s.pcie := rfl
@[simp] theorem State.modCfg_nvme (s : State) (f : CfgSt → CfgSt) : (s.modCfg f).nvme = s.nvme := rfl
@[simp] theorem State.modCfg_cfg (s : State) (f : CfgSt → CfgSt) : (s.modCfg f).cfg = f s.cfg := rfl
@[simp] theorem State.modCfg_ospi (s : State) (f : CfgSt → CfgSt) : (s.modCfg f).ospi = s.ospi := rfl
@[simp] theorem State.modCfg_fw (s : State) (f : CfgSt → CfgSt) : (s.modCfg f).fw = s.fw := rfl
@[simp] theorem State.modCfg_flt (s : State) (f : CfgSt → CfgSt) : (s.modCfg f).flt = s.flt := rfl
@[simp] theorem State.modCfg_evt (s : State) (f : CfgSt → CfgSt) : (s.modCfg f).evt = s.evt := rfl
@[simp] theorem State.modCfg_pwr (s : State) (f : CfgSt → CfgSt) : (s.modCfg f).pwr = s.pwr := rfl
@[simp] theorem State.modCfg_therm (s : State) (f : CfgSt → CfgSt) : (s.modCfg f).therm = s.therm := rfl
@[simp] theorem State.modCfg_pins (s : State) (f : CfgSt → CfgSt) : (s.modCfg f).pins = s.pins := rfl
@[simp] theorem State.modCfg_now (s : State) (f : CfgSt → CfgSt) : (s.modCfg f).now = s.now := rfl
@[simp] theorem State.modCfg_free (s : State) (f : CfgSt → CfgSt) : (s.modCfg f).free = s.free := rfl
@[simp] theorem State.modCfg_out (s : State) (f : CfgSt → CfgSt) : (s.modCfg f).out = s.out := rfl
@[simp] theorem State.modCfg_pending (s : State) (f : CfgSt → CfgSt) : (s.modCfg f).pending = s.pending := rfl
@[simp] theorem State.modOspi_link (s : State) (f : OspiSt → OspiSt) : (s.modOspi f).link = s.link := rfl
@[simp] theorem State.modOspi_fab (s : State) (f : OspiSt → OspiSt) : (s.modOspi f).fab = s.fab := rfl
@[simp] theorem State.modOspi_place (s : State) (f : OspiSt → OspiSt) : (s.modOspi f).place = s.place := rfl
@[simp] theorem State.modOspi_host (s : State) (f : OspiSt → OspiSt) : (s.modOspi f).host = s.host := rfl
@[simp] theorem State.modOspi_map (s : State) (f : OspiSt → OspiSt) : (s.modOspi f).map = s.map := rfl
@[simp] theorem State.modOspi_media (s : State) (f : OspiSt → OspiSt) : (s.modOspi f).media = s.media := rfl
@[simp] theorem State.modOspi_win (s : State) (f : OspiSt → OspiSt) : (s.modOspi f).win = s.win := rfl
@[simp] theorem State.modOspi_coder (s : State) (f : OspiSt → OspiSt) : (s.modOspi f).coder = s.coder := rfl
@[simp] theorem State.modOspi_flashIf (s : State) (f : OspiSt → OspiSt) : (s.modOspi f).flashIf = s.flashIf := rfl
@[simp] theorem State.modOspi_seqs (s : State) (f : OspiSt → OspiSt) : (s.modOspi f).seqs = s.seqs := rfl
@[simp] theorem State.modOspi_flash (s : State) (f : OspiSt → OspiSt) : (s.modOspi f).flash = s.flash := rfl
@[simp] theorem State.modOspi_rack (s : State) (f : OspiSt → OspiSt) : (s.modOspi f).rack = s.rack := rfl
@[simp] theorem State.modOspi_chan (s : State) (f : OspiSt → OspiSt) : (s.modOspi f).chan = s.chan := rfl
@[simp] theorem State.modOspi_servo (s : State) (f : OspiSt → OspiSt) : (s.modOspi f).servo = s.servo := rfl
@[simp] theorem State.modOspi_dram (s : State) (f : OspiSt → OspiSt) : (s.modOspi f).dram = s.dram := rfl
@[simp] theorem State.modOspi_pool (s : State) (f : OspiSt → OspiSt) : (s.modOspi f).pool = s.pool := rfl
@[simp] theorem State.modOspi_pcie (s : State) (f : OspiSt → OspiSt) : (s.modOspi f).pcie = s.pcie := rfl
@[simp] theorem State.modOspi_nvme (s : State) (f : OspiSt → OspiSt) : (s.modOspi f).nvme = s.nvme := rfl
@[simp] theorem State.modOspi_cfg (s : State) (f : OspiSt → OspiSt) : (s.modOspi f).cfg = s.cfg := rfl
@[simp] theorem State.modOspi_ospi (s : State) (f : OspiSt → OspiSt) : (s.modOspi f).ospi = f s.ospi := rfl
@[simp] theorem State.modOspi_fw (s : State) (f : OspiSt → OspiSt) : (s.modOspi f).fw = s.fw := rfl
@[simp] theorem State.modOspi_flt (s : State) (f : OspiSt → OspiSt) : (s.modOspi f).flt = s.flt := rfl
@[simp] theorem State.modOspi_evt (s : State) (f : OspiSt → OspiSt) : (s.modOspi f).evt = s.evt := rfl
@[simp] theorem State.modOspi_pwr (s : State) (f : OspiSt → OspiSt) : (s.modOspi f).pwr = s.pwr := rfl
@[simp] theorem State.modOspi_therm (s : State) (f : OspiSt → OspiSt) : (s.modOspi f).therm = s.therm := rfl
@[simp] theorem State.modOspi_pins (s : State) (f : OspiSt → OspiSt) : (s.modOspi f).pins = s.pins := rfl
@[simp] theorem State.modOspi_now (s : State) (f : OspiSt → OspiSt) : (s.modOspi f).now = s.now := rfl
@[simp] theorem State.modOspi_free (s : State) (f : OspiSt → OspiSt) : (s.modOspi f).free = s.free := rfl
@[simp] theorem State.modOspi_out (s : State) (f : OspiSt → OspiSt) : (s.modOspi f).out = s.out := rfl
@[simp] theorem State.modOspi_pending (s : State) (f : OspiSt → OspiSt) : (s.modOspi f).pending = s.pending := rfl
@[simp] theorem State.modFw_link (s : State) (f : FwSt → FwSt) : (s.modFw f).link = s.link := rfl
@[simp] theorem State.modFw_fab (s : State) (f : FwSt → FwSt) : (s.modFw f).fab = s.fab := rfl
@[simp] theorem State.modFw_place (s : State) (f : FwSt → FwSt) : (s.modFw f).place = s.place := rfl
@[simp] theorem State.modFw_host (s : State) (f : FwSt → FwSt) : (s.modFw f).host = s.host := rfl
@[simp] theorem State.modFw_map (s : State) (f : FwSt → FwSt) : (s.modFw f).map = s.map := rfl
@[simp] theorem State.modFw_media (s : State) (f : FwSt → FwSt) : (s.modFw f).media = s.media := rfl
@[simp] theorem State.modFw_win (s : State) (f : FwSt → FwSt) : (s.modFw f).win = s.win := rfl
@[simp] theorem State.modFw_coder (s : State) (f : FwSt → FwSt) : (s.modFw f).coder = s.coder := rfl
@[simp] theorem State.modFw_flashIf (s : State) (f : FwSt → FwSt) : (s.modFw f).flashIf = s.flashIf := rfl
@[simp] theorem State.modFw_seqs (s : State) (f : FwSt → FwSt) : (s.modFw f).seqs = s.seqs := rfl
@[simp] theorem State.modFw_flash (s : State) (f : FwSt → FwSt) : (s.modFw f).flash = s.flash := rfl
@[simp] theorem State.modFw_rack (s : State) (f : FwSt → FwSt) : (s.modFw f).rack = s.rack := rfl
@[simp] theorem State.modFw_chan (s : State) (f : FwSt → FwSt) : (s.modFw f).chan = s.chan := rfl
@[simp] theorem State.modFw_servo (s : State) (f : FwSt → FwSt) : (s.modFw f).servo = s.servo := rfl
@[simp] theorem State.modFw_dram (s : State) (f : FwSt → FwSt) : (s.modFw f).dram = s.dram := rfl
@[simp] theorem State.modFw_pool (s : State) (f : FwSt → FwSt) : (s.modFw f).pool = s.pool := rfl
@[simp] theorem State.modFw_pcie (s : State) (f : FwSt → FwSt) : (s.modFw f).pcie = s.pcie := rfl
@[simp] theorem State.modFw_nvme (s : State) (f : FwSt → FwSt) : (s.modFw f).nvme = s.nvme := rfl
@[simp] theorem State.modFw_cfg (s : State) (f : FwSt → FwSt) : (s.modFw f).cfg = s.cfg := rfl
@[simp] theorem State.modFw_ospi (s : State) (f : FwSt → FwSt) : (s.modFw f).ospi = s.ospi := rfl
@[simp] theorem State.modFw_fw (s : State) (f : FwSt → FwSt) : (s.modFw f).fw = f s.fw := rfl
@[simp] theorem State.modFw_flt (s : State) (f : FwSt → FwSt) : (s.modFw f).flt = s.flt := rfl
@[simp] theorem State.modFw_evt (s : State) (f : FwSt → FwSt) : (s.modFw f).evt = s.evt := rfl
@[simp] theorem State.modFw_pwr (s : State) (f : FwSt → FwSt) : (s.modFw f).pwr = s.pwr := rfl
@[simp] theorem State.modFw_therm (s : State) (f : FwSt → FwSt) : (s.modFw f).therm = s.therm := rfl
@[simp] theorem State.modFw_pins (s : State) (f : FwSt → FwSt) : (s.modFw f).pins = s.pins := rfl
@[simp] theorem State.modFw_now (s : State) (f : FwSt → FwSt) : (s.modFw f).now = s.now := rfl
@[simp] theorem State.modFw_free (s : State) (f : FwSt → FwSt) : (s.modFw f).free = s.free := rfl
@[simp] theorem State.modFw_out (s : State) (f : FwSt → FwSt) : (s.modFw f).out = s.out := rfl
@[simp] theorem State.modFw_pending (s : State) (f : FwSt → FwSt) : (s.modFw f).pending = s.pending := rfl
@[simp] theorem State.modFlt_link (s : State) (f : FaultSt → FaultSt) : (s.modFlt f).link = s.link := rfl
@[simp] theorem State.modFlt_fab (s : State) (f : FaultSt → FaultSt) : (s.modFlt f).fab = s.fab := rfl
@[simp] theorem State.modFlt_place (s : State) (f : FaultSt → FaultSt) : (s.modFlt f).place = s.place := rfl
@[simp] theorem State.modFlt_host (s : State) (f : FaultSt → FaultSt) : (s.modFlt f).host = s.host := rfl
@[simp] theorem State.modFlt_map (s : State) (f : FaultSt → FaultSt) : (s.modFlt f).map = s.map := rfl
@[simp] theorem State.modFlt_media (s : State) (f : FaultSt → FaultSt) : (s.modFlt f).media = s.media := rfl
@[simp] theorem State.modFlt_win (s : State) (f : FaultSt → FaultSt) : (s.modFlt f).win = s.win := rfl
@[simp] theorem State.modFlt_coder (s : State) (f : FaultSt → FaultSt) : (s.modFlt f).coder = s.coder := rfl
@[simp] theorem State.modFlt_flashIf (s : State) (f : FaultSt → FaultSt) : (s.modFlt f).flashIf = s.flashIf := rfl
@[simp] theorem State.modFlt_seqs (s : State) (f : FaultSt → FaultSt) : (s.modFlt f).seqs = s.seqs := rfl
@[simp] theorem State.modFlt_flash (s : State) (f : FaultSt → FaultSt) : (s.modFlt f).flash = s.flash := rfl
@[simp] theorem State.modFlt_rack (s : State) (f : FaultSt → FaultSt) : (s.modFlt f).rack = s.rack := rfl
@[simp] theorem State.modFlt_chan (s : State) (f : FaultSt → FaultSt) : (s.modFlt f).chan = s.chan := rfl
@[simp] theorem State.modFlt_servo (s : State) (f : FaultSt → FaultSt) : (s.modFlt f).servo = s.servo := rfl
@[simp] theorem State.modFlt_dram (s : State) (f : FaultSt → FaultSt) : (s.modFlt f).dram = s.dram := rfl
@[simp] theorem State.modFlt_pool (s : State) (f : FaultSt → FaultSt) : (s.modFlt f).pool = s.pool := rfl
@[simp] theorem State.modFlt_pcie (s : State) (f : FaultSt → FaultSt) : (s.modFlt f).pcie = s.pcie := rfl
@[simp] theorem State.modFlt_nvme (s : State) (f : FaultSt → FaultSt) : (s.modFlt f).nvme = s.nvme := rfl
@[simp] theorem State.modFlt_cfg (s : State) (f : FaultSt → FaultSt) : (s.modFlt f).cfg = s.cfg := rfl
@[simp] theorem State.modFlt_ospi (s : State) (f : FaultSt → FaultSt) : (s.modFlt f).ospi = s.ospi := rfl
@[simp] theorem State.modFlt_fw (s : State) (f : FaultSt → FaultSt) : (s.modFlt f).fw = s.fw := rfl
@[simp] theorem State.modFlt_flt (s : State) (f : FaultSt → FaultSt) : (s.modFlt f).flt = f s.flt := rfl
@[simp] theorem State.modFlt_evt (s : State) (f : FaultSt → FaultSt) : (s.modFlt f).evt = s.evt := rfl
@[simp] theorem State.modFlt_pwr (s : State) (f : FaultSt → FaultSt) : (s.modFlt f).pwr = s.pwr := rfl
@[simp] theorem State.modFlt_therm (s : State) (f : FaultSt → FaultSt) : (s.modFlt f).therm = s.therm := rfl
@[simp] theorem State.modFlt_pins (s : State) (f : FaultSt → FaultSt) : (s.modFlt f).pins = s.pins := rfl
@[simp] theorem State.modFlt_now (s : State) (f : FaultSt → FaultSt) : (s.modFlt f).now = s.now := rfl
@[simp] theorem State.modFlt_free (s : State) (f : FaultSt → FaultSt) : (s.modFlt f).free = s.free := rfl
@[simp] theorem State.modFlt_out (s : State) (f : FaultSt → FaultSt) : (s.modFlt f).out = s.out := rfl
@[simp] theorem State.modFlt_pending (s : State) (f : FaultSt → FaultSt) : (s.modFlt f).pending = s.pending := rfl
@[simp] theorem State.modEvt_link (s : State) (f : EvtSt → EvtSt) : (s.modEvt f).link = s.link := rfl
@[simp] theorem State.modEvt_fab (s : State) (f : EvtSt → EvtSt) : (s.modEvt f).fab = s.fab := rfl
@[simp] theorem State.modEvt_place (s : State) (f : EvtSt → EvtSt) : (s.modEvt f).place = s.place := rfl
@[simp] theorem State.modEvt_host (s : State) (f : EvtSt → EvtSt) : (s.modEvt f).host = s.host := rfl
@[simp] theorem State.modEvt_map (s : State) (f : EvtSt → EvtSt) : (s.modEvt f).map = s.map := rfl
@[simp] theorem State.modEvt_media (s : State) (f : EvtSt → EvtSt) : (s.modEvt f).media = s.media := rfl
@[simp] theorem State.modEvt_win (s : State) (f : EvtSt → EvtSt) : (s.modEvt f).win = s.win := rfl
@[simp] theorem State.modEvt_coder (s : State) (f : EvtSt → EvtSt) : (s.modEvt f).coder = s.coder := rfl
@[simp] theorem State.modEvt_flashIf (s : State) (f : EvtSt → EvtSt) : (s.modEvt f).flashIf = s.flashIf := rfl
@[simp] theorem State.modEvt_seqs (s : State) (f : EvtSt → EvtSt) : (s.modEvt f).seqs = s.seqs := rfl
@[simp] theorem State.modEvt_flash (s : State) (f : EvtSt → EvtSt) : (s.modEvt f).flash = s.flash := rfl
@[simp] theorem State.modEvt_rack (s : State) (f : EvtSt → EvtSt) : (s.modEvt f).rack = s.rack := rfl
@[simp] theorem State.modEvt_chan (s : State) (f : EvtSt → EvtSt) : (s.modEvt f).chan = s.chan := rfl
@[simp] theorem State.modEvt_servo (s : State) (f : EvtSt → EvtSt) : (s.modEvt f).servo = s.servo := rfl
@[simp] theorem State.modEvt_dram (s : State) (f : EvtSt → EvtSt) : (s.modEvt f).dram = s.dram := rfl
@[simp] theorem State.modEvt_pool (s : State) (f : EvtSt → EvtSt) : (s.modEvt f).pool = s.pool := rfl
@[simp] theorem State.modEvt_pcie (s : State) (f : EvtSt → EvtSt) : (s.modEvt f).pcie = s.pcie := rfl
@[simp] theorem State.modEvt_nvme (s : State) (f : EvtSt → EvtSt) : (s.modEvt f).nvme = s.nvme := rfl
@[simp] theorem State.modEvt_cfg (s : State) (f : EvtSt → EvtSt) : (s.modEvt f).cfg = s.cfg := rfl
@[simp] theorem State.modEvt_ospi (s : State) (f : EvtSt → EvtSt) : (s.modEvt f).ospi = s.ospi := rfl
@[simp] theorem State.modEvt_fw (s : State) (f : EvtSt → EvtSt) : (s.modEvt f).fw = s.fw := rfl
@[simp] theorem State.modEvt_flt (s : State) (f : EvtSt → EvtSt) : (s.modEvt f).flt = s.flt := rfl
@[simp] theorem State.modEvt_evt (s : State) (f : EvtSt → EvtSt) : (s.modEvt f).evt = f s.evt := rfl
@[simp] theorem State.modEvt_pwr (s : State) (f : EvtSt → EvtSt) : (s.modEvt f).pwr = s.pwr := rfl
@[simp] theorem State.modEvt_therm (s : State) (f : EvtSt → EvtSt) : (s.modEvt f).therm = s.therm := rfl
@[simp] theorem State.modEvt_pins (s : State) (f : EvtSt → EvtSt) : (s.modEvt f).pins = s.pins := rfl
@[simp] theorem State.modEvt_now (s : State) (f : EvtSt → EvtSt) : (s.modEvt f).now = s.now := rfl
@[simp] theorem State.modEvt_free (s : State) (f : EvtSt → EvtSt) : (s.modEvt f).free = s.free := rfl
@[simp] theorem State.modEvt_out (s : State) (f : EvtSt → EvtSt) : (s.modEvt f).out = s.out := rfl
@[simp] theorem State.modEvt_pending (s : State) (f : EvtSt → EvtSt) : (s.modEvt f).pending = s.pending := rfl
@[simp] theorem State.modPwr_link (s : State) (f : PowerSt → PowerSt) : (s.modPwr f).link = s.link := rfl
@[simp] theorem State.modPwr_fab (s : State) (f : PowerSt → PowerSt) : (s.modPwr f).fab = s.fab := rfl
@[simp] theorem State.modPwr_place (s : State) (f : PowerSt → PowerSt) : (s.modPwr f).place = s.place := rfl
@[simp] theorem State.modPwr_host (s : State) (f : PowerSt → PowerSt) : (s.modPwr f).host = s.host := rfl
@[simp] theorem State.modPwr_map (s : State) (f : PowerSt → PowerSt) : (s.modPwr f).map = s.map := rfl
@[simp] theorem State.modPwr_media (s : State) (f : PowerSt → PowerSt) : (s.modPwr f).media = s.media := rfl
@[simp] theorem State.modPwr_win (s : State) (f : PowerSt → PowerSt) : (s.modPwr f).win = s.win := rfl
@[simp] theorem State.modPwr_coder (s : State) (f : PowerSt → PowerSt) : (s.modPwr f).coder = s.coder := rfl
@[simp] theorem State.modPwr_flashIf (s : State) (f : PowerSt → PowerSt) : (s.modPwr f).flashIf = s.flashIf := rfl
@[simp] theorem State.modPwr_seqs (s : State) (f : PowerSt → PowerSt) : (s.modPwr f).seqs = s.seqs := rfl
@[simp] theorem State.modPwr_flash (s : State) (f : PowerSt → PowerSt) : (s.modPwr f).flash = s.flash := rfl
@[simp] theorem State.modPwr_rack (s : State) (f : PowerSt → PowerSt) : (s.modPwr f).rack = s.rack := rfl
@[simp] theorem State.modPwr_chan (s : State) (f : PowerSt → PowerSt) : (s.modPwr f).chan = s.chan := rfl
@[simp] theorem State.modPwr_servo (s : State) (f : PowerSt → PowerSt) : (s.modPwr f).servo = s.servo := rfl
@[simp] theorem State.modPwr_dram (s : State) (f : PowerSt → PowerSt) : (s.modPwr f).dram = s.dram := rfl
@[simp] theorem State.modPwr_pool (s : State) (f : PowerSt → PowerSt) : (s.modPwr f).pool = s.pool := rfl
@[simp] theorem State.modPwr_pcie (s : State) (f : PowerSt → PowerSt) : (s.modPwr f).pcie = s.pcie := rfl
@[simp] theorem State.modPwr_nvme (s : State) (f : PowerSt → PowerSt) : (s.modPwr f).nvme = s.nvme := rfl
@[simp] theorem State.modPwr_cfg (s : State) (f : PowerSt → PowerSt) : (s.modPwr f).cfg = s.cfg := rfl
@[simp] theorem State.modPwr_ospi (s : State) (f : PowerSt → PowerSt) : (s.modPwr f).ospi = s.ospi := rfl
@[simp] theorem State.modPwr_fw (s : State) (f : PowerSt → PowerSt) : (s.modPwr f).fw = s.fw := rfl
@[simp] theorem State.modPwr_flt (s : State) (f : PowerSt → PowerSt) : (s.modPwr f).flt = s.flt := rfl
@[simp] theorem State.modPwr_evt (s : State) (f : PowerSt → PowerSt) : (s.modPwr f).evt = s.evt := rfl
@[simp] theorem State.modPwr_pwr (s : State) (f : PowerSt → PowerSt) : (s.modPwr f).pwr = f s.pwr := rfl
@[simp] theorem State.modPwr_therm (s : State) (f : PowerSt → PowerSt) : (s.modPwr f).therm = s.therm := rfl
@[simp] theorem State.modPwr_pins (s : State) (f : PowerSt → PowerSt) : (s.modPwr f).pins = s.pins := rfl
@[simp] theorem State.modPwr_now (s : State) (f : PowerSt → PowerSt) : (s.modPwr f).now = s.now := rfl
@[simp] theorem State.modPwr_free (s : State) (f : PowerSt → PowerSt) : (s.modPwr f).free = s.free := rfl
@[simp] theorem State.modPwr_out (s : State) (f : PowerSt → PowerSt) : (s.modPwr f).out = s.out := rfl
@[simp] theorem State.modPwr_pending (s : State) (f : PowerSt → PowerSt) : (s.modPwr f).pending = s.pending := rfl
@[simp] theorem State.modTherm_link (s : State) (f : ThermSt → ThermSt) : (s.modTherm f).link = s.link := rfl
@[simp] theorem State.modTherm_fab (s : State) (f : ThermSt → ThermSt) : (s.modTherm f).fab = s.fab := rfl
@[simp] theorem State.modTherm_place (s : State) (f : ThermSt → ThermSt) : (s.modTherm f).place = s.place := rfl
@[simp] theorem State.modTherm_host (s : State) (f : ThermSt → ThermSt) : (s.modTherm f).host = s.host := rfl
@[simp] theorem State.modTherm_map (s : State) (f : ThermSt → ThermSt) : (s.modTherm f).map = s.map := rfl
@[simp] theorem State.modTherm_media (s : State) (f : ThermSt → ThermSt) : (s.modTherm f).media = s.media := rfl
@[simp] theorem State.modTherm_win (s : State) (f : ThermSt → ThermSt) : (s.modTherm f).win = s.win := rfl
@[simp] theorem State.modTherm_coder (s : State) (f : ThermSt → ThermSt) : (s.modTherm f).coder = s.coder := rfl
@[simp] theorem State.modTherm_flashIf (s : State) (f : ThermSt → ThermSt) : (s.modTherm f).flashIf = s.flashIf := rfl
@[simp] theorem State.modTherm_seqs (s : State) (f : ThermSt → ThermSt) : (s.modTherm f).seqs = s.seqs := rfl
@[simp] theorem State.modTherm_flash (s : State) (f : ThermSt → ThermSt) : (s.modTherm f).flash = s.flash := rfl
@[simp] theorem State.modTherm_rack (s : State) (f : ThermSt → ThermSt) : (s.modTherm f).rack = s.rack := rfl
@[simp] theorem State.modTherm_chan (s : State) (f : ThermSt → ThermSt) : (s.modTherm f).chan = s.chan := rfl
@[simp] theorem State.modTherm_servo (s : State) (f : ThermSt → ThermSt) : (s.modTherm f).servo = s.servo := rfl
@[simp] theorem State.modTherm_dram (s : State) (f : ThermSt → ThermSt) : (s.modTherm f).dram = s.dram := rfl
@[simp] theorem State.modTherm_pool (s : State) (f : ThermSt → ThermSt) : (s.modTherm f).pool = s.pool := rfl
@[simp] theorem State.modTherm_pcie (s : State) (f : ThermSt → ThermSt) : (s.modTherm f).pcie = s.pcie := rfl
@[simp] theorem State.modTherm_nvme (s : State) (f : ThermSt → ThermSt) : (s.modTherm f).nvme = s.nvme := rfl
@[simp] theorem State.modTherm_cfg (s : State) (f : ThermSt → ThermSt) : (s.modTherm f).cfg = s.cfg := rfl
@[simp] theorem State.modTherm_ospi (s : State) (f : ThermSt → ThermSt) : (s.modTherm f).ospi = s.ospi := rfl
@[simp] theorem State.modTherm_fw (s : State) (f : ThermSt → ThermSt) : (s.modTherm f).fw = s.fw := rfl
@[simp] theorem State.modTherm_flt (s : State) (f : ThermSt → ThermSt) : (s.modTherm f).flt = s.flt := rfl
@[simp] theorem State.modTherm_evt (s : State) (f : ThermSt → ThermSt) : (s.modTherm f).evt = s.evt := rfl
@[simp] theorem State.modTherm_pwr (s : State) (f : ThermSt → ThermSt) : (s.modTherm f).pwr = s.pwr := rfl
@[simp] theorem State.modTherm_therm (s : State) (f : ThermSt → ThermSt) : (s.modTherm f).therm = f s.therm := rfl
@[simp] theorem State.modTherm_pins (s : State) (f : ThermSt → ThermSt) : (s.modTherm f).pins = s.pins := rfl
@[simp] theorem State.modTherm_now (s : State) (f : ThermSt → ThermSt) : (s.modTherm f).now = s.now := rfl
@[simp] theorem State.modTherm_free (s : State) (f : ThermSt → ThermSt) : (s.modTherm f).free = s.free := rfl
@[simp] theorem State.modTherm_out (s : State) (f : ThermSt → ThermSt) : (s.modTherm f).out = s.out := rfl
@[simp] theorem State.modTherm_pending (s : State) (f : ThermSt → ThermSt) : (s.modTherm f).pending = s.pending := rfl
@[simp] theorem State.modPins_link (s : State) (f : PinSt → PinSt) : (s.modPins f).link = s.link := rfl
@[simp] theorem State.modPins_fab (s : State) (f : PinSt → PinSt) : (s.modPins f).fab = s.fab := rfl
@[simp] theorem State.modPins_place (s : State) (f : PinSt → PinSt) : (s.modPins f).place = s.place := rfl
@[simp] theorem State.modPins_host (s : State) (f : PinSt → PinSt) : (s.modPins f).host = s.host := rfl
@[simp] theorem State.modPins_map (s : State) (f : PinSt → PinSt) : (s.modPins f).map = s.map := rfl
@[simp] theorem State.modPins_media (s : State) (f : PinSt → PinSt) : (s.modPins f).media = s.media := rfl
@[simp] theorem State.modPins_win (s : State) (f : PinSt → PinSt) : (s.modPins f).win = s.win := rfl
@[simp] theorem State.modPins_coder (s : State) (f : PinSt → PinSt) : (s.modPins f).coder = s.coder := rfl
@[simp] theorem State.modPins_flashIf (s : State) (f : PinSt → PinSt) : (s.modPins f).flashIf = s.flashIf := rfl
@[simp] theorem State.modPins_seqs (s : State) (f : PinSt → PinSt) : (s.modPins f).seqs = s.seqs := rfl
@[simp] theorem State.modPins_flash (s : State) (f : PinSt → PinSt) : (s.modPins f).flash = s.flash := rfl
@[simp] theorem State.modPins_rack (s : State) (f : PinSt → PinSt) : (s.modPins f).rack = s.rack := rfl
@[simp] theorem State.modPins_chan (s : State) (f : PinSt → PinSt) : (s.modPins f).chan = s.chan := rfl
@[simp] theorem State.modPins_servo (s : State) (f : PinSt → PinSt) : (s.modPins f).servo = s.servo := rfl
@[simp] theorem State.modPins_dram (s : State) (f : PinSt → PinSt) : (s.modPins f).dram = s.dram := rfl
@[simp] theorem State.modPins_pool (s : State) (f : PinSt → PinSt) : (s.modPins f).pool = s.pool := rfl
@[simp] theorem State.modPins_pcie (s : State) (f : PinSt → PinSt) : (s.modPins f).pcie = s.pcie := rfl
@[simp] theorem State.modPins_nvme (s : State) (f : PinSt → PinSt) : (s.modPins f).nvme = s.nvme := rfl
@[simp] theorem State.modPins_cfg (s : State) (f : PinSt → PinSt) : (s.modPins f).cfg = s.cfg := rfl
@[simp] theorem State.modPins_ospi (s : State) (f : PinSt → PinSt) : (s.modPins f).ospi = s.ospi := rfl
@[simp] theorem State.modPins_fw (s : State) (f : PinSt → PinSt) : (s.modPins f).fw = s.fw := rfl
@[simp] theorem State.modPins_flt (s : State) (f : PinSt → PinSt) : (s.modPins f).flt = s.flt := rfl
@[simp] theorem State.modPins_evt (s : State) (f : PinSt → PinSt) : (s.modPins f).evt = s.evt := rfl
@[simp] theorem State.modPins_pwr (s : State) (f : PinSt → PinSt) : (s.modPins f).pwr = s.pwr := rfl
@[simp] theorem State.modPins_therm (s : State) (f : PinSt → PinSt) : (s.modPins f).therm = s.therm := rfl
@[simp] theorem State.modPins_pins (s : State) (f : PinSt → PinSt) : (s.modPins f).pins = f s.pins := rfl
@[simp] theorem State.modPins_now (s : State) (f : PinSt → PinSt) : (s.modPins f).now = s.now := rfl
@[simp] theorem State.modPins_free (s : State) (f : PinSt → PinSt) : (s.modPins f).free = s.free := rfl
@[simp] theorem State.modPins_out (s : State) (f : PinSt → PinSt) : (s.modPins f).out = s.out := rfl
@[simp] theorem State.modPins_pending (s : State) (f : PinSt → PinSt) : (s.modPins f).pending = s.pending := rfl
@[simp] theorem State.setNow_link (s : State) (t : Nat) : (s.setNow t).link = s.link := rfl
@[simp] theorem State.setNow_fab (s : State) (t : Nat) : (s.setNow t).fab = s.fab := rfl
@[simp] theorem State.setNow_place (s : State) (t : Nat) : (s.setNow t).place = s.place := rfl
@[simp] theorem State.setNow_host (s : State) (t : Nat) : (s.setNow t).host = s.host := rfl
@[simp] theorem State.setNow_map (s : State) (t : Nat) : (s.setNow t).map = s.map := rfl
@[simp] theorem State.setNow_media (s : State) (t : Nat) : (s.setNow t).media = s.media := rfl
@[simp] theorem State.setNow_win (s : State) (t : Nat) : (s.setNow t).win = s.win := rfl
@[simp] theorem State.setNow_coder (s : State) (t : Nat) : (s.setNow t).coder = s.coder := rfl
@[simp] theorem State.setNow_flashIf (s : State) (t : Nat) : (s.setNow t).flashIf = s.flashIf := rfl
@[simp] theorem State.setNow_seqs (s : State) (t : Nat) : (s.setNow t).seqs = s.seqs := rfl
@[simp] theorem State.setNow_flash (s : State) (t : Nat) : (s.setNow t).flash = s.flash := rfl
@[simp] theorem State.setNow_rack (s : State) (t : Nat) : (s.setNow t).rack = s.rack := rfl
@[simp] theorem State.setNow_chan (s : State) (t : Nat) : (s.setNow t).chan = s.chan := rfl
@[simp] theorem State.setNow_servo (s : State) (t : Nat) : (s.setNow t).servo = s.servo := rfl
@[simp] theorem State.setNow_dram (s : State) (t : Nat) : (s.setNow t).dram = s.dram := rfl
@[simp] theorem State.setNow_pool (s : State) (t : Nat) : (s.setNow t).pool = s.pool := rfl
@[simp] theorem State.setNow_pcie (s : State) (t : Nat) : (s.setNow t).pcie = s.pcie := rfl
@[simp] theorem State.setNow_nvme (s : State) (t : Nat) : (s.setNow t).nvme = s.nvme := rfl
@[simp] theorem State.setNow_cfg (s : State) (t : Nat) : (s.setNow t).cfg = s.cfg := rfl
@[simp] theorem State.setNow_ospi (s : State) (t : Nat) : (s.setNow t).ospi = s.ospi := rfl
@[simp] theorem State.setNow_fw (s : State) (t : Nat) : (s.setNow t).fw = s.fw := rfl
@[simp] theorem State.setNow_flt (s : State) (t : Nat) : (s.setNow t).flt = s.flt := rfl
@[simp] theorem State.setNow_evt (s : State) (t : Nat) : (s.setNow t).evt = s.evt := rfl
@[simp] theorem State.setNow_pwr (s : State) (t : Nat) : (s.setNow t).pwr = s.pwr := rfl
@[simp] theorem State.setNow_therm (s : State) (t : Nat) : (s.setNow t).therm = s.therm := rfl
@[simp] theorem State.setNow_pins (s : State) (t : Nat) : (s.setNow t).pins = s.pins := rfl
@[simp] theorem State.setNow_now (s : State) (t : Nat) : (s.setNow t).now = t := rfl
@[simp] theorem State.setNow_free (s : State) (t : Nat) : (s.setNow t).free = s.free := rfl
@[simp] theorem State.setNow_out (s : State) (t : Nat) : (s.setNow t).out = s.out := rfl
@[simp] theorem State.setNow_pending (s : State) (t : Nat) : (s.setNow t).pending = s.pending := rfl
@[simp] theorem State.send_link (s : State) (o : Out) : (s.send o).link = s.link := rfl
@[simp] theorem State.send_fab (s : State) (o : Out) : (s.send o).fab = s.fab := rfl
@[simp] theorem State.send_place (s : State) (o : Out) : (s.send o).place = s.place := rfl
@[simp] theorem State.send_host (s : State) (o : Out) : (s.send o).host = s.host := rfl
@[simp] theorem State.send_map (s : State) (o : Out) : (s.send o).map = s.map := rfl
@[simp] theorem State.send_media (s : State) (o : Out) : (s.send o).media = s.media := rfl
@[simp] theorem State.send_win (s : State) (o : Out) : (s.send o).win = s.win := rfl
@[simp] theorem State.send_coder (s : State) (o : Out) : (s.send o).coder = s.coder := rfl
@[simp] theorem State.send_flashIf (s : State) (o : Out) : (s.send o).flashIf = s.flashIf := rfl
@[simp] theorem State.send_seqs (s : State) (o : Out) : (s.send o).seqs = s.seqs := rfl
@[simp] theorem State.send_flash (s : State) (o : Out) : (s.send o).flash = s.flash := rfl
@[simp] theorem State.send_rack (s : State) (o : Out) : (s.send o).rack = s.rack := rfl
@[simp] theorem State.send_chan (s : State) (o : Out) : (s.send o).chan = s.chan := rfl
@[simp] theorem State.send_servo (s : State) (o : Out) : (s.send o).servo = s.servo := rfl
@[simp] theorem State.send_dram (s : State) (o : Out) : (s.send o).dram = s.dram := rfl
@[simp] theorem State.send_pool (s : State) (o : Out) : (s.send o).pool = s.pool := rfl
@[simp] theorem State.send_pcie (s : State) (o : Out) : (s.send o).pcie = s.pcie := rfl
@[simp] theorem State.send_nvme (s : State) (o : Out) : (s.send o).nvme = s.nvme := rfl
@[simp] theorem State.send_cfg (s : State) (o : Out) : (s.send o).cfg = s.cfg := rfl
@[simp] theorem State.send_ospi (s : State) (o : Out) : (s.send o).ospi = s.ospi := rfl
@[simp] theorem State.send_fw (s : State) (o : Out) : (s.send o).fw = s.fw := rfl
@[simp] theorem State.send_flt (s : State) (o : Out) : (s.send o).flt = s.flt := rfl
@[simp] theorem State.send_evt (s : State) (o : Out) : (s.send o).evt = s.evt := rfl
@[simp] theorem State.send_pwr (s : State) (o : Out) : (s.send o).pwr = s.pwr := rfl
@[simp] theorem State.send_therm (s : State) (o : Out) : (s.send o).therm = s.therm := rfl
@[simp] theorem State.send_pins (s : State) (o : Out) : (s.send o).pins = s.pins := rfl
@[simp] theorem State.send_now (s : State) (o : Out) : (s.send o).now = s.now := rfl
@[simp] theorem State.send_free (s : State) (o : Out) : (s.send o).free = s.free := rfl
@[simp] theorem State.send_out (s : State) (o : Out) : (s.send o).out = s.out ++ [o] := rfl
@[simp] theorem State.send_pending (s : State) (o : Out) : (s.send o).pending = s.pending := rfl
@[simp] theorem State.setPending_link (s : State) (q : List Instr) : (s.setPending q).link = s.link := rfl
@[simp] theorem State.setPending_fab (s : State) (q : List Instr) : (s.setPending q).fab = s.fab := rfl
@[simp] theorem State.setPending_place (s : State) (q : List Instr) : (s.setPending q).place = s.place := rfl
@[simp] theorem State.setPending_host (s : State) (q : List Instr) : (s.setPending q).host = s.host := rfl
@[simp] theorem State.setPending_map (s : State) (q : List Instr) : (s.setPending q).map = s.map := rfl
@[simp] theorem State.setPending_media (s : State) (q : List Instr) : (s.setPending q).media = s.media := rfl
@[simp] theorem State.setPending_win (s : State) (q : List Instr) : (s.setPending q).win = s.win := rfl
@[simp] theorem State.setPending_coder (s : State) (q : List Instr) : (s.setPending q).coder = s.coder := rfl
@[simp] theorem State.setPending_flashIf (s : State) (q : List Instr) : (s.setPending q).flashIf = s.flashIf := rfl
@[simp] theorem State.setPending_seqs (s : State) (q : List Instr) : (s.setPending q).seqs = s.seqs := rfl
@[simp] theorem State.setPending_flash (s : State) (q : List Instr) : (s.setPending q).flash = s.flash := rfl
@[simp] theorem State.setPending_rack (s : State) (q : List Instr) : (s.setPending q).rack = s.rack := rfl
@[simp] theorem State.setPending_chan (s : State) (q : List Instr) : (s.setPending q).chan = s.chan := rfl
@[simp] theorem State.setPending_servo (s : State) (q : List Instr) : (s.setPending q).servo = s.servo := rfl
@[simp] theorem State.setPending_dram (s : State) (q : List Instr) : (s.setPending q).dram = s.dram := rfl
@[simp] theorem State.setPending_pool (s : State) (q : List Instr) : (s.setPending q).pool = s.pool := rfl
@[simp] theorem State.setPending_pcie (s : State) (q : List Instr) : (s.setPending q).pcie = s.pcie := rfl
@[simp] theorem State.setPending_nvme (s : State) (q : List Instr) : (s.setPending q).nvme = s.nvme := rfl
@[simp] theorem State.setPending_cfg (s : State) (q : List Instr) : (s.setPending q).cfg = s.cfg := rfl
@[simp] theorem State.setPending_ospi (s : State) (q : List Instr) : (s.setPending q).ospi = s.ospi := rfl
@[simp] theorem State.setPending_fw (s : State) (q : List Instr) : (s.setPending q).fw = s.fw := rfl
@[simp] theorem State.setPending_flt (s : State) (q : List Instr) : (s.setPending q).flt = s.flt := rfl
@[simp] theorem State.setPending_evt (s : State) (q : List Instr) : (s.setPending q).evt = s.evt := rfl
@[simp] theorem State.setPending_pwr (s : State) (q : List Instr) : (s.setPending q).pwr = s.pwr := rfl
@[simp] theorem State.setPending_therm (s : State) (q : List Instr) : (s.setPending q).therm = s.therm := rfl
@[simp] theorem State.setPending_pins (s : State) (q : List Instr) : (s.setPending q).pins = s.pins := rfl
@[simp] theorem State.setPending_now (s : State) (q : List Instr) : (s.setPending q).now = s.now := rfl
@[simp] theorem State.setPending_free (s : State) (q : List Instr) : (s.setPending q).free = s.free := rfl
@[simp] theorem State.setPending_out (s : State) (q : List Instr) : (s.setPending q).out = s.out := rfl
@[simp] theorem State.setPending_pending (s : State) (q : List Instr) : (s.setPending q).pending = q := rfl
@[simp] theorem State.drawn_link (s : State)  : (s.drawn ).link = s.link := rfl
@[simp] theorem State.drawn_fab (s : State)  : (s.drawn ).fab = s.fab := rfl
@[simp] theorem State.drawn_place (s : State)  : (s.drawn ).place = s.place := rfl
@[simp] theorem State.drawn_host (s : State)  : (s.drawn ).host = s.host := rfl
@[simp] theorem State.drawn_map (s : State)  : (s.drawn ).map = s.map := rfl
@[simp] theorem State.drawn_media (s : State)  : (s.drawn ).media = s.media := rfl
@[simp] theorem State.drawn_win (s : State)  : (s.drawn ).win = s.win := rfl
@[simp] theorem State.drawn_coder (s : State)  : (s.drawn ).coder = s.coder := rfl
@[simp] theorem State.drawn_flashIf (s : State)  : (s.drawn ).flashIf = s.flashIf := rfl
@[simp] theorem State.drawn_seqs (s : State)  : (s.drawn ).seqs = s.seqs := rfl
@[simp] theorem State.drawn_flash (s : State)  : (s.drawn ).flash = s.flash := rfl
@[simp] theorem State.drawn_rack (s : State)  : (s.drawn ).rack = s.rack := rfl
@[simp] theorem State.drawn_chan (s : State)  : (s.drawn ).chan = s.chan := rfl
@[simp] theorem State.drawn_servo (s : State)  : (s.drawn ).servo = s.servo := rfl
@[simp] theorem State.drawn_dram (s : State)  : (s.drawn ).dram = s.dram := rfl
@[simp] theorem State.drawn_pool (s : State)  : (s.drawn ).pool = s.pool := rfl
@[simp] theorem State.drawn_pcie (s : State)  : (s.drawn ).pcie = s.pcie := rfl
@[simp] theorem State.drawn_nvme (s : State)  : (s.drawn ).nvme = s.nvme := rfl
@[simp] theorem State.drawn_cfg (s : State)  : (s.drawn ).cfg = s.cfg := rfl
@[simp] theorem State.drawn_ospi (s : State)  : (s.drawn ).ospi = s.ospi := rfl
@[simp] theorem State.drawn_fw (s : State)  : (s.drawn ).fw = s.fw := rfl
@[simp] theorem State.drawn_flt (s : State)  : (s.drawn ).flt = s.flt := rfl
@[simp] theorem State.drawn_evt (s : State)  : (s.drawn ).evt = s.evt := rfl
@[simp] theorem State.drawn_pwr (s : State)  : (s.drawn ).pwr = s.pwr := rfl
@[simp] theorem State.drawn_therm (s : State)  : (s.drawn ).therm = s.therm := rfl
@[simp] theorem State.drawn_pins (s : State)  : (s.drawn ).pins = s.pins := rfl
@[simp] theorem State.drawn_now (s : State)  : (s.drawn ).now = s.now := rfl
@[simp] theorem State.drawn_free (s : State)  : (s.drawn ).free = s.free + 1 := rfl
@[simp] theorem State.drawn_out (s : State)  : (s.drawn ).out = s.out := rfl
@[simp] theorem State.drawn_pending (s : State)  : (s.drawn ).pending = s.pending := rfl

end Sys2Proof.Machine
end

