-- ==== Sys2Proof/Laws/Frames.lean ====
section
/-!
SUPPORT. What the shared operations leave as it is: posting a completion or a message (`State.hostless`), writing a record, and writing one entry of a
table.
-/
namespace Sys2Proof.Machine
open Sys2Proof

/-! Tables -/

theorem tget_tput {α : Type} (t : Tab α) (k : Nat) (v : α) : tget (tput t k v) k = some v := by
  induction t with
  | nil => simp [tput, tget]
  | cons a t ih =>
    obtain ⟨j, w⟩ := a
    unfold tput
    split
    · simp [tget]
    · split
      · simp [tget]
      · next h1 h2 =>
        unfold tget at *
        rw [List.find?_cons_of_neg (by simpa using fun h => h2 h.symm)]
        exact ih
theorem tget_tput_ne {α : Type} (t : Tab α) (k j : Nat) (v : α) (h : j ≠ k) : tget (tput t k v) j = tget t j := by
  induction t with
  | nil => simp [tput, tget, List.find?, Ne.symm h]
  | cons a t ih =>
    obtain ⟨i, w⟩ := a
    unfold tput
    split
    · simp only [tget]; rw [List.find?_cons_of_neg (by simpa using Ne.symm h)]
    · split
      · next h2 => subst h2; simp only [tget]; rw [List.find?_cons_of_neg (by simpa using Ne.symm h), List.find?_cons_of_neg (by simpa using Ne.symm h)]
      · unfold tget at *
        by_cases hi : i = j
        · subst hi; simp
        · rw [List.find?_cons_of_neg (by simpa using hi), List.find?_cons_of_neg (by simpa using hi)]; exact ih

theorem tget_tdel {α : Type} (t : Tab α) (k j : Nat) : tget (tdel t k) j = if j = k then none else tget t j := by
  unfold tget tdel
  rw [List.find?_filter]
  split
  · next h =>
    subst h
    have : List.find? (fun a => decide ((a.1 != j) = true ∧ (a.1 == j) = true)) t = none := by
      rw [List.find?_eq_none]; intro x _; simp
    rw [this]; rfl
  · next h =>
    congr 2
    funext a
    by_cases ha : a.1 = j
    · simp [ha, h]
    · simp [ha]
theorem mread_mwrite (d : Byte) (m : List Host.Cell) (a j : Nat) (b : Byte) : mread d (mwrite d m a b) j = if j = a then b else mread d m j := by
  unfold mread mwrite tgetD
  split
  · next h => rw [tget_tdel]; split <;> simp [*]
  · split
    · next h => subst h; rw [tget_tput]; rfl
    · next h => rw [tget_tput_ne _ _ _ _ h]
theorem mread_mwriteN (d : Byte) (bs : List Byte) (m : List Host.Cell) (a j : Nat) :
    mread d (mwriteN d m a bs) j = if a ≤ j ∧ j < a + bs.length then bs.getD (j - a) d else mread d m j := by
  induction bs generalizing m a with
  | nil => simp [mwriteN]
  | cons b t ih =>
    unfold mwriteN
    rw [ih, mread_mwrite]
    by_cases h1 : j = a
    · subst h1; simp
    · by_cases h2 : a + 1 ≤ j ∧ j < a + 1 + t.length
      · rw [if_pos h2, if_pos (by simp only [List.length_cons]; omega)]
        obtain ⟨k, hk⟩ : ∃ k, j - a = k + 1 := ⟨j - a - 1, by omega⟩
        rw [hk, List.getD_cons_succ, show j - (a + 1) = k by omega]
      · rw [if_neg h2, if_neg h1, if_neg (by simp only [List.length_cons]; omega)]
theorem mreadN_mwriteN (d : Byte) (bs : List Byte) (m : List Host.Cell) (a n : Nat) (h : bs.length = n) : mreadN d (mwriteN d m a bs) a n = bs := by
  subst h
  apply List.ext_getElem (by simp [mreadN])
  intro i h1 h2
  simp only [mreadN, List.getElem_map, List.getElem_range, mread_mwriteN]
  rw [if_pos (by omega)]
  simp [List.getElem?_eq_getElem h2]

/-! Completions and messages -/

@[simp] theorem hostless_modHost (s : State) (f : HostSt → HostSt) : (s.modHost f).hostless = s.hostless := rfl
@[simp] theorem hostless_modWin (s : State) (f : WinSt → WinSt) : (s.modWin f).hostless = s.hostless := rfl
@[simp] theorem hostless_modPool (s : State) (f : PoolSt → PoolSt) : (s.modPool f).hostless = s.hostless := rfl
@[simp] theorem hostless_modPoolOf (s : State) (p : Nat) (f : Pool → Pool) : (s.modPoolOf p f).hostless = s.hostless := rfl
@[simp] theorem hostless_modBuf (s : State) (h : Nat) (f : Buf → Buf) : (s.modBuf h f).hostless = s.hostless := rfl
@[simp] theorem hostless_modPcie (s : State) (f : PcieSt → PcieSt) : (s.modPcie f).hostless = s.hostless := rfl
@[simp] theorem hostless_modNvme (s : State) (f : NvmeSt → NvmeSt) : (s.modNvme f).hostless = s.hostless := rfl
@[simp] theorem hostless_send (s : State) (o : Out) : (s.send o).hostless = s.hostless := rfl
@[simp] theorem hostless_tlp (s : State) (o : Out) : (s.tlp o).hostless = s.hostless := rfl
@[simp] theorem hostless_modCtx (s : State) (st : Nat) (f : Ctx → Ctx) : (s.modCtx st f).hostless = s.hostless := rfl
@[simp] theorem hostless_dropCtx (s : State) (st : Nat) : (s.dropCtx st).hostless = s.hostless := rfl
@[simp] theorem hostless_clearEvent (s : State) (ty log : Nat) : (s.clearEvent ty log).hostless = s.hostless := rfl
@[simp] theorem hostless_hostWrite (s : State) (o : Out) : (s.hostWrite o).hostless = s.hostless := by
  unfold State.hostWrite; split <;> rfl
@[simp] theorem hostless_fireVector (s : State) (v : Nat) : (s.fireVector v).hostless = s.hostless := by
  unfold State.fireVector
  repeat' (first | rfl | split | dsimp only)
@[simp] theorem hostless_interrupt (s : State) (q : Nat) : (s.interrupt q).hostless = s.hostless := by
  unfold State.interrupt; (repeat' split) <;> simp
@[simp] theorem hostless_postCqe (s : State) (q : Nat) (e : Cqe) (c : Ctx) : (s.postCqe q e c).hostless = s.hostless := by
  unfold State.postCqe; (repeat' split) <;> simp
theorem hostless_foldl {α : Type} (l : List α) (f : State → α → State) (h : ∀ s a, (f s a).hostless = s.hostless) (s : State) :
    (l.foldl f s).hostless = s.hostless := by
  induction l generalizing s with
  | nil => rfl
  | cons a l ih => exact (ih (f s a)).trans (h s a)
@[simp] theorem hostless_flushWrites (s : State) : s.flushWrites.hostless = s.hostless := by
  unfold State.flushWrites; rw [hostless_foldl _ _ fun _ _ => hostless_hostWrite ..]; rfl
@[simp] theorem hostless_pushBuf (s : State) (h : Nat) : (s.pushBuf h).hostless = s.hostless := by
  unfold State.pushBuf
  dsimp only
  (repeat' split) <;> simp only [hostless_modPool, hostless_modPoolOf, hostless_modBuf]
@[simp] theorem hostless_answer (s : State) (c : Ctx) (status : Nat) (d : Dword) : (s.answer c status d).hostless = s.hostless := by
  unfold State.answer
  split
  · dsimp only; split <;> simp
  · split <;> rfl
  · rfl
  · simp
@[simp] theorem hostless_finishDeletes (s : State) : s.finishDeletes.hostless = s.hostless := by
  unfold State.finishDeletes
  refine hostless_foldl _ _ (fun s e => ?_) s
  repeat' (first | rfl | (simp; done) | split | dsimp only)
@[simp] theorem hostless_flushCqes (s : State) : s.flushCqes.hostless = s.hostless := by
  unfold State.flushCqes; rw [hostless_finishDeletes, hostless_foldl _ _ fun _ _ => hostless_postCqe ..]; rfl
/-- Posting an outcome changes nothing but contexts, queues, buffers, requests and messages. -/
@[simp] theorem hostless_complete (s : State) (st status : Nat) (d : Dword) : (s.complete st status d).hostless = s.hostless := by
  unfold State.complete; split <;> simp
@[simp] theorem hostless_deliver (s : State) (ty info log : Nat) : (s.deliver ty info log).hostless = s.hostless := by
  unfold State.deliver; split <;> simp
@[simp] theorem hostless_raiseEvent (s : State) (ty info log crit : Nat) : (s.raiseEvent ty info log crit).hostless = s.hostless := by
  unfold State.raiseEvent; split <;> simp
@[simp] theorem hostless_warnBit (s : State) (b : Nat) : (s.warnBit b).hostless = s.hostless := by
  unfold State.warnBit; split <;> simp
@[simp] theorem hostless_giveData (s : State) (c : Ctx) (len : Nat) (fs : List (Nat × Nat × Nat)) : (s.giveData c len fs).hostless = s.hostless := by
  unfold State.giveData; split <;> simp
@[simp] theorem hostless_clearWarnBit (s : State) (b : Nat) : (s.clearWarnBit b).hostless = s.hostless := rfl

/-! The event recorder -/

/-- What a record writes: the recorder alone. -/
theorem State.append_evt (s : State) (r : Rec) : ∃ f, s.append r = s.modEvt f := by
  unfold State.append; dsimp only; split <;> exact ⟨_, rfl⟩
theorem State.note_evt (s : State) (id kind index : Nat) (args : List Nat) : ∃ f, s.note id kind index args = s.modEvt f := State.append_evt ..
@[simp] theorem State.note_link (s : State) (id kind index : Nat) (args : List Nat) : (s.note id kind index args).link = s.link := by
  obtain ⟨f, h⟩ := s.note_evt id kind index args; rw [h]; rfl
@[simp] theorem State.note_fab (s : State) (id kind index : Nat) (args : List Nat) : (s.note id kind index args).fab = s.fab := by
  obtain ⟨f, h⟩ := s.note_evt id kind index args; rw [h]; rfl
@[simp] theorem State.note_place (s : State) (id kind index : Nat) (args : List Nat) : (s.note id kind index args).place = s.place := by
  obtain ⟨f, h⟩ := s.note_evt id kind index args; rw [h]; rfl
@[simp] theorem State.note_host (s : State) (id kind index : Nat) (args : List Nat) : (s.note id kind index args).host = s.host := by
  obtain ⟨f, h⟩ := s.note_evt id kind index args; rw [h]; rfl
@[simp] theorem State.note_map (s : State) (id kind index : Nat) (args : List Nat) : (s.note id kind index args).map = s.map := by
  obtain ⟨f, h⟩ := s.note_evt id kind index args; rw [h]; rfl
@[simp] theorem State.note_media (s : State) (id kind index : Nat) (args : List Nat) : (s.note id kind index args).media = s.media := by
  obtain ⟨f, h⟩ := s.note_evt id kind index args; rw [h]; rfl
@[simp] theorem State.note_win (s : State) (id kind index : Nat) (args : List Nat) : (s.note id kind index args).win = s.win := by
  obtain ⟨f, h⟩ := s.note_evt id kind index args; rw [h]; rfl
@[simp] theorem State.note_coder (s : State) (id kind index : Nat) (args : List Nat) : (s.note id kind index args).coder = s.coder := by
  obtain ⟨f, h⟩ := s.note_evt id kind index args; rw [h]; rfl
@[simp] theorem State.note_flashIf (s : State) (id kind index : Nat) (args : List Nat) : (s.note id kind index args).flashIf = s.flashIf := by
  obtain ⟨f, h⟩ := s.note_evt id kind index args; rw [h]; rfl
@[simp] theorem State.note_seqs (s : State) (id kind index : Nat) (args : List Nat) : (s.note id kind index args).seqs = s.seqs := by
  obtain ⟨f, h⟩ := s.note_evt id kind index args; rw [h]; rfl
@[simp] theorem State.note_flash (s : State) (id kind index : Nat) (args : List Nat) : (s.note id kind index args).flash = s.flash := by
  obtain ⟨f, h⟩ := s.note_evt id kind index args; rw [h]; rfl
@[simp] theorem State.note_rack (s : State) (id kind index : Nat) (args : List Nat) : (s.note id kind index args).rack = s.rack := by
  obtain ⟨f, h⟩ := s.note_evt id kind index args; rw [h]; rfl
@[simp] theorem State.note_chan (s : State) (id kind index : Nat) (args : List Nat) : (s.note id kind index args).chan = s.chan := by
  obtain ⟨f, h⟩ := s.note_evt id kind index args; rw [h]; rfl
@[simp] theorem State.note_servo (s : State) (id kind index : Nat) (args : List Nat) : (s.note id kind index args).servo = s.servo := by
  obtain ⟨f, h⟩ := s.note_evt id kind index args; rw [h]; rfl
@[simp] theorem State.note_dram (s : State) (id kind index : Nat) (args : List Nat) : (s.note id kind index args).dram = s.dram := by
  obtain ⟨f, h⟩ := s.note_evt id kind index args; rw [h]; rfl
@[simp] theorem State.note_pool (s : State) (id kind index : Nat) (args : List Nat) : (s.note id kind index args).pool = s.pool := by
  obtain ⟨f, h⟩ := s.note_evt id kind index args; rw [h]; rfl
@[simp] theorem State.note_pcie (s : State) (id kind index : Nat) (args : List Nat) : (s.note id kind index args).pcie = s.pcie := by
  obtain ⟨f, h⟩ := s.note_evt id kind index args; rw [h]; rfl
@[simp] theorem State.note_nvme (s : State) (id kind index : Nat) (args : List Nat) : (s.note id kind index args).nvme = s.nvme := by
  obtain ⟨f, h⟩ := s.note_evt id kind index args; rw [h]; rfl
@[simp] theorem State.note_cfg (s : State) (id kind index : Nat) (args : List Nat) : (s.note id kind index args).cfg = s.cfg := by
  obtain ⟨f, h⟩ := s.note_evt id kind index args; rw [h]; rfl
@[simp] theorem State.note_ospi (s : State) (id kind index : Nat) (args : List Nat) : (s.note id kind index args).ospi = s.ospi := by
  obtain ⟨f, h⟩ := s.note_evt id kind index args; rw [h]; rfl
@[simp] theorem State.note_fw (s : State) (id kind index : Nat) (args : List Nat) : (s.note id kind index args).fw = s.fw := by
  obtain ⟨f, h⟩ := s.note_evt id kind index args; rw [h]; rfl
@[simp] theorem State.note_flt (s : State) (id kind index : Nat) (args : List Nat) : (s.note id kind index args).flt = s.flt := by
  obtain ⟨f, h⟩ := s.note_evt id kind index args; rw [h]; rfl
@[simp] theorem State.note_pwr (s : State) (id kind index : Nat) (args : List Nat) : (s.note id kind index args).pwr = s.pwr := by
  obtain ⟨f, h⟩ := s.note_evt id kind index args; rw [h]; rfl
@[simp] theorem State.note_therm (s : State) (id kind index : Nat) (args : List Nat) : (s.note id kind index args).therm = s.therm := by
  obtain ⟨f, h⟩ := s.note_evt id kind index args; rw [h]; rfl
@[simp] theorem State.note_pins (s : State) (id kind index : Nat) (args : List Nat) : (s.note id kind index args).pins = s.pins := by
  obtain ⟨f, h⟩ := s.note_evt id kind index args; rw [h]; rfl
@[simp] theorem State.note_now (s : State) (id kind index : Nat) (args : List Nat) : (s.note id kind index args).now = s.now := by
  obtain ⟨f, h⟩ := s.note_evt id kind index args; rw [h]; rfl
@[simp] theorem State.note_free (s : State) (id kind index : Nat) (args : List Nat) : (s.note id kind index args).free = s.free := by
  obtain ⟨f, h⟩ := s.note_evt id kind index args; rw [h]; rfl
@[simp] theorem State.note_out (s : State) (id kind index : Nat) (args : List Nat) : (s.note id kind index args).out = s.out := by
  obtain ⟨f, h⟩ := s.note_evt id kind index args; rw [h]; rfl
@[simp] theorem State.note_pending (s : State) (id kind index : Nat) (args : List Nat) : (s.note id kind index args).pending = s.pending := by
  obtain ⟨f, h⟩ := s.note_evt id kind index args; rw [h]; rfl

end Sys2Proof.Machine
end

