-- ==== Sys2Proof/Laws/Held.lean ====
section
/-!
SUPPORT. What the operand forms of host commands answer: one lemma for each form, for a command that is held and for one that is not.
-/
namespace Sys2Proof.Machine
open Sys2Proof

/-- A held admin command acts. -/
theorem onAdmin_held {s : State} {st op : Nat} {c : Ctx} {f : Ctx → State} (h : Held s st op c) : s.onAdmin st op f = .next (f c) := by
  unfold State.onAdmin
  simp [h.1, h.2.1, h.2.2.1, h.2.2.2]

/-- A stamp that names no context changes nothing. -/
theorem onAdmin_none {s : State} {st op : Nat} {f : Ctx → State} (h : s.ctx? st = none) : s.onAdmin st op f = .next s := by
  unfold State.onAdmin
  simp [h]

/-- A held I/O command acts. -/
theorem onIo_held {s : State} {st op : Nat} {c : Ctx} {f : Ctx → State} (h : HeldIo s st op c) : s.onIo st op f = .next (f c) := by
  unfold State.onIo
  simp [h.1, h.2.1, h.2.2.1, h.2.2.2.1, h.2.2.2.2]

/-- A held Set Features acts. -/
theorem onSet_held {s : State} {st fid : Nat} {c : Ctx} {f : Ctx → State} (h : HeldSet s st fid c) : s.onSet st fid f = .next (f c) := by
  unfold State.onSet
  rw [onAdmin_held h.1]
  simp [h.2.1, h.2.2]

/-- SV set completes with status 0x0D (R501). -/
theorem onSet_save {s : State} {st fid : Nat} {c : Ctx} {f : Ctx → State} (h : Held s st 0x09 c) (h1 : bits (c.dw 10) 0 8 = fid)
    (h2 : bitAt (c.dw 10) 31 = true) : s.onSet st fid f = .next (s.complete st 0x0D 0) := by
  unfold State.onSet
  rw [onAdmin_held h]
  simp [h1, h2]

/-- A held Get Features acts. -/
theorem onGet_held {s : State} {st fid sel : Nat} {c : Ctx} {f : Ctx → Nat → State} (h : HeldGet s st fid sel c) :
    s.onGet st fid f = .next (f c sel) := by
  unfold State.onGet
  rw [onAdmin_held h.1]
  simp [h.2.1, h.2.2.1, h.2.2.2]

/-- SEL 3 reports the capabilities (R501). -/
theorem onGet_caps {s : State} {st fid : Nat} {c : Ctx} {f : Ctx → Nat → State} (h : Held s st 0x0A c) (h1 : bits (c.dw 10) 0 8 = fid)
    (h2 : bits (c.dw 10) 8 3 = 3) : s.onGet st fid f = .next (s.complete st 0 4) := by
  unfold State.onGet
  rw [onAdmin_held h]
  simp [h1, h2]

/-- A held Get Log Page transfers its slice and completes (R512). -/
theorem onLog_held {s : State} {st lid size : Nat} {c : Ctx} {page : Ctx → List (Nat × Nat × Nat)} {after : Ctx → State → State}
    (h : HeldLog s st lid size c) :
    s.onLog st lid size page after = .next ((after c (s.giveData c c.logLen (sliceFields (page c) c.logOff c.logLen))).complete st 0 0) := by
  unfold State.onLog
  rw [onAdmin_held h.1]
  have : ¬ size ≤ c.logOff := by have := h.2.2.2; omega
  simp [h.2.1, h.2.2.1, this]

end Sys2Proof.Machine
end

