-- ==== Sys2Proof/Laws/Memory.lean ====
section
/-!
SUPPORT. Sparse tables and byte memories: what a write puts into a table, and that every operation on a byte memory keeps its canonical form.
-/
namespace Sys2Proof.Machine
open Sys2Proof

theorem tsorted_iff {α : Type} (t : Tab α) : tsorted t = true ↔ t.Pairwise (fun a b => a.1 < b.1) := by
  induction t with
  | nil => simp [tsorted]
  | cons a t ih =>
    cases t with
    | nil => simp [tsorted]
    | cons b t =>
      simp only [tsorted, Bool.and_eq_true, decide_eq_true_eq, ih]
      constructor
      · rintro ⟨h, p⟩
        refine List.pairwise_cons.2 ⟨fun c hc => ?_, p⟩
        rcases List.mem_cons.1 hc with rfl | hc
        · exact h
        · exact h.trans ((List.pairwise_cons.1 p).1 c hc)
      · intro p
        exact ⟨(List.pairwise_cons.1 p).1 b (List.mem_cons_self ..), (List.pairwise_cons.1 p).2⟩

theorem mem_tput {α : Type} {t : Tab α} {k : Nat} {v : α} {e : Nat × α} (h : e ∈ tput t k v) : e = (k, v) ∨ e ∈ t := by
  induction t with
  | nil => simpa [tput] using h
  | cons a t ih =>
    obtain ⟨j, w⟩ := a
    unfold tput at h
    split at h
    · simpa using h
    · split at h
      · rcases List.mem_cons.1 h with h | h
        · exact .inl h
        · exact .inr (List.mem_cons_of_mem _ h)
      · rcases List.mem_cons.1 h with h | h
        · exact .inr (h ▸ List.mem_cons_self ..)
        · exact (ih h).imp id (List.mem_cons_of_mem _)

theorem tput_sorted {α : Type} {t : Tab α} {k : Nat} {v : α} (h : tsorted t = true) : tsorted (tput t k v) = true := by
  rw [tsorted_iff] at *
  induction t with
  | nil => simp [tput]
  | cons a t ih =>
    obtain ⟨j, w⟩ := a
    obtain ⟨h1, h2⟩ := List.pairwise_cons.1 h
    unfold tput
    split
    · next hk =>
      refine List.pairwise_cons.2 ⟨fun c hc => ?_, h⟩
      rcases List.mem_cons.1 hc with rfl | hc
      · exact hk
      · exact lt_trans hk (h1 c hc)
    · split
      · next hk => subst hk; exact List.pairwise_cons.2 ⟨h1, h2⟩
      · next hk hk' =>
        refine List.pairwise_cons.2 ⟨fun c hc => ?_, ih h2⟩
        rcases mem_tput hc with rfl | hc
        · exact lt_of_le_of_ne (not_lt.1 hk) (Ne.symm hk')
        · exact h1 c hc

/-- The canonical form in the terms of lists. -/
theorem Memory.wf_iff (d : Byte) (m : List Host.Cell) : Memory.wf d m = true ↔ m.Pairwise (fun a b => a.1 < b.1) ∧ ∀ c ∈ m, c.2 ≠ d := by
  simp [Memory.wf, tsorted_iff]

theorem Memory.wf_filter {d : Byte} {m : List Host.Cell} {p : Host.Cell → Bool} (h : Memory.wf d m = true) : Memory.wf d (m.filter p) = true := by
  rw [Memory.wf_iff] at *
  exact ⟨h.1.filter _, fun c hc => h.2 c (List.mem_of_mem_filter hc)⟩

/-- A write of one byte keeps the canonical form. -/
theorem mwrite_wf {d : Byte} {m : List Host.Cell} {a : Nat} {b : Byte} (h : Memory.wf d m = true) : Memory.wf d (mwrite d m a b) = true := by
  unfold mwrite
  split
  · exact Memory.wf_filter h
  · next hb =>
    rw [Memory.wf_iff, ← tsorted_iff] at *
    refine ⟨tput_sorted h.1, fun c hc => ?_⟩
    rcases mem_tput hc with rfl | hc
    · exact hb
    · exact h.2 c hc

/-- So does a write of several bytes. -/
theorem mwriteN_wf {d : Byte} {m : List Host.Cell} {a : Nat} {bs : List Byte} (h : Memory.wf d m = true) : Memory.wf d (mwriteN d m a bs) = true := by
  induction bs generalizing m a with
  | nil => exact h
  | cons b bs ih => exact ih (mwrite_wf h)

/-- So does an erase. -/
theorem mclear_wf {d : Byte} {m : List Host.Cell} {a n : Nat} (h : Memory.wf d m = true) : Memory.wf d (mclear m a n) = true := Memory.wf_filter h

theorem zipIdx_bounds {α : Type} {l : List α} {a : Nat} {e : α × Nat} (h : e ∈ l.zipIdx a) : a ≤ e.2 ∧ e.2 < a + l.length := by
  obtain ⟨x, i⟩ := e
  have := List.mem_zipIdx h
  exact ⟨this.1, by simpa using this.2.1⟩

theorem zipIdx_sorted {α : Type} (l : List α) (a : Nat) : (l.zipIdx a).Pairwise (fun x y => x.2 < y.2) := by
  induction l generalizing a with
  | nil => simp
  | cons x l ih =>
    rw [List.zipIdx_cons]
    refine List.pairwise_cons.2 ⟨fun e he => ?_, ih _⟩
    have := (zipIdx_bounds he).1
    simpa using this

/-- So does a fill of a range. -/
theorem mfill_wf {d : Byte} {m : List Host.Cell} {a : Nat} {bs : List Byte} (h : Memory.wf d m = true) : Memory.wf d (mfill d m a bs) = true := by
  rw [Memory.wf_iff] at *
  have mid : ∀ e : Host.Cell, e ∈ ((bs.zipIdx a).filterMap fun (b, i) => if b = d then none else some (i, b)) → (a ≤ e.1 ∧ e.1 < a + bs.length) ∧ e.2 ≠ d := by
    intro e he
    obtain ⟨⟨b, i⟩, hm, hs⟩ := List.mem_filterMap.1 he
    have := zipIdx_bounds hm
    dsimp only at hs
    split at hs
    · cases hs
    · next hb => cases hs; exact ⟨this, hb⟩
  unfold mfill
  constructor
  · refine List.pairwise_append.2 ⟨List.pairwise_append.2 ⟨h.1.filter _, ?_, ?_⟩, h.1.filter _, ?_⟩
    · refine List.Pairwise.filterMap _ ?_ (zipIdx_sorted bs a)
      rintro ⟨b, i⟩ ⟨b', i'⟩ hlt ⟨x, y⟩ hx ⟨x', y'⟩ hx'
      dsimp only at *
      split at hx <;> simp at hx
      split at hx' <;> simp at hx'
      obtain ⟨rfl, _⟩ := hx
      obtain ⟨rfl, _⟩ := hx'
      exact hlt
    · intro x hx y hy
      have h1 := (List.mem_filter.1 hx).2
      have h2 := (mid y hy).1.1
      simp at h1; omega
    · intro x hx y hy
      have h3 := (List.mem_filter.1 hy).2
      simp at h3
      rcases List.mem_append.1 hx with hx | hx
      · have h1 := (List.mem_filter.1 hx).2
        simp at h1; omega
      · have := (mid x hx).1.2; omega
  · intro c hc
    rcases List.mem_append.1 hc with hc | hc
    · rcases List.mem_append.1 hc with hc | hc
      · exact h.2 c (List.mem_of_mem_filter hc)
      · exact (mid c hc).2
    · exact h.2 c (List.mem_of_mem_filter hc)

end Sys2Proof.Machine
end

