-- ==== Sys2Proof/Laws/Keeps.lean ====
section
/-!
SUPPORT. One lemma per operation about `Keeps` (Safety): the shared operations: an operation of a meaning undoes nothing. Here the parts of the state, what the block tells, and operand forms.
-/
namespace Sys2Proof.Machine
open Sys2Proof

set_option linter.unusedTactic false
set_option linter.unreachableTactic false

theorem Keeps.refl (s : State) : Keeps s s := ⟨rfl, List.prefix_refl _, le_refl _, le_refl _, id, id, le_refl _, le_refl _, id⟩
theorem Keeps.trans {a b c : State} (h : Keeps a b) (k : Keeps b c) : Keeps a c :=
  ⟨k.pending.trans h.pending, h.out.trans k.out, h.clock.trans k.clock, h.free.trans k.free, k.start ∘ h.start, k.nvm ∘ h.nvm,
   h.offset.trans k.offset, h.ceiling.trans k.ceiling, k.ageing ∘ h.ageing⟩
/-- An update that leaves alone all that `Keeps` speaks of. -/
theorem Keeps.same {σ s t : State} (h : Keeps σ s) (h1 : t.pending = s.pending) (h2 : t.out = s.out) (h3 : t.now = s.now) (h4 : t.free = s.free)
    (h5 : t.fw.startAt = s.fw.startAt) (h6 : t.ospi.nvm = s.ospi.nvm) (h7 : t.evt.mirror.ageOffset = s.evt.mirror.ageOffset)
    (h8 : t.evt.mirror.ceiling = s.evt.mirror.ceiling) (h9 : AgeingInv s → AgeingLegal t.pwr.ageOffset t.pwr.ceiling) : Keeps σ t := by
  refine h.trans ⟨h1, by rw [h2], by rw [h3], by rw [h4], fun i => ?_, fun i => ?_, by rw [h7], by rw [h8], fun i => ⟨h9 i, ?_⟩⟩
  · unfold StartPast at *; rw [h5, h3]; exact i
  · unfold NvmCanonical at *; rw [h6]; exact i
  · rw [h7, h8]; exact i.2
theorem State.modLink_keeps {σ s : State} {f} (h : Keeps σ s) : Keeps σ (s.modLink f) := h.same rfl rfl rfl rfl rfl rfl rfl rfl (·.1)
theorem State.modFab_keeps {σ s : State} {f} (h : Keeps σ s) : Keeps σ (s.modFab f) := h.same rfl rfl rfl rfl rfl rfl rfl rfl (·.1)
theorem State.modPlace_keeps {σ s : State} {f} (h : Keeps σ s) : Keeps σ (s.modPlace f) := h.same rfl rfl rfl rfl rfl rfl rfl rfl (·.1)
theorem State.modHost_keeps {σ s : State} {f} (h : Keeps σ s) : Keeps σ (s.modHost f) := h.same rfl rfl rfl rfl rfl rfl rfl rfl (·.1)
theorem State.modMap_keeps {σ s : State} {f} (h : Keeps σ s) : Keeps σ (s.modMap f) := h.same rfl rfl rfl rfl rfl rfl rfl rfl (·.1)
theorem State.modMedia_keeps {σ s : State} {f} (h : Keeps σ s) : Keeps σ (s.modMedia f) := h.same rfl rfl rfl rfl rfl rfl rfl rfl (·.1)
theorem State.modWin_keeps {σ s : State} {f} (h : Keeps σ s) : Keeps σ (s.modWin f) := h.same rfl rfl rfl rfl rfl rfl rfl rfl (·.1)
theorem State.modCoder_keeps {σ s : State} {f} (h : Keeps σ s) : Keeps σ (s.modCoder f) := h.same rfl rfl rfl rfl rfl rfl rfl rfl (·.1)
theorem State.modFlashIf_keeps {σ s : State} {f} (h : Keeps σ s) : Keeps σ (s.modFlashIf f) := h.same rfl rfl rfl rfl rfl rfl rfl rfl (·.1)
theorem State.modSeqs_keeps {σ s : State} {f} (h : Keeps σ s) : Keeps σ (s.modSeqs f) := h.same rfl rfl rfl rfl rfl rfl rfl rfl (·.1)
theorem State.modFlash_keeps {σ s : State} {f} (h : Keeps σ s) : Keeps σ (s.modFlash f) := h.same rfl rfl rfl rfl rfl rfl rfl rfl (·.1)
theorem State.modRack_keeps {σ s : State} {f} (h : Keeps σ s) : Keeps σ (s.modRack f) := h.same rfl rfl rfl rfl rfl rfl rfl rfl (·.1)
theorem State.modChan_keeps {σ s : State} {f} (h : Keeps σ s) : Keeps σ (s.modChan f) := h.same rfl rfl rfl rfl rfl rfl rfl rfl (·.1)
theorem State.modServo_keeps {σ s : State} {f} (h : Keeps σ s) : Keeps σ (s.modServo f) := h.same rfl rfl rfl rfl rfl rfl rfl rfl (·.1)
theorem State.modDram_keeps {σ s : State} {f} (h : Keeps σ s) : Keeps σ (s.modDram f) := h.same rfl rfl rfl rfl rfl rfl rfl rfl (·.1)
theorem State.modPool_keeps {σ s : State} {f} (h : Keeps σ s) : Keeps σ (s.modPool f) := h.same rfl rfl rfl rfl rfl rfl rfl rfl (·.1)
theorem State.modPcie_keeps {σ s : State} {f} (h : Keeps σ s) : Keeps σ (s.modPcie f) := h.same rfl rfl rfl rfl rfl rfl rfl rfl (·.1)
theorem State.modNvme_keeps {σ s : State} {f} (h : Keeps σ s) : Keeps σ (s.modNvme f) := h.same rfl rfl rfl rfl rfl rfl rfl rfl (·.1)
theorem State.modCfg_keeps {σ s : State} {f} (h : Keeps σ s) : Keeps σ (s.modCfg f) := h.same rfl rfl rfl rfl rfl rfl rfl rfl (·.1)
theorem State.modFlt_keeps {σ s : State} {f} (h : Keeps σ s) : Keeps σ (s.modFlt f) := h.same rfl rfl rfl rfl rfl rfl rfl rfl (·.1)
theorem State.modTherm_keeps {σ s : State} {f} (h : Keeps σ s) : Keeps σ (s.modTherm f) := h.same rfl rfl rfl rfl rfl rfl rfl rfl (·.1)
theorem State.modPins_keeps {σ s : State} {f} (h : Keeps σ s) : Keeps σ (s.modPins f) := h.same rfl rfl rfl rfl rfl rfl rfl rfl (·.1)
theorem State.modFw_keeps {σ s : State} {f} (h : Keeps σ s) (hf : ∀ x, (f x).startAt = x.startAt) : Keeps σ (s.modFw f) :=
  h.same rfl rfl rfl rfl (hf _) rfl rfl rfl (·.1)
theorem State.modOspi_keeps {σ s : State} {f} (h : Keeps σ s) (hf : ∀ x, (f x).nvm = x.nvm) : Keeps σ (s.modOspi f) :=
  h.same rfl rfl rfl rfl rfl (hf _) rfl rfl (·.1)
theorem State.modEvt_keeps {σ s : State} {f} (h : Keeps σ s) (hf : ∀ x, (f x).mirror.ageOffset = x.mirror.ageOffset ∧ (f x).mirror.ceiling = x.mirror.ceiling) :
    Keeps σ (s.modEvt f) := h.same rfl rfl rfl rfl rfl rfl (hf _).1 (hf _).2 (·.1)
theorem State.modPwr_keeps {σ s : State} {f} (h : Keeps σ s) (hf : ∀ x, (f x).ageOffset = x.ageOffset ∧ (f x).ceiling = x.ceiling) :
    Keeps σ (s.modPwr f) := h.same rfl rfl rfl rfl rfl rfl rfl rfl (fun i => by rw [show (s.modPwr f).pwr = f s.pwr from rfl, (hf _).1, (hf _).2]; exact i.1)
theorem State.setNow_keeps {σ s : State} {t} (h : Keeps σ s) (ht : s.now ≤ t) : Keeps σ (s.setNow t) :=
  h.trans ⟨rfl, List.prefix_refl _, ht, le_refl _, fun i => i.trans ht, id, le_refl _, le_refl _, id⟩
theorem State.drawn_keeps {σ s : State} (h : Keeps σ s) : Keeps σ s.drawn :=
  h.trans ⟨rfl, List.prefix_refl _, le_refl _, Nat.le_succ _, id, id, le_refl _, le_refl _, id⟩
theorem State.send_keeps {σ s : State} {o} (h : Keeps σ s) : Keeps σ (s.send o) :=
  h.trans ⟨rfl, List.prefix_append _ _, le_refl _, le_refl _, id, id, le_refl _, le_refl _, id⟩

theorem State.modOspi_nvm {σ s : State} {f} (h : Keeps σ s) (hf : Memory.wf nvmFill s.ospi.nvm = true → Memory.wf nvmFill (f s.ospi).nvm = true) : Keeps σ (s.modOspi f) :=
  h.trans ⟨rfl, List.prefix_refl _, le_refl _, le_refl _, id, hf, le_refl _, le_refl _, id⟩
theorem State.modFw_startNow {σ s : State} {f} (h : Keeps σ s) (hf : (f s.fw).startAt = s.now) : Keeps σ (s.modFw f) :=
  h.trans ⟨rfl, List.prefix_refl _, le_refl _, le_refl _, fun _ => by show (f s.fw).startAt ≤ s.now; omega, id, le_refl _, le_refl _, id⟩
theorem State.modEvt_here {σ s : State} {f} (h : Keeps σ s) (hf : (f s.evt).mirror.ageOffset = s.evt.mirror.ageOffset ∧ (f s.evt).mirror.ceiling = s.evt.mirror.ceiling) :
    Keeps σ (s.modEvt f) := h.same rfl rfl rfl rfl rfl rfl hf.1 hf.2 (·.1)
theorem State.modPwr_mirror {σ s : State} {f} (h : Keeps σ s) (hf : (f s.pwr).ageOffset = s.evt.mirror.ageOffset ∧ (f s.pwr).ceiling = s.evt.mirror.ceiling) :
    Keeps σ (s.modPwr f) := h.same rfl rfl rfl rfl rfl rfl rfl rfl (fun i => by rw [show (s.modPwr f).pwr = f s.pwr from rfl, hf.1, hf.2]; exact i.2)

theorem Keeps.letE {α : Sort _} {σ : State} {e : α} {f : α → State} (h : ∀ x, Keeps σ (f x)) : Keeps σ (let x := e; f x) := h e
theorem Keeps.letS {σ e : State} {f : State → State} (he : Keeps σ e) (h : ∀ x, Keeps σ x → Keeps σ (f x)) : Keeps σ (let x := e; f x) := h e he
theorem Keeps.letP {α : Type} {σ : State} {e : α × State} {f : α × State → State} (he : Keeps σ e.2) (h : ∀ x : α × State, Keeps σ x.2 → Keeps σ (f x)) :
    Keeps σ (let x := e; f x) := h e he
theorem Keeps.ite {c : Prop} [Decidable c] {σ a b : State} (ha : Keeps σ a) (hb : Keeps σ b) : Keeps σ (if c then a else b) := by split <;> assumption
theorem Keeps.foldl {α : Type} {σ : State} {f : State → α → State} {l : List α} {s : State} (h : Keeps σ s)
    (hf : ∀ s a, Keeps σ s → Keeps σ (f s a)) : Keeps σ (l.foldl f s) := by
  induction l generalizing s with
  | nil => exact h
  | cons a l ih => exact ih (hf _ _ h)
theorem Keeps.foldlP {α β : Type} {σ : State} {f : State × β → α → State × β} {l : List α} {s : State × β} (h : Keeps σ s.1)
    (hf : ∀ s a, Keeps σ s.1 → Keeps σ (f s a).1) : Keeps σ (l.foldl f s).1 := by
  induction l generalizing s with
  | nil => exact h
  | cons a l ih => exact ih (hf _ _ h)
theorem Keeps.foldlQ {α β : Type} {σ : State} {f : β × State → α → β × State} {l : List α} {s : β × State} (h : Keeps σ s.2)
    (hf : ∀ s a, Keeps σ s.2 → Keeps σ (f s a).2) : Keeps σ (l.foldl f s).2 := by
  induction l generalizing s with
  | nil => exact h
  | cons a l ih => exact ih (hf _ _ h)

theorem State.reach_keeps {σ s : State} {t} (h : Keeps σ s) : Keeps σ (s.reach t) := State.setNow_keeps h (le_max_left _ _)
theorem State.fresh_keeps {σ s : State} {w} (h : Keeps σ s) : Keeps σ (s.fresh w).2 := State.drawn_keeps h
theorem State.fresh_keeps_of {σ s t : State} {w a} (h : Keeps σ s) (e : s.fresh w = (a, t)) : Keeps σ t := by cases e; exact State.drawn_keeps h
theorem Keeps.optMap {α : Type} {σ s : State} {o : Option (α × State)} (h : Keeps σ s) (ho : ∀ a t, o = some (a, t) → Keeps σ t) :
    Keeps σ ((o.map (·.2)).getD s) := by
  cases o with
  | none => exact h
  | some p => exact ho p.1 p.2 rfl
theorem Keeps.optGet {σ s : State} {o : Option State} (h : Keeps σ s) (ho : ∀ t, o = some t → Keeps σ t) : Keeps σ (o.getD s) := by
  cases o with
  | none => exact h
  | some p => exact ho p rfl
theorem Keeps.optElim {α : Type} {σ s : State} {o : Option α} {f : α → State} (h : Keeps σ s) (ho : ∀ t, Keeps σ (f t)) : Keeps σ ((o.map f).getD s) := by
  cases o with
  | none => exact h
  | some p => exact ho p
@[simp] theorem EvtSt.put_mirror (e : EvtSt) (r : Rec) (n : Nat) : (e.put r n).mirror = e.mirror := rfl
@[simp] theorem EvtSt.append_mirror (e : EvtSt) (r : Rec) (n : Nat) : (e.append r n).mirror = e.mirror := by unfold EvtSt.append; split <;> simp
theorem NextKeeps.next {σ t : State} (h : Keeps σ t) : NextKeeps σ (.next t) := ⟨t, rfl, h⟩
theorem NextKeeps.letE {α : Sort _} {σ : State} {e : α} {f : α → Host.Outcome State Fault Refusal} (h : ∀ x, NextKeeps σ (f x)) : NextKeeps σ (let x := e; f x) := h e
theorem NextKeeps.letS {σ e : State} {f : State → Host.Outcome State Fault Refusal} (he : Keeps σ e) (h : ∀ x, Keeps σ x → NextKeeps σ (f x)) :
    NextKeeps σ (let x := e; f x) := h e he

theorem State.tlp_keeps {σ s : State} {o : Out} (hσ : Keeps σ s) : Keeps σ (State.tlp s o) := by
  unfold State.tlp
  repeat' (first | with_reducible assumption | with_reducible refine State.modPcie_keeps ?_ | with_reducible refine State.send_keeps ?_)

theorem State.hostWrite_keeps {σ s : State} {o : Out} (hσ : Keeps σ s) : Keeps σ (State.hostWrite s o) := by
  unfold State.hostWrite
  repeat' (first
    | with_reducible assumption
    | with_reducible refine State.modPcie_keeps ?_
    | with_reducible refine State.tlp_keeps ?_
    | with_reducible refine Keeps.ite ?_ ?_
    | split)

theorem State.fireVector_keeps {σ s : State} {v : Nat} (hσ : Keeps σ s) : Keeps σ (State.fireVector s v) := by
  unfold State.fireVector
  repeat' (first
    | with_reducible assumption
    | with_reducible refine State.modPcie_keeps ?_
    | with_reducible refine State.tlp_keeps ?_
    | with_reducible refine Keeps.ite ?_ ?_
    | (extract_lets -underBinder +onlyGivenNames z
       first | (refine (fun hz : Keeps σ z => ?_) ?_; on_goal 1 => clear_value z
                on_goal 2 => (unfold z; clear z))
             | clear_value z)
    | split)

theorem State.interrupt_keeps {σ s : State} {qid : Nat} (hσ : Keeps σ s) : Keeps σ (State.interrupt s qid) := by
  unfold State.interrupt
  repeat' (first
    | with_reducible assumption
    | with_reducible refine State.fireVector_keeps ?_
    | with_reducible refine State.modNvme_keeps ?_
    | with_reducible refine Keeps.ite ?_ ?_
    | split)

theorem State.postCqe_keeps {σ s : State} {qid : Nat} {e : Cqe} {c : Ctx} (hσ : Keeps σ s) : Keeps σ (State.postCqe s qid e c) := by
  unfold State.postCqe
  repeat' (first
    | with_reducible assumption
    | with_reducible refine State.interrupt_keeps ?_
    | with_reducible refine State.modNvme_keeps ?_
    | with_reducible refine State.modPcie_keeps ?_
    | with_reducible refine State.tlp_keeps ?_
    | with_reducible refine Keeps.ite ?_ ?_
    | (extract_lets -underBinder +onlyGivenNames z
       first | (refine (fun hz : Keeps σ z => ?_) ?_; on_goal 1 => clear_value z
                on_goal 2 => (unfold z; clear z))
             | clear_value z)
    | split)

theorem State.flushWrites_keeps {σ s : State} (hσ : Keeps σ s) : Keeps σ (State.flushWrites s) := by
  unfold State.flushWrites
  repeat' (first
    | with_reducible assumption
    | with_reducible refine Keeps.foldl ?_ ?_
    | with_reducible refine Keeps.foldlP ?_ ?_
    | with_reducible refine Keeps.foldlQ ?_ ?_
    | with_reducible refine State.hostWrite_keeps ?_
    | with_reducible refine State.modPcie_keeps ?_
    | intro _)

theorem State.modCtx_keeps {σ s : State} {st : Nat} {f : Ctx → Ctx} (hσ : Keeps σ s) : Keeps σ (State.modCtx s st f) := by
  unfold State.modCtx
  repeat' (first
    | with_reducible assumption
    | with_reducible refine State.modHost_keeps ?_
    | with_reducible refine Keeps.ite ?_ ?_
    | split)

theorem State.dropCtx_keeps {σ s : State} {st : Nat} (hσ : Keeps σ s) : Keeps σ (State.dropCtx s st) := by
  unfold State.dropCtx
  repeat' (first | with_reducible assumption | with_reducible refine State.modHost_keeps ?_)

theorem State.modPoolOf_keeps {σ s : State} {p : Nat} {f : Pool → Pool} (hσ : Keeps σ s) : Keeps σ (State.modPoolOf s p f) := by
  unfold State.modPoolOf
  repeat' (first | with_reducible assumption | with_reducible refine State.modPool_keeps ?_)

theorem State.modBuf_keeps {σ s : State} {h : Nat} {f : Buf → Buf} (hσ : Keeps σ s) : Keeps σ (State.modBuf s h f) := by
  unfold State.modBuf
  repeat' (first | with_reducible assumption | with_reducible refine State.modPool_keeps ?_)

theorem State.pushBuf_keeps {σ s : State} {h : Nat} (hσ : Keeps σ s) : Keeps σ (State.pushBuf s h) := by
  unfold State.pushBuf
  repeat' (first
    | with_reducible assumption
    | with_reducible refine State.modBuf_keeps ?_
    | with_reducible refine State.modPool_keeps ?_
    | with_reducible refine State.modPoolOf_keeps ?_
    | with_reducible refine Keeps.ite ?_ ?_
    | (extract_lets -underBinder +onlyGivenNames z
       first | (refine (fun hz : Keeps σ z => ?_) ?_; on_goal 1 => clear_value z
                on_goal 2 => (unfold z; clear z))
             | clear_value z)
    | split)

theorem State.answer_keeps {σ s : State} {c : Ctx} {status : Nat} {dw0 : Dword} (hσ : Keeps σ s) : Keeps σ (State.answer s c status dw0) := by
  unfold State.answer
  repeat' (first
    | with_reducible assumption
    | with_reducible refine State.modNvme_keeps ?_
    | with_reducible refine State.modWin_keeps ?_
    | with_reducible refine State.postCqe_keeps ?_
    | with_reducible refine State.pushBuf_keeps ?_
    | with_reducible refine State.send_keeps ?_
    | with_reducible refine Keeps.ite ?_ ?_
    | (extract_lets -underBinder +onlyGivenNames z
       first | (refine (fun hz : Keeps σ z => ?_) ?_; on_goal 1 => clear_value z
                on_goal 2 => (unfold z; clear z))
             | clear_value z)
    | split)

theorem State.finishDeletes_keeps {σ s : State} (hσ : Keeps σ s) : Keeps σ (State.finishDeletes s) := by
  unfold State.finishDeletes
  repeat' (first
    | with_reducible assumption
    | with_reducible refine Keeps.foldl ?_ ?_
    | with_reducible refine Keeps.foldlP ?_ ?_
    | with_reducible refine Keeps.foldlQ ?_ ?_
    | with_reducible refine State.answer_keeps ?_
    | with_reducible refine State.dropCtx_keeps ?_
    | with_reducible refine State.modNvme_keeps ?_
    | with_reducible refine Keeps.ite ?_ ?_
    | (extract_lets -underBinder +onlyGivenNames z
       first | (refine (fun hz : Keeps σ z => ?_) ?_; on_goal 1 => clear_value z
                on_goal 2 => (unfold z; clear z))
             | (refine (fun hz : Keeps σ z.2 => ?_) ?_; on_goal 1 => clear_value z
                on_goal 2 => (unfold z; clear z))
             | (refine (fun hz : Keeps σ z.1 => ?_) ?_; on_goal 1 => clear_value z
                on_goal 2 => (unfold z; clear z))
             | clear_value z)
    | split
    | intro _)

theorem State.flushCqes_keeps {σ s : State} (hσ : Keeps σ s) : Keeps σ (State.flushCqes s) := by
  unfold State.flushCqes
  repeat' (first
    | with_reducible assumption
    | with_reducible refine State.finishDeletes_keeps ?_
    | with_reducible refine Keeps.foldl ?_ ?_
    | with_reducible refine Keeps.foldlP ?_ ?_
    | with_reducible refine Keeps.foldlQ ?_ ?_
    | with_reducible refine State.modPcie_keeps ?_
    | with_reducible refine State.postCqe_keeps ?_
    | intro _)

theorem State.complete_keeps {σ s : State} {st status : Nat} {dw0 : Dword} (hσ : Keeps σ s) : Keeps σ (State.complete s st status dw0) := by
  unfold State.complete
  repeat' (first
    | with_reducible assumption
    | with_reducible refine State.answer_keeps ?_
    | with_reducible refine State.dropCtx_keeps ?_
    | with_reducible refine State.finishDeletes_keeps ?_
    | split)

theorem State.deliver_keeps {σ s : State} {ty info log : Nat} (hσ : Keeps σ s) : Keeps σ (State.deliver s ty info log) := by
  unfold State.deliver
  repeat' (first
    | with_reducible assumption
    | with_reducible refine State.complete_keeps ?_
    | with_reducible refine State.modNvme_keeps ?_
    | split)

theorem State.raiseEvent_keeps {σ s : State} {ty info log : Nat} {crit : Nat} (hσ : Keeps σ s) : Keeps σ (State.raiseEvent s ty info log crit) := by
  unfold State.raiseEvent
  repeat' (first
    | with_reducible assumption
    | with_reducible refine State.deliver_keeps ?_
    | with_reducible refine State.modNvme_keeps ?_
    | with_reducible refine Keeps.ite ?_ ?_
    | split)

theorem State.clearEvent_keeps {σ s : State} {ty log : Nat} (hσ : Keeps σ s) : Keeps σ (State.clearEvent s ty log) := by
  unfold State.clearEvent
  repeat' (first | with_reducible assumption | with_reducible refine State.modNvme_keeps ?_)

theorem State.warnBit_keeps {σ s : State} {b : Nat} (hσ : Keeps σ s) : Keeps σ (State.warnBit s b) := by
  unfold State.warnBit
  repeat' (first
    | with_reducible assumption
    | with_reducible refine State.modNvme_keeps ?_
    | with_reducible refine State.raiseEvent_keeps ?_
    | with_reducible refine Keeps.ite ?_ ?_
    | (extract_lets -underBinder +onlyGivenNames z
       first | (refine (fun hz : Keeps σ z => ?_) ?_; on_goal 1 => clear_value z
                on_goal 2 => (unfold z; clear z))
             | clear_value z)
    | split)

theorem State.clearWarnBit_keeps {σ s : State} {b : Nat} (hσ : Keeps σ s) : Keeps σ (State.clearWarnBit s b) := by
  unfold State.clearWarnBit
  repeat' (first | with_reducible assumption | with_reducible refine State.modNvme_keeps ?_)

theorem State.append_keeps {σ s : State} {r : Rec} (hσ : Keeps σ s) : Keeps σ (State.append s r) := by
  unfold State.append
  dsimp only
  split
  · exact State.modEvt_keeps hσ fun x => by simp
  · exact State.modEvt_keeps hσ fun x => by split <;> simp

theorem State.note_keeps {σ s : State} {id kind index : Nat} {args : List Nat} (hσ : Keeps σ s) : Keeps σ (State.note s id kind index args) := by
  unfold State.note
  repeat' (first | with_reducible assumption | with_reducible refine State.append_keeps ?_)

theorem State.noteTag_keeps {σ s : State} {group kind index : Nat} {tag : List Nat} (hσ : Keeps σ s) : Keeps σ (State.noteTag s group kind index tag) := by
  unfold State.noteTag
  repeat' (first | with_reducible assumption | with_reducible refine State.note_keeps ?_)

theorem State.healthWarn_keeps {σ s : State} {kind index measure : Nat} {value limit : Int} (hσ : Keeps σ s) : Keeps σ (State.healthWarn s kind index measure value limit) := by
  unfold State.healthWarn
  repeat' (first
    | with_reducible assumption
    | with_reducible refine State.modEvt_keeps ?_ ?_
    | with_reducible refine State.note_keeps ?_
    | with_reducible refine State.raiseEvent_keeps ?_
    | with_reducible exact fun _ => ⟨rfl, rfl⟩
    | with_reducible exact fun _ => rfl
    | (intro x; try dsimp only; repeat' split) <;> with_reducible first | rfl | exact ⟨rfl, rfl⟩
    | with_reducible refine Keeps.ite ?_ ?_
    | (extract_lets -underBinder +onlyGivenNames z
       first | (refine (fun hz : Keeps σ z => ?_) ?_; on_goal 1 => clear_value z
                on_goal 2 => (unfold z; clear z))
             | clear_value z)
    | split
    | intro _)

theorem State.modSrc_keeps {σ s : State} {id : Nat} {f : Src → Src} (hσ : Keeps σ s) : Keeps σ (State.modSrc s id f) := by
  unfold State.modSrc
  repeat' (first | with_reducible assumption | with_reducible refine State.modFlt_keeps ?_)

theorem State.driveFaultN_keeps {σ s : State} (hσ : Keeps σ s) : Keeps σ (State.driveFaultN s) := by
  unfold State.driveFaultN
  repeat' (first
    | with_reducible assumption
    | with_reducible refine State.modFlt_keeps ?_
    | (extract_lets -underBinder +onlyGivenNames z
       first | (refine (fun hz : Keeps σ z => ?_) ?_; on_goal 1 => clear_value z
                on_goal 2 => (unfold z; clear z))
             | (refine (fun hz : Keeps σ z.2 => ?_) ?_; on_goal 1 => clear_value z
                on_goal 2 => (unfold z; clear z))
             | clear_value z))

theorem State.enterSafe_keeps {σ s : State} {cause : Nat} {escalated : Bool} (hσ : Keeps σ s) : Keeps σ (State.enterSafe s cause escalated) := by
  unfold State.enterSafe
  repeat' (first
    | with_reducible assumption
    | with_reducible refine State.driveFaultN_keeps ?_
    | with_reducible refine State.modChan_keeps ?_
    | with_reducible refine State.modFlt_keeps ?_
    | with_reducible refine State.modLink_keeps ?_
    | with_reducible refine State.modNvme_keeps ?_
    | with_reducible refine State.modRack_keeps ?_
    | with_reducible refine State.note_keeps ?_
    | with_reducible refine Keeps.ite ?_ ?_
    | (extract_lets -underBinder +onlyGivenNames z
       first | (refine (fun hz : Keeps σ z => ?_) ?_; on_goal 1 => clear_value z
                on_goal 2 => (unfold z; clear z))
             | clear_value z)
    | split)

theorem State.fatal_keeps {σ s : State} {cause : Nat} {escalated : Bool} (hσ : Keeps σ s) : Keeps σ (State.fatal s cause escalated) := by
  unfold State.fatal
  repeat' (first
    | with_reducible assumption
    | with_reducible refine State.enterSafe_keeps ?_
    | with_reducible refine State.modFlt_keeps ?_
    | split)

theorem State.restartQuiet_keeps {σ s : State} (hσ : Keeps σ s) : Keeps σ (State.restartQuiet s) := by
  unfold State.restartQuiet
  repeat' (first | with_reducible assumption | with_reducible refine State.modFlt_keeps ?_ | split)

theorem State.faultRecord_keeps {σ s : State} {id cls : Nat} {esc : Bool} {detail : List Nat} (hσ : Keeps σ s) : Keeps σ (State.faultRecord s id cls esc detail) := by
  unfold State.faultRecord
  repeat' (first
    | with_reducible assumption
    | with_reducible refine State.append_keeps ?_
    | with_reducible refine State.modSrc_keeps ?_
    | (extract_lets -underBinder +onlyGivenNames z
       first | (refine (fun hz : Keeps σ z => ?_) ?_; on_goal 1 => clear_value z
                on_goal 2 => (unfold z; clear z))
             | clear_value z))

theorem State.closeSecond_keeps {σ s : State} {id : Nat} (hσ : Keeps σ s) : Keeps σ (State.closeSecond s id) := by
  unfold State.closeSecond
  dsimp only
  split
  · exact hσ
  · refine State.modSrc_keeps ?_
    split
    · exact hσ
    · exact State.note_keeps hσ

theorem State.raise_keeps {σ s : State} {id : Nat} {detail : List Nat} (hσ : Keeps σ s) : Keeps σ (State.raise s id detail) := by
  unfold State.raise
  repeat' (first
    | with_reducible assumption
    | with_reducible refine State.closeSecond_keeps ?_
    | with_reducible refine State.driveFaultN_keeps ?_
    | with_reducible refine State.fatal_keeps ?_
    | with_reducible refine State.faultRecord_keeps ?_
    | with_reducible refine State.modSrc_keeps ?_
    | with_reducible refine State.raiseEvent_keeps ?_
    | with_reducible refine State.restartQuiet_keeps ?_
    | with_reducible refine Keeps.ite ?_ ?_
    | (extract_lets -underBinder +onlyGivenNames z
       first | (refine (fun hz : Keeps σ z => ?_) ?_; on_goal 1 => clear_value z
                on_goal 2 => (unfold z; clear z))
             | clear_value z)
    | split)

theorem State.issueRead_keeps {σ s : State} {kind : ReqKind} {addr len : Nat} {again : Bool} (hσ : Keeps σ s) : Keeps σ (State.issueRead s kind addr len again) := by
  unfold State.issueRead
  repeat' (first
    | with_reducible assumption
    | with_reducible refine State.modPcie_keeps ?_
    | with_reducible refine State.tlp_keeps ?_
    | with_reducible refine Keeps.ite ?_ ?_
    | (extract_lets -underBinder +onlyGivenNames z
       first | (refine (fun hz : Keeps σ z => ?_) ?_; on_goal 1 => clear_value z
                on_goal 2 => (unfold z; clear z))
             | clear_value z)
    | split)

theorem State.pumpReads_keeps {σ s : State} (hσ : Keeps σ s) : Keeps σ (State.pumpReads s) := by
  unfold State.pumpReads
  repeat' (first
    | with_reducible assumption
    | with_reducible refine Keeps.foldl ?_ ?_
    | with_reducible refine Keeps.foldlP ?_ ?_
    | with_reducible refine Keeps.foldlQ ?_ ?_
    | with_reducible refine State.issueRead_keeps ?_
    | with_reducible refine State.modPcie_keeps ?_
    | intro _)

theorem State.dropReq_keeps {σ s : State} {kind : ReqKind} (hσ : Keeps σ s) : Keeps σ (State.dropReq s kind) := by
  unfold State.dropReq
  repeat' (first | with_reducible assumption | with_reducible refine State.modPcie_keeps ?_)

theorem State.aerCorrectable_keeps {σ s : State} {b : Nat} (hσ : Keeps σ s) : Keeps σ (State.aerCorrectable s b) := by
  unfold State.aerCorrectable
  repeat' (first | with_reducible assumption | with_reducible refine State.modPcie_keeps ?_)

theorem State.aerUncorrectable_keeps {σ s : State} {b : Nat} {advisory : Bool} (hσ : Keeps σ s) : Keeps σ (State.aerUncorrectable s b advisory) := by
  unfold State.aerUncorrectable
  repeat' (first
    | with_reducible assumption
    | with_reducible refine State.aerCorrectable_keeps ?_
    | with_reducible refine State.modPcie_keeps ?_
    | with_reducible refine State.note_keeps ?_
    | with_reducible refine Keeps.ite ?_ ?_
    | (extract_lets -underBinder +onlyGivenNames z
       first | (refine (fun hz : Keeps σ z => ?_) ?_; on_goal 1 => clear_value z
                on_goal 2 => (unfold z; clear z))
             | clear_value z)
    | split)

theorem State.sendLtr_keeps {σ s : State} {v : Nat} (hσ : Keeps σ s) : Keeps σ (State.sendLtr s v) := by
  unfold State.sendLtr
  repeat' (first
    | with_reducible assumption
    | with_reducible refine State.modPcie_keeps ?_
    | with_reducible refine State.tlp_keeps ?_
    | with_reducible refine Keeps.ite ?_ ?_
    | split)

theorem State.noteLink_keeps {σ s : State} {width speed : Nat} {changed : Bool} (hσ : Keeps σ s) : Keeps σ (State.noteLink s width speed changed) := by
  unfold State.noteLink
  repeat' (first
    | with_reducible assumption
    | with_reducible refine State.note_keeps ?_
    | with_reducible refine Keeps.ite ?_ ?_
    | split)

theorem State.onAdmin_keeps {σ s : State} {st op : Nat} {f : Ctx → State} (hσ : Keeps σ s) (hf : ∀ c, Keeps σ (f c)) : NextKeeps σ (State.onAdmin s st op f) := by
  unfold State.onAdmin
  repeat' (first
    | with_reducible assumption
    | with_reducible refine NextKeeps.next ?_
    | with_reducible exact hf _
    | with_reducible exact hf _ _
    | with_reducible refine hf _ _ ?_
    | with_reducible refine Keeps.ite ?_ ?_
    | split
    | intro _)

theorem State.onIo_keeps {σ s : State} {st op : Nat} {f : Ctx → State} (hσ : Keeps σ s) (hf : ∀ c, Keeps σ (f c)) : NextKeeps σ (State.onIo s st op f) := by
  unfold State.onIo
  repeat' (first
    | with_reducible assumption
    | with_reducible refine NextKeeps.next ?_
    | with_reducible exact hf _
    | with_reducible exact hf _ _
    | with_reducible refine hf _ _ ?_
    | with_reducible refine Keeps.ite ?_ ?_
    | split
    | intro _)

theorem State.onSet_keeps {σ s : State} {st fid : Nat} {f : Ctx → State} (hσ : Keeps σ s) (hf : ∀ c, Keeps σ (f c)) : NextKeeps σ (State.onSet s st fid f) := by
  unfold State.onSet
  repeat' (first
    | with_reducible assumption
    | with_reducible refine NextKeeps.next ?_
    | with_reducible exact hf _
    | with_reducible exact hf _ _
    | with_reducible refine hf _ _ ?_
    | with_reducible refine State.complete_keeps ?_
    | with_reducible refine State.onAdmin_keeps ?_ ?_
    | with_reducible refine Keeps.ite ?_ ?_
    | split
    | intro _)

theorem State.onGet_keeps {σ s : State} {st fid : Nat} {f : Ctx → Nat → State} (hσ : Keeps σ s) (hf : ∀ c n, Keeps σ (f c n)) : NextKeeps σ (State.onGet s st fid f) := by
  unfold State.onGet
  repeat' (first
    | with_reducible assumption
    | with_reducible refine NextKeeps.next ?_
    | with_reducible exact hf _
    | with_reducible exact hf _ _
    | with_reducible refine hf _ _ ?_
    | with_reducible refine State.complete_keeps ?_
    | with_reducible refine State.onAdmin_keeps ?_ ?_
    | with_reducible refine Keeps.ite ?_ ?_
    | split
    | intro _)

theorem State.giveData_keeps {σ s : State} {c : Ctx} {len : Nat} {fields : List (Nat × Nat × Nat)} (hσ : Keeps σ s) : Keeps σ (State.giveData s c len fields) := by
  unfold State.giveData
  repeat' (first
    | with_reducible assumption
    | with_reducible refine State.hostWrite_keeps ?_
    | with_reducible refine State.send_keeps ?_
    | split)

end Sys2Proof.Machine
end

