-- ==== Sys2Proof/Laws/KeepsStore.lean ====
section
/-!
SUPPORT. One lemma per operation about `Keeps` (Safety): that the shared operations of the media undo nothing.
-/
namespace Sys2Proof.Machine
open Sys2Proof

set_option linter.unusedTactic false
set_option linter.unreachableTactic false

theorem State.modRw_keeps {σ s : State} {a : Nat} {f : RwSt → RwSt} (hσ : Keeps σ s) : Keeps σ (State.modRw s a f) := by
  unfold State.modRw
  repeat' (first | with_reducible assumption | with_reducible refine State.modChan_keeps ?_)

theorem State.loadSet_keeps {σ s : State} {a : Nat} (hσ : Keeps σ s) : Keeps σ (State.loadSet s a) := by
  unfold State.loadSet
  with_reducible exact State.modRw_keeps hσ

theorem State.heatersOff_keeps {σ s : State} {a : Nat} (hσ : Keeps σ s) : Keeps σ (State.heatersOff s a) := by
  unfold State.heatersOff
  with_reducible exact State.modRw_keeps hσ

theorem State.bandParams_keeps {σ s : State} (hσ : Keeps σ s) : Keeps σ (State.bandParams s) := by
  unfold State.bandParams
  repeat' (first
    | with_reducible assumption
    | with_reducible refine Keeps.foldl ?_ ?_
    | with_reducible refine State.loadSet_keeps ?_
    | split
    | intro _)

theorem State.putDesc_keeps {σ s : State} {nsid lcn : Nat} {d : Desc} (hσ : Keeps σ s) : Keeps σ (State.putDesc s nsid lcn d) := by
  unfold State.putDesc
  repeat' (first
    | with_reducible assumption
    | with_reducible refine State.modMap_keeps ?_
    | with_reducible refine Keeps.ite ?_ ?_
    | (extract_lets -underBinder +onlyGivenNames z
       first | (refine (fun hz : Keeps σ z => ?_) ?_; on_goal 1 => clear_value z
                on_goal 2 => (unfold z; clear z))
             | (refine (fun hz : Keeps σ z.1 => ?_) ?_; on_goal 1 => clear_value z
                on_goal 2 => (unfold z; clear z))
             | clear_value z)
    | split)

theorem State.dropNs_keeps {σ s : State} {nsid : Nat} (hσ : Keeps σ s) : Keeps σ (State.dropNs s nsid) := by
  unfold State.dropNs
  repeat' (first
    | with_reducible assumption
    | with_reducible refine State.modMap_keeps ?_
    | (extract_lets -underBinder +onlyGivenNames z
       first | (refine (fun hz : Keeps σ z => ?_) ?_; on_goal 1 => clear_value z
                on_goal 2 => (unfold z; clear z))
             | (refine (fun hz : Keeps σ z.2 => ?_) ?_; on_goal 1 => clear_value z
                on_goal 2 => (unfold z; clear z))
             | (refine (fun hz : Keeps σ z.1 => ?_) ?_; on_goal 1 => clear_value z
                on_goal 2 => (unfold z; clear z))
             | clear_value z))

theorem State.subGrant_keeps {σ s : State} {reserve : Bool} {t : State} {a0 : Nat} (hσ : Keeps σ s) (e : State.subGrant s reserve = some (a0, t)) : Keeps σ t := by
  unfold State.subGrant at e
  dsimp only at e
  split at e
  · cases e; exact State.modMap_keeps hσ
  · split at e
    · cases e; exact State.modMap_keeps hσ
    · cases e

theorem State.subReturn_keeps {σ s : State} {ix : Nat} (hσ : Keeps σ s) : Keeps σ (State.subReturn s ix) := by
  unfold State.subReturn
  repeat' (first
    | with_reducible assumption
    | with_reducible refine State.modMap_keeps ?_
    | with_reducible refine Keeps.ite ?_ ?_
    | (extract_lets -underBinder +onlyGivenNames z
       first | (refine (fun hz : Keeps σ z => ?_) ?_; on_goal 1 => clear_value z
                on_goal 2 => (unfold z; clear z))
             | clear_value z)
    | split)

theorem State.setUnits_keeps {σ s : State} {nsid lcn : Nat} {us : List UState} {ix : Nat} {had : Bool} (hσ : Keeps σ s) : Keeps σ (State.setUnits s nsid lcn us ix had) := by
  unfold State.setUnits
  repeat' (first
    | with_reducible assumption
    | with_reducible exact hz _
    | with_reducible exact hz _ _
    | with_reducible refine hz _ ?_
    | with_reducible refine hz _ _ ?_
    | with_reducible refine State.modMap_keeps ?_
    | with_reducible refine State.putDesc_keeps ?_
    | with_reducible refine State.subReturn_keeps ?_
    | with_reducible refine Keeps.ite ?_ ?_
    | (extract_lets -underBinder +onlyGivenNames z
       first | (refine (fun hz : Keeps σ z => ?_) ?_; on_goal 1 => clear_value z
                on_goal 2 => (unfold z; clear z))
             | (refine (fun hz : ∀ x, Keeps σ x → Keeps σ (z x) => ?_) ?_; on_goal 1 => clear_value z
                on_goal 2 => (unfold z; clear z))
             | (refine (fun hz : ∀ x y, Keeps σ x → Keeps σ (z x y) => ?_) ?_; on_goal 1 => clear_value z
                on_goal 2 => (unfold z; clear z))
             | (refine (fun hz : ∀ y, Keeps σ (z y) => ?_) ?_; on_goal 1 => clear_value z
                on_goal 2 => (unfold z; clear z))
             | (refine (fun hz : ∀ y w, Keeps σ (z y w) => ?_) ?_; on_goal 1 => clear_value z
                on_goal 2 => (unfold z; clear z))
             | clear_value z)
    | split
    | intro _)

theorem State.nextWsn_keeps {σ s : State} (hσ : Keeps σ s) : Keeps σ (State.nextWsn s).2 := by
  unfold State.nextWsn
  repeat' (first | with_reducible assumption | with_reducible refine State.modMap_keeps ?_)
theorem State.nextWsn_keeps_of {σ s : State} {t : State} {aa} (hσ : Keeps σ s) (heq : State.nextWsn s = (aa, t)) : Keeps σ t := by
  have : Keeps σ (State.nextWsn s).2 := State.nextWsn_keeps hσ
  rw [heq] at this; exact this

theorem State.jform_keeps {σ s : State} {nsid lcn : Nat} {b : JBody} (hσ : Keeps σ s) : Keeps σ (State.jform s nsid lcn b).2 := by
  unfold State.jform
  repeat' (first
    | with_reducible assumption
    | with_reducible refine State.modMap_keeps ?_
    | with_reducible refine State.nextWsn_keeps ?_
    | with_reducible refine State.nextWsn_keeps_of ?_ (by with_reducible assumption)
    | with_reducible refine Keeps.ite ?_ ?_
    | (extract_lets -underBinder +onlyGivenNames z
       first | (refine (fun hz : Keeps σ z => ?_) ?_; on_goal 1 => clear_value z
                on_goal 2 => (unfold z; clear z))
             | (refine (fun hz : Keeps σ z.2 => ?_) ?_; on_goal 1 => clear_value z
                on_goal 2 => (unfold z; clear z))
             | clear_value z)
    | split)
theorem State.jform_keeps_of {σ s : State} {nsid lcn : Nat} {b : JBody} {t : State} {aa} (hσ : Keeps σ s) (heq : State.jform s nsid lcn b = (aa, t)) : Keeps σ t := by
  have : Keeps σ (State.jform s nsid lcn b).2 := State.jform_keeps hσ
  rw [heq] at this; exact this

theorem State.journal_keeps {σ s : State} {nsid lcn : Nat} {b : JBody} (hσ : Keeps σ s) : Keeps σ (State.journal s nsid lcn b) := by
  unfold State.journal
  repeat' (first | with_reducible assumption | with_reducible refine State.jform_keeps ?_ | with_reducible refine State.jform_keeps_of ?_ (by with_reducible assumption))

theorem State.writeRoot_keeps {σ s : State} {r : Root} (hσ : Keeps σ s) : Keeps σ (State.writeRoot s r) := by
  unfold State.writeRoot
  repeat' (first
    | with_reducible assumption
    | with_reducible refine State.modMap_keeps ?_
    | with_reducible refine State.modMedia_keeps ?_
    | with_reducible refine Keeps.ite ?_ ?_
    | (extract_lets -underBinder +onlyGivenNames z
       first | (refine (fun hz : Keeps σ z => ?_) ?_; on_goal 1 => clear_value z
                on_goal 2 => (unfold z; clear z))
             | clear_value z)
    | split)

theorem State.unclean_keeps {σ s : State} (hσ : Keeps σ s) : Keeps σ (State.unclean s) := by
  unfold State.unclean
  repeat' (first
    | with_reducible assumption
    | with_reducible refine State.writeRoot_keeps ?_
    | with_reducible refine Keeps.ite ?_ ?_
    | split)

theorem State.markUnreadable_keeps {σ s : State} {nsid lcn m : Nat} (hσ : Keeps σ s) : Keeps σ (State.markUnreadable s nsid lcn m).2 := by
  unfold State.markUnreadable
  repeat' (first
    | with_reducible assumption
    | with_reducible refine State.setUnits_keeps ?_
    | with_reducible refine State.subGrant_keeps ?_ (by with_reducible assumption)
    | with_reducible refine Keeps.ite ?_ ?_
    | (extract_lets -underBinder +onlyGivenNames z
       first | (refine (fun hz : Keeps σ z => ?_) ?_; on_goal 1 => clear_value z
                on_goal 2 => (unfold z; clear z))
             | clear_value z)
    | split)
theorem State.markUnreadable_keeps_of {σ s : State} {nsid lcn m : Nat} {t : State} {aa} (hσ : Keeps σ s) (heq : State.markUnreadable s nsid lcn m = (aa, t)) : Keeps σ t := by
  have : Keeps σ (State.markUnreadable s nsid lcn m).2 := State.markUnreadable_keeps hσ
  rw [heq] at this; exact this

theorem State.defEntry_keeps {σ s : State} {nsid lcn cause : Nat} {tier : Tier} {wsn : Nat} {r : Nat × Nat} (hσ : Keeps σ s) : Keeps σ (State.defEntry s nsid lcn cause tier wsn r).2 := by
  unfold State.defEntry
  repeat' (first
    | with_reducible assumption
    | with_reducible refine State.note_keeps ?_
    | (extract_lets -underBinder +onlyGivenNames z
       first | (refine (fun hz : Keeps σ z => ?_) ?_; on_goal 1 => clear_value z
                on_goal 2 => (unfold z; clear z))
             | (refine (fun hz : Keeps σ z.2 => ?_) ?_; on_goal 1 => clear_value z
                on_goal 2 => (unfold z; clear z))
             | (refine (fun hz : Keeps σ z.1 => ?_) ?_; on_goal 1 => clear_value z
                on_goal 2 => (unfold z; clear z))
             | clear_value z)
    | intro _)
theorem State.defEntry_keeps_of {σ s : State} {nsid lcn cause : Nat} {tier : Tier} {wsn : Nat} {r : Nat × Nat} {t : State} {aa} (hσ : Keeps σ s) (heq : State.defEntry s nsid lcn cause tier wsn r = (aa, t)) : Keeps σ t := by
  have : Keeps σ (State.defEntry s nsid lcn cause tier wsn r).2 := State.defEntry_keeps hσ
  rw [heq] at this; exact this

theorem State.defEntries_keeps {σ s : State} {nsid lcn cause : Nat} {tier : Tier} {wsn m : Nat} (hσ : Keeps σ s) : Keeps σ (State.defEntries s nsid lcn cause tier wsn m).2 := by
  unfold State.defEntries
  repeat' (first
    | with_reducible assumption
    | with_reducible refine Keeps.foldl ?_ ?_
    | with_reducible refine Keeps.foldlP ?_ ?_
    | with_reducible refine Keeps.foldlQ ?_ ?_
    | with_reducible refine State.defEntry_keeps ?_
    | with_reducible refine State.defEntry_keeps_of ?_ (by with_reducible assumption)
    | (extract_lets -underBinder +onlyGivenNames z
       first | (refine (fun hz : Keeps σ z => ?_) ?_; on_goal 1 => clear_value z
                on_goal 2 => (unfold z; clear z))
             | (refine (fun hz : Keeps σ z.2 => ?_) ?_; on_goal 1 => clear_value z
                on_goal 2 => (unfold z; clear z))
             | (refine (fun hz : Keeps σ z.1 => ?_) ?_; on_goal 1 => clear_value z
                on_goal 2 => (unfold z; clear z))
             | clear_value z)
    | split
    | intro _)
theorem State.defEntries_keeps_of {σ s : State} {nsid lcn cause : Nat} {tier : Tier} {wsn m : Nat} {t : State} {aa} (hσ : Keeps σ s) (heq : State.defEntries s nsid lcn cause tier wsn m = (aa, t)) : Keeps σ t := by
  have : Keeps σ (State.defEntries s nsid lcn cause tier wsn m).2 := State.defEntries_keeps hσ
  rw [heq] at this; exact this

theorem State.loseUnits_keeps {σ s : State} {nsid lcn m cause : Nat} {src : Loc} {from_ : Tier} {wsn : Nat} (hσ : Keeps σ s) : Keeps σ (State.loseUnits s nsid lcn m cause src from_ wsn).2 := by
  unfold State.loseUnits
  repeat' (first
    | with_reducible assumption
    | with_reducible refine State.defEntries_keeps ?_
    | with_reducible refine State.defEntries_keeps_of ?_ (by with_reducible assumption)
    | with_reducible refine State.jform_keeps ?_
    | with_reducible refine State.jform_keeps_of ?_ (by with_reducible assumption)
    | with_reducible refine State.markUnreadable_keeps ?_
    | with_reducible refine State.markUnreadable_keeps_of ?_ (by with_reducible assumption)
    | with_reducible refine State.modHost_keeps ?_
    | with_reducible refine Keeps.ite ?_ ?_
    | (extract_lets -underBinder +onlyGivenNames z
       first | (refine (fun hz : Keeps σ z => ?_) ?_; on_goal 1 => clear_value z
                on_goal 2 => (unfold z; clear z))
             | (refine (fun hz : Keeps σ z.2 => ?_) ?_; on_goal 1 => clear_value z
                on_goal 2 => (unfold z; clear z))
             | clear_value z)
    | split)
theorem State.loseUnits_keeps_of {σ s : State} {nsid lcn m cause : Nat} {src : Loc} {from_ : Tier} {wsn : Nat} {t : State} {aa} (hσ : Keeps σ s) (heq : State.loseUnits s nsid lcn m cause src from_ wsn = (aa, t)) : Keeps σ t := by
  have : Keeps σ (State.loseUnits s nsid lcn m cause src from_ wsn).2 := State.loseUnits_keeps hσ
  rw [heq] at this; exact this

theorem State.enterDeferred_keeps {σ s : State} {nsid : Nat} {es : List DefEntry} (hσ : Keeps σ s) : Keeps σ (State.enterDeferred s nsid es) := by
  unfold State.enterDeferred
  repeat' (first
    | with_reducible assumption
    | with_reducible refine Keeps.foldl ?_ ?_
    | with_reducible refine State.journal_keeps ?_
    | with_reducible refine State.modHost_keeps ?_
    | with_reducible refine Keeps.ite ?_ ?_
    | (extract_lets -underBinder +onlyGivenNames z
       first | (refine (fun hz : Keeps σ z => ?_) ?_; on_goal 1 => clear_value z
                on_goal 2 => (unfold z; clear z))
             | clear_value z)
    | split
    | intro _)

theorem State.feedStream_keeps {σ s : State} {k i : Nat} (hσ : Keeps σ s) : Keeps σ (State.feedStream s k i) := by
  unfold State.feedStream
  repeat' (first
    | with_reducible assumption
    | with_reducible refine State.modPlace_keeps ?_
    | with_reducible refine Keeps.ite ?_ ?_
    | (extract_lets -underBinder +onlyGivenNames z
       first | (refine (fun hz : Keeps σ z => ?_) ?_; on_goal 1 => clear_value z
                on_goal 2 => (unfold z; clear z))
             | clear_value z)
    | split)

theorem State.modBlock_keeps {σ s : State} {d b : Nat} {f : BlockSt → BlockSt} (hσ : Keeps σ s) : Keeps σ (State.modBlock s d b f) := by
  unfold State.modBlock
  repeat' (first | with_reducible assumption | with_reducible refine State.modFlash_keeps ?_)

theorem State.modSpan_keeps {σ s : State} {n : Nat} {f : SpanSt → SpanSt} (hσ : Keeps σ s) : Keeps σ (State.modSpan s n f) := by
  unfold State.modSpan
  repeat' (first | with_reducible assumption | with_reducible refine State.modFlash_keeps ?_)

theorem State.openSpanFor_keeps {σ s : State} {tier : Tier} {slot : Nat} {mapArea : Bool} {n : Nat} (hσ : Keeps σ s) : Keeps σ (State.openSpanFor s tier slot mapArea n) := by
  unfold State.openSpanFor
  repeat' (first
    | with_reducible assumption
    | with_reducible refine Keeps.foldl ?_ ?_
    | with_reducible refine State.journal_keeps ?_
    | with_reducible refine State.modBlock_keeps ?_
    | with_reducible refine State.modSpan_keeps ?_
    | with_reducible refine Keeps.ite ?_ ?_
    | (extract_lets -underBinder +onlyGivenNames z
       first | (refine (fun hz : Keeps σ z => ?_) ?_; on_goal 1 => clear_value z
                on_goal 2 => (unfold z; clear z))
             | (refine (fun hz : Keeps σ z.2 => ?_) ?_; on_goal 1 => clear_value z
                on_goal 2 => (unfold z; clear z))
             | (refine (fun hz : Keeps σ z.1 => ?_) ?_; on_goal 1 => clear_value z
                on_goal 2 => (unfold z; clear z))
             | clear_value z)
    | split
    | intro _)

theorem State.modBatch_keeps {σ s : State} {n b : Nat} {f : Batch → Batch} (hσ : Keeps σ s) : Keeps σ (State.modBatch s n b f) := by
  unfold State.modBatch
  repeat' (first | with_reducible assumption | with_reducible refine State.modSpan_keeps ?_)

theorem State.fillTail_keeps {σ s : State} {n : Nat} (hσ : Keeps σ s) : Keeps σ (State.fillTail s n) := by
  unfold State.fillTail
  repeat' (first
    | with_reducible assumption
    | with_reducible refine State.modSpan_keeps ?_
    | with_reducible refine Keeps.ite ?_ ?_
    | (extract_lets -underBinder +onlyGivenNames z
       first | (refine (fun hz : Keeps σ z => ?_) ?_; on_goal 1 => clear_value z
                on_goal 2 => (unfold z; clear z))
             | clear_value z)
    | split)

theorem State.reserveIn_keeps {σ s : State} {tier : Tier} {slot id : Nat} {t : State} {a0 : Nat} {a1 : Nat} (hσ : Keeps σ s) (e : State.reserveIn s tier slot id = some (a0, a1, t)) : Keeps σ t := by
  unfold State.reserveIn at e
  extract_lets take fresh at e
  have ht : ∀ s n, Keeps σ s → take s n = some (a0, a1, t) → Keeps σ t := by
    intro s n h e
    unfold take at e
    cases e
    exact State.modBatch_keeps h
  have hf : ∀ s, Keeps σ s → fresh s = some (a0, a1, t) → Keeps σ t := by
    intro s h e
    unfold fresh at e
    split at e
    · cases e
    · exact ht _ _ (State.modFlash_keeps (State.openSpanFor_keeps h)) e
  split at e
  · exact hf _ hσ e
  · extract_lets sp at e
    split at e
    · exact ht _ _ hσ e
    · split at e
      · exact ht _ _ (State.fillTail_keeps (State.modSpan_keeps hσ)) e
      · exact hf _ (State.modFlash_keeps (State.fillTail_keeps hσ)) e

theorem State.unreserve_keeps {σ s : State} {n b id : Nat} (hσ : Keeps σ s) : Keeps σ (State.unreserve s n b id) := by
  unfold State.unreserve
  repeat' (first | with_reducible assumption | with_reducible refine State.fillTail_keeps ?_ | with_reducible refine State.modBatch_keeps ?_)

theorem State.takeIn_keeps {σ s : State} {n b id crumbs wsn : Nat} {t : State} {a0 : Nat} (hσ : Keeps σ s) (e : State.takeIn s n b id crumbs wsn = some (a0, t)) : Keeps σ t := by
  unfold State.takeIn at e
  extract_lets sp bt cap st at e
  split at e
  · cases e; exact State.fillTail_keeps (State.modBatch_keeps hσ)
  · cases e

theorem State.requestOp_keeps {σ s : State} {o : Nat} (hσ : Keeps σ s) : Keeps σ (State.requestOp s o) := by
  unfold State.requestOp
  refine State.modPwr_keeps hσ fun x => ?_
  cases x.opTarget with
  | none => dsimp only; split <;> exact ⟨rfl, rfl⟩
  | some t => exact ⟨rfl, rfl⟩

theorem State.retuneOp_keeps {σ s : State} (hσ : Keeps σ s) : Keeps σ (State.retuneOp s) := by
  unfold State.retuneOp
  repeat' (first | with_reducible assumption | with_reducible refine State.requestOp_keeps ?_)

theorem State.queueCoder_keeps {σ s : State} {t : State} {a0 : Nat} (hσ : Keeps σ s) (e : State.queueCoder s = some (a0, t)) : Keeps σ t := by
  obtain ⟨i, _, h⟩ := Option.map_eq_some_iff.1 e
  cases h; exact State.modPlace_keeps hσ

theorem State.queueCipher_keeps {σ s : State} {bytes : Nat} {t : State} {a0 : Nat} (hσ : Keeps σ s) (e : State.queueCipher s bytes = some (a0, t)) : Keeps σ t := by
  obtain ⟨i, _, h⟩ := Option.map_eq_some_iff.1 e
  cases h; exact State.modPlace_keeps hσ

theorem State.queueHard_keeps {σ s : State} {n : Nat} {t : State} {a0 : Nat} (hσ : Keeps σ s) (e : State.queueHard s n = some (a0, t)) : Keeps σ t := by
  obtain ⟨i, _, h⟩ := Option.map_eq_some_iff.1 e
  cases h; exact State.modPlace_keeps hσ

theorem State.queueSoft_keeps {σ s : State} {n : Nat} {t : State} {a0 : Nat} (hσ : Keeps σ s) (e : State.queueSoft s n = some (a0, t)) : Keeps σ t := by
  obtain ⟨i, _, h⟩ := Option.map_eq_some_iff.1 e
  cases h; exact State.modPlace_keeps hσ

theorem State.coderDone_keeps {σ s : State} {i : Nat} {dec : Bool} (hσ : Keeps σ s) : Keeps σ (State.coderDone s i dec) :=
  State.modPlace_keeps hσ

theorem State.redispatchCoder_keeps {σ s : State} {n : Nat} (hσ : Keeps σ s) : Keeps σ (State.redispatchCoder s n) := by
  unfold State.redispatchCoder
  repeat' (first
    | with_reducible assumption
    | with_reducible refine Keeps.foldl ?_ ?_
    | with_reducible refine Keeps.foldlP ?_ ?_
    | with_reducible refine Keeps.foldlQ ?_ ?_
    | with_reducible refine State.modFlash_keeps ?_
    | with_reducible refine State.modHost_keeps ?_
    | with_reducible refine State.modPlace_keeps ?_
    | with_reducible refine State.queueCoder_keeps ?_ (by with_reducible assumption)
    | with_reducible refine Keeps.ite ?_ ?_
    | (extract_lets -underBinder +onlyGivenNames z
       first | (refine (fun hz : Keeps σ z => ?_) ?_; on_goal 1 => clear_value z
                on_goal 2 => (unfold z; clear z))
             | clear_value z)
    | split
    | intro _)

theorem State.redispatchCipher_keeps {σ s : State} {n : Nat} (hσ : Keeps σ s) : Keeps σ (State.redispatchCipher s n) := by
  unfold State.redispatchCipher
  repeat' (first
    | with_reducible assumption
    | with_reducible refine State.modFlash_keeps ?_
    | with_reducible refine State.modHost_keeps ?_
    | with_reducible refine State.modPlace_keeps ?_
    | with_reducible refine State.queueCipher_keeps ?_ (by with_reducible assumption)
    | with_reducible refine Keeps.ite ?_ ?_
    | (extract_lets -underBinder +onlyGivenNames z
       first | (refine (fun hz : Keeps σ z => ?_) ?_; on_goal 1 => clear_value z
                on_goal 2 => (unfold z; clear z))
             | clear_value z)
    | split)

theorem State.fenceChannel_keeps {σ s : State} {ch : Nat} (hσ : Keeps σ s) : Keeps σ (State.fenceChannel s ch) := by
  unfold State.fenceChannel
  repeat' (first | with_reducible assumption | with_reducible refine State.modPlace_keeps ?_)

theorem State.allFenced_keeps {σ s : State} {cipher : Bool} (hσ : Keeps σ s) : Keeps σ (State.allFenced s cipher) := by
  unfold State.allFenced
  repeat' (first
    | with_reducible assumption
    | with_reducible refine State.raise_keeps ?_
    | with_reducible refine Keeps.ite ?_ ?_
    | split)

theorem State.fenceCoderN_keeps {σ s : State} {n : Nat} (hσ : Keeps σ s) : Keeps σ (State.fenceCoderN s n) := by
  unfold State.fenceCoderN
  repeat' (first | with_reducible assumption | with_reducible refine State.modPlace_keeps ?_ | with_reducible refine State.redispatchCoder_keeps ?_)

theorem State.fenceCipherN_keeps {σ s : State} {n : Nat} (hσ : Keeps σ s) : Keeps σ (State.fenceCipherN s n) := by
  unfold State.fenceCipherN
  repeat' (first
    | with_reducible assumption
    | with_reducible refine State.allFenced_keeps ?_
    | with_reducible refine State.modPlace_keeps ?_
    | with_reducible refine State.redispatchCipher_keeps ?_)

theorem State.fenceHardN_keeps {σ s : State} {n : Nat} (hσ : Keeps σ s) : Keeps σ (State.fenceHardN s n) := by
  unfold State.fenceHardN
  repeat' (first
    | with_reducible assumption
    | with_reducible refine Keeps.optMap ?_ ?_
    | with_reducible refine Keeps.optGet ?_ ?_
    | with_reducible refine Keeps.optElim ?_ ?_
    | with_reducible refine State.allFenced_keeps ?_
    | with_reducible refine State.modPlace_keeps ?_
    | with_reducible refine State.queueHard_keeps ?_ (by with_reducible assumption)
    | (extract_lets -underBinder +onlyGivenNames z
       first | (refine (fun hz : Keeps σ z => ?_) ?_; on_goal 1 => clear_value z
                on_goal 2 => (unfold z; clear z))
             | (refine (fun hz : Keeps σ z.2 => ?_) ?_; on_goal 1 => clear_value z
                on_goal 2 => (unfold z; clear z))
             | clear_value z)
    | intro _)

theorem State.fenceSoftN_keeps {σ s : State} {n : Nat} (hσ : Keeps σ s) : Keeps σ (State.fenceSoftN s n) := by
  unfold State.fenceSoftN
  repeat' (first
    | with_reducible assumption
    | with_reducible refine Keeps.optMap ?_ ?_
    | with_reducible refine Keeps.optGet ?_ ?_
    | with_reducible refine Keeps.optElim ?_ ?_
    | with_reducible refine State.allFenced_keeps ?_
    | with_reducible refine State.modPlace_keeps ?_
    | with_reducible refine State.queueSoft_keeps ?_ (by with_reducible assumption)
    | (extract_lets -underBinder +onlyGivenNames z
       first | (refine (fun hz : Keeps σ z => ?_) ?_; on_goal 1 => clear_value z
                on_goal 2 => (unfold z; clear z))
             | (refine (fun hz : Keeps σ z.2 => ?_) ?_; on_goal 1 => clear_value z
                on_goal 2 => (unfold z; clear z))
             | clear_value z)
    | intro _)

theorem State.fencePort_keeps {σ s : State} {p : Port} (hσ : Keeps σ s) : Keeps σ (State.fencePort s p) := by
  unfold State.fencePort
  repeat' (first
    | with_reducible assumption
    | with_reducible refine State.fenceChannel_keeps ?_
    | with_reducible refine State.fenceCipherN_keeps ?_
    | with_reducible refine State.fenceCoderN_keeps ?_
    | with_reducible refine State.fenceHardN_keeps ?_
    | with_reducible refine State.fenceSoftN_keeps ?_
    | with_reducible refine State.modPlace_keeps ?_
    | with_reducible refine Keeps.ite ?_ ?_
    | split)

theorem State.fault_keeps {σ s : State} {id : Nat} {detail : List Nat} (hσ : Keeps σ s) : Keeps σ (State.fault s id detail) := by
  unfold State.fault
  repeat' (first
    | with_reducible assumption
    | with_reducible refine State.fenceChannel_keeps ?_
    | with_reducible refine State.fenceCipherN_keeps ?_
    | with_reducible refine State.fenceCoderN_keeps ?_
    | with_reducible refine State.fenceHardN_keeps ?_
    | with_reducible refine State.fenceSoftN_keeps ?_
    | with_reducible refine State.raise_keeps ?_
    | with_reducible refine Keeps.ite ?_ ?_
    | (extract_lets -underBinder +onlyGivenNames z
       first | (refine (fun hz : Keeps σ z => ?_) ?_; on_goal 1 => clear_value z
                on_goal 2 => (unfold z; clear z))
             | clear_value z)
    | split)

theorem State.modEnt_keeps {σ s : State} {st nsid lcn : Nat} {f : ChunkEnt → ChunkEnt} (hσ : Keeps σ s) : Keeps σ (State.modEnt s st nsid lcn f) := by
  unfold State.modEnt
  repeat' (first
    | with_reducible assumption
    | with_reducible refine State.modCtx_keeps ?_
    | with_reducible refine Keeps.ite ?_ ?_
    | split)

theorem State.modVersion_keeps {σ s : State} {id : Nat} {f : Version → Version} (hσ : Keeps σ s) : Keeps σ (State.modVersion s id f) := by
  unfold State.modVersion
  repeat' (first
    | with_reducible assumption
    | with_reducible refine State.modHost_keeps ?_
    | with_reducible refine Keeps.ite ?_ ?_
    | split)

theorem State.dropVersion_keeps {σ s : State} {id : Nat} (hσ : Keeps σ s) : Keeps σ (State.dropVersion s id) := by
  unfold State.dropVersion
  repeat' (first | with_reducible assumption | with_reducible refine State.modHost_keeps ?_)

theorem State.attach_keeps {σ s : State} {c : Ctx} {e : ChunkEnt} (hσ : Keeps σ s) : Keeps σ (State.attach s c e) := by
  unfold State.attach
  repeat' (first
    | with_reducible assumption
    | with_reducible refine State.modEnt_keeps ?_
    | with_reducible refine State.modHost_keeps ?_
    | with_reducible refine State.modVersion_keeps ?_
    | with_reducible refine Keeps.ite ?_ ?_
    | (extract_lets -underBinder +onlyGivenNames z
       first | (refine (fun hz : Keeps σ z => ?_) ?_; on_goal 1 => clear_value z
                on_goal 2 => (unfold z; clear z))
             | clear_value z)
    | split)

theorem State.finishWrites_keeps {σ s : State} (hσ : Keeps σ s) : Keeps σ (State.finishWrites s) := by
  unfold State.finishWrites
  repeat' (first
    | with_reducible assumption
    | with_reducible refine Keeps.foldl ?_ ?_
    | with_reducible refine State.complete_keeps ?_
    | with_reducible refine State.modNvme_keeps ?_
    | with_reducible refine Keeps.ite ?_ ?_
    | (extract_lets -underBinder +onlyGivenNames z
       first | (refine (fun hz : Keeps σ z => ?_) ?_; on_goal 1 => clear_value z
                on_goal 2 => (unfold z; clear z))
             | clear_value z)
    | split
    | intro _)

theorem State.demandSpin_keeps {σ s : State} (hσ : Keeps σ s) : Keeps σ (State.demandSpin s) := by
  unfold State.demandSpin
  repeat' (first
    | with_reducible assumption
    | with_reducible refine State.modRack_keeps ?_
    | with_reducible refine State.modServo_keeps ?_
    | with_reducible refine Keeps.ite ?_ ?_
    | split)

theorem State.releaseVersion_keeps {σ s : State} {v : Version} (hσ : Keeps σ s) : Keeps σ (State.releaseVersion s v) := by
  unfold State.releaseVersion
  repeat' (first
    | with_reducible assumption
    | with_reducible refine State.unreserve_keeps ?_
    | with_reducible refine Keeps.ite ?_ ?_
    | split
    | intro _)

theorem State.closeVersion_keeps {σ s : State} {v : Version} {res : ChunkRes} (hσ : Keeps σ s) : Keeps σ (State.closeVersion s v res) := by
  unfold State.closeVersion
  repeat' (first
    | with_reducible assumption
    | with_reducible refine Keeps.foldl ?_ ?_
    | with_reducible refine State.dropVersion_keeps ?_
    | with_reducible refine State.finishWrites_keeps ?_
    | with_reducible refine State.modEnt_keeps ?_
    | with_reducible refine Keeps.ite ?_ ?_
    | (extract_lets -underBinder +onlyGivenNames z
       first | (refine (fun hz : Keeps σ z => ?_) ?_; on_goal 1 => clear_value z
                on_goal 2 => (unfold z; clear z))
             | clear_value z)
    | split
    | intro _)

theorem State.seal_keeps {σ s : State} {id st : Nat} (hσ : Keeps σ s) : Keeps σ (State.seal s id st) := by
  unfold State.seal
  repeat' (first
    | with_reducible assumption
    | with_reducible refine State.modVersion_keeps ?_
    | with_reducible refine Keeps.ite ?_ ?_
    | split)

theorem State.sealFor_keeps {σ s : State} {c : Ctx} (hσ : Keeps σ s) : Keeps σ (State.sealFor s c) := by
  unfold State.sealFor
  repeat' (first
    | with_reducible assumption
    | with_reducible refine Keeps.foldl ?_ ?_
    | with_reducible refine State.seal_keeps ?_
    | with_reducible refine Keeps.ite ?_ ?_
    | split
    | intro _)

theorem State.addJob_keeps {σ s : State} {j : ReadJob} (hσ : Keeps σ s) : Keeps σ (State.addJob s j) := by
  unfold State.addJob
  repeat' (first | with_reducible assumption | with_reducible refine State.modFlash_keeps ?_)

theorem State.mergeVersion_keeps {σ s : State} {v : Version} (hσ : Keeps σ s) : Keeps σ (State.mergeVersion s v) := by
  unfold State.mergeVersion
  repeat' (first
    | with_reducible assumption
    | with_reducible exact hz _
    | with_reducible exact hz _ _
    | with_reducible refine hz _ ?_
    | with_reducible refine hz _ _ ?_
    | with_reducible refine State.addJob_keeps ?_
    | with_reducible refine State.closeVersion_keeps ?_
    | with_reducible refine State.demandSpin_keeps ?_
    | with_reducible refine State.modVersion_keeps ?_
    | with_reducible refine State.releaseVersion_keeps ?_
    | with_reducible refine Keeps.ite ?_ ?_
    | (extract_lets -underBinder +onlyGivenNames z
       first | (refine (fun hz : Keeps σ z => ?_) ?_; on_goal 1 => clear_value z
                on_goal 2 => (unfold z; clear z))
             | (refine (fun hz : ∀ x, Keeps σ x → Keeps σ (z x) => ?_) ?_; on_goal 1 => clear_value z
                on_goal 2 => (unfold z; clear z))
             | (refine (fun hz : ∀ x y, Keeps σ x → Keeps σ (z x y) => ?_) ?_; on_goal 1 => clear_value z
                on_goal 2 => (unfold z; clear z))
             | (refine (fun hz : ∀ y, Keeps σ (z y) => ?_) ?_; on_goal 1 => clear_value z
                on_goal 2 => (unfold z; clear z))
             | (refine (fun hz : ∀ y w, Keeps σ (z y w) => ?_) ?_; on_goal 1 => clear_value z
                on_goal 2 => (unfold z; clear z))
             | clear_value z)
    | split
    | intro _)

theorem State.sealIfWhole_keeps {σ s : State} {v : Version} (hσ : Keeps σ s) : Keeps σ (State.sealIfWhole s v) := by
  unfold State.sealIfWhole
  repeat' (first
    | with_reducible assumption
    | with_reducible refine State.seal_keeps ?_
    | with_reducible refine Keeps.ite ?_ ?_
    | split)

theorem State.startRead_keeps {σ s : State} {c : Ctx} {e : ChunkEnt} (hσ : Keeps σ s) : Keeps σ (State.startRead s c e) := by
  unfold State.startRead
  repeat' (first
    | with_reducible assumption
    | with_reducible refine State.addJob_keeps ?_
    | with_reducible refine State.demandSpin_keeps ?_
    | with_reducible refine State.modEnt_keeps ?_
    | with_reducible refine State.putDesc_keeps ?_
    | with_reducible refine Keeps.ite ?_ ?_
    | (extract_lets -underBinder +onlyGivenNames z
       first | (refine (fun hz : Keeps σ z => ?_) ?_; on_goal 1 => clear_value z
                on_goal 2 => (unfold z; clear z))
             | clear_value z)
    | split)

theorem State.settleOnce_keeps {σ s : State} (hσ : Keeps σ s) : Keeps σ (State.settleOnce s) := by
  unfold State.settleOnce
  repeat' (first
    | with_reducible assumption
    | with_reducible refine Keeps.foldl ?_ ?_
    | with_reducible refine State.attach_keeps ?_
    | with_reducible refine State.mergeVersion_keeps ?_
    | with_reducible refine State.sealIfWhole_keeps ?_
    | with_reducible refine State.startRead_keeps ?_
    | (extract_lets -underBinder +onlyGivenNames z
       first | (refine (fun hz : Keeps σ z => ?_) ?_; on_goal 1 => clear_value z
                on_goal 2 => (unfold z; clear z))
             | clear_value z)
    | intro _)

theorem State.settle_keeps {σ s : State} (hσ : Keeps σ s) : Keeps σ (State.settle s) := by
  unfold State.settle
  repeat' (first | with_reducible assumption | with_reducible refine State.settleOnce_keeps ?_)

theorem State.endVersion_keeps {σ s : State} {v : Version} {res : ChunkRes} (hσ : Keeps σ s) : Keeps σ (State.endVersion s v res) := by
  unfold State.endVersion
  repeat' (first | with_reducible assumption | with_reducible refine State.closeVersion_keeps ?_ | with_reducible refine State.settle_keeps ?_)

theorem State.failVersion_keeps {σ s : State} {v : Version} {status : Nat} (hσ : Keeps σ s) : Keeps σ (State.failVersion s v status) := by
  unfold State.failVersion
  repeat' (first | with_reducible assumption | with_reducible refine State.endVersion_keeps ?_ | with_reducible refine State.releaseVersion_keeps ?_)

theorem State.effectVersion_keeps {σ s : State} {v : Version} (hσ : Keeps σ s) : Keeps σ (State.effectVersion s v) := by
  unfold State.effectVersion
  repeat' (first
    | with_reducible assumption
    | with_reducible refine Keeps.optMap ?_ ?_
    | with_reducible refine Keeps.optGet ?_ ?_
    | with_reducible refine Keeps.optElim ?_ ?_
    | with_reducible refine Keeps.foldl ?_ ?_
    | with_reducible refine Keeps.foldlP ?_ ?_
    | with_reducible refine Keeps.foldlQ ?_ ?_
    | with_reducible refine State.endVersion_keeps ?_
    | with_reducible refine State.feedStream_keeps ?_
    | with_reducible refine State.loseUnits_keeps ?_
    | with_reducible refine State.loseUnits_keeps_of ?_ (by with_reducible assumption)
    | with_reducible refine State.modPlace_keeps ?_
    | with_reducible refine State.modVersion_keeps ?_
    | with_reducible refine State.putDesc_keeps ?_
    | with_reducible refine State.subReturn_keeps ?_
    | with_reducible refine Keeps.ite ?_ ?_
    | (extract_lets -underBinder +onlyGivenNames z
       first | (refine (fun hz : Keeps σ z => ?_) ?_; on_goal 1 => clear_value z
                on_goal 2 => (unfold z; clear z))
             | (refine (fun hz : Keeps σ z.2 => ?_) ?_; on_goal 1 => clear_value z
                on_goal 2 => (unfold z; clear z))
             | clear_value z)
    | split
    | intro _)

theorem State.tryEffect_keeps {σ s : State} {v : Version} (hσ : Keeps σ s) : Keeps σ (State.tryEffect s v) := by
  unfold State.tryEffect
  repeat' (first
    | with_reducible assumption
    | with_reducible refine State.effectVersion_keeps ?_
    | with_reducible refine State.modVersion_keeps ?_
    | with_reducible refine Keeps.ite ?_ ?_
    | split)

theorem State.effectParked_keeps {σ s : State} (hσ : Keeps σ s) : Keeps σ (State.effectParked s) := by
  unfold State.effectParked
  repeat' (first
    | with_reducible assumption
    | with_reducible refine Keeps.foldl ?_ ?_
    | with_reducible refine State.tryEffect_keeps ?_
    | with_reducible refine Keeps.ite ?_ ?_
    | split
    | intro _)

theorem State.storeVersion_keeps {σ s : State} {v : Version} (hσ : Keeps σ s) : Keeps σ (State.storeVersion s v) := by
  unfold State.storeVersion
  repeat' (first
    | with_reducible assumption
    | with_reducible refine State.modMedia_keeps ?_
    | with_reducible refine State.tryEffect_keeps ?_
    | (extract_lets -underBinder +onlyGivenNames z
       first | (refine (fun hz : Keeps σ z => ?_) ?_; on_goal 1 => clear_value z
                on_goal 2 => (unfold z; clear z))
             | clear_value z)
    | intro _)

theorem State.unqueueJob_keeps {σ s : State} {j : ReadJob} (hσ : Keeps σ s) : Keeps σ (State.unqueueJob s j) := by
  unfold State.unqueueJob
  repeat' (first
    | with_reducible assumption
    | with_reducible refine State.modPlace_keeps ?_
    | split)

theorem State.cancelReads_keeps {σ s : State} {gone : ReadJob → Bool} (hσ : Keeps σ s) : Keeps σ (State.cancelReads s gone) := by
  unfold State.cancelReads
  repeat' (first
    | with_reducible assumption
    | with_reducible refine Keeps.foldl ?_ ?_
    | with_reducible refine State.modFlash_keeps ?_
    | with_reducible refine State.unqueueJob_keeps ?_
    | intro _)

theorem State.unqueueVersion_keeps {σ s : State} {v : Version} (hσ : Keeps σ s) : Keeps σ (State.unqueueVersion s v) := by
  unfold State.unqueueVersion
  repeat' (first
    | with_reducible assumption
    | with_reducible refine State.modPlace_keeps ?_
    | split)

theorem State.leaveVersions_keeps {σ s : State} {st : Nat} (hσ : Keeps σ s) : Keeps σ (State.leaveVersions s st) := by
  unfold State.leaveVersions
  repeat' (first
    | with_reducible assumption
    | with_reducible refine State.unqueueVersion_keeps ?_
    | with_reducible refine Keeps.foldl ?_ ?_
    | with_reducible refine State.dropVersion_keeps ?_
    | with_reducible refine State.modVersion_keeps ?_
    | with_reducible refine State.releaseVersion_keeps ?_
    | with_reducible refine Keeps.ite ?_ ?_
    | (extract_lets -underBinder +onlyGivenNames z
       first | (refine (fun hz : Keeps σ z => ?_) ?_; on_goal 1 => clear_value z
                on_goal 2 => (unfold z; clear z))
             | clear_value z)
    | split
    | intro _)

theorem State.noteOther_keeps {σ s : State} {group kind index : Nat} (hσ : Keeps σ s) : Keeps σ (State.noteOther s group kind index) := by
  unfold State.noteOther
  repeat' (first
    | with_reducible assumption
    | with_reducible refine State.fresh_keeps ?_
    | with_reducible refine State.fresh_keeps_of ?_ (by with_reducible assumption)
    | with_reducible refine State.noteTag_keeps ?_
    | (extract_lets -underBinder +onlyGivenNames z
       first | (refine (fun hz : Keeps σ z => ?_) ?_; on_goal 1 => clear_value z
                on_goal 2 => (unfold z; clear z))
             | (refine (fun hz : Keeps σ z.2 => ?_) ?_; on_goal 1 => clear_value z
                on_goal 2 => (unfold z; clear z))
             | clear_value z)
    | split)

theorem State.placeVersion_keeps {σ s : State} {id : Nat} (hσ : Keeps σ s) : Keeps σ (State.placeVersion s id) := by
  unfold State.placeVersion
  split
  · exact hσ
  · next v hv =>
    split
    · exact hσ
    · extract_lets held
      split
      next w s1 hw =>
      have h1 : Keeps σ s1 := by
        split at hw
        · exact State.nextWsn_keeps_of hσ hw
        · cases hw; exact hσ
      extract_lets put again
      have hp : ∀ s n b r, Keeps σ r.2 → Keeps σ (put s n b r) := fun s n b r h => State.modVersion_keeps h
      have ha : ∀ s0, Keeps σ s0 → Keeps σ (again s0) := by
        intro s0 h0
        unfold again
        split
        · exact State.modFlash_keeps hσ
        · next h =>
          split
          · next r hr => exact hp _ _ _ _ (State.takeIn_keeps (a0 := r.1) (t := r.2) (State.reserveIn_keeps h0 h) hr)
          · exact hσ
      split
      · split
        · next r hr => exact hp _ _ _ _ (State.takeIn_keeps (a0 := r.1) (t := r.2) h1 hr)
        · exact ha _ (State.unreserve_keeps h1)
      · exact ha _ h1

theorem State.placeWaiting_keeps {σ s : State} (hσ : Keeps σ s) : Keeps σ (State.placeWaiting s) := by
  unfold State.placeWaiting
  repeat' (first
    | with_reducible assumption
    | with_reducible refine Keeps.foldl ?_ ?_
    | with_reducible refine State.modFlash_keeps ?_
    | with_reducible refine State.placeVersion_keeps ?_
    | intro _)

theorem State.placeCopy_keeps {σ s : State} {c : CopyStep} (hσ : Keeps σ s) : Keeps σ (State.placeCopy s c) := by
  unfold State.placeCopy
  repeat' (first
    | with_reducible assumption
    | with_reducible refine State.modPlace_keeps ?_
    | with_reducible refine State.nextWsn_keeps ?_
    | with_reducible refine State.nextWsn_keeps_of ?_ (by with_reducible assumption)
    | with_reducible refine State.reserveIn_keeps ?_ (by with_reducible assumption)
    | with_reducible refine State.takeIn_keeps ?_ (by with_reducible assumption)
    | with_reducible refine State.unreserve_keeps ?_
    | with_reducible refine Keeps.ite ?_ ?_
    | (extract_lets -underBinder +onlyGivenNames z
       first | (refine (fun hz : Keeps σ z => ?_) ?_; on_goal 1 => clear_value z
                on_goal 2 => (unfold z; clear z))
             | (refine (fun hz : Keeps σ z.2 => ?_) ?_; on_goal 1 => clear_value z
                on_goal 2 => (unfold z; clear z))
             | clear_value z)
    | split)

theorem State.redoGroup_keeps {σ s : State} {n b i : Nat} {w : Option Nat} (hσ : Keeps σ s) : Keeps σ (State.redoGroup s n b i w) := by
  unfold State.redoGroup
  repeat' (first
    | with_reducible assumption
    | with_reducible refine State.modBatch_keeps ?_
    | with_reducible refine State.modHost_keeps ?_
    | with_reducible refine State.modPlace_keeps ?_
    | with_reducible refine Keeps.ite ?_ ?_
    | (extract_lets -underBinder +onlyGivenNames z
       first | (refine (fun hz : Keeps σ z => ?_) ?_; on_goal 1 => clear_value z
                on_goal 2 => (unfold z; clear z))
             | clear_value z)
    | split)

theorem State.journalFences_keeps {σ s : State} (hσ : Keeps σ s) : Keeps σ (State.journalFences s) := by
  unfold State.journalFences
  repeat' (first | with_reducible assumption | with_reducible refine State.journal_keeps ?_)

theorem State.flagRebuild_keeps {σ s : State} {die : Nat} (hσ : Keeps σ s) : Keeps σ (State.flagRebuild s die) := by
  unfold State.flagRebuild
  repeat' (first
    | with_reducible assumption
    | with_reducible refine State.modFlash_keeps ?_
    | with_reducible refine Keeps.ite ?_ ?_
    | split)

theorem State.redoDie_keeps {σ s : State} {die : Nat} (hσ : Keeps σ s) : Keeps σ (State.redoDie s die) := by
  unfold State.redoDie
  repeat' (first
    | with_reducible assumption
    | with_reducible refine Keeps.foldl ?_ ?_
    | with_reducible refine Keeps.foldlP ?_ ?_
    | with_reducible refine Keeps.foldlQ ?_ ?_
    | with_reducible refine State.modBatch_keeps ?_
    | with_reducible refine State.redoGroup_keeps ?_
    | with_reducible refine Keeps.ite ?_ ?_
    | (extract_lets -underBinder +onlyGivenNames z
       first | (refine (fun hz : Keeps σ z => ?_) ?_; on_goal 1 => clear_value z
                on_goal 2 => (unfold z; clear z))
             | (refine (fun hz : Keeps σ z.2 => ?_) ?_; on_goal 1 => clear_value z
                on_goal 2 => (unfold z; clear z))
             | (refine (fun hz : Keeps σ z.1 => ?_) ?_; on_goal 1 => clear_value z
                on_goal 2 => (unfold z; clear z))
             | clear_value z)
    | split
    | intro _)

theorem State.dieFailed_keeps {σ s : State} {die : Nat} (hσ : Keeps σ s) : Keeps σ (State.dieFailed s die) := by
  unfold State.dieFailed
  repeat' (first
    | with_reducible assumption
    | with_reducible refine State.fault_keeps ?_
    | with_reducible refine State.flagRebuild_keeps ?_
    | with_reducible refine State.journalFences_keeps ?_
    | with_reducible refine State.modFlashIf_keeps ?_
    | with_reducible refine State.modPlace_keeps ?_
    | with_reducible refine State.redoDie_keeps ?_
    | with_reducible refine State.warnBit_keeps ?_
    | with_reducible refine Keeps.ite ?_ ?_
    | (extract_lets -underBinder +onlyGivenNames z
       first | (refine (fun hz : Keeps σ z => ?_) ?_; on_goal 1 => clear_value z
                on_goal 2 => (unfold z; clear z))
             | clear_value z)
    | split)

theorem State.spareUpdate_keeps {σ s : State} (hσ : Keeps σ s) : Keeps σ (State.spareUpdate s) := by
  unfold State.spareUpdate
  repeat' (first
    | with_reducible assumption
    | with_reducible refine State.clearWarnBit_keeps ?_
    | with_reducible refine State.healthWarn_keeps ?_
    | with_reducible refine State.warnBit_keeps ?_
    | with_reducible refine Keeps.ite ?_ ?_
    | (extract_lets -underBinder +onlyGivenNames z
       first | (refine (fun hz : Keeps σ z => ?_) ?_; on_goal 1 => clear_value z
                on_goal 2 => (unfold z; clear z))
             | clear_value z)
    | split)

theorem State.retireBlock_keeps {σ s : State} {die blk : Nat} (hσ : Keeps σ s) : Keeps σ (State.retireBlock s die blk).2 := by
  unfold State.retireBlock
  repeat' (first
    | with_reducible assumption
    | with_reducible refine State.dieFailed_keeps ?_
    | with_reducible refine State.healthWarn_keeps ?_
    | with_reducible refine State.jform_keeps ?_
    | with_reducible refine State.jform_keeps_of ?_ (by with_reducible assumption)
    | with_reducible refine State.modBlock_keeps ?_
    | with_reducible refine State.modFlashIf_keeps ?_
    | with_reducible refine State.note_keeps ?_
    | with_reducible refine State.spareUpdate_keeps ?_
    | with_reducible refine Keeps.ite ?_ ?_
    | (extract_lets -underBinder +onlyGivenNames z
       first | (refine (fun hz : Keeps σ z => ?_) ?_; on_goal 1 => clear_value z
                on_goal 2 => (unfold z; clear z))
             | (refine (fun hz : Keeps σ z.2 => ?_) ?_; on_goal 1 => clear_value z
                on_goal 2 => (unfold z; clear z))
             | clear_value z)
    | split)
theorem State.retireBlock_keeps_of {σ s : State} {die blk : Nat} {t : State} {aa} (hσ : Keeps σ s) (heq : State.retireBlock s die blk = (aa, t)) : Keeps σ t := by
  have : Keeps σ (State.retireBlock s die blk).2 := State.retireBlock_keeps hσ
  rw [heq] at this; exact this

theorem State.memberFailed_keeps {σ s : State} {die blk : Nat} (hσ : Keeps σ s) : Keeps σ (State.memberFailed s die blk).2 := by
  unfold State.memberFailed
  repeat' (first
    | with_reducible assumption
    | with_reducible refine State.fault_keeps ?_
    | with_reducible refine State.retireBlock_keeps ?_
    | with_reducible refine State.retireBlock_keeps_of ?_ (by with_reducible assumption))
theorem State.memberFailed_keeps_of {σ s : State} {die blk : Nat} {t : State} {aa} (hσ : Keeps σ s) (heq : State.memberFailed s die blk = (aa, t)) : Keeps σ t := by
  have : Keeps σ (State.memberFailed s die blk).2 := State.memberFailed_keeps hσ
  rw [heq] at this; exact this

theorem State.flagRefresh_keeps {σ s : State} {n : Nat} (hσ : Keeps σ s) : Keeps σ (State.flagRefresh s n) := by
  unfold State.flagRefresh
  repeat' (first | with_reducible assumption | with_reducible refine State.modFlash_keeps ?_)

theorem State.countReads_keeps {σ s : State} {n : Nat} {bs : List (Nat × Nat)} (hσ : Keeps σ s) : Keeps σ (State.countReads s n bs) := by
  unfold State.countReads
  repeat' (first
    | with_reducible assumption
    | with_reducible refine Keeps.foldl ?_ ?_
    | with_reducible refine State.flagRefresh_keeps ?_
    | with_reducible refine State.modBlock_keeps ?_
    | with_reducible refine State.modFlash_keeps ?_
    | with_reducible refine Keeps.ite ?_ ?_
    | (extract_lets -underBinder +onlyGivenNames z
       first | (refine (fun hz : Keeps σ z => ?_) ?_; on_goal 1 => clear_value z
                on_goal 2 => (unfold z; clear z))
             | (refine (fun hz : Keeps σ z.2 => ?_) ?_; on_goal 1 => clear_value z
                on_goal 2 => (unfold z; clear z))
             | (refine (fun hz : Keeps σ z.1 => ?_) ?_; on_goal 1 => clear_value z
                on_goal 2 => (unfold z; clear z))
             | clear_value z)
    | split
    | intro _)

theorem State.trackEntry_keeps {σ s : State} {bs : List (Nat × Nat)} {entry : Nat} (hσ : Keeps σ s) : Keeps σ (State.trackEntry s bs entry) := by
  unfold State.trackEntry
  repeat' (first
    | with_reducible assumption
    | with_reducible refine Keeps.foldl ?_ ?_
    | with_reducible refine State.modBlock_keeps ?_
    | intro _)

theorem State.countStep4_keeps {σ s : State} {bs : List (Nat × Nat)} (hσ : Keeps σ s) : Keeps σ (State.countStep4 s bs) := by
  unfold State.countStep4
  repeat' (first
    | with_reducible assumption
    | with_reducible refine Keeps.foldl ?_ ?_
    | with_reducible refine State.dieFailed_keeps ?_
    | with_reducible refine State.modFlashIf_keeps ?_
    | with_reducible refine Keeps.ite ?_ ?_
    | (extract_lets -underBinder +onlyGivenNames z
       first | (refine (fun hz : Keeps σ z => ?_) ?_; on_goal 1 => clear_value z
                on_goal 2 => (unfold z; clear z))
             | (refine (fun hz : Keeps σ z.1 => ?_) ?_; on_goal 1 => clear_value z
                on_goal 2 => (unfold z; clear z))
             | clear_value z)
    | split
    | intro _)

theorem State.closeIfDone_keeps {σ s : State} {n : Nat} (hσ : Keeps σ s) : Keeps σ (State.closeIfDone s n) := by
  unfold State.closeIfDone
  repeat' (first
    | with_reducible assumption
    | with_reducible refine State.modFlash_keeps ?_
    | with_reducible refine State.modSpan_keeps ?_
    | with_reducible refine Keeps.ite ?_ ?_
    | (extract_lets -underBinder +onlyGivenNames z
       first | (refine (fun hz : Keeps σ z => ?_) ?_; on_goal 1 => clear_value z
                on_goal 2 => (unfold z; clear z))
             | (refine (fun hz : Keeps σ z.2 => ?_) ?_; on_goal 1 => clear_value z
                on_goal 2 => (unfold z; clear z))
             | clear_value z)
    | split)

theorem State.releaseEmpty_keeps {σ s : State} (hσ : Keeps σ s) : Keeps σ (State.releaseEmpty s) := by
  unfold State.releaseEmpty
  repeat' (first
    | with_reducible assumption
    | with_reducible refine Keeps.foldl ?_ ?_
    | with_reducible refine Keeps.foldlP ?_ ?_
    | with_reducible refine Keeps.foldlQ ?_ ?_
    | with_reducible refine State.journal_keeps ?_
    | with_reducible refine State.modSpan_keeps ?_
    | with_reducible refine Keeps.ite ?_ ?_
    | split
    | intro _)

theorem State.kneadUpdate_keeps {σ s : State} (hσ : Keeps σ s) : Keeps σ (State.kneadUpdate s) := by
  unfold State.kneadUpdate
  repeat' (first
    | with_reducible assumption
    | with_reducible refine State.modFlash_keeps ?_
    | (extract_lets -underBinder +onlyGivenNames z
       first | (refine (fun hz : Keeps σ z => ?_) ?_; on_goal 1 => clear_value z
                on_goal 2 => (unfold z; clear z))
             | clear_value z))

theorem State.readOnlyUpdate_keeps {σ s : State} {offline : Nat} {full : Bool} (hσ : Keeps σ s) : Keeps σ (State.readOnlyUpdate s offline full) := by
  unfold State.readOnlyUpdate
  repeat' (first
    | with_reducible assumption
    | with_reducible refine Keeps.foldl ?_ ?_
    | with_reducible refine Keeps.foldlP ?_ ?_
    | with_reducible refine Keeps.foldlQ ?_ ?_
    | with_reducible refine State.clearWarnBit_keeps ?_
    | with_reducible refine State.modFlash_keeps ?_
    | with_reducible refine State.note_keeps ?_
    | with_reducible refine State.warnBit_keeps ?_
    | with_reducible refine Keeps.ite ?_ ?_
    | (extract_lets -underBinder +onlyGivenNames z
       first | (refine (fun hz : Keeps σ z => ?_) ?_; on_goal 1 => clear_value z
                on_goal 2 => (unfold z; clear z))
             | (refine (fun hz : Keeps σ z.2 => ?_) ?_; on_goal 1 => clear_value z
                on_goal 2 => (unfold z; clear z))
             | (refine (fun hz : Keeps σ z.1 => ?_) ?_; on_goal 1 => clear_value z
                on_goal 2 => (unfold z; clear z))
             | clear_value z)
    | split
    | intro _)

theorem State.countProgrammed_keeps {σ s : State} {crumbs : Nat} (hσ : Keeps σ s) : Keeps σ (State.countProgrammed s crumbs) := by
  unfold State.countProgrammed
  repeat' (first
    | with_reducible assumption
    | with_reducible refine State.modMap_keeps ?_
    | (extract_lets -underBinder +onlyGivenNames z
       first | (refine (fun hz : Keeps σ z => ?_) ?_; on_goal 1 => clear_value z
                on_goal 2 => (unfold z; clear z))
             | clear_value z))

theorem State.sanitizeCheck_keeps {σ s : State} (hσ : Keeps σ s) : Keeps σ (State.sanitizeCheck s) := by
  unfold State.sanitizeCheck
  repeat' (first
    | with_reducible assumption
    | with_reducible exact hz _
    | with_reducible exact hz _ _
    | with_reducible refine hz _ ?_
    | with_reducible refine hz _ _ ?_
    | with_reducible refine State.modMedia_keeps ?_
    | with_reducible refine State.modNvme_keeps ?_
    | with_reducible refine State.modRack_keeps ?_
    | with_reducible refine State.modServo_keeps ?_
    | with_reducible refine State.raiseEvent_keeps ?_
    | with_reducible refine State.writeRoot_keeps ?_
    | with_reducible refine Keeps.ite ?_ ?_
    | (extract_lets -underBinder +onlyGivenNames z
       first | (refine (fun hz : Keeps σ z => ?_) ?_; on_goal 1 => clear_value z
                on_goal 2 => (unfold z; clear z))
             | (refine (fun hz : Keeps σ z.2 => ?_) ?_; on_goal 1 => clear_value z
                on_goal 2 => (unfold z; clear z))
             | (refine (fun hz : ∀ x, Keeps σ x → Keeps σ (z x) => ?_) ?_; on_goal 1 => clear_value z
                on_goal 2 => (unfold z; clear z))
             | (refine (fun hz : ∀ x y, Keeps σ x → Keeps σ (z x y) => ?_) ?_; on_goal 1 => clear_value z
                on_goal 2 => (unfold z; clear z))
             | (refine (fun hz : ∀ y, Keeps σ (z y) => ?_) ?_; on_goal 1 => clear_value z
                on_goal 2 => (unfold z; clear z))
             | (refine (fun hz : ∀ y w, Keeps σ (z y w) => ?_) ?_; on_goal 1 => clear_value z
                on_goal 2 => (unfold z; clear z))
             | clear_value z)
    | split
    | intro _)

theorem State.modStack_keeps {σ s : State} {n : Nat} {f : StackSt → StackSt} (hσ : Keeps σ s) : Keeps σ (State.modStack s n f) := by
  unfold State.modStack
  repeat' (first | with_reducible assumption | with_reducible refine State.modRack_keeps ?_)

theorem State.modAct_keeps {σ s : State} {a : Nat} {f : ActSt → ActSt} (hσ : Keeps σ s) : Keeps σ (State.modAct s a f) := by
  unfold State.modAct
  repeat' (first | with_reducible assumption | with_reducible refine State.modRack_keeps ?_)

theorem State.evalEmergency_keeps {σ s : State} (hσ : Keeps σ s) : Keeps σ (State.evalEmergency s) := by
  unfold State.evalEmergency
  repeat' (first
    | with_reducible assumption
    | with_reducible refine State.modPlace_keeps ?_
    | with_reducible refine State.note_keeps ?_
    | with_reducible refine Keeps.ite ?_ ?_
    | (extract_lets -underBinder +onlyGivenNames z
       first | (refine (fun hz : Keeps σ z => ?_) ?_; on_goal 1 => clear_value z
                on_goal 2 => (unfold z; clear z))
             | clear_value z)
    | split)

theorem State.flowDemand_keeps {σ s : State} (hσ : Keeps σ s) : Keeps σ (State.flowDemand s) := by
  unfold State.flowDemand
  repeat' (first
    | with_reducible assumption
    | with_reducible refine State.demandSpin_keeps ?_
    | with_reducible refine Keeps.ite ?_ ?_
    | split)

theorem State.brakeWhenParked_keeps {σ s : State} (hσ : Keeps σ s) : Keeps σ (State.brakeWhenParked s) := by
  unfold State.brakeWhenParked
  repeat' (first
    | with_reducible assumption
    | with_reducible refine State.modServo_keeps ?_
    | with_reducible refine Keeps.ite ?_ ?_
    | split)

theorem State.enterSpindown_keeps {σ s : State} {reduced lowv : Bool} (hσ : Keeps σ s) : Keeps σ (State.enterSpindown s reduced lowv) :=
  State.brakeWhenParked_keeps (State.modServo_keeps (State.modChan_keeps (State.modRack_keeps hσ)))

theorem State.spinDown_keeps {σ s : State} {reduced lowv : Bool} (hσ : Keeps σ s) : Keeps σ (State.spinDown s reduced lowv) := by
  unfold State.spinDown
  repeat' (first
    | with_reducible assumption
    | with_reducible refine State.enterSpindown_keeps ?_
    | with_reducible refine State.brakeWhenParked_keeps ?_
    | with_reducible refine State.modRack_keeps ?_
    | with_reducible refine State.modServo_keeps ?_
    | with_reducible refine Keeps.ite ?_ ?_
    | split)

theorem State.refuseRackJobs_keeps {σ s : State} {act : Nat → Bool} {merges : Bool} (hσ : Keeps σ s) : Keeps σ (State.refuseRackJobs s act merges) := by
  unfold State.refuseRackJobs
  repeat' (first
    | with_reducible assumption
    | with_reducible refine Keeps.foldl ?_ ?_
    | with_reducible refine State.effectParked_keeps ?_
    | with_reducible refine State.failVersion_keeps ?_
    | with_reducible refine State.modEnt_keeps ?_
    | with_reducible refine State.modFlash_keeps ?_
    | with_reducible refine State.settle_keeps ?_
    | with_reducible refine Keeps.ite ?_ ?_
    | (extract_lets -underBinder +onlyGivenNames z
       first | (refine (fun hz : Keeps σ z => ?_) ?_; on_goal 1 => clear_value z
                on_goal 2 => (unfold z; clear z))
             | clear_value z)
    | split
    | intro _)

theorem State.vmotUpdate_keeps {σ s : State} (hσ : Keeps σ s) : Keeps σ (State.vmotUpdate s) := by
  unfold State.vmotUpdate
  repeat' (first
    | with_reducible assumption
    | with_reducible refine State.modPwr_keeps ?_ ?_
    | with_reducible refine State.modServo_keeps ?_
    | with_reducible exact fun _ => ⟨rfl, rfl⟩
    | with_reducible exact fun _ => rfl
    | (intro x; try dsimp only; repeat' split) <;> with_reducible first | rfl | exact ⟨rfl, rfl⟩
    | with_reducible refine Keeps.ite ?_ ?_
    | (extract_lets -underBinder +onlyGivenNames z
       first | (refine (fun hz : Keeps σ z => ?_) ?_; on_goal 1 => clear_value z
                on_goal 2 => (unfold z; clear z))
             | clear_value z)
    | split
    | intro _)

theorem State.rackReady_keeps {σ s : State} (hσ : Keeps σ s) : Keeps σ (State.rackReady s) := by
  unfold State.rackReady
  repeat' (first
    | with_reducible assumption
    | with_reducible refine State.modRack_keeps ?_
    | with_reducible refine State.sanitizeCheck_keeps ?_
    | with_reducible refine Keeps.ite ?_ ?_
    | (extract_lets -underBinder +onlyGivenNames z
       first | (refine (fun hz : Keeps σ z => ?_) ?_; on_goal 1 => clear_value z
                on_goal 2 => (unfold z; clear z))
             | (refine (fun hz : Keeps σ z.2 => ?_) ?_; on_goal 1 => clear_value z
                on_goal 2 => (unfold z; clear z))
             | (refine (fun hz : Keeps σ z.1 => ?_) ?_; on_goal 1 => clear_value z
                on_goal 2 => (unfold z; clear z))
             | clear_value z)
    | split)

theorem State.rackLockCheck_keeps {σ s : State} (hσ : Keeps σ s) : Keeps σ (State.rackLockCheck s) := by
  unfold State.rackLockCheck
  repeat' (first
    | with_reducible assumption
    | with_reducible refine State.rackReady_keeps ?_
    | with_reducible refine Keeps.ite ?_ ?_
    | split)

theorem State.openStackOn_keeps {σ s : State} {a : Nat} (hσ : Keeps σ s) : Keeps σ (State.openStackOn s a) := by
  unfold State.openStackOn
  repeat' (first
    | with_reducible assumption
    | with_reducible refine State.jform_keeps ?_
    | with_reducible refine State.jform_keeps_of ?_ (by with_reducible assumption)
    | with_reducible refine State.modAct_keeps ?_
    | with_reducible refine State.modStack_keeps ?_
    | with_reducible refine Keeps.ite ?_ ?_
    | (extract_lets -underBinder +onlyGivenNames z
       first | (refine (fun hz : Keeps σ z => ?_) ?_; on_goal 1 => clear_value z
                on_goal 2 => (unfold z; clear z))
             | (refine (fun hz : Keeps σ z.2 => ?_) ?_; on_goal 1 => clear_value z
                on_goal 2 => (unfold z; clear z))
             | clear_value z)
    | split)

theorem State.discardStack_keeps {σ s : State} {n : Nat} (hσ : Keeps σ s) : Keeps σ (State.discardStack s n) := by
  unfold State.discardStack
  repeat' (first
    | with_reducible assumption
    | with_reducible refine State.journal_keeps ?_
    | with_reducible refine State.modMedia_keeps ?_
    | with_reducible refine State.modStack_keeps ?_)

theorem State.dropOpenStack_keeps {σ s : State} {a row : Nat} (hσ : Keeps σ s) : Keeps σ (State.dropOpenStack s a row) := by
  unfold State.dropOpenStack
  repeat' (first
    | with_reducible assumption
    | with_reducible refine State.discardStack_keeps ?_
    | with_reducible refine State.modAct_keeps ?_
    | with_reducible refine State.modPlace_keeps ?_
    | with_reducible refine State.note_keeps ?_
    | (extract_lets -underBinder +onlyGivenNames z
       first | (refine (fun hz : Keeps σ z => ?_) ?_; on_goal 1 => clear_value z
                on_goal 2 => (unfold z; clear z))
             | clear_value z)
    | split)

theorem State.loseStackChunks_keeps {σ s : State} {n : Nat} {hs : List Nat} (hσ : Keeps σ s) : Keeps σ (State.loseStackChunks s n hs) := by
  unfold State.loseStackChunks
  repeat' (first
    | with_reducible assumption
    | with_reducible refine Keeps.foldl ?_ ?_
    | with_reducible refine State.loseUnits_keeps ?_
    | with_reducible refine State.loseUnits_keeps_of ?_ (by with_reducible assumption)
    | with_reducible refine Keeps.ite ?_ ?_
    | (extract_lets -underBinder +onlyGivenNames z
       first | (refine (fun hz : Keeps σ z => ?_) ?_; on_goal 1 => clear_value z
                on_goal 2 => (unfold z; clear z))
             | (refine (fun hz : Keeps σ z.2 => ?_) ?_; on_goal 1 => clear_value z
                on_goal 2 => (unfold z; clear z))
             | (refine (fun hz : Keeps σ z.1 => ?_) ?_; on_goal 1 => clear_value z
                on_goal 2 => (unfold z; clear z))
             | clear_value z)
    | split
    | intro _)

theorem State.headLost_keeps {σ s : State} {a h : Nat} (hσ : Keeps σ s) : Keeps σ (State.headLost s a h) := by
  unfold State.headLost
  repeat' (first
    | with_reducible assumption
    | with_reducible refine Keeps.foldl ?_ ?_
    | with_reducible refine Keeps.foldlP ?_ ?_
    | with_reducible refine Keeps.foldlQ ?_ ?_
    | with_reducible refine State.loseStackChunks_keeps ?_
    | with_reducible refine State.modRack_keeps ?_
    | with_reducible refine State.modStack_keeps ?_
    | with_reducible refine State.noteOther_keeps ?_
    | with_reducible refine State.warnBit_keeps ?_
    | with_reducible refine Keeps.ite ?_ ?_
    | (extract_lets -underBinder +onlyGivenNames z
       first | (refine (fun hz : Keeps σ z => ?_) ?_; on_goal 1 => clear_value z
                on_goal 2 => (unfold z; clear z))
             | (refine (fun hz : Keeps σ z.2 => ?_) ?_; on_goal 1 => clear_value z
                on_goal 2 => (unfold z; clear z))
             | (refine (fun hz : Keeps σ z.1 => ?_) ?_; on_goal 1 => clear_value z
                on_goal 2 => (unfold z; clear z))
             | clear_value z)
    | split
    | intro _)

theorem State.retireHead_keeps {σ s : State} {surface measure : Nat} (hσ : Keeps σ s) : Keeps σ (State.retireHead s surface measure) := by
  unfold State.retireHead
  repeat' (first
    | with_reducible assumption
    | with_reducible refine State.dropOpenStack_keeps ?_
    | with_reducible refine State.journal_keeps ?_
    | with_reducible refine State.modChan_keeps ?_
    | with_reducible refine State.note_keeps ?_
    | with_reducible refine Keeps.ite ?_ ?_
    | (extract_lets -underBinder +onlyGivenNames z
       first | (refine (fun hz : Keeps σ z => ?_) ?_; on_goal 1 => clear_value z
                on_goal 2 => (unfold z; clear z))
             | clear_value z)
    | split
    | intro _)

theorem State.chargeHead_keeps {σ s : State} {surface : Nat} (hσ : Keeps σ s) : Keeps σ (State.chargeHead s surface) := by
  unfold State.chargeHead
  repeat' (first
    | with_reducible assumption
    | with_reducible refine State.fault_keeps ?_
    | with_reducible refine State.healthWarn_keeps ?_
    | with_reducible refine State.modChan_keeps ?_
    | with_reducible refine State.retireHead_keeps ?_
    | with_reducible refine Keeps.ite ?_ ?_
    | (extract_lets -underBinder +onlyGivenNames z
       first | (refine (fun hz : Keeps σ z => ?_) ?_; on_goal 1 => clear_value z
                on_goal 2 => (unfold z; clear z))
             | clear_value z)
    | split)

theorem State.writeFault_keeps {σ s : State} {a row : Nat} {charge : Option Nat} (hσ : Keeps σ s) : Keeps σ (State.writeFault s a row charge) := by
  unfold State.writeFault
  repeat' (first
    | with_reducible assumption
    | with_reducible refine State.chargeHead_keeps ?_
    | with_reducible refine State.dropOpenStack_keeps ?_
    | (extract_lets -underBinder +onlyGivenNames z
       first | (refine (fun hz : Keeps σ z => ?_) ?_; on_goal 1 => clear_value z
                on_goal 2 => (unfold z; clear z))
             | clear_value z)
    | split)

theorem State.fenceActuator_keeps {σ s : State} {a : Nat} (hσ : Keeps σ s) : Keeps σ (State.fenceActuator s a) := by
  unfold State.fenceActuator
  repeat' (first
    | with_reducible assumption
    | with_reducible refine State.modPlace_keeps ?_
    | with_reducible refine State.modServo_keeps ?_
    | with_reducible refine State.modRw_keeps ?_
    | with_reducible refine State.writeFault_keeps ?_
    | with_reducible refine State.refuseRackJobs_keeps ?_
    | with_reducible refine Keeps.ite ?_ ?_
    | (extract_lets -underBinder +onlyGivenNames z
       first | (refine (fun hz : Keeps σ z => ?_) ?_; on_goal 1 => clear_value z
                on_goal 2 => (unfold z; clear z))
             | clear_value z)
    | split)

theorem State.relocate_keeps {σ s : State} {nsid lcn : Nat} {src dst : Loc} {kept : Bool} (hσ : Keeps σ s) : Keeps σ (State.relocate s nsid lcn src dst kept).2 := by
  unfold State.relocate
  repeat' (first
    | with_reducible assumption
    | with_reducible refine Keeps.optMap ?_ ?_
    | with_reducible refine Keeps.optGet ?_ ?_
    | with_reducible refine Keeps.optElim ?_ ?_
    | with_reducible refine State.modMap_keeps ?_
    | with_reducible refine State.putDesc_keeps ?_
    | with_reducible refine Keeps.ite ?_ ?_
    | (extract_lets -underBinder +onlyGivenNames z
       first | (refine (fun hz : Keeps σ z => ?_) ?_; on_goal 1 => clear_value z
                on_goal 2 => (unfold z; clear z))
             | clear_value z)
    | split
    | intro _)
theorem State.relocate_keeps_of {σ s : State} {nsid lcn : Nat} {src dst : Loc} {kept : Bool} {t : State} {aa} (hσ : Keeps σ s) (heq : State.relocate s nsid lcn src dst kept = (aa, t)) : Keeps σ t := by
  have : Keeps σ (State.relocate s nsid lcn src dst kept).2 := State.relocate_keeps hσ
  rw [heq] at this; exact this

theorem State.startCopy_keeps {σ s : State} {kind : CopyKind} {nsid lcn : Nat} (hσ : Keeps σ s) : Keeps σ (State.startCopy s kind nsid lcn) := by
  unfold State.startCopy
  repeat' (first
    | with_reducible assumption
    | with_reducible refine State.modPlace_keeps ?_
    | with_reducible refine State.putDesc_keeps ?_
    | (extract_lets -underBinder +onlyGivenNames z
       first | (refine (fun hz : Keeps σ z => ?_) ?_; on_goal 1 => clear_value z
                on_goal 2 => (unfold z; clear z))
             | clear_value z))

theorem State.modCopy_keeps {σ s : State} {id : Nat} {f : CopyStep → CopyStep} (hσ : Keeps σ s) : Keeps σ (State.modCopy s id f) := by
  unfold State.modCopy
  repeat' (first
    | with_reducible assumption
    | with_reducible refine State.modPlace_keeps ?_
    | with_reducible refine Keeps.ite ?_ ?_
    | split)

theorem State.endCopy_keeps {σ s : State} {id : Nat} (hσ : Keeps σ s) : Keeps σ (State.endCopy s id) := by
  unfold State.endCopy
  repeat' (first
    | with_reducible assumption
    | with_reducible refine State.modPlace_keeps ?_
    | with_reducible refine State.unreserve_keeps ?_
    | with_reducible refine Keeps.ite ?_ ?_
    | (extract_lets -underBinder +onlyGivenNames z
       first | (refine (fun hz : Keeps σ z => ?_) ?_; on_goal 1 => clear_value z
                on_goal 2 => (unfold z; clear z))
             | clear_value z)
    | split
    | intro _)

theorem State.loseSource_keeps {σ s : State} {nsid lcn lost cause : Nat} {src : Loc} (hσ : Keeps σ s) : Keeps σ (State.loseSource s nsid lcn lost cause src) := by
  unfold State.loseSource
  repeat' (first
    | with_reducible assumption
    | with_reducible refine Keeps.optMap ?_ ?_
    | with_reducible refine Keeps.optGet ?_ ?_
    | with_reducible refine Keeps.optElim ?_ ?_
    | with_reducible refine State.loseUnits_keeps ?_
    | with_reducible refine State.loseUnits_keeps_of ?_ (by with_reducible assumption)
    | with_reducible refine Keeps.ite ?_ ?_
    | (extract_lets -underBinder +onlyGivenNames z
       first | (refine (fun hz : Keeps σ z => ?_) ?_; on_goal 1 => clear_value z
                on_goal 2 => (unfold z; clear z))
             | (refine (fun hz : Keeps σ z.2 => ?_) ?_; on_goal 1 => clear_value z
                on_goal 2 => (unfold z; clear z))
             | clear_value z)
    | split
    | intro _)

theorem State.evalEvacuation_keeps {σ s : State} (hσ : Keeps σ s) : Keeps σ (State.evalEvacuation s) := by
  unfold State.evalEvacuation
  repeat' (first
    | with_reducible assumption
    | with_reducible refine Keeps.foldl ?_ ?_
    | with_reducible refine Keeps.foldlP ?_ ?_
    | with_reducible refine Keeps.foldlQ ?_ ?_
    | with_reducible refine State.modPlace_keeps ?_
    | with_reducible refine Keeps.ite ?_ ?_
    | (extract_lets -underBinder +onlyGivenNames z
       first | (refine (fun hz : Keeps σ z => ?_) ?_; on_goal 1 => clear_value z
                on_goal 2 => (unfold z; clear z))
             | (refine (fun hz : Keeps σ z.2 => ?_) ?_; on_goal 1 => clear_value z
                on_goal 2 => (unfold z; clear z))
             | (refine (fun hz : Keeps σ z.1 => ?_) ?_; on_goal 1 => clear_value z
                on_goal 2 => (unfold z; clear z))
             | clear_value z)
    | split
    | intro _)

theorem State.evalMigration_keeps {σ s : State} (hσ : Keeps σ s) : Keeps σ (State.evalMigration s) := by
  unfold State.evalMigration
  repeat' (first
    | with_reducible assumption
    | with_reducible refine State.modPlace_keeps ?_
    | (extract_lets -underBinder +onlyGivenNames z
       first | (refine (fun hz : Keeps σ z => ?_) ?_; on_goal 1 => clear_value z
                on_goal 2 => (unfold z; clear z))
             | clear_value z))

theorem State.enqueue_keeps {σ s : State} {a : Nat} {m : MigItem} (hσ : Keeps σ s) : Keeps σ (State.enqueue s a m) := by
  unfold State.enqueue
  repeat' (first | with_reducible assumption | with_reducible refine State.flowDemand_keeps ?_ | with_reducible refine State.modPlace_keeps ?_)

theorem State.flagWear_keeps {σ s : State} (hσ : Keeps σ s) : Keeps σ (State.flagWear s) := by
  unfold State.flagWear
  repeat' (first
    | with_reducible assumption
    | with_reducible refine Keeps.foldl ?_ ?_
    | with_reducible refine State.modSpan_keeps ?_
    | with_reducible refine Keeps.ite ?_ ?_
    | (extract_lets -underBinder +onlyGivenNames z
       first | (refine (fun hz : Keeps σ z => ?_) ?_; on_goal 1 => clear_value z
                on_goal 2 => (unfold z; clear z))
             | clear_value z)
    | split
    | intro _)

theorem State.evalDirect_keeps {σ s : State} (hσ : Keeps σ s) : Keeps σ (State.evalDirect s) := by
  unfold State.evalDirect
  repeat' (first
    | with_reducible assumption
    | with_reducible refine State.modPlace_keeps ?_
    | with_reducible refine State.note_keeps ?_
    | with_reducible refine Keeps.ite ?_ ?_
    | (extract_lets -underBinder +onlyGivenNames z
       first | (refine (fun hz : Keeps σ z => ?_) ?_; on_goal 1 => clear_value z
                on_goal 2 => (unfold z; clear z))
             | clear_value z)
    | split)

theorem State.toCipher_keeps {σ s : State} {vid : Nat} {payload : List Crumb} {coded : Bool} (hσ : Keeps σ s) : Keeps σ (State.toCipher s vid payload coded) := by
  unfold State.toCipher
  dsimp only
  split
  · next h => exact State.modVersion_keeps (State.queueCipher_keeps hσ h)
  · exact State.modVersion_keeps hσ

theorem State.countFormat_keeps {σ s : State} {ix : Nat} {f : FormatCnt → FormatCnt} (hσ : Keeps σ s) : Keeps σ (State.countFormat s ix f) := by
  unfold State.countFormat
  repeat' (first | with_reducible assumption | with_reducible refine State.modCoder_keeps ?_)

theorem State.encrypted_keeps {σ s : State} {v : Version} {parity : Bool} (hσ : Keeps σ s) : Keeps σ (State.encrypted s v parity) := by
  unfold State.encrypted
  repeat' (first
    | with_reducible assumption
    | with_reducible refine State.failVersion_keeps ?_
    | with_reducible refine State.fault_keeps ?_
    | with_reducible refine State.modPlace_keeps ?_
    | with_reducible refine State.modVersion_keeps ?_
    | with_reducible refine State.placeVersion_keeps ?_
    | with_reducible refine State.settle_keeps ?_
    | with_reducible refine Keeps.ite ?_ ?_
    | (extract_lets -underBinder +onlyGivenNames z
       first | (refine (fun hz : Keeps σ z => ?_) ?_; on_goal 1 => clear_value z
                on_goal 2 => (unfold z; clear z))
             | clear_value z)
    | split)

theorem State.afterProgram_keeps {σ s : State} {n b : Nat} (hσ : Keeps σ s) : Keeps σ (State.afterProgram s n b) := by
  unfold State.afterProgram
  repeat' (first
    | with_reducible assumption
    | with_reducible refine Keeps.foldl ?_ ?_
    | with_reducible refine Keeps.foldlP ?_ ?_
    | with_reducible refine Keeps.foldlQ ?_ ?_
    | with_reducible refine State.modPlace_keeps ?_
    | with_reducible refine State.storeVersion_keeps ?_
    | with_reducible refine Keeps.ite ?_ ?_
    | (extract_lets -underBinder +onlyGivenNames z
       first | (refine (fun hz : Keeps σ z => ?_) ?_; on_goal 1 => clear_value z
                on_goal 2 => (unfold z; clear z))
             | clear_value z)
    | split
    | intro _)

theorem State.modJob_keeps {σ s : State} {id : Nat} {f : ReadJob → ReadJob} (hσ : Keeps σ s) : Keeps σ (State.modJob s id f) := by
  unfold State.modJob
  repeat' (first
    | with_reducible assumption
    | with_reducible refine State.modFlash_keeps ?_
    | with_reducible refine Keeps.ite ?_ ?_
    | split)

theorem State.dropJob_keeps {σ s : State} {id : Nat} (hσ : Keeps σ s) : Keeps σ (State.dropJob s id) := by
  unfold State.dropJob
  repeat' (first | with_reducible assumption | with_reducible refine State.modFlash_keeps ?_)

theorem State.deliverJob_keeps {σ s : State} {j : ReadJob} (hσ : Keeps σ s) : Keeps σ (State.deliverJob s j) := by
  unfold State.deliverJob
  repeat' (first
    | with_reducible assumption
    | with_reducible refine State.dropJob_keeps ?_
    | with_reducible refine State.effectParked_keeps ?_
    | with_reducible refine State.modEnt_keeps ?_
    | with_reducible refine State.modVersion_keeps ?_
    | with_reducible refine State.settle_keeps ?_
    | with_reducible refine Keeps.ite ?_ ?_
    | (extract_lets -underBinder +onlyGivenNames z
       first | (refine (fun hz : Keeps σ z => ?_) ?_; on_goal 1 => clear_value z
                on_goal 2 => (unfold z; clear z))
             | clear_value z)
    | split)

theorem State.failJob_keeps {σ s : State} {j : ReadJob} {status : Nat} (hσ : Keeps σ s) : Keeps σ (State.failJob s j status) := by
  unfold State.failJob
  repeat' (first
    | with_reducible assumption
    | with_reducible refine State.dropJob_keeps ?_
    | with_reducible refine State.effectParked_keeps ?_
    | with_reducible refine State.failVersion_keeps ?_
    | with_reducible refine State.modEnt_keeps ?_
    | with_reducible refine State.settle_keeps ?_
    | with_reducible refine Keeps.ite ?_ ?_
    | (extract_lets -underBinder +onlyGivenNames z
       first | (refine (fun hz : Keeps σ z => ?_) ?_; on_goal 1 => clear_value z
                on_goal 2 => (unfold z; clear z))
             | clear_value z)
    | split)

theorem State.loseJob_keeps {σ s : State} {j : ReadJob} {units : Nat} (hσ : Keeps σ s) : Keeps σ (State.loseJob s j units) := by
  unfold State.loseJob
  repeat' (first
    | with_reducible assumption
    | with_reducible refine State.dropJob_keeps ?_
    | with_reducible refine State.failJob_keeps ?_
    | with_reducible refine State.loseUnits_keeps ?_
    | with_reducible refine State.loseUnits_keeps_of ?_ (by with_reducible assumption)
    | with_reducible refine State.modVersion_keeps ?_
    | with_reducible refine State.settle_keeps ?_
    | with_reducible refine State.warnBit_keeps ?_
    | with_reducible refine Keeps.ite ?_ ?_
    | (extract_lets -underBinder +onlyGivenNames z
       first | (refine (fun hz : Keeps σ z => ?_) ?_; on_goal 1 => clear_value z
                on_goal 2 => (unfold z; clear z))
             | (refine (fun hz : Keeps σ z.2 => ?_) ?_; on_goal 1 => clear_value z
                on_goal 2 => (unfold z; clear z))
             | clear_value z)
    | split)

theorem State.ladder_keeps {σ s : State} {j : ReadJob} {lost : Nat} (hσ : Keeps σ s) : Keeps σ (State.ladder s j lost) := by
  unfold State.ladder
  repeat' (first
    | with_reducible assumption
    | with_reducible refine State.loseJob_keeps ?_
    | with_reducible refine State.modJob_keeps ?_
    | with_reducible refine Keeps.ite ?_ ?_
    | (extract_lets -underBinder +onlyGivenNames z
       first | (refine (fun hz : Keeps σ z => ?_) ?_; on_goal 1 => clear_value z
                on_goal 2 => (unfold z; clear z))
             | clear_value z)
    | split)

theorem State.retryJob_keeps {σ s : State} {j : ReadJob} (hσ : Keeps σ s) : Keeps σ (State.retryJob s j) := by
  unfold State.retryJob
  repeat' (first
    | with_reducible assumption
    | with_reducible refine State.failJob_keeps ?_
    | with_reducible refine State.modFab_keeps ?_
    | with_reducible refine State.modJob_keeps ?_
    | with_reducible refine Keeps.ite ?_ ?_
    | (extract_lets -underBinder +onlyGivenNames z
       first | (refine (fun hz : Keeps σ z => ?_) ?_; on_goal 1 => clear_value z
                on_goal 2 => (unfold z; clear z))
             | clear_value z)
    | split)

theorem State.decrypted_keeps {σ s : State} {j : ReadJob} {parity : Bool} (hσ : Keeps σ s) : Keeps σ (State.decrypted s j parity) := by
  unfold State.decrypted
  repeat' (first
    | with_reducible assumption
    | with_reducible refine State.deliverJob_keeps ?_
    | with_reducible refine State.failJob_keeps ?_
    | with_reducible refine State.fault_keeps ?_
    | with_reducible refine State.modJob_keeps ?_
    | with_reducible refine State.modPlace_keeps ?_
    | with_reducible refine State.queueCoder_keeps ?_ (by with_reducible assumption)
    | with_reducible refine State.retryJob_keeps ?_
    | with_reducible refine Keeps.ite ?_ ?_
    | (extract_lets -underBinder +onlyGivenNames z
       first | (refine (fun hz : Keeps σ z => ?_) ?_; on_goal 1 => clear_value z
                on_goal 2 => (unfold z; clear z))
             | clear_value z)
    | split)

theorem State.placeStaged_keeps {σ s : State} {a : Nat} (hσ : Keeps σ s) : Keeps σ (State.placeStaged s a) := by
  unfold State.placeStaged
  repeat' (first
    | with_reducible assumption
    | with_reducible refine State.modAct_keeps ?_
    | with_reducible refine State.modMedia_keeps ?_
    | with_reducible refine State.nextWsn_keeps ?_
    | with_reducible refine State.nextWsn_keeps_of ?_ (by with_reducible assumption)
    | with_reducible refine State.openStackOn_keeps ?_
    | with_reducible refine Keeps.ite ?_ ?_
    | (extract_lets -underBinder +onlyGivenNames z
       first | (refine (fun hz : Keeps σ z => ?_) ?_; on_goal 1 => clear_value z
                on_goal 2 => (unfold z; clear z))
             | (refine (fun hz : Keeps σ z.2 => ?_) ?_; on_goal 1 => clear_value z
                on_goal 2 => (unfold z; clear z))
             | clear_value z)
    | split)

theorem State.releaseRack_keeps {σ s : State} {a : Nat} (hσ : Keeps σ s) : Keeps σ (State.releaseRack s a) := by
  unfold State.releaseRack
  repeat' (first
    | with_reducible assumption
    | with_reducible refine State.discardStack_keeps ?_
    | with_reducible refine State.modAct_keeps ?_
    | with_reducible refine Keeps.ite ?_ ?_
    | (extract_lets -underBinder +onlyGivenNames z
       first | (refine (fun hz : Keeps σ z => ?_) ?_; on_goal 1 => clear_value z
                on_goal 2 => (unfold z; clear z))
             | clear_value z)
    | split)

theorem State.rackKneadUpdate_keeps {σ s : State} {a : Nat} (hσ : Keeps σ s) : Keeps σ (State.rackKneadUpdate s a) := by
  unfold State.rackKneadUpdate
  repeat' (first
    | with_reducible assumption
    | with_reducible refine State.modAct_keeps ?_
    | (extract_lets -underBinder +onlyGivenNames z
       first | (refine (fun hz : Keeps σ z => ?_) ?_; on_goal 1 => clear_value z
                on_goal 2 => (unfold z; clear z))
             | clear_value z))

end Sys2Proof.Machine
end

