-- ==== Sys2Proof/Laws/KeepsHost.lean ====
section
/-!
SUPPORT. One lemma per operation about `Keeps` (Safety): that the shared operations of the commands, of the configuration and of the firmware undo nothing.
-/
namespace Sys2Proof.Machine
open Sys2Proof

set_option linter.unusedTactic false
set_option linter.unreachableTactic false

theorem State.onLog_keeps {σ s : State} {st lid size : Nat} {page : Ctx → List (Nat × Nat × Nat)} {after : Ctx → State → State} (hσ : Keeps σ s) (hafter : ∀ c s, Keeps σ s → Keeps σ (after c s)) : NextKeeps σ (State.onLog s st lid size page after) := by
  unfold State.onLog
  repeat' (first
    | with_reducible assumption
    | with_reducible refine NextKeeps.next ?_
    | with_reducible exact hafter _
    | with_reducible exact hafter _ _
    | with_reducible refine hafter _ _ ?_
    | with_reducible refine State.complete_keeps ?_
    | with_reducible refine State.giveData_keeps ?_
    | with_reducible refine State.onAdmin_keeps ?_ ?_
    | with_reducible refine Keeps.ite ?_ ?_
    | split
    | intro _)

theorem clearUnlessRae_keeps {σ : State} {ty log : Nat} {c : Ctx} {s : State} (hσ : Keeps σ s) : Keeps σ (clearUnlessRae ty log c s) := by
  unfold clearUnlessRae
  repeat' (first
    | with_reducible assumption
    | with_reducible refine State.clearEvent_keeps ?_
    | with_reducible refine Keeps.ite ?_ ?_
    | split)

theorem State.announceDeferred_keeps {σ s : State} (hσ : Keeps σ s) : Keeps σ (State.announceDeferred s) := by
  unfold State.announceDeferred
  repeat' (first
    | with_reducible assumption
    | with_reducible refine State.raiseEvent_keeps ?_
    | with_reducible refine Keeps.ite ?_ ?_
    | split)

theorem State.moveCopy_keeps {σ s : State} {c : CopyStep} (hσ : Keeps σ s) : Keeps σ (State.moveCopy s c) := by
  unfold State.moveCopy
  repeat' (first
    | with_reducible assumption
    | with_reducible refine State.endCopy_keeps ?_
    | with_reducible refine State.modPlace_keeps ?_
    | with_reducible refine State.relocate_keeps ?_
    | with_reducible refine State.relocate_keeps_of ?_ (by with_reducible assumption)
    | with_reducible refine Keeps.ite ?_ ?_
    | (extract_lets -underBinder +onlyGivenNames z
       first | (refine (fun hz : Keeps σ z => ?_) ?_; on_goal 1 => clear_value z
                on_goal 2 => (unfold z; clear z))
             | (refine (fun hz : Keeps σ z.2 => ?_) ?_; on_goal 1 => clear_value z
                on_goal 2 => (unfold z; clear z))
             | clear_value z)
    | split)

theorem State.movePlaced_keeps {σ s : State} {a : Nat} {p : Placed} (hσ : Keeps σ s) : Keeps σ (State.movePlaced s a p) := by
  unfold State.movePlaced
  repeat' (first
    | with_reducible assumption
    | with_reducible refine State.modAct_keeps ?_
    | with_reducible refine State.modPlace_keeps ?_
    | with_reducible refine State.releaseRack_keeps ?_
    | with_reducible refine State.relocate_keeps ?_
    | with_reducible refine State.relocate_keeps_of ?_ (by with_reducible assumption)
    | with_reducible refine Keeps.ite ?_ ?_
    | (extract_lets -underBinder +onlyGivenNames z
       first | (refine (fun hz : Keeps σ z => ?_) ?_; on_goal 1 => clear_value z
                on_goal 2 => (unfold z; clear z))
             | (refine (fun hz : Keeps σ z.2 => ?_) ?_; on_goal 1 => clear_value z
                on_goal 2 => (unfold z; clear z))
             | clear_value z)
    | split)

theorem State.moveDurable_keeps {σ s : State} {w : Nat} {nsid lcn : Nat} {dst : Loc} (hσ : Keeps σ s) : Keeps σ (State.moveDurable s w nsid lcn dst) := by
  unfold State.moveDurable
  repeat' (first
    | with_reducible assumption
    | with_reducible refine State.moveCopy_keeps ?_
    | with_reducible refine State.movePlaced_keeps ?_
    | with_reducible refine Keeps.ite ?_ ?_
    | (extract_lets -underBinder +onlyGivenNames z
       first | (refine (fun hz : Keeps σ z => ?_) ?_; on_goal 1 => clear_value z
                on_goal 2 => (unfold z; clear z))
             | clear_value z)
    | split)

theorem State.zeroDurable_keeps {σ s : State} {nsid lcn : Nat} (hσ : Keeps σ s) : Keeps σ (State.zeroDurable s nsid lcn) := by
  unfold State.zeroDurable
  repeat' (first
    | with_reducible assumption
    | with_reducible refine State.finishWrites_keeps ?_
    | with_reducible refine State.modEnt_keeps ?_
    | split)

theorem State.deallocDurable_keeps {σ s : State} {nsid lcn : Nat} (hσ : Keeps σ s) : Keeps σ (State.deallocDurable s nsid lcn) := by
  unfold State.deallocDurable
  repeat' (first
    | with_reducible assumption
    | with_reducible refine State.putDesc_keeps ?_
    | with_reducible refine Keeps.ite ?_ ?_
    | (extract_lets -underBinder +onlyGivenNames z
       first | (refine (fun hz : Keeps σ z => ?_) ?_; on_goal 1 => clear_value z
                on_goal 2 => (unfold z; clear z))
             | clear_value z)
    | split)

theorem State.unreadableDurable_keeps {σ s : State} {w : Nat} (hσ : Keeps σ s) : Keeps σ (State.unreadableDurable s w) := by
  unfold State.unreadableDurable
  repeat' (first
    | with_reducible assumption
    | with_reducible refine Keeps.foldl ?_ ?_
    | with_reducible refine Keeps.foldlP ?_ ?_
    | with_reducible refine Keeps.foldlQ ?_ ?_
    | with_reducible refine State.endVersion_keeps ?_
    | with_reducible refine State.enterDeferred_keeps ?_
    | with_reducible refine State.modHost_keeps ?_
    | with_reducible refine Keeps.ite ?_ ?_
    | (extract_lets -underBinder +onlyGivenNames z
       first | (refine (fun hz : Keeps σ z => ?_) ?_; on_goal 1 => clear_value z
                on_goal 2 => (unfold z; clear z))
             | (refine (fun hz : Keeps σ z.2 => ?_) ?_; on_goal 1 => clear_value z
                on_goal 2 => (unfold z; clear z))
             | (refine (fun hz : Keeps σ z.1 => ?_) ?_; on_goal 1 => clear_value z
                on_goal 2 => (unfold z; clear z))
             | clear_value z)
    | split
    | intro _)

theorem State.stackClosed_keeps {σ s : State} {a b : Nat} (hσ : Keeps σ s) : Keeps σ (State.stackClosed s a b) := by
  unfold State.stackClosed
  repeat' (first
    | with_reducible assumption
    | with_reducible refine Keeps.foldl ?_ ?_
    | with_reducible refine State.journal_keeps ?_
    | with_reducible refine State.modAct_keeps ?_
    | with_reducible refine State.modStack_keeps ?_
    | with_reducible refine State.placeStaged_keeps ?_
    | (extract_lets -underBinder +onlyGivenNames z
       first | (refine (fun hz : Keeps σ z => ?_) ?_; on_goal 1 => clear_value z
                on_goal 2 => (unfold z; clear z))
             | clear_value z)
    | intro _)

theorem State.fencesDurable_keeps {σ s : State} {heads : List (BitVec 12)} (hσ : Keeps σ s) : Keeps σ (State.fencesDurable s heads) := by
  unfold State.fencesDurable
  repeat' (first
    | with_reducible assumption
    | with_reducible refine Keeps.foldl ?_ ?_
    | with_reducible refine Keeps.foldlP ?_ ?_
    | with_reducible refine Keeps.foldlQ ?_ ?_
    | with_reducible refine State.headLost_keeps ?_
    | with_reducible refine State.modChan_keeps ?_
    | with_reducible refine State.modPlace_keeps ?_
    | with_reducible refine Keeps.ite ?_ ?_
    | (extract_lets -underBinder +onlyGivenNames z
       first | (refine (fun hz : Keeps σ z => ?_) ?_; on_goal 1 => clear_value z
                on_goal 2 => (unfold z; clear z))
             | clear_value z)
    | split
    | intro _)

theorem State.entryDurable_keeps {σ s : State} {e : JEntry} (hσ : Keeps σ s) : Keeps σ (State.entryDurable s e) := by
  unfold State.entryDurable
  repeat' (first
    | with_reducible assumption
    | with_reducible refine State.announceDeferred_keeps ?_
    | with_reducible refine State.deallocDurable_keeps ?_
    | with_reducible refine State.fencesDurable_keeps ?_
    | with_reducible refine State.modHost_keeps ?_
    | with_reducible refine State.modRack_keeps ?_
    | with_reducible refine State.modSpan_keeps ?_
    | with_reducible refine State.modStack_keeps ?_
    | with_reducible refine State.moveDurable_keeps ?_
    | with_reducible refine State.placeStaged_keeps ?_
    | with_reducible refine State.stackClosed_keeps ?_
    | with_reducible refine State.unreadableDurable_keeps ?_
    | with_reducible refine State.zeroDurable_keeps ?_
    | with_reducible refine Keeps.ite ?_ ?_
    | split)

theorem State.evictOne_keeps {σ s : State} {page : Nat} (hσ : Keeps σ s) : Keeps σ (State.evictOne s page) := by
  unfold State.evictOne
  split
  · with_reducible assumption
  · with_reducible exact State.modMap_keeps (State.fresh_keeps hσ)

theorem State.evict_keeps {σ s : State} {page : Nat} (hσ : Keeps σ s) : Keeps σ (State.evict s page) := by
  unfold State.evict
  repeat' (first
    | with_reducible assumption
    | with_reducible refine Keeps.foldl ?_ ?_
    | with_reducible refine State.evictOne_keeps ?_
    | split
    | intro _)

theorem State.completeWaiting_keeps {σ s : State} {w : Nat} (hσ : Keeps σ s) : Keeps σ (State.completeWaiting s w) := by
  unfold State.completeWaiting
  repeat' (first
    | with_reducible assumption
    | with_reducible refine Keeps.foldl ?_ ?_
    | with_reducible refine State.complete_keeps ?_
    | with_reducible refine Keeps.ite ?_ ?_
    | split
    | intro _)

theorem State.journalDurable_keeps {σ s : State} (hσ : Keeps σ s) : Keeps σ (State.journalDurable s) := by
  unfold State.journalDurable
  repeat' (first
    | with_reducible assumption
    | with_reducible refine Keeps.foldl ?_ ?_
    | with_reducible refine State.completeWaiting_keeps ?_
    | with_reducible refine State.entryDurable_keeps ?_
    | with_reducible refine State.journal_keeps ?_
    | with_reducible refine State.modMap_keeps ?_
    | with_reducible refine State.modMedia_keeps ?_
    | with_reducible refine State.placeWaiting_keeps ?_
    | with_reducible refine State.releaseEmpty_keeps ?_
    | with_reducible refine State.settle_keeps ?_
    | with_reducible refine State.unclean_keeps ?_
    | with_reducible refine Keeps.ite ?_ ?_
    | (extract_lets -underBinder +onlyGivenNames z
       first | (refine (fun hz : Keeps σ z => ?_) ?_; on_goal 1 => clear_value z
                on_goal 2 => (unfold z; clear z))
             | clear_value z)
    | split
    | intro _)

theorem State.shutdownCheck_keeps {σ s : State} (hσ : Keeps σ s) : Keeps σ (State.shutdownCheck s) := by
  unfold State.shutdownCheck
  repeat' (first
    | with_reducible assumption
    | with_reducible refine State.modNvme_keeps ?_
    | with_reducible refine Keeps.ite ?_ ?_
    | split)

theorem State.catchCmd_keeps {σ s : State} {c : Ctx} {status : Nat} (hσ : Keeps σ s) : Keeps σ (State.catchCmd s c status) := by
  unfold State.catchCmd
  repeat' (first
    | with_reducible assumption
    | with_reducible refine State.cancelReads_keeps ?_
    | with_reducible refine State.complete_keeps ?_
    | with_reducible refine State.effectParked_keeps ?_
    | with_reducible refine State.leaveVersions_keeps ?_
    | with_reducible refine State.modFlash_keeps ?_
    | with_reducible refine State.modNvme_keeps ?_
    | with_reducible refine Keeps.ite ?_ ?_
    | (extract_lets -underBinder +onlyGivenNames z
       first | (refine (fun hz : Keeps σ z => ?_) ?_; on_goal 1 => clear_value z
                on_goal 2 => (unfold z; clear z))
             | clear_value z)
    | split)

theorem State.nsChanged_keeps {σ s : State} {nsid : Nat} (hσ : Keeps σ s) : Keeps σ (State.nsChanged s nsid) := by
  unfold State.nsChanged
  repeat' (first
    | with_reducible assumption
    | with_reducible refine State.modNvme_keeps ?_
    | with_reducible refine State.raiseEvent_keeps ?_
    | with_reducible refine Keeps.ite ?_ ?_
    | split)

theorem State.newKey_keeps {σ s : State} {nsid : Nat} (hσ : Keeps σ s) : Keeps σ (State.newKey s nsid).2 := by
  unfold State.newKey
  repeat' (first
    | with_reducible assumption
    | with_reducible refine State.modFlash_keeps ?_
    | (extract_lets -underBinder +onlyGivenNames z
       first | (refine (fun hz : Keeps σ z => ?_) ?_; on_goal 1 => clear_value z
                on_goal 2 => (unfold z; clear z))
             | clear_value z))
theorem State.newKey_keeps_of {σ s : State} {nsid : Nat} {t : State} {aa} (hσ : Keeps σ s) (heq : State.newKey s nsid = (aa, t)) : Keeps σ t := by
  have : Keeps σ (State.newKey s nsid).2 := State.newKey_keeps hσ
  rw [heq] at this; exact this

theorem State.awaitJournal_keeps {σ s : State} {st : Nat} {dw0 : Dword} (hσ : Keeps σ s) : Keeps σ (State.awaitJournal s st dw0) := by
  unfold State.awaitJournal
  repeat' (first | with_reducible assumption | with_reducible refine State.modCtx_keeps ?_)

theorem State.dropNsCopies_keeps {σ s : State} {nsid : Nat} (hσ : Keeps σ s) : Keeps σ (State.dropNsCopies s nsid) := by
  unfold State.dropNsCopies
  repeat' (first
    | with_reducible assumption
    | with_reducible refine Keeps.foldl ?_ ?_
    | with_reducible refine Keeps.foldlP ?_ ?_
    | with_reducible refine Keeps.foldlQ ?_ ?_
    | with_reducible refine State.endCopy_keeps ?_
    | with_reducible refine State.modPlace_keeps ?_
    | with_reducible refine State.modRack_keeps ?_
    | (extract_lets -underBinder +onlyGivenNames z
       first | (refine (fun hz : Keeps σ z => ?_) ?_; on_goal 1 => clear_value z
                on_goal 2 => (unfold z; clear z))
             | (refine (fun hz : Keeps σ z.2 => ?_) ?_; on_goal 1 => clear_value z
                on_goal 2 => (unfold z; clear z))
             | clear_value z)
    | intro _)

theorem State.resetNs_keeps {σ s : State} {nsid : Nat} (hσ : Keeps σ s) : Keeps σ (State.resetNs s nsid) := by
  unfold State.resetNs
  repeat' (first
    | with_reducible assumption
    | with_reducible refine State.dropNs_keeps ?_
    | with_reducible refine State.dropNsCopies_keeps ?_
    | with_reducible refine State.journal_keeps ?_
    | with_reducible refine State.modHost_keeps ?_
    | with_reducible refine State.modPlace_keeps ?_
    | with_reducible refine State.unclean_keeps ?_
    | (extract_lets -underBinder +onlyGivenNames z
       first | (refine (fun hz : Keeps σ z => ?_) ?_; on_goal 1 => clear_value z
                on_goal 2 => (unfold z; clear z))
             | (refine (fun hz : Keeps σ z.2 => ?_) ?_; on_goal 1 => clear_value z
                on_goal 2 => (unfold z; clear z))
             | (refine (fun hz : Keeps σ z.1 => ?_) ?_; on_goal 1 => clear_value z
                on_goal 2 => (unfold z; clear z))
             | clear_value z))

theorem State.formatNs_keeps {σ s : State} {nsid : Nat} {n : NsEntry} {lbaf : Nat} (hσ : Keeps σ s) : Keeps σ (State.formatNs s nsid n lbaf) := by
  unfold State.formatNs
  repeat' (first
    | with_reducible assumption
    | with_reducible refine Keeps.foldl ?_ ?_
    | with_reducible refine Keeps.foldlP ?_ ?_
    | with_reducible refine Keeps.foldlQ ?_ ?_
    | with_reducible refine State.journal_keeps ?_
    | with_reducible refine State.modCoder_keeps ?_
    | with_reducible refine State.modNvme_keeps ?_
    | with_reducible refine State.modPlace_keeps ?_
    | with_reducible refine State.nsChanged_keeps ?_
    | with_reducible refine State.resetNs_keeps ?_
    | with_reducible refine Keeps.ite ?_ ?_
    | (extract_lets -underBinder +onlyGivenNames z
       first | (refine (fun hz : Keeps σ z => ?_) ?_; on_goal 1 => clear_value z
                on_goal 2 => (unfold z; clear z))
             | (refine (fun hz : Keeps σ z.2 => ?_) ?_; on_goal 1 => clear_value z
                on_goal 2 => (unfold z; clear z))
             | (refine (fun hz : Keeps σ z.1 => ?_) ?_; on_goal 1 => clear_value z
                on_goal 2 => (unfold z; clear z))
             | clear_value z)
    | split
    | intro _)

theorem State.drainJournal_keeps {σ s : State} (hσ : Keeps σ s) : Keeps σ (State.drainJournal s) := by
  unfold State.drainJournal
  repeat' (first
    | with_reducible assumption
    | with_reducible refine Keeps.foldl ?_ ?_
    | with_reducible refine State.journalDurable_keeps ?_
    | intro _)

theorem State.cryptoErase_keeps {σ s : State} {nsid : Nat} (hσ : Keeps σ s) : Keeps σ (State.cryptoErase s nsid) := by
  unfold State.cryptoErase
  repeat' (first
    | with_reducible assumption
    | with_reducible refine State.drainJournal_keeps ?_
    | with_reducible refine State.journal_keeps ?_
    | with_reducible refine State.modMap_keeps ?_
    | with_reducible refine State.modMedia_keeps ?_
    | with_reducible refine State.modNvme_keeps ?_
    | with_reducible refine State.modRack_keeps ?_
    | with_reducible refine State.newKey_keeps ?_
    | with_reducible refine State.newKey_keeps_of ?_ (by with_reducible assumption)
    | with_reducible refine State.writeRoot_keeps ?_
    | with_reducible refine Keeps.ite ?_ ?_
    | (extract_lets -underBinder +onlyGivenNames z
       first | (refine (fun hz : Keeps σ z => ?_) ?_; on_goal 1 => clear_value z
                on_goal 2 => (unfold z; clear z))
             | (refine (fun hz : Keeps σ z.2 => ?_) ?_; on_goal 1 => clear_value z
                on_goal 2 => (unfold z; clear z))
             | clear_value z)
    | split)

theorem State.resetAll_keeps {σ s : State} (hσ : Keeps σ s) : Keeps σ (State.resetAll s) := by
  unfold State.resetAll
  repeat' (first
    | with_reducible assumption
    | with_reducible refine Keeps.foldl ?_ ?_
    | with_reducible refine State.resetNs_keeps ?_
    | intro _)

theorem State.testDone_keeps {σ s : State} {kind result : Nat} (hσ : Keeps σ s) : Keeps σ (State.testDone s kind result) := by
  unfold State.testDone
  repeat' (first | with_reducible assumption | with_reducible refine State.modNvme_keeps ?_)

theorem State.completeSwaps_keeps {σ s : State} {swapped : Bool} (hσ : Keeps σ s) : Keeps σ (State.completeSwaps s swapped) := by
  unfold State.completeSwaps
  repeat' (first
    | with_reducible assumption
    | with_reducible refine Keeps.foldl ?_ ?_
    | with_reducible refine State.complete_keeps ?_
    | with_reducible refine State.modCfg_keeps ?_
    | (extract_lets -underBinder +onlyGivenNames z
       first | (refine (fun hz : Keeps σ z => ?_) ?_; on_goal 1 => clear_value z
                on_goal 2 => (unfold z; clear z))
             | clear_value z)
    | intro _)

theorem State.trigger_keeps {σ s : State} {drain : Bool} {t : Trigger} (hσ : Keeps σ s) : Keeps σ (State.trigger s drain t) := by
  unfold State.trigger
  repeat' (first
    | with_reducible assumption
    | with_reducible refine State.completeSwaps_keeps ?_
    | with_reducible refine State.modCfg_keeps ?_
    | with_reducible refine Keeps.ite ?_ ?_
    | split)

theorem State.dropStaged_keeps {σ s : State} (hσ : Keeps σ s) : Keeps σ (State.dropStaged s) := by
  unfold State.dropStaged
  repeat' (first
    | with_reducible assumption
    | with_reducible refine State.modRack_keeps ?_
    | with_reducible refine Keeps.ite ?_ ?_
    | split)

theorem State.swapTo_keeps {σ s : State} {drain : Bool} {t : Trigger} (hσ : Keeps σ s) : Keeps σ (State.swapTo s drain t) := by
  unfold State.swapTo
  repeat' (first
    | with_reducible assumption
    | with_reducible refine State.completeSwaps_keeps ?_
    | with_reducible refine State.dropStaged_keeps ?_
    | with_reducible refine State.evalMigration_keeps ?_
    | with_reducible refine State.modCfg_keeps ?_
    | with_reducible refine State.note_keeps ?_
    | (extract_lets -underBinder +onlyGivenNames z
       first | (refine (fun hz : Keeps σ z => ?_) ?_; on_goal 1 => clear_value z
                on_goal 2 => (unfold z; clear z))
             | clear_value z))

theorem State.swapNow_keeps {σ s : State} (hσ : Keeps σ s) : Keeps σ (State.swapNow s) := by
  unfold State.swapNow
  repeat' (first
    | with_reducible assumption
    | with_reducible refine State.swapTo_keeps ?_
    | with_reducible refine Keeps.ite ?_ ?_
    | split)

theorem State.schedule_keeps {σ s : State} (hσ : Keeps σ s) : Keeps σ (State.schedule s) := by
  unfold State.schedule
  repeat' (first
    | with_reducible assumption
    | with_reducible refine State.modCfg_keeps ?_
    | with_reducible refine State.note_keeps ?_
    | with_reducible refine State.trigger_keeps ?_
    | with_reducible refine Keeps.ite ?_ ?_
    | (extract_lets -underBinder +onlyGivenNames z
       first | (refine (fun hz : Keeps σ z => ?_) ?_; on_goal 1 => clear_value z
                on_goal 2 => (unfold z; clear z))
             | clear_value z)
    | split)

theorem State.loseSector_keeps {σ s : State} {a : Nat} (hσ : Keeps σ s) : Keeps σ (State.loseSector s a) := by
  unfold State.loseSector
  refine State.modOspi_nvm ?_ fun h => mfill_wf h
  exact hσ.trans ⟨rfl, List.prefix_refl _, le_refl _, Nat.le_add_right _ _, id, id, le_refl _, le_refl _, id⟩

theorem State.ospiGo_keeps {σ s : State} {erase : Bool} {a len : Nat} {bs : List Byte} (hσ : Keeps σ s) : Keeps σ (State.ospiGo s erase a len bs) := by
  unfold State.ospiGo
  repeat' (first
    | with_reducible assumption
    | with_reducible refine State.modOspi_keeps ?_ ?_
    | with_reducible exact fun _ => ⟨rfl, rfl⟩
    | with_reducible exact fun _ => rfl
    | (intro x; try dsimp only; repeat' split) <;> with_reducible first | rfl | exact ⟨rfl, rfl⟩
    | with_reducible refine Keeps.ite ?_ ?_
    | (extract_lets -underBinder +onlyGivenNames z
       first | (refine (fun hz : Keeps σ z => ?_) ?_; on_goal 1 => clear_value z
                on_goal 2 => (unfold z; clear z))
             | clear_value z)
    | split
    | intro _)

theorem State.clearRecords_keeps {σ s : State} {who : Nat} {upto : Option (BitVec 32)} (hσ : Keeps σ s) : Keeps σ (State.clearRecords s who upto).2 := by
  unfold State.clearRecords
  repeat' (first
    | with_reducible assumption
    | with_reducible refine State.modEvt_keeps ?_ ?_
    | with_reducible refine State.note_keeps ?_
    | with_reducible exact fun _ => ⟨rfl, rfl⟩
    | with_reducible exact fun _ => rfl
    | (intro x; try dsimp only; repeat' split) <;> with_reducible first | rfl | exact ⟨rfl, rfl⟩
    | (extract_lets -underBinder +onlyGivenNames z
       first | (refine (fun hz : Keeps σ z => ?_) ?_; on_goal 1 => clear_value z
                on_goal 2 => (unfold z; clear z))
             | (refine (fun hz : Keeps σ z.2 => ?_) ?_; on_goal 1 => clear_value z
                on_goal 2 => (unfold z; clear z))
             | (refine (fun hz : Keeps σ z.1 => ?_) ?_; on_goal 1 => clear_value z
                on_goal 2 => (unfold z; clear z))
             | clear_value z)
    | split
    | intro _)
theorem State.clearRecords_keeps_of {σ s : State} {who : Nat} {upto : Option (BitVec 32)} {t : State} {aa} (hσ : Keeps σ s) (heq : State.clearRecords s who upto = (aa, t)) : Keeps σ t := by
  have : Keeps σ (State.clearRecords s who upto).2 := State.clearRecords_keeps hσ
  rw [heq] at this; exact this

theorem State.runClears_keeps {σ s : State} (hσ : Keeps σ s) : Keeps σ (State.runClears s) := by
  unfold State.runClears
  repeat' (first
    | with_reducible assumption
    | with_reducible refine Keeps.foldl ?_ ?_
    | with_reducible refine Keeps.foldlP ?_ ?_
    | with_reducible refine Keeps.foldlQ ?_ ?_
    | with_reducible refine State.clearRecords_keeps ?_
    | with_reducible refine State.clearRecords_keeps_of ?_ (by with_reducible assumption)
    | with_reducible refine State.complete_keeps ?_
    | with_reducible refine State.modEvt_keeps ?_ ?_
    | with_reducible exact fun _ => ⟨rfl, rfl⟩
    | with_reducible exact fun _ => rfl
    | (intro x; try dsimp only; repeat' split) <;> with_reducible first | rfl | exact ⟨rfl, rfl⟩
    | (extract_lets -underBinder +onlyGivenNames z
       first | (refine (fun hz : Keeps σ z => ?_) ?_; on_goal 1 => clear_value z
                on_goal 2 => (unfold z; clear z))
             | (refine (fun hz : Keeps σ z.2 => ?_) ?_; on_goal 1 => clear_value z
                on_goal 2 => (unfold z; clear z))
             | (refine (fun hz : Keeps σ z.1 => ?_) ?_; on_goal 1 => clear_value z
                on_goal 2 => (unfold z; clear z))
             | clear_value z)
    | split
    | intro _)

theorem State.namedBy_keeps {σ s : State} {r : Rec} (hσ : Keeps σ s) : Keeps σ (State.namedBy s r) := by
  unfold State.namedBy
  dsimp only
  split
  · exact State.modSrc_keeps hσ
  · split
    · exact State.modEvt_keeps hσ fun _ => ⟨rfl, rfl⟩
    · exact hσ

theorem State.flushStaged_keeps {σ s : State} (hσ : Keeps σ s) : Keeps σ (State.flushStaged s) := by
  unfold State.flushStaged
  dsimp only
  apply State.runClears_keeps
  have h : Keeps σ (s.evt.staged.foldl (fun s r =>
      (s.modEvt fun e => { e.append r with pend := (e.append r).pend ++ [{ r with seq := (e.append r).nextSeq - 1 }], pendSince := if (e.append r).pend.isEmpty then s.now else (e.append r).pendSince }).namedBy r)
      (s.modEvt fun e => { e with staged := [], dropped := 0 })) :=
    Keeps.foldl (State.modEvt_keeps hσ fun _ => ⟨rfl, rfl⟩) fun s a h => State.namedBy_keeps (State.modEvt_keeps h fun x => by simp)
  split
  · exact h
  · exact State.raise_keeps (State.note_keeps h)

theorem State.poolInit_keeps {σ s : State} (hσ : Keeps σ s) : Keeps σ (State.poolInit s) := by
  unfold State.poolInit
  repeat' (first
    | with_reducible assumption
    | with_reducible refine Keeps.optMap ?_ ?_
    | with_reducible refine Keeps.optGet ?_ ?_
    | with_reducible refine Keeps.optElim ?_ ?_
    | with_reducible refine Keeps.foldl ?_ ?_
    | with_reducible refine Keeps.foldlP ?_ ?_
    | with_reducible refine Keeps.foldlQ ?_ ?_
    | with_reducible refine State.modPool_keeps ?_
    | (extract_lets -underBinder +onlyGivenNames z
       first | (refine (fun hz : Keeps σ z => ?_) ?_; on_goal 1 => clear_value z
                on_goal 2 => (unfold z; clear z))
             | clear_value z)
    | intro _)

theorem State.popBuf_keeps {σ s : State} {p owner : Nat} {t : State} {a0 : Nat} (hσ : Keeps σ s) (e : State.popBuf s p owner = some (a0, t)) : Keeps σ t := by
  unfold State.popBuf at e
  split at e
  · cases e
  · cases e; exact State.modBuf_keeps (State.modPoolOf_keeps hσ)

theorem State.moveBufs_keeps {σ s : State} {src dst n : Nat} (hσ : Keeps σ s) : Keeps σ (State.moveBufs s src dst n) := by
  unfold State.moveBufs
  repeat' (first
    | with_reducible assumption
    | with_reducible refine Keeps.foldl ?_ ?_
    | with_reducible refine State.modBuf_keeps ?_
    | with_reducible refine State.modPoolOf_keeps ?_
    | (extract_lets -underBinder +onlyGivenNames z
       first | (refine (fun hz : Keeps σ z => ?_) ?_; on_goal 1 => clear_value z
                on_goal 2 => (unfold z; clear z))
             | clear_value z)
    | intro _)

theorem State.resizePush_keeps {σ s : State} {n : Nat} (hσ : Keeps σ s) : Keeps σ (State.resizePush s n) := by
  unfold State.resizePush
  repeat' (first
    | with_reducible assumption
    | with_reducible refine State.modPool_keeps ?_
    | with_reducible refine State.moveBufs_keeps ?_
    | with_reducible refine Keeps.ite ?_ ?_
    | (extract_lets -underBinder +onlyGivenNames z
       first | (refine (fun hz : Keeps σ z => ?_) ?_; on_goal 1 => clear_value z
                on_goal 2 => (unfold z; clear z))
             | clear_value z)
    | split)

theorem State.judgeSet_keeps {σ s : State} {e} (hσ : Keeps σ s) : Keeps σ (State.judgeSet s e).2 := by
  unfold State.judgeSet
  dsimp only
  split
  · exact State.complete_keeps hσ
  · have h : Keeps σ (s.modWin fun w => { w with pushEn := (e.2.1 == 1), poolSize := e.2.2.1, leaseUs := BitVec.ofNat 32 e.2.2.2 }) := State.modWin_keeps hσ
    split <;> split <;> first | exact State.complete_keeps (State.resizePush_keeps h) | exact State.complete_keeps h | exact State.resizePush_keeps h | exact h
theorem State.judgeSet_keeps_of {σ s : State} {e : Nat × Nat × Nat × Nat} {t : State} {aa} (hσ : Keeps σ s) (heq : State.judgeSet s e = (aa, t)) : Keeps σ t := by
  have : Keeps σ (State.judgeSet s e).2 := State.judgeSet_keeps hσ
  rw [heq] at this; exact this

theorem runSets_keeps {σ : State} {l} {s : State} (hσ : Keeps σ s) : Keeps σ (runSets l s) := by
  induction l generalizing s with
  | nil => exact State.modWin_keeps hσ
  | cons e t ih =>
    unfold runSets
    dsimp only
    split
    · exact ih (State.judgeSet_keeps hσ)
    · exact State.modWin_keeps (State.judgeSet_keeps hσ)

theorem State.queueSet_keeps {σ s : State} {e : Nat × Nat × Nat × Nat} (hσ : Keeps σ s) : Keeps σ (State.queueSet s e) := by
  unfold State.queueSet
  repeat' (first
    | with_reducible assumption
    | with_reducible refine State.modWin_keeps ?_
    | with_reducible refine runSets_keeps ?_
    | with_reducible refine Keeps.ite ?_ ?_
    | split)

theorem State.setsDone_keeps {σ s : State} (hσ : Keeps σ s) : Keeps σ (State.setsDone s) := by
  unfold State.setsDone
  repeat' (first
    | with_reducible assumption
    | with_reducible refine State.complete_keeps ?_
    | with_reducible refine runSets_keeps ?_
    | with_reducible refine Keeps.ite ?_ ?_
    | split)

theorem State.poolResult_keeps {σ s : State} {owner code handle : Nat} (hσ : Keeps σ s) : Keeps σ (State.poolResult s owner code handle) := by
  unfold State.poolResult
  repeat' (first
    | with_reducible assumption
    | with_reducible refine State.modPool_keeps ?_
    | with_reducible refine Keeps.ite ?_ ?_
    | split)

theorem State.poolReject_keeps {σ s : State} {owner code h : Nat} (hσ : Keeps σ s) : Keeps σ (State.poolReject s owner code h) := by
  unfold State.poolReject
  repeat' (first
    | with_reducible assumption
    | with_reducible refine State.fault_keeps ?_
    | with_reducible refine State.modPool_keeps ?_
    | with_reducible refine State.poolResult_keeps ?_
    | with_reducible refine Keeps.ite ?_ ?_
    | (extract_lets -underBinder +onlyGivenNames z
       first | (refine (fun hz : Keeps σ z => ?_) ?_; on_goal 1 => clear_value z
                on_goal 2 => (unfold z; clear z))
             | clear_value z)
    | split)

theorem State.getValue_keeps {σ s : State} {st sel cur dflt : Nat} (hσ : Keeps σ s) : Keeps σ (State.getValue s st sel cur dflt) := by
  unfold State.getValue
  repeat' (first
    | with_reducible assumption
    | with_reducible refine State.complete_keeps ?_
    | with_reducible refine Keeps.ite ?_ ?_
    | split)

theorem State.scrubAll_keeps {σ s : State} (hσ : Keeps σ s) : Keeps σ (State.scrubAll s) := by
  unfold State.scrubAll
  repeat' (first
    | with_reducible assumption
    | with_reducible refine State.modFlash_keeps ?_
    | with_reducible refine Keeps.ite ?_ ?_
    | split)

theorem State.ageUnpowered_keeps {σ s : State} {t : Nat} (hσ : Keeps σ s) : Keeps σ (State.ageUnpowered s t) := by
  unfold State.ageUnpowered
  repeat' (first
    | with_reducible assumption
    | with_reducible refine State.modFlash_keeps ?_
    | with_reducible refine Keeps.ite ?_ ?_
    | (extract_lets -underBinder +onlyGivenNames z
       first | (refine (fun hz : Keeps σ z => ?_) ?_; on_goal 1 => clear_value z
                on_goal 2 => (unfold z; clear z))
             | (refine (fun hz : Keeps σ z.2 => ?_) ?_; on_goal 1 => clear_value z
                on_goal 2 => (unfold z; clear z))
             | (refine (fun hz : Keeps σ z.1 => ?_) ?_; on_goal 1 => clear_value z
                on_goal 2 => (unfold z; clear z))
             | clear_value z)
    | split)

theorem State.setSpindle_keeps {σ s : State} {st action : Nat} (hσ : Keeps σ s) : NextKeeps σ (State.setSpindle s st action) := by
  unfold State.setSpindle
  repeat' (first
    | with_reducible assumption
    | with_reducible refine NextKeeps.next ?_
    | with_reducible refine State.complete_keeps ?_
    | with_reducible refine State.demandSpin_keeps ?_
    | with_reducible refine State.modRack_keeps ?_
    | with_reducible refine State.onSet_keeps ?_ ?_
    | with_reducible refine State.spinDown_keeps ?_
    | with_reducible refine Keeps.ite ?_ ?_
    | (extract_lets -underBinder +onlyGivenNames z
       first | (refine (fun hz : Keeps σ z => ?_) ?_; on_goal 1 => clear_value z
                on_goal 2 => (unfold z; clear z))
             | clear_value z)
    | split
    | intro _)

theorem State.setHints_keeps {σ s : State} {l : List Hint} (hσ : Keeps σ s) : Keeps σ (State.setHints s l) := by
  unfold State.setHints
  repeat' (first | with_reducible assumption | with_reducible refine State.journal_keeps ?_ | with_reducible refine State.modPlace_keeps ?_)

theorem State.hintsSet_keeps {σ s : State} {st op : Nat} {data : List Byte} (hσ : Keeps σ s) : NextKeeps σ (State.hintsSet s st op data) := by
  unfold State.hintsSet
  repeat' (first
    | with_reducible assumption
    | with_reducible refine NextKeeps.next ?_
    | with_reducible refine State.complete_keeps ?_
    | with_reducible refine State.onSet_keeps ?_ ?_
    | with_reducible refine State.setHints_keeps ?_
    | with_reducible refine Keeps.ite ?_ ?_
    | (extract_lets -underBinder +onlyGivenNames z
       first | (refine (fun hz : Keeps σ z => ?_) ?_; on_goal 1 => clear_value z
                on_goal 2 => (unfold z; clear z))
             | (refine (fun hz : Keeps σ z.2 => ?_) ?_; on_goal 1 => clear_value z
                on_goal 2 => (unfold z; clear z))
             | (refine (fun hz : Keeps σ z.1 => ?_) ?_; on_goal 1 => clear_value z
                on_goal 2 => (unfold z; clear z))
             | clear_value z)
    | split
    | intro _)

theorem State.setForce_keeps {σ s : State} {id : Nat} {v : Bool} (hσ : Keeps σ s) : Keeps σ (State.setForce s id v) := by
  unfold State.setForce
  repeat' (first
    | with_reducible assumption
    | with_reducible refine State.fault_keeps ?_
    | with_reducible refine State.modSrc_keeps ?_
    | with_reducible refine Keeps.ite ?_ ?_
    | (extract_lets -underBinder +onlyGivenNames z
       first | (refine (fun hz : Keeps σ z => ?_) ?_; on_goal 1 => clear_value z
                on_goal 2 => (unfold z; clear z))
             | clear_value z)
    | split)

theorem State.clearOrder_keeps {σ s : State} {c : Ctx} {upto : Option (BitVec 32)} (hσ : Keeps σ s) : Keeps σ (State.clearOrder s c upto) := by
  unfold State.clearOrder
  repeat' (first
    | with_reducible assumption
    | with_reducible refine State.clearRecords_keeps ?_
    | with_reducible refine State.clearRecords_keeps_of ?_ (by with_reducible assumption)
    | with_reducible refine State.complete_keeps ?_
    | with_reducible refine State.modCtx_keeps ?_
    | with_reducible refine State.modEvt_keeps ?_ ?_
    | with_reducible exact fun _ => ⟨rfl, rfl⟩
    | with_reducible exact fun _ => rfl
    | (intro x; try dsimp only; repeat' split) <;> with_reducible first | rfl | exact ⟨rfl, rfl⟩
    | with_reducible refine Keeps.ite ?_ ?_
    | (extract_lets -underBinder +onlyGivenNames z
       first | (refine (fun hz : Keeps σ z => ?_) ?_; on_goal 1 => clear_value z
                on_goal 2 => (unfold z; clear z))
             | (refine (fun hz : Keeps σ z.2 => ?_) ?_; on_goal 1 => clear_value z
                on_goal 2 => (unfold z; clear z))
             | (refine (fun hz : Keeps σ z.1 => ?_) ?_; on_goal 1 => clear_value z
                on_goal 2 => (unfold z; clear z))
             | clear_value z)
    | split
    | intro _)

theorem State.noteImage_keeps {σ s : State} {img : Image} (hσ : Keeps σ s) : Keeps σ (State.noteImage s img) := by
  have h : Keeps σ (img.events.foldl (fun s e => s.note e.1 0 0 [e.2.1, e.2.2]) s) := Keeps.foldl hσ fun s a h => State.note_keeps h
  unfold State.noteImage
  exact Keeps.ite (State.note_keeps h) h

theorem State.nvmPut_keeps {σ s : State} {a : Nat} {bs : List Byte} (hσ : Keeps σ s) : Keeps σ (State.nvmPut s a bs) := by
  unfold State.nvmPut
  exact State.modOspi_nvm hσ fun h => mfill_wf (mclear_wf h)

theorem State.programCrc_keeps {σ s : State} {b : Bool} {v : Nat} (hσ : Keeps σ s) : Keeps σ (State.programCrc s b v) := by
  unfold State.programCrc
  exact State.modOspi_nvm hσ fun h => mwriteN_wf h

theorem State.completeTwin_keeps {σ s : State} {b : Bool} (hσ : Keeps σ s) : Keeps σ (State.completeTwin s b) := by
  unfold State.completeTwin
  repeat' (first | with_reducible assumption | with_reducible refine State.programCrc_keeps ?_)

theorem State.cancelTwin_keeps {σ s : State} {b : Bool} (hσ : Keeps σ s) : Keeps σ (State.cancelTwin s b) := by
  unfold State.cancelTwin
  repeat' (first | with_reducible assumption | with_reducible refine State.programCrc_keeps ?_)

theorem State.prepareTwin_keeps {σ s : State} {b : Bool} {seq : Nat} {set : Tab (FwComp × Nat)} {boot : List Byte} (hσ : Keeps σ s) : Keeps σ (State.prepareTwin s b seq set boot) := by
  unfold State.prepareTwin
  exact State.modOspi_nvm (State.modOspi_nvm (State.modOspi_nvm hσ fun h => mclear_wf h) fun h => mfill_wf h) fun h => mfill_wf (mfill_wf h)

theorem State.writeSlotSet_keeps {σ s : State} {slot : Nat} {images : Tab (List Byte)} (hσ : Keeps σ s) : Keeps σ (State.writeSlotSet s slot images) := by
  unfold State.writeSlotSet
  repeat' (first
    | with_reducible assumption
    | with_reducible refine Keeps.foldl ?_ ?_
    | with_reducible refine State.nvmPut_keeps ?_
    | with_reducible refine Keeps.ite ?_ ?_
    | split
    | intro _)

theorem State.doCommit_keeps {σ s : State} {st ca slot : Nat} {set : Tab FwComp} {images : Tab (List Byte)} (hσ : Keeps σ s) : Keeps σ (State.doCommit s st ca slot set images) := by
  unfold State.doCommit
  repeat' (first
    | with_reducible assumption
    | with_reducible refine State.nvmPut_keeps ?_
    | with_reducible refine State.complete_keeps ?_
    | with_reducible refine State.modCtx_keeps ?_
    | with_reducible refine State.modFw_keeps ?_ ?_
    | with_reducible refine State.prepareTwin_keeps ?_
    | with_reducible refine State.trigger_keeps ?_
    | with_reducible refine State.writeSlotSet_keeps ?_
    | with_reducible exact fun _ => ⟨rfl, rfl⟩
    | with_reducible exact fun _ => rfl
    | (intro x; try dsimp only; repeat' split) <;> with_reducible first | rfl | exact ⟨rfl, rfl⟩
    | with_reducible refine Keeps.ite ?_ ?_
    | (extract_lets -underBinder +onlyGivenNames z
       first | (refine (fun hz : Keeps σ z => ?_) ?_; on_goal 1 => clear_value z
                on_goal 2 => (unfold z; clear z))
             | (refine (fun hz : Keeps σ z.2 => ?_) ?_; on_goal 1 => clear_value z
                on_goal 2 => (unfold z; clear z))
             | (refine (fun hz : Keeps σ z.1 => ?_) ?_; on_goal 1 => clear_value z
                on_goal 2 => (unfold z; clear z))
             | clear_value z)
    | split
    | intro _)

theorem State.commit_keeps {σ s : State} {st ca : Nat} {bad : List Nat} {fails : Bool} (hσ : Keeps σ s) : NextKeeps σ (State.commit s st ca bad fails) := by
  unfold State.commit
  repeat' (first
    | with_reducible assumption
    | with_reducible refine NextKeeps.next ?_
    | with_reducible refine Keeps.foldl ?_ ?_
    | with_reducible refine Keeps.foldlP ?_ ?_
    | with_reducible refine Keeps.foldlQ ?_ ?_
    | with_reducible refine State.complete_keeps ?_
    | with_reducible refine State.doCommit_keeps ?_
    | with_reducible refine State.onAdmin_keeps ?_ ?_
    | with_reducible refine Keeps.ite ?_ ?_
    | (extract_lets -underBinder +onlyGivenNames z
       first | (refine (fun hz : Keeps σ z => ?_) ?_; on_goal 1 => clear_value z
                on_goal 2 => (unfold z; clear z))
             | (refine (fun hz : Keeps σ z.2 => ?_) ?_; on_goal 1 => clear_value z
                on_goal 2 => (unfold z; clear z))
             | (refine (fun hz : Keeps σ z.1 => ?_) ?_; on_goal 1 => clear_value z
                on_goal 2 => (unfold z; clear z))
             | clear_value z)
    | split
    | intro _)

theorem State.cancelScheduled_keeps {σ s : State} (hσ : Keeps σ s) : Keeps σ (State.cancelScheduled s) := by
  unfold State.cancelScheduled
  repeat' (first
    | with_reducible assumption
    | with_reducible refine State.cancelTwin_keeps ?_
    | with_reducible refine State.modFw_keeps ?_ ?_
    | with_reducible refine State.trigger_keeps ?_
    | with_reducible exact fun _ => ⟨rfl, rfl⟩
    | with_reducible exact fun _ => rfl
    | (intro x; try dsimp only; repeat' split) <;> with_reducible first | rfl | exact ⟨rfl, rfl⟩
    | with_reducible refine Keeps.ite ?_ ?_
    | split
    | intro _)

theorem replanRounds_bound (c : Nat) (t : Int) (l : List (List (List Int))) (off : Nat) :
    off ≤ (replanRounds c t off l).1 ∧ (off ≤ 50 → off % 5 = 0 → (replanRounds c t off l).1 ≤ 50 ∧ (replanRounds c t off l).1 % 5 = 0) := by
  induction l generalizing off with
  | nil => exact ⟨le_refl _, fun h1 h2 => ⟨h1, h2⟩⟩
  | cons r rest ih =>
    unfold replanRounds
    dsimp only
    split
    · exact ⟨le_refl _, fun h1 h2 => ⟨h1, h2⟩⟩
    · split
      · exact ⟨le_refl _, fun h1 h2 => ⟨h1, h2⟩⟩
      · next h =>
        have := ih (off + 5)
        simp only [Bool.or_eq_true, decide_eq_true_eq, not_or, not_le] at h
        refine ⟨by omega, fun h1 h2 => this.2 (by omega) (by omega)⟩
theorem State.replan_keeps {σ s : State} {rounds : List (List (List Int))} (hσ : Keeps σ s) : Keeps σ (State.replan s rounds) := by
  unfold State.replan
  split
  · exact hσ
  · extract_lets target ceil0
    have hb := replanRounds_bound ceil0 target rounds (max s.pwr.ageOffset s.evt.mirror.ageOffset)
    split
    next off cpm low met hr =>
    rw [hr] at hb
    extract_lets ceil changed s1 s2 s3
    have hc : ceil0 ≤ ceil := by
      unfold ceil
      split
      · next h => simp only [Bool.and_eq_true, decide_eq_true_eq] at h; omega
      · exact le_refl _
    have h2 : Keeps σ (s1.modEvt fun e => { e with mirror := { e.mirror with ageOffset := off, ceiling := ceil } }) := by
      refine hσ.trans ⟨rfl, List.prefix_refl _, le_refl _, le_refl _, id, id, ?_, ?_, fun i => ?_⟩
      · exact le_trans (le_max_right _ _) hb.1
      · exact le_trans (le_max_right _ _) hc
      · have h50 : max s.pwr.ageOffset s.evt.mirror.ageOffset ≤ 50 := max_le i.1.1 i.2.1
        have h5 : max s.pwr.ageOffset s.evt.mirror.ageOffset % 5 = 0 := by
          rcases max_choice s.pwr.ageOffset s.evt.mirror.ageOffset with h | h <;> rw [h]
          · exact i.1.2.1
          · exact i.2.2.1
        have hc1 : ceil ≤ 1 := by
          have : ceil0 ≤ 1 := max_le i.1.2.2 i.2.2.2
          unfold ceil; split <;> omega
        have := hb.2 h50 h5
        exact ⟨⟨this.1, this.2, hc1⟩, this.1, this.2, hc1⟩
    have h3 : Keeps σ s3 := by
      unfold s3
      exact Keeps.ite (State.note_keeps (State.retuneOp_keeps h2)) (State.retuneOp_keeps h2)
    exact Keeps.ite (State.healthWarn_keeps h3) h3

theorem State.epochHealth_keeps {σ s : State} (hσ : Keeps σ s) : Keeps σ (State.epochHealth s) := by
  unfold State.epochHealth
  repeat' (first
    | with_reducible assumption
    | with_reducible refine Keeps.foldl ?_ ?_
    | with_reducible refine State.healthWarn_keeps ?_
    | with_reducible refine Keeps.ite ?_ ?_
    | (extract_lets -underBinder +onlyGivenNames z
       first | (refine (fun hz : Keeps σ z => ?_) ?_; on_goal 1 => clear_value z
                on_goal 2 => (unfold z; clear z))
             | (refine (fun hz : Keeps σ z.1 => ?_) ?_; on_goal 1 => clear_value z
                on_goal 2 => (unfold z; clear z))
             | clear_value z)
    | split
    | intro _)

theorem State.modSeq_keeps {σ s : State} {n : Nat} {f : SeqSt → SeqSt} (hσ : Keeps σ s) : Keeps σ (State.modSeq s n f) := by
  unfold State.modSeq
  repeat' (first | with_reducible assumption | with_reducible refine State.modSeqs_keeps ?_)

theorem State.machineCheck_keeps {σ s : State} {n maddr kind group : Nat} (hσ : Keeps σ s) : Keeps σ (State.machineCheck s n maddr kind group) := by
  unfold State.machineCheck
  repeat' (first
    | with_reducible assumption
    | with_reducible refine State.fault_keeps ?_
    | with_reducible refine State.modSeq_keeps ?_
    | with_reducible refine Keeps.ite ?_ ?_
    | (extract_lets -underBinder +onlyGivenNames z
       first | (refine (fun hz : Keeps σ z => ?_) ?_; on_goal 1 => clear_value z
                on_goal 2 => (unfold z; clear z))
             | (refine (fun hz : Keeps σ z.2 => ?_) ?_; on_goal 1 => clear_value z
                on_goal 2 => (unfold z; clear z))
             | clear_value z)
    | split)

theorem State.takeModules_keeps {σ s : State} {base : McuModule} {patches : List McuModule} {custom : Option McuModule} (hσ : Keeps σ s) : Keeps σ (State.takeModules s base patches custom) := by
  unfold State.takeModules
  repeat' (first
    | with_reducible assumption
    | with_reducible refine Keeps.foldl ?_ ?_
    | with_reducible refine State.modSeqs_keeps ?_
    | with_reducible refine State.note_keeps ?_
    | with_reducible refine Keeps.ite ?_ ?_
    | (extract_lets -underBinder +onlyGivenNames z
       first | (refine (fun hz : Keeps σ z => ?_) ?_; on_goal 1 => clear_value z
                on_goal 2 => (unfold z; clear z))
             | clear_value z)
    | split
    | intro _)

theorem State.takeOverrides_keeps {σ s : State} (hσ : Keeps σ s) : Keeps σ (State.takeOverrides s) := by
  unfold State.takeOverrides
  repeat' (first
    | with_reducible assumption
    | with_reducible refine Keeps.optMap ?_ ?_
    | with_reducible refine Keeps.optGet ?_ ?_
    | with_reducible refine Keeps.optElim ?_ ?_
    | with_reducible refine Keeps.foldl ?_ ?_
    | with_reducible refine Keeps.foldlP ?_ ?_
    | with_reducible refine Keeps.foldlQ ?_ ?_
    | with_reducible refine State.modSeqs_keeps ?_
    | with_reducible refine State.note_keeps ?_
    | with_reducible refine Keeps.ite ?_ ?_
    | (extract_lets -underBinder +onlyGivenNames z
       first | (refine (fun hz : Keeps σ z => ?_) ?_; on_goal 1 => clear_value z
                on_goal 2 => (unfold z; clear z))
             | (refine (fun hz : Keeps σ z.2 => ?_) ?_; on_goal 1 => clear_value z
                on_goal 2 => (unfold z; clear z))
             | (refine (fun hz : Keeps σ z.1 => ?_) ?_; on_goal 1 => clear_value z
                on_goal 2 => (unfold z; clear z))
             | clear_value z)
    | split
    | intro _)

theorem State.loadSeqs_keeps {σ s : State} {which failed : List Nat} (hσ : Keeps σ s) : Keeps σ (State.loadSeqs s which failed) := by
  unfold State.loadSeqs
  repeat' (first
    | with_reducible assumption
    | with_reducible refine Keeps.foldl ?_ ?_
    | with_reducible refine State.machineCheck_keeps ?_
    | with_reducible refine State.modSeqs_keeps ?_
    | (extract_lets -underBinder +onlyGivenNames z
       first | (refine (fun hz : Keeps σ z => ?_) ?_; on_goal 1 => clear_value z
                on_goal 2 => (unfold z; clear z))
             | clear_value z)
    | intro _)

theorem State.takeTrap_keeps {σ s : State} {n i : Nat} {cause : Cause} {saved code : Nat} (hσ : Keeps σ s) : Keeps σ (State.takeTrap s n i cause saved code) := by
  unfold State.takeTrap
  repeat' (first
    | with_reducible assumption
    | with_reducible refine State.modSeq_keeps ?_
    | with_reducible refine Keeps.ite ?_ ?_
    | (extract_lets -underBinder +onlyGivenNames z
       first | (refine (fun hz : Keeps σ z => ?_) ?_; on_goal 1 => clear_value z
                on_goal 2 => (unfold z; clear z))
             | clear_value z)
    | split)

theorem State.countTrapped_keeps {σ s : State} {op : Nat} (hσ : Keeps σ s) : Keeps σ (State.countTrapped s op) := by
  unfold State.countTrapped
  repeat' (first
    | with_reducible assumption
    | with_reducible refine State.modSeqs_keeps ?_
    | with_reducible refine State.note_keeps ?_
    | with_reducible refine Keeps.ite ?_ ?_
    | (extract_lets -underBinder +onlyGivenNames z
       first | (refine (fun hz : Keeps σ z => ?_) ?_; on_goal 1 => clear_value z
                on_goal 2 => (unfold z; clear z))
             | (refine (fun hz : Keeps σ z.2 => ?_) ?_; on_goal 1 => clear_value z
                on_goal 2 => (unfold z; clear z))
             | (refine (fun hz : Keeps σ z.1 => ?_) ?_; on_goal 1 => clear_value z
                on_goal 2 => (unfold z; clear z))
             | clear_value z)
    | split)

theorem State.endOp_keeps {σ s : State} {n i : Nat} {r : Result} (hσ : Keeps σ s) : Keeps σ (State.endOp s n i r) := by
  unfold State.endOp
  repeat' (first
    | with_reducible assumption
    | with_reducible refine State.countTrapped_keeps ?_
    | with_reducible refine State.modSeq_keeps ?_
    | with_reducible refine Keeps.ite ?_ ?_
    | (extract_lets -underBinder +onlyGivenNames z
       first | (refine (fun hz : Keeps σ z => ?_) ?_; on_goal 1 => clear_value z
                on_goal 2 => (unfold z; clear z))
             | (refine (fun hz : Keeps σ z.2 => ?_) ?_; on_goal 1 => clear_value z
                on_goal 2 => (unfold z; clear z))
             | clear_value z)
    | split)

theorem State.trapResume_keeps {σ s : State} {n : Nat} {f : Frame} (hσ : Keeps σ s) : Keeps σ (State.trapResume s n f) := by
  unfold State.trapResume
  repeat' (first | with_reducible assumption | with_reducible refine State.modSeq_keeps ?_)

theorem State.trapRestart_keeps {σ s : State} {n : Nat} {f : Frame} (hσ : Keeps σ s) : Keeps σ (State.trapRestart s n f) := by
  unfold State.trapRestart
  repeat' (first
    | with_reducible assumption
    | with_reducible refine State.modSeq_keeps ?_
    | (extract_lets -underBinder +onlyGivenNames z
       first | (refine (fun hz : Keeps σ z => ?_) ?_; on_goal 1 => clear_value z
                on_goal 2 => (unfold z; clear z))
             | clear_value z))

theorem State.vendorHandler_keeps {σ s : State} {n : Nat} {f : Frame} (hσ : Keeps σ s) : Keeps σ (State.vendorHandler s n f) := by
  unfold State.vendorHandler
  repeat' (first
    | with_reducible assumption
    | with_reducible refine State.endOp_keeps ?_
    | with_reducible refine State.modFlashIf_keeps ?_
    | with_reducible refine State.trapRestart_keeps ?_
    | with_reducible refine State.trapResume_keeps ?_
    | with_reducible refine Keeps.ite ?_ ?_
    | (extract_lets -underBinder +onlyGivenNames z
       first | (refine (fun hz : Keeps σ z => ?_) ?_; on_goal 1 => clear_value z
                on_goal 2 => (unfold z; clear z))
             | clear_value z)
    | split)

theorem State.seqPowerFail_keeps {σ s : State} (hσ : Keeps σ s) : Keeps σ (State.seqPowerFail s) := by
  unfold State.seqPowerFail
  repeat' (first
    | with_reducible assumption
    | with_reducible refine State.modSeqs_keeps ?_
    | with_reducible refine Keeps.ite ?_ ?_
    | split)

theorem State.sequence_keeps {σ s : State} {n i : Nat} {w : BitVec 96} (hσ : Keeps σ s) : Keeps σ (State.sequence s n i w) := by
  unfold State.sequence
  repeat' (first
    | with_reducible assumption
    | with_reducible exact hz _
    | with_reducible exact hz _ _
    | with_reducible refine hz _ ?_
    | with_reducible refine hz _ _ ?_
    | with_reducible refine State.endOp_keeps ?_
    | with_reducible refine State.modSeq_keeps ?_
    | with_reducible refine State.takeTrap_keeps ?_
    | with_reducible refine Keeps.ite ?_ ?_
    | (extract_lets -underBinder +onlyGivenNames z
       first | (refine (fun hz : Keeps σ z => ?_) ?_; on_goal 1 => clear_value z
                on_goal 2 => (unfold z; clear z))
             | (refine (fun hz : ∀ x, Keeps σ x → Keeps σ (z x) => ?_) ?_; on_goal 1 => clear_value z
                on_goal 2 => (unfold z; clear z))
             | (refine (fun hz : ∀ x y, Keeps σ x → Keeps σ (z x y) => ?_) ?_; on_goal 1 => clear_value z
                on_goal 2 => (unfold z; clear z))
             | (refine (fun hz : ∀ y, Keeps σ (z y) => ?_) ?_; on_goal 1 => clear_value z
                on_goal 2 => (unfold z; clear z))
             | (refine (fun hz : ∀ y w, Keeps σ (z y w) => ?_) ?_; on_goal 1 => clear_value z
                on_goal 2 => (unfold z; clear z))
             | clear_value z)
    | split
    | intro _)

theorem State.runWord_keeps {σ s : State} {n i : Nat} {w : BitVec 96} {x : BusIn} (hσ : Keeps σ s) : Keeps σ (State.runWord s n i w x) := by
  unfold State.runWord
  extract_lets q c0 tmr a c put moves s1 s2 s3
  have hp : ∀ s c, Keeps σ s → Keeps σ (put s c) := fun s c h => State.modSeq_keeps h
  have h1 : Keeps σ s1 := hp _ _ hσ
  have h2 : Keeps σ s2 := by unfold s2; split; exact h1; exact State.send_keeps h1
  have h3 : Keeps σ s3 := by unfold s3; split; exact State.modFlashIf_keeps h2; exact h2
  split
  · exact State.takeTrap_keeps (hp _ _ hσ)
  · split
    · exact State.takeTrap_keeps (hp _ _ hσ)
    · exact State.sequence_keeps h3

theorem State.takeData_keeps {σ s : State} {c : Ctx} {data : List Crumb} (hσ : Keeps σ s) : Keeps σ (State.takeData s c data) := by
  unfold State.takeData
  repeat' (first
    | with_reducible assumption
    | with_reducible refine Keeps.foldl ?_ ?_
    | with_reducible refine State.modCtx_keeps ?_
    | (extract_lets -underBinder +onlyGivenNames z
       first | (refine (fun hz : Keeps σ z => ?_) ?_; on_goal 1 => clear_value z
                on_goal 2 => (unfold z; clear z))
             | (refine (fun hz : Keeps σ z.2 => ?_) ?_; on_goal 1 => clear_value z
                on_goal 2 => (unfold z; clear z))
             | (refine (fun hz : Keeps σ z.1 => ?_) ?_; on_goal 1 => clear_value z
                on_goal 2 => (unfold z; clear z))
             | clear_value z)
    | intro _)

theorem State.countRead_keeps {σ s : State} {c : Ctx} (hσ : Keeps σ s) : Keeps σ (State.countRead s c) := by
  unfold State.countRead
  repeat' (first | with_reducible assumption | with_reducible refine State.modNvme_keeps ?_)

theorem State.dropCopies_keeps {σ s : State} {nsid lcn : Nat} (hσ : Keeps σ s) : Keeps σ (State.dropCopies s nsid lcn) := by
  unfold State.dropCopies
  repeat' (first
    | with_reducible assumption
    | with_reducible refine Keeps.optMap ?_ ?_
    | with_reducible refine Keeps.optGet ?_ ?_
    | with_reducible refine Keeps.optElim ?_ ?_
    | with_reducible refine Keeps.foldl ?_ ?_
    | with_reducible refine Keeps.foldlP ?_ ?_
    | with_reducible refine Keeps.foldlQ ?_ ?_
    | with_reducible refine State.modPlace_keeps ?_
    | with_reducible refine State.unreserve_keeps ?_
    | with_reducible refine Keeps.ite ?_ ?_
    | (extract_lets -underBinder +onlyGivenNames z
       first | (refine (fun hz : Keeps σ z => ?_) ?_; on_goal 1 => clear_value z
                on_goal 2 => (unfold z; clear z))
             | (refine (fun hz : Keeps σ z.2 => ?_) ?_; on_goal 1 => clear_value z
                on_goal 2 => (unfold z; clear z))
             | (refine (fun hz : Keeps σ z.1 => ?_) ?_; on_goal 1 => clear_value z
                on_goal 2 => (unfold z; clear z))
             | clear_value z)
    | split
    | intro _)

theorem State.wholeState_keeps {σ s : State} {nsid lcn : Nat} {st : ChunkState} (hσ : Keeps σ s) : Keeps σ (State.wholeState s nsid lcn st) := by
  unfold State.wholeState
  repeat' (first
    | with_reducible assumption
    | with_reducible refine State.putDesc_keeps ?_
    | with_reducible refine State.subReturn_keeps ?_
    | with_reducible refine Keeps.ite ?_ ?_
    | (extract_lets -underBinder +onlyGivenNames z
       first | (refine (fun hz : Keeps σ z => ?_) ?_; on_goal 1 => clear_value z
                on_goal 2 => (unfold z; clear z))
             | clear_value z)
    | split)

theorem State.partState_keeps {σ s : State} {nsid lcn m : Nat} {v : UState} {t : State} (hσ : Keeps σ s) (e : State.partState s nsid lcn m v = some t) : Keeps σ t := by
  unfold State.partState at e
  extract_lets d at e
  split at e
  · split at e
    · cases e; exact State.setUnits_keeps hσ
    · obtain ⟨g, h, h'⟩ := Option.map_eq_some_iff.1 e
      cases h'; exact State.setUnits_keeps (State.subGrant_keeps (a0 := g.1) (t := g.2) hσ h)
  · obtain ⟨g, h, h'⟩ := Option.map_eq_some_iff.1 e
    cases h'; exact State.setUnits_keeps (State.subGrant_keeps (a0 := g.1) (t := g.2) hσ h)
  · cases e; exact hσ

theorem State.zeroChunk_keeps {σ s : State} {st : Nat} {e : ChunkEnt} (hσ : Keeps σ s) : Keeps σ (State.zeroChunk s st e) := by
  unfold State.zeroChunk
  repeat' (first
    | with_reducible assumption
    | with_reducible exact hz _
    | with_reducible exact hz _ _
    | with_reducible refine hz _ ?_
    | with_reducible refine hz _ _ ?_
    | with_reducible refine State.dropCopies_keeps ?_
    | with_reducible refine State.journal_keeps ?_
    | with_reducible refine State.modEnt_keeps ?_
    | with_reducible refine State.partState_keeps ?_ (by with_reducible assumption)
    | with_reducible refine State.unclean_keeps ?_
    | with_reducible refine State.wholeState_keeps ?_
    | with_reducible refine Keeps.ite ?_ ?_
    | (extract_lets -underBinder +onlyGivenNames z
       first | (refine (fun hz : Keeps σ z => ?_) ?_; on_goal 1 => clear_value z
                on_goal 2 => (unfold z; clear z))
             | (refine (fun hz : ∀ x, Keeps σ x → Keeps σ (z x) => ?_) ?_; on_goal 1 => clear_value z
                on_goal 2 => (unfold z; clear z))
             | (refine (fun hz : ∀ x y, Keeps σ x → Keeps σ (z x y) => ?_) ?_; on_goal 1 => clear_value z
                on_goal 2 => (unfold z; clear z))
             | (refine (fun hz : ∀ y, Keeps σ (z y) => ?_) ?_; on_goal 1 => clear_value z
                on_goal 2 => (unfold z; clear z))
             | (refine (fun hz : ∀ y w, Keeps σ (z y w) => ?_) ?_; on_goal 1 => clear_value z
                on_goal 2 => (unfold z; clear z))
             | clear_value z)
    | split
    | intro _)

theorem State.deallocChunk_keeps {σ s : State} {nsid lcn : Nat} {blks : BitVec 256} (hσ : Keeps σ s) : Keeps σ (State.deallocChunk s nsid lcn blks) := by
  unfold State.deallocChunk
  repeat' (first
    | with_reducible assumption
    | with_reducible refine State.dropCopies_keeps ?_
    | with_reducible refine State.journal_keeps ?_
    | with_reducible refine State.partState_keeps ?_ (by with_reducible assumption)
    | with_reducible refine State.unclean_keeps ?_
    | with_reducible refine State.wholeState_keeps ?_
    | with_reducible refine Keeps.ite ?_ ?_
    | (extract_lets -underBinder +onlyGivenNames z
       first | (refine (fun hz : Keeps σ z => ?_) ?_; on_goal 1 => clear_value z
                on_goal 2 => (unfold z; clear z))
             | clear_value z)
    | split)

end Sys2Proof.Machine
end

