-- ==== Sys2Proof/Laws/KeepsStart.lean ====
section
/-!
SUPPORT. One lemma per operation about `Keeps` (Safety): that the shared operations of the start, of fetch, of ingest and of faults undo nothing.
-/
namespace Sys2Proof.Machine
open Sys2Proof

set_option linter.unusedTactic false
set_option linter.unreachableTactic false

theorem State.atBoot_keeps {σ s : State} (hσ : Keeps σ s) : Keeps σ (State.atBoot s) :=
  hσ.trans ⟨rfl, List.prefix_refl _, le_refl _, le_refl _, id, id, le_refl _, le_refl _, fun i => ⟨⟨Nat.zero_le _, rfl, Nat.zero_le _⟩, i.2⟩⟩

theorem State.featureDefaults_keeps {σ s : State} (hσ : Keeps σ s) : Keeps σ (State.featureDefaults s) := by
  unfold State.featureDefaults
  repeat' (first
    | with_reducible assumption
    | with_reducible refine State.modCfg_keeps ?_
    | with_reducible refine State.modFw_keeps ?_ ?_
    | with_reducible refine State.modNvme_keeps ?_
    | with_reducible refine State.modRack_keeps ?_
    | with_reducible refine State.modWin_keeps ?_
    | with_reducible refine State.resizePush_keeps ?_
    | with_reducible exact fun _ => ⟨rfl, rfl⟩
    | with_reducible exact fun _ => rfl
    | (intro x; try dsimp only; repeat' split) <;> with_reducible first | rfl | exact ⟨rfl, rfl⟩
    | (extract_lets -underBinder +onlyGivenNames z
       first | (refine (fun hz : Keeps σ z => ?_) ?_; on_goal 1 => clear_value z
                on_goal 2 => (unfold z; clear z))
             | clear_value z)
    | intro _)

theorem State.recover_keeps {σ s : State} {cause : Nat} (hσ : Keeps σ s) : Keeps σ (State.recover s cause) := by
  unfold State.recover
  repeat' (first
    | with_reducible assumption
    | with_reducible refine State.modFw_keeps ?_ ?_
    | with_reducible refine State.modPcie_keeps ?_
    | with_reducible exact fun _ => ⟨rfl, rfl⟩
    | with_reducible exact fun _ => rfl
    | (intro x; try dsimp only; repeat' split) <;> with_reducible first | rfl | exact ⟨rfl, rfl⟩
    | (extract_lets -underBinder +onlyGivenNames z
       first | (refine (fun hz : Keeps σ z => ?_) ?_; on_goal 1 => clear_value z
                on_goal 2 => (unfold z; clear z))
             | clear_value z)
    | intro _)

theorem State.loadRro_keeps {σ s : State} (hσ : Keeps σ s) : Keeps σ (State.loadRro s) := by
  unfold State.loadRro
  repeat' (first
    | with_reducible assumption
    | with_reducible refine State.modServo_keeps ?_
    | with_reducible refine Keeps.ite ?_ ?_
    | (extract_lets -underBinder +onlyGivenNames z
       first | (refine (fun hz : Keeps σ z => ?_) ?_; on_goal 1 => clear_value z
                on_goal 2 => (unfold z; clear z))
             | clear_value z)
    | split)

theorem State.takeImage_keeps {σ s : State} {img : Image} (hσ : Keeps σ s) : Keeps σ (State.takeImage s img) := by
  unfold State.takeImage
  extract_lets drain s1 prot s2 s3 s4 s5 s6
  have h1 : Keeps σ s1 := State.modCfg_keeps hσ
  have h2 : Keeps σ s2 := State.modOspi_keeps h1 fun _ => rfl
  have h3 : Keeps σ s3 := State.modFlt_keeps h2
  have h4 : Keeps σ s4 := State.vmotUpdate_keeps (State.modRack_keeps h3)
  have h5 : Keeps σ s5 := State.modPwr_mirror h4 ⟨rfl, rfl⟩
  have h6 : Keeps σ s6 := State.modPcie_keeps h5
  exact State.noteImage_keeps (State.loadRro_keeps (State.poolInit_keeps (State.featureDefaults_keeps h6)))

theorem State.bootSet_keeps {σ s : State} {bad : List (Nat × Nat)} {b : Bool} (hσ : Keeps σ s) : Keeps σ (State.bootSet s bad b) := by
  unfold State.bootSet
  repeat' (first
    | with_reducible assumption
    | with_reducible refine State.modFw_keeps ?_ ?_
    | with_reducible refine State.modOspi_keeps ?_ ?_
    | with_reducible refine State.recover_keeps ?_
    | with_reducible refine State.takeImage_keeps ?_
    | with_reducible exact fun _ => ⟨rfl, rfl⟩
    | with_reducible exact fun _ => rfl
    | (intro x; try dsimp only; repeat' split) <;> with_reducible first | rfl | exact ⟨rfl, rfl⟩
    | with_reducible refine Keeps.ite ?_ ?_
    | (extract_lets -underBinder +onlyGivenNames z
       first | (refine (fun hz : Keeps σ z => ?_) ?_; on_goal 1 => clear_value z
                on_goal 2 => (unfold z; clear z))
             | clear_value z)
    | split
    | intro _)

theorem State.bootFrom_keeps {σ s : State} {bad : List (Nat × Nat)} {bs : List Bool} (hσ : Keeps σ s) : Keeps σ (State.bootFrom s bad bs) := by
  unfold State.bootFrom
  repeat' (first
    | with_reducible assumption
    | with_reducible refine State.bootSet_keeps ?_
    | with_reducible refine State.recover_keeps ?_
    | split
    | intro _)

theorem State.checkTwins_keeps {σ s : State} {bad : List (Nat × Nat)} (hσ : Keeps σ s) : Keeps σ (State.checkTwins s bad) := by
  unfold State.checkTwins
  repeat' (first
    | with_reducible assumption
    | with_reducible refine Keeps.foldl ?_ ?_
    | with_reducible refine State.cancelTwin_keeps ?_
    | with_reducible refine State.completeTwin_keeps ?_
    | with_reducible refine Keeps.ite ?_ ?_
    | split
    | intro _)

theorem State.romStart_keeps {σ s : State} {bad : List (Nat × Nat)} {skip : Bool} (hσ : Keeps σ s) : Keeps σ (State.romStart s bad skip) := by
  unfold State.romStart
  repeat' (first
    | with_reducible assumption
    | with_reducible refine State.bootFrom_keeps ?_
    | with_reducible refine State.checkTwins_keeps ?_
    | with_reducible refine State.modFlt_keeps ?_
    | with_reducible refine State.modFw_keeps ?_ ?_
    | with_reducible refine State.recover_keeps ?_
    | with_reducible exact fun _ => ⟨rfl, rfl⟩
    | with_reducible exact fun _ => rfl
    | (intro x; try dsimp only; repeat' split) <;> with_reducible first | rfl | exact ⟨rfl, rfl⟩
    | with_reducible refine Keeps.ite ?_ ?_
    | (extract_lets -underBinder +onlyGivenNames z
       first | (refine (fun hz : Keeps σ z => ?_) ?_; on_goal 1 => clear_value z
                on_goal 2 => (unfold z; clear z))
             | clear_value z)
    | split
    | intro _)

theorem State.takeMasks_keeps {σ s : State} (hσ : Keeps σ s) : Keeps σ (State.takeMasks s) := by
  unfold State.takeMasks
  repeat' (first
    | with_reducible assumption
    | with_reducible refine Keeps.foldl ?_ ?_
    | with_reducible refine State.modSrc_keeps ?_
    | with_reducible refine State.modTherm_keeps ?_
    | with_reducible refine State.note_keeps ?_
    | with_reducible refine State.noteTag_keeps ?_
    | with_reducible refine Keeps.ite ?_ ?_
    | (extract_lets -underBinder +onlyGivenNames z
       first | (refine (fun hz : Keeps σ z => ?_) ?_; on_goal 1 => clear_value z
                on_goal 2 => (unfold z; clear z))
             | clear_value z)
    | split
    | intro _)

theorem State.noteStart_keeps {σ s : State} (hσ : Keeps σ s) : Keeps σ (State.noteStart s) := by
  unfold State.noteStart
  repeat' (first
    | with_reducible assumption
    | with_reducible refine Keeps.foldl ?_ ?_
    | with_reducible refine Keeps.foldlP ?_ ?_
    | with_reducible refine Keeps.foldlQ ?_ ?_
    | with_reducible refine State.fault_keeps ?_
    | with_reducible refine State.modPwr_keeps ?_ ?_
    | with_reducible refine State.modTherm_keeps ?_
    | with_reducible refine State.note_keeps ?_
    | with_reducible exact fun _ => ⟨rfl, rfl⟩
    | with_reducible exact fun _ => rfl
    | (intro x; try dsimp only; repeat' split) <;> with_reducible first | rfl | exact ⟨rfl, rfl⟩
    | with_reducible refine Keeps.ite ?_ ?_
    | (extract_lets -underBinder +onlyGivenNames z
       first | (refine (fun hz : Keeps σ z => ?_) ?_; on_goal 1 => clear_value z
                on_goal 2 => (unfold z; clear z))
             | clear_value z)
    | split
    | intro _)

theorem State.replanAtStart_keeps {σ s : State} {margins : List (List (List Int))} (hσ : Keeps σ s) : Keeps σ (State.replanAtStart s margins) := by
  unfold State.replanAtStart
  repeat' (first
    | with_reducible assumption
    | with_reducible refine State.replan_keeps ?_
    | with_reducible refine Keeps.ite ?_ ?_
    | split)

theorem State.installFails_keeps {σ s : State} {r : Nat} (hσ : Keeps σ s) : Keeps σ (State.installFails s r) := by
  unfold State.installFails
  repeat' (first
    | with_reducible assumption
    | with_reducible refine State.modFw_keeps ?_ ?_
    | with_reducible exact fun _ => ⟨rfl, rfl⟩
    | with_reducible exact fun _ => rfl
    | (intro x; try dsimp only; repeat' split) <;> with_reducible first | rfl | exact ⟨rfl, rfl⟩
    | intro _)

theorem State.loadRoot_keeps {σ s : State} {r : Root} (hσ : Keeps σ s) : Keeps σ (State.loadRoot s r) := by
  unfold State.loadRoot
  repeat' (first
    | with_reducible assumption
    | with_reducible refine State.modCoder_keeps ?_
    | with_reducible refine State.modFlash_keeps ?_
    | with_reducible refine State.modHost_keeps ?_
    | with_reducible refine State.modMap_keeps ?_
    | with_reducible refine State.modNvme_keeps ?_
    | with_reducible refine State.modPlace_keeps ?_
    | with_reducible refine State.modRack_keeps ?_
    | (extract_lets -underBinder +onlyGivenNames z
       first | (refine (fun hz : Keeps σ z => ?_) ?_; on_goal 1 => clear_value z
                on_goal 2 => (unfold z; clear z))
             | clear_value z))

theorem State.applyRec_keeps {σ s : State} {r : HostRec} (hσ : Keeps σ s) : Keeps σ (State.applyRec s r) := by
  unfold State.applyRec
  repeat' (first
    | with_reducible assumption
    | with_reducible refine State.putDesc_keeps ?_
    | with_reducible refine State.subReturn_keeps ?_
    | with_reducible refine Keeps.ite ?_ ?_
    | (extract_lets -underBinder +onlyGivenNames z
       first | (refine (fun hz : Keeps σ z => ?_) ?_; on_goal 1 => clear_value z
                on_goal 2 => (unfold z; clear z))
             | clear_value z)
    | split
    | intro _)

theorem State.applySide_keeps {σ s : State} {nsid : Nat} {r : SideRec} (hσ : Keeps σ s) : Keeps σ (State.applySide s nsid r) := by
  unfold State.applySide
  repeat' (first
    | with_reducible assumption
    | with_reducible refine State.modCoder_keeps ?_
    | with_reducible refine State.modHost_keeps ?_
    | with_reducible refine State.modNvme_keeps ?_
    | with_reducible refine State.modPlace_keeps ?_
    | split)

theorem State.applyUnits_keeps {σ s : State} {nsid lcn m : Nat} {v : UState} (hσ : Keeps σ s) : Keeps σ (State.applyUnits s nsid lcn m v) := by
  unfold State.applyUnits
  repeat' (first
    | with_reducible assumption
    | with_reducible refine Keeps.optMap ?_ ?_
    | with_reducible refine Keeps.optGet ?_ ?_
    | with_reducible refine Keeps.optElim ?_ ?_
    | with_reducible refine State.partState_keeps ?_ (by with_reducible assumption)
    | intro _)

theorem State.applyEntry_keeps {σ s : State} {e : JEntry} (hσ : Keeps σ s) : Keeps σ (State.applyEntry s e) := by
  unfold State.applyEntry
  repeat' (first
    | with_reducible assumption
    | with_reducible refine Keeps.foldl ?_ ?_
    | with_reducible refine State.applySide_keeps ?_
    | with_reducible refine State.applyUnits_keeps ?_
    | with_reducible refine State.dropNs_keeps ?_
    | with_reducible refine State.markUnreadable_keeps ?_
    | with_reducible refine State.markUnreadable_keeps_of ?_ (by with_reducible assumption)
    | with_reducible refine State.modBlock_keeps ?_
    | with_reducible refine State.modRack_keeps ?_
    | with_reducible refine State.modSpan_keeps ?_
    | with_reducible refine State.modStack_keeps ?_
    | with_reducible refine State.putDesc_keeps ?_
    | with_reducible refine State.relocate_keeps ?_
    | with_reducible refine State.relocate_keeps_of ?_ (by with_reducible assumption)
    | with_reducible refine State.wholeState_keeps ?_
    | with_reducible refine Keeps.ite ?_ ?_
    | (extract_lets -underBinder +onlyGivenNames z
       first | (refine (fun hz : Keeps σ z => ?_) ?_; on_goal 1 => clear_value z
                on_goal 2 => (unfold z; clear z))
             | (refine (fun hz : Keeps σ z.2 => ?_) ?_; on_goal 1 => clear_value z
                on_goal 2 => (unfold z; clear z))
             | clear_value z)
    | split
    | intro _)

theorem State.replay_keeps {σ s : State} {h : Nat} {lost : List (Nat × Nat)} (hσ : Keeps σ s) : Keeps σ (State.replay s h lost) := by
  unfold State.replay
  repeat' (first
    | with_reducible assumption
    | with_reducible refine Keeps.foldl ?_ ?_
    | with_reducible refine State.applyEntry_keeps ?_
    | with_reducible refine State.applyRec_keeps ?_
    | with_reducible refine State.journal_keeps ?_
    | (extract_lets -underBinder +onlyGivenNames z
       first | (refine (fun hz : Keeps σ z => ?_) ?_; on_goal 1 => clear_value z
                on_goal 2 => (unfold z; clear z))
             | (refine (fun hz : Keeps σ z.2 => ?_) ?_; on_goal 1 => clear_value z
                on_goal 2 => (unfold z; clear z))
             | (refine (fun hz : Keeps σ z.1 => ?_) ?_; on_goal 1 => clear_value z
                on_goal 2 => (unfold z; clear z))
             | clear_value z)
    | split
    | intro _)

theorem State.closeSpans_keeps {σ s : State} (hσ : Keeps σ s) : Keeps σ (State.closeSpans s) := by
  unfold State.closeSpans
  repeat' (first
    | with_reducible assumption
    | with_reducible refine State.modFlash_keeps ?_
    | with_reducible refine Keeps.ite ?_ ?_
    | (extract_lets -underBinder +onlyGivenNames z
       first | (refine (fun hz : Keeps σ z => ?_) ?_; on_goal 1 => clear_value z
                on_goal 2 => (unfold z; clear z))
             | (refine (fun hz : Keeps σ z.2 => ?_) ?_; on_goal 1 => clear_value z
                on_goal 2 => (unfold z; clear z))
             | (refine (fun hz : Keeps σ z.1 => ?_) ?_; on_goal 1 => clear_value z
                on_goal 2 => (unfold z; clear z))
             | clear_value z)
    | split)

theorem State.closeStacks_keeps {σ s : State} (hσ : Keeps σ s) : Keeps σ (State.closeStacks s) := by
  unfold State.closeStacks
  repeat' (first
    | with_reducible assumption
    | with_reducible refine Keeps.foldl ?_ ?_
    | with_reducible refine Keeps.foldlP ?_ ?_
    | with_reducible refine Keeps.foldlQ ?_ ?_
    | with_reducible refine State.discardStack_keeps ?_
    | with_reducible refine State.modStack_keeps ?_
    | with_reducible refine Keeps.ite ?_ ?_
    | split
    | intro _)

theorem State.reopenSpans_keeps {σ s : State} (hσ : Keeps σ s) : Keeps σ (State.reopenSpans s) := by
  unfold State.reopenSpans
  repeat' (first
    | with_reducible assumption
    | with_reducible refine Keeps.foldl ?_ ?_
    | with_reducible refine Keeps.foldlP ?_ ?_
    | with_reducible refine Keeps.foldlQ ?_ ?_
    | with_reducible refine State.modFlash_keeps ?_
    | with_reducible refine Keeps.ite ?_ ?_
    | split
    | intro _)

theorem State.noteLost_keeps {σ s : State} {r : Root} {lost : List (Nat × Nat)} (hσ : Keeps σ s) : Keeps σ (State.noteLost s r lost) := by
  unfold State.noteLost
  repeat' (first
    | with_reducible assumption
    | with_reducible refine Keeps.foldl ?_ ?_
    | with_reducible refine Keeps.foldlP ?_ ?_
    | with_reducible refine Keeps.foldlQ ?_ ?_
    | with_reducible refine State.enterDeferred_keeps ?_
    | with_reducible refine State.fault_keeps ?_
    | with_reducible refine State.note_keeps ?_
    | with_reducible refine State.warnBit_keeps ?_
    | with_reducible refine Keeps.ite ?_ ?_
    | (extract_lets -underBinder +onlyGivenNames z
       first | (refine (fun hz : Keeps σ z => ?_) ?_; on_goal 1 => clear_value z
                on_goal 2 => (unfold z; clear z))
             | (refine (fun hz : Keeps σ z.2 => ?_) ?_; on_goal 1 => clear_value z
                on_goal 2 => (unfold z; clear z))
             | (refine (fun hz : Keeps σ z.1 => ?_) ?_; on_goal 1 => clear_value z
                on_goal 2 => (unfold z; clear z))
             | clear_value z)
    | split
    | intro _)

theorem State.initialFormats_keeps {σ s : State} (hσ : Keeps σ s) : Keeps σ (State.initialFormats s) := by
  unfold State.initialFormats
  repeat' (first
    | with_reducible assumption
    | with_reducible refine Keeps.foldl ?_ ?_
    | with_reducible refine State.journal_keeps ?_
    | with_reducible refine State.modCoder_keeps ?_
    | with_reducible refine State.note_keeps ?_
    | with_reducible refine Keeps.ite ?_ ?_
    | (extract_lets -underBinder +onlyGivenNames z
       first | (refine (fun hz : Keeps σ z => ?_) ?_; on_goal 1 => clear_value z
                on_goal 2 => (unfold z; clear z))
             | (refine (fun hz : Keeps σ z.2 => ?_) ?_; on_goal 1 => clear_value z
                on_goal 2 => (unfold z; clear z))
             | (refine (fun hz : Keeps σ z.1 => ?_) ?_; on_goal 1 => clear_value z
                on_goal 2 => (unfold z; clear z))
             | clear_value z)
    | split
    | intro _)

theorem EvtSt.restore_mirror (e : EvtSt) (r : Rec) (t : Nat) : (e.restore r t).mirror = e.mirror := by
  unfold EvtSt.restore; dsimp only; split <;> simp
theorem restoreAll_mirror (l : List Rec) (t : Nat) (e : EvtSt) : (l.foldl (fun (e : EvtSt) x => e.restore x t) e).mirror = e.mirror := by
  induction l generalizing e with
  | nil => rfl
  | cons a l ih => rw [List.foldl_cons, ih, EvtSt.restore_mirror]
theorem State.startRing_keeps {σ s : State} (hσ : Keeps σ s) : Keeps σ (State.startRing s) := by
  unfold State.startRing
  extract_lets m keep t boot e0
  clear_value keep
  split
  next e1 last he =>
  have h1 : e1.mirror = s.evt.mirror := by
    split at he
    · injection he with he _; subst he; rfl
    · injection he with he _; subst he
      rw [EvtSt.append_mirror, restoreAll_mirror]
  refine State.modOspi_keeps (State.modFlt_keeps (State.flushStaged_keeps (State.note_keeps ?_))) fun _ => rfl
  exact State.modEvt_here hσ (by show e1.mirror.ageOffset = _ ∧ e1.mirror.ceiling = _; rw [h1]; exact ⟨rfl, rfl⟩)

theorem State.copyStaged_keeps {σ s : State} (hσ : Keeps σ s) : Keeps σ (State.copyStaged s) := by
  unfold State.copyStaged
  repeat' (first
    | with_reducible assumption
    | with_reducible refine State.completeTwin_keeps ?_
    | with_reducible refine State.modFw_keeps ?_ ?_
    | with_reducible refine State.prepareTwin_keeps ?_
    | with_reducible refine State.writeSlotSet_keeps ?_
    | with_reducible exact fun _ => ⟨rfl, rfl⟩
    | with_reducible exact fun _ => rfl
    | (intro x; try dsimp only; repeat' split) <;> with_reducible first | rfl | exact ⟨rfl, rfl⟩
    | with_reducible refine Keeps.ite ?_ ?_
    | (extract_lets -underBinder +onlyGivenNames z
       first | (refine (fun hz : Keeps σ z => ?_) ?_; on_goal 1 => clear_value z
                on_goal 2 => (unfold z; clear z))
             | clear_value z)
    | split
    | intro _)

theorem State.raiseReads_keeps {σ s : State} (hσ : Keeps σ s) : Keeps σ (State.raiseReads s) := by
  unfold State.raiseReads
  repeat' (first
    | with_reducible assumption
    | with_reducible refine Keeps.foldl ?_ ?_
    | with_reducible refine State.modBlock_keeps ?_
    | with_reducible refine State.modFlash_keeps ?_
    | (extract_lets -underBinder +onlyGivenNames z
       first | (refine (fun hz : Keeps σ z => ?_) ?_; on_goal 1 => clear_value z
                on_goal 2 => (unfold z; clear z))
             | clear_value z)
    | intro _)

theorem State.liftRebuild_keeps {σ s : State} (hσ : Keeps σ s) : Keeps σ (State.liftRebuild s) := by
  unfold State.liftRebuild
  exact State.modFlash_keeps hσ

theorem State.mountFrom_keeps {σ s : State} {r : Root} {lost : List (Nat × Nat)} (hσ : Keeps σ s) : Keeps σ (State.mountFrom s r lost) := by
  unfold State.mountFrom
  repeat' (first
    | with_reducible assumption
    | with_reducible refine State.raiseReads_keeps ?_
    | with_reducible refine Keeps.foldl ?_ ?_
    | with_reducible refine Keeps.foldlP ?_ ?_
    | with_reducible refine Keeps.foldlQ ?_ ?_
    | with_reducible exact hz _
    | with_reducible exact hz _ _
    | with_reducible refine hz _ ?_
    | with_reducible refine hz _ _ ?_
    | with_reducible refine State.closeSpans_keeps ?_
    | with_reducible refine State.closeStacks_keeps ?_
    | with_reducible refine State.loadRoot_keeps ?_
    | with_reducible refine State.modFlash_keeps ?_
    | with_reducible refine State.modMap_keeps ?_
    | with_reducible refine State.noteLost_keeps ?_
    | with_reducible refine State.reopenSpans_keeps ?_
    | with_reducible refine State.replay_keeps ?_
    | with_reducible refine State.writeRoot_keeps ?_
    | with_reducible refine Keeps.ite ?_ ?_
    | (extract_lets -underBinder +onlyGivenNames z
       first | (refine (fun hz : Keeps σ z => ?_) ?_; on_goal 1 => clear_value z
                on_goal 2 => (unfold z; clear z))
             | (refine (fun hz : Keeps σ z.2 => ?_) ?_; on_goal 1 => clear_value z
                on_goal 2 => (unfold z; clear z))
             | (refine (fun hz : Keeps σ z.1 => ?_) ?_; on_goal 1 => clear_value z
                on_goal 2 => (unfold z; clear z))
             | (refine (fun hz : ∀ x, Keeps σ x → Keeps σ (z x) => ?_) ?_; on_goal 1 => clear_value z
                on_goal 2 => (unfold z; clear z))
             | (refine (fun hz : ∀ x y, Keeps σ x → Keeps σ (z x y) => ?_) ?_; on_goal 1 => clear_value z
                on_goal 2 => (unfold z; clear z))
             | (refine (fun hz : ∀ y, Keeps σ (z y) => ?_) ?_; on_goal 1 => clear_value z
                on_goal 2 => (unfold z; clear z))
             | (refine (fun hz : ∀ y w, Keeps σ (z y w) => ?_) ?_; on_goal 1 => clear_value z
                on_goal 2 => (unfold z; clear z))
             | clear_value z)
    | split
    | intro _)

theorem State.pageMap_keeps {σ s : State} (hσ : Keeps σ s) : Keeps σ (State.pageMap s) := by
  unfold State.pageMap
  repeat' (first
    | with_reducible assumption
    | with_reducible refine Keeps.foldl ?_ ?_
    | with_reducible refine Keeps.foldlP ?_ ?_
    | with_reducible refine Keeps.foldlQ ?_ ?_
    | with_reducible refine State.modMap_keeps ?_
    | with_reducible refine Keeps.ite ?_ ?_
    | (extract_lets -underBinder +onlyGivenNames z
       first | (refine (fun hz : Keeps σ z => ?_) ?_; on_goal 1 => clear_value z
                on_goal 2 => (unfold z; clear z))
             | (refine (fun hz : Keeps σ z.2 => ?_) ?_; on_goal 1 => clear_value z
                on_goal 2 => (unfold z; clear z))
             | (refine (fun hz : Keeps σ z.1 => ?_) ?_; on_goal 1 => clear_value z
                on_goal 2 => (unfold z; clear z))
             | clear_value z)
    | split
    | intro _)

theorem State.afterMount_keeps {σ s : State} (hσ : Keeps σ s) : Keeps σ (State.afterMount s) := by
  unfold State.afterMount
  repeat' (first
    | with_reducible assumption
    | with_reducible refine State.liftRebuild_keeps ?_
    | with_reducible refine Keeps.optMap ?_ ?_
    | with_reducible refine Keeps.optGet ?_ ?_
    | with_reducible refine Keeps.optElim ?_ ?_
    | with_reducible refine State.announceDeferred_keeps ?_
    | with_reducible refine State.initialFormats_keeps ?_
    | with_reducible refine State.kneadUpdate_keeps ?_
    | with_reducible refine State.modFlash_keeps ?_
    | with_reducible refine State.modFlashIf_keeps ?_
    | with_reducible refine State.modNvme_keeps ?_
    | with_reducible refine State.modRack_keeps ?_
    | with_reducible refine State.pageMap_keeps ?_
    | with_reducible refine State.spareUpdate_keeps ?_
    | with_reducible refine Keeps.ite ?_ ?_
    | (extract_lets -underBinder +onlyGivenNames z
       first | (refine (fun hz : Keeps σ z => ?_) ?_; on_goal 1 => clear_value z
                on_goal 2 => (unfold z; clear z))
             | (refine (fun hz : Keeps σ z.2 => ?_) ?_; on_goal 1 => clear_value z
                on_goal 2 => (unfold z; clear z))
             | (refine (fun hz : Keeps σ z.1 => ?_) ?_; on_goal 1 => clear_value z
                on_goal 2 => (unfold z; clear z))
             | clear_value z)
    | split
    | intro _)

theorem State.bindKey_keeps {σ s : State} (hσ : Keeps σ s) : Keeps σ (State.bindKey s) := by
  unfold State.bindKey
  repeat' (first
    | with_reducible assumption
    | with_reducible refine State.modCfg_keeps ?_
    | with_reducible refine Keeps.ite ?_ ?_
    | split)

theorem State.firstReady_keeps {σ s : State} (hσ : Keeps σ s) : Keeps σ (State.firstReady s) := by
  unfold State.firstReady
  repeat' (first
    | with_reducible assumption
    | with_reducible refine State.bindKey_keeps ?_
    | with_reducible refine State.modFw_keeps ?_ ?_
    | with_reducible refine State.modNvme_keeps ?_
    | with_reducible exact fun _ => ⟨rfl, rfl⟩
    | with_reducible exact fun _ => rfl
    | (intro x; try dsimp only; repeat' split) <;> with_reducible first | rfl | exact ⟨rfl, rfl⟩
    | with_reducible refine Keeps.ite ?_ ?_
    | (extract_lets -underBinder +onlyGivenNames z
       first | (refine (fun hz : Keeps σ z => ?_) ?_; on_goal 1 => clear_value z
                on_goal 2 => (unfold z; clear z))
             | clear_value z)
    | split
    | intro _)

theorem State.becomeReady_keeps {σ s : State} (hσ : Keeps σ s) : Keeps σ (State.becomeReady s) := by
  unfold State.becomeReady
  repeat' (first
    | with_reducible assumption
    | with_reducible refine State.firstReady_keeps ?_
    | with_reducible refine State.modNvme_keeps ?_
    | with_reducible refine Keeps.ite ?_ ?_
    | split)

theorem State.endPause_keeps {σ s : State} {a : Activation} (hσ : Keeps σ s) : Keeps σ (State.endPause s a) := by
  unfold State.endPause
  repeat' (first
    | with_reducible assumption
    | with_reducible refine State.modCfg_keeps ?_
    | with_reducible refine State.modFlt_keeps ?_
    | with_reducible refine State.modFw_keeps ?_ ?_
    | with_reducible refine State.modNvme_keeps ?_
    | with_reducible exact fun _ => ⟨rfl, rfl⟩
    | with_reducible exact fun _ => rfl
    | (intro x; try dsimp only; repeat' split) <;> with_reducible first | rfl | exact ⟨rfl, rfl⟩
    | with_reducible refine Keeps.ite ?_ ?_
    | (extract_lets -underBinder +onlyGivenNames z
       first | (refine (fun hz : Keeps σ z => ?_) ?_; on_goal 1 => clear_value z
                on_goal 2 => (unfold z; clear z))
             | (refine (fun hz : Keeps σ z.2 => ?_) ?_; on_goal 1 => clear_value z
                on_goal 2 => (unfold z; clear z))
             | (refine (fun hz : Keeps σ z.1 => ?_) ?_; on_goal 1 => clear_value z
                on_goal 2 => (unfold z; clear z))
             | clear_value z)
    | split
    | intro _)

theorem State.reloadSeqs_keeps {σ s : State} {failed : List Nat} (hσ : Keeps σ s) : Keeps σ (State.reloadSeqs s failed) := by
  unfold State.reloadSeqs
  repeat' (first
    | with_reducible assumption
    | with_reducible refine State.loadSeqs_keeps ?_
    | with_reducible refine State.modSeqs_keeps ?_
    | with_reducible refine Keeps.ite ?_ ?_
    | (extract_lets -underBinder +onlyGivenNames z
       first | (refine (fun hz : Keeps σ z => ?_) ?_; on_goal 1 => clear_value z
                on_goal 2 => (unfold z; clear z))
             | (refine (fun hz : Keeps σ z.2 => ?_) ?_; on_goal 1 => clear_value z
                on_goal 2 => (unfold z; clear z))
             | (refine (fun hz : Keeps σ z.1 => ?_) ?_; on_goal 1 => clear_value z
                on_goal 2 => (unfold z; clear z))
             | clear_value z)
    | split)

theorem State.switchImage_keeps {σ s : State} {img : Image} (hσ : Keeps σ s) : Keeps σ (State.switchImage s img) := by
  unfold State.switchImage
  repeat' (first
    | with_reducible assumption
    | with_reducible refine State.modCfg_keeps ?_
    | with_reducible refine State.modFlt_keeps ?_
    | with_reducible refine Keeps.ite ?_ ?_
    | (extract_lets -underBinder +onlyGivenNames z
       first | (refine (fun hz : Keeps σ z => ?_) ?_; on_goal 1 => clear_value z
                on_goal 2 => (unfold z; clear z))
             | (refine (fun hz : Keeps σ z.2 => ?_) ?_; on_goal 1 => clear_value z
                on_goal 2 => (unfold z; clear z))
             | (refine (fun hz : Keeps σ z.1 => ?_) ?_; on_goal 1 => clear_value z
                on_goal 2 => (unfold z; clear z))
             | clear_value z)
    | split)

theorem State.finishActivation_keeps {σ s : State} {a : Activation} (hσ : Keeps σ s) : Keeps σ (State.finishActivation s a) := by
  unfold State.finishActivation
  repeat' (first
    | with_reducible assumption
    | with_reducible refine State.becomeReady_keeps ?_
    | with_reducible refine State.complete_keeps ?_
    | with_reducible refine State.completeTwin_keeps ?_
    | with_reducible refine State.endPause_keeps ?_
    | with_reducible refine State.modFw_keeps ?_ ?_
    | with_reducible refine State.modOspi_keeps ?_ ?_
    | with_reducible refine State.note_keeps ?_
    | with_reducible refine State.settle_keeps ?_
    | with_reducible exact fun _ => ⟨rfl, rfl⟩
    | with_reducible exact fun _ => rfl
    | (intro x; try dsimp only; repeat' split) <;> with_reducible first | rfl | exact ⟨rfl, rfl⟩
    | (extract_lets -underBinder +onlyGivenNames z
       first | (refine (fun hz : Keeps σ z => ?_) ?_; on_goal 1 => clear_value z
                on_goal 2 => (unfold z; clear z))
             | clear_value z)
    | split
    | intro _)

theorem State.revertActivation_keeps {σ s : State} {a : Activation} (hσ : Keeps σ s) : Keeps σ (State.revertActivation s a) := by
  unfold State.revertActivation
  repeat' (first
    | with_reducible assumption
    | with_reducible refine State.becomeReady_keeps ?_
    | with_reducible refine State.cancelTwin_keeps ?_
    | with_reducible refine State.complete_keeps ?_
    | with_reducible refine State.endPause_keeps ?_
    | with_reducible refine State.modSeqs_keeps ?_
    | with_reducible refine State.note_keeps ?_
    | with_reducible refine State.reloadSeqs_keeps ?_
    | with_reducible refine State.settle_keeps ?_
    | with_reducible refine State.switchImage_keeps ?_
    | with_reducible refine Keeps.ite ?_ ?_
    | (extract_lets -underBinder +onlyGivenNames z
       first | (refine (fun hz : Keeps σ z => ?_) ?_; on_goal 1 => clear_value z
                on_goal 2 => (unfold z; clear z))
             | clear_value z)
    | split)

theorem State.beginPause_keeps {σ s : State} {a : Activation} (hσ : Keeps σ s) : Keeps σ (State.beginPause s a).2 := by
  unfold State.beginPause
  repeat' (first
    | with_reducible assumption
    | with_reducible refine Keeps.optMap ?_ ?_
    | with_reducible refine Keeps.optGet ?_ ?_
    | with_reducible refine Keeps.optElim ?_ ?_
    | with_reducible refine State.deliver_keeps ?_
    | with_reducible refine State.modFw_keeps ?_ ?_
    | with_reducible refine State.modNvme_keeps ?_
    | with_reducible refine State.modSeqs_keeps ?_
    | with_reducible refine State.note_keeps ?_
    | with_reducible refine State.trigger_keeps ?_
    | with_reducible exact fun _ => ⟨rfl, rfl⟩
    | with_reducible exact fun _ => rfl
    | (intro x; try dsimp only; repeat' split) <;> with_reducible first | rfl | exact ⟨rfl, rfl⟩
    | with_reducible refine Keeps.ite ?_ ?_
    | (extract_lets -underBinder +onlyGivenNames z
       first | (refine (fun hz : Keeps σ z => ?_) ?_; on_goal 1 => clear_value z
                on_goal 2 => (unfold z; clear z))
             | (refine (fun hz : Keeps σ z.2 => ?_) ?_; on_goal 1 => clear_value z
                on_goal 2 => (unfold z; clear z))
             | (refine (fun hz : Keeps σ z.1 => ?_) ?_; on_goal 1 => clear_value z
                on_goal 2 => (unfold z; clear z))
             | clear_value z)
    | split
    | intro _)
theorem State.beginPause_keeps_of {σ s : State} {a : Activation} {t : State} {aa} (hσ : Keeps σ s) (heq : State.beginPause s a = (aa, t)) : Keeps σ t := by
  have : Keeps σ (State.beginPause s a).2 := State.beginPause_keeps hσ
  rw [heq] at this; exact this

theorem State.runActivation_keeps {σ s : State} {a : Activation} {base : McuModule} {patches : List McuModule} {custom : Option McuModule} {failed : List Nat} (hσ : Keeps σ s) : Keeps σ (State.runActivation s a base patches custom failed) := by
  unfold State.runActivation
  repeat' (first
    | with_reducible assumption
    | with_reducible refine State.finishActivation_keeps ?_
    | with_reducible refine State.modFw_keeps ?_ ?_
    | with_reducible refine State.note_keeps ?_
    | with_reducible refine State.noteImage_keeps ?_
    | with_reducible refine State.reloadSeqs_keeps ?_
    | with_reducible refine State.switchImage_keeps ?_
    | with_reducible refine State.takeModules_keeps ?_
    | with_reducible refine State.takeOverrides_keeps ?_
    | with_reducible exact fun _ => ⟨rfl, rfl⟩
    | with_reducible exact fun _ => rfl
    | (intro x; try dsimp only; repeat' split) <;> with_reducible first | rfl | exact ⟨rfl, rfl⟩
    | with_reducible refine Keeps.ite ?_ ?_
    | (extract_lets -underBinder +onlyGivenNames z
       first | (refine (fun hz : Keeps σ z => ?_) ?_; on_goal 1 => clear_value z
                on_goal 2 => (unfold z; clear z))
             | (refine (fun hz : Keeps σ z.2 => ?_) ?_; on_goal 1 => clear_value z
                on_goal 2 => (unfold z; clear z))
             | clear_value z)
    | split
    | intro _)

theorem State.carryOut_keeps {σ s : State} {nsid lcn : Nat} {d : Desc} (hσ : Keeps σ s) : Keeps σ (State.carryOut s nsid lcn d) := by
  unfold State.carryOut
  repeat' (first
    | with_reducible assumption
    | with_reducible refine State.enqueue_keeps ?_
    | with_reducible refine State.modPlace_keeps ?_
    | with_reducible refine State.startCopy_keeps ?_
    | with_reducible refine Keeps.ite ?_ ?_
    | (extract_lets -underBinder +onlyGivenNames z
       first | (refine (fun hz : Keeps σ z => ?_) ?_; on_goal 1 => clear_value z
                on_goal 2 => (unfold z; clear z))
             | clear_value z)
    | split)

theorem State.ringSq_keeps {σ s : State} {qid tail : Nat} (hσ : Keeps σ s) : Keeps σ (State.ringSq s qid tail) := by
  unfold State.ringSq
  repeat' (first
    | with_reducible assumption
    | with_reducible refine State.issueRead_keeps ?_
    | with_reducible refine State.modNvme_keeps ?_
    | with_reducible refine Keeps.ite ?_ ?_
    | (extract_lets -underBinder +onlyGivenNames z
       first | (refine (fun hz : Keeps σ z => ?_) ?_; on_goal 1 => clear_value z
                on_goal 2 => (unfold z; clear z))
             | (refine (fun hz : Keeps σ z.2 => ?_) ?_; on_goal 1 => clear_value z
                on_goal 2 => (unfold z; clear z))
             | (refine (fun hz : Keeps σ z.1 => ?_) ?_; on_goal 1 => clear_value z
                on_goal 2 => (unfold z; clear z))
             | clear_value z)
    | split)

theorem State.ringCq_keeps {σ s : State} {qid head : Nat} (hσ : Keeps σ s) : Keeps σ (State.ringCq s qid head) := by
  unfold State.ringCq
  repeat' (first
    | with_reducible assumption
    | with_reducible refine State.settle_keeps ?_
    | with_reducible refine State.flushCqes_keeps ?_
    | with_reducible refine State.modNvme_keeps ?_
    | with_reducible refine Keeps.ite ?_ ?_
    | split)

theorem State.setIntMask_keeps {σ s : State} {mask : Dword} (hσ : Keeps σ s) : Keeps σ (State.setIntMask s mask) := by
  unfold State.setIntMask
  repeat' (first | with_reducible assumption | with_reducible refine State.modNvme_keeps ?_)

theorem State.clearIntMask_keeps {σ s : State} {mask : Dword} (hσ : Keeps σ s) : Keeps σ (State.clearIntMask s mask) := by
  unfold State.clearIntMask
  repeat' (first
    | with_reducible assumption
    | with_reducible refine State.modNvme_keeps ?_
    | with_reducible refine State.tlp_keeps ?_
    | with_reducible refine Keeps.ite ?_ ?_
    | (extract_lets -underBinder +onlyGivenNames z
       first | (refine (fun hz : Keeps σ z => ?_) ?_; on_goal 1 => clear_value z
                on_goal 2 => (unfold z; clear z))
             | clear_value z)
    | split)

theorem State.arbitrate_keeps {σ s : State} {t : State} {a0 : Nat} (hσ : Keeps σ s) (e : State.arbitrate s = some (a0, t)) : Keeps σ t := by
  have h1 : ∀ f, Keeps σ (s.modHost f) := fun f => State.modHost_keeps hσ
  unfold State.arbitrate at e
  dsimp only at e
  repeat' split at e
  all_goals first
    | (cases e; exact h1 _)
    | (obtain ⟨q, _, h⟩ := Option.map_eq_some_iff.1 e; cases h; exact h1 _)
    | cases e

theorem State.openStream_keeps {σ s : State} {nsid id : Nat} (hσ : Keeps σ s) : Keeps σ (State.openStream s nsid id) := by
  unfold State.openStream
  repeat' (first
    | with_reducible assumption
    | with_reducible refine State.modPlace_keeps ?_
    | with_reducible refine Keeps.ite ?_ ?_
    | split)

theorem State.admit_keeps {σ s : State} {c : Ctx} (hσ : Keeps σ s) : Keeps σ (State.letIn s c) := by
  unfold State.letIn
  repeat' (first
    | with_reducible assumption
    | with_reducible refine State.modHost_keeps ?_
    | with_reducible refine State.sealFor_keeps ?_
    | with_reducible refine State.settle_keeps ?_)

theorem State.noteOrder_keeps {σ s : State} {c : Ctx} (hσ : Keeps σ s) : Keeps σ (State.noteOrder s c) := by
  unfold State.noteOrder
  repeat' (first
    | with_reducible assumption
    | with_reducible refine State.modNvme_keeps ?_
    | with_reducible refine Keeps.ite ?_ ?_
    | split)

theorem State.wake_keeps {σ s : State} (hσ : Keeps σ s) : Keeps σ (State.wake s) := by
  unfold State.wake
  repeat' (first
    | with_reducible assumption
    | with_reducible refine State.modPwr_keeps ?_ ?_
    | with_reducible refine State.retuneOp_keeps ?_
    | with_reducible refine State.sendLtr_keeps ?_
    | with_reducible exact fun _ => ⟨rfl, rfl⟩
    | with_reducible exact fun _ => rfl
    | (intro x; try dsimp only; repeat' split) <;> with_reducible first | rfl | exact ⟨rfl, rfl⟩
    | with_reducible refine Keeps.ite ?_ ?_
    | split
    | intro _)

theorem State.reportDeferred_keeps {σ s : State} {nsid : Nat} (hσ : Keeps σ s) : Keeps σ (State.reportDeferred s nsid) := by
  unfold State.reportDeferred
  repeat' (first
    | with_reducible assumption
    | with_reducible refine State.journal_keeps ?_
    | with_reducible refine State.modHost_keeps ?_
    | (extract_lets -underBinder +onlyGivenNames z
       first | (refine (fun hz : Keeps σ z => ?_) ?_; on_goal 1 => clear_value z
                on_goal 2 => (unfold z; clear z))
             | clear_value z))

theorem State.startFetched_keeps {σ s : State} {c : Ctx} (hσ : Keeps σ s) : Keeps σ (State.startFetched s c) := by
  unfold State.startFetched
  repeat' (first
    | with_reducible assumption
    | with_reducible refine State.issueRead_keeps ?_
    | with_reducible refine State.openStream_keeps ?_
    | with_reducible refine Keeps.ite ?_ ?_
    | (extract_lets -underBinder +onlyGivenNames z
       first | (refine (fun hz : Keeps σ z => ?_) ?_; on_goal 1 => clear_value z
                on_goal 2 => (unfold z; clear z))
             | clear_value z)
    | split
    | intro _)

theorem State.modPeel_keeps {σ s : State} {n : Nat} {f : PeelCh → PeelCh} (hσ : Keeps σ s) : Keeps σ (State.modPeel s n f) := by
  unfold State.modPeel
  repeat' (first | with_reducible assumption | with_reducible refine State.modWin_keeps ?_)

theorem State.offer_keeps {σ s : State} {x : IngestItem} (hσ : Keeps σ s) : Keeps σ (State.offer s x) := by
  unfold State.offer
  repeat' (first
    | with_reducible assumption
    | with_reducible refine State.modHost_keeps ?_
    | with_reducible refine Keeps.ite ?_ ?_
    | split)

theorem State.withdraw_keeps {σ s : State} {x : IngestItem} (hσ : Keeps σ s) : Keeps σ (State.withdraw s x) := by
  unfold State.withdraw
  repeat' (first | with_reducible assumption | with_reducible refine State.modHost_keeps ?_)

theorem State.offerPeel_keeps {σ s : State} {ch : Nat} (hσ : Keeps σ s) : Keeps σ (State.offerPeel s ch) := by
  unfold State.offerPeel
  repeat' (first
    | with_reducible assumption
    | with_reducible refine State.offer_keeps ?_
    | with_reducible refine Keeps.ite ?_ ?_
    | (extract_lets -underBinder +onlyGivenNames z
       first | (refine (fun hz : Keeps σ z => ?_) ?_; on_goal 1 => clear_value z
                on_goal 2 => (unfold z; clear z))
             | clear_value z)
    | split)

theorem State.ingestTurn_keeps {σ s : State} {x : IngestItem} {t : State} (hσ : Keeps σ s) (e : State.ingestTurn s x = some t) : Keeps σ t := by
  unfold State.ingestTurn at e
  extract_lets only q at e
  split at e
  · cases e
  · split at e
    · cases e; exact hσ
    · split at e
      · next q' s' h =>
        split at e
        · cases e; exact State.arbitrate_keeps hσ h
        · cases e
      · cases e

theorem State.stampIngest_keeps {σ s : State} {c : Ctx} {st : Nat} (hσ : Keeps σ s) : Keeps σ (State.stampIngest s c st) := by
  unfold State.stampIngest
  repeat' (first
    | with_reducible assumption
    | with_reducible refine State.admit_keeps ?_
    | with_reducible refine State.answer_keeps ?_
    | with_reducible refine State.modHost_keeps ?_
    | with_reducible refine State.reportDeferred_keeps ?_
    | with_reducible refine Keeps.ite ?_ ?_
    | (extract_lets -underBinder +onlyGivenNames z
       first | (refine (fun hz : Keeps σ z => ?_) ?_; on_goal 1 => clear_value z
                on_goal 2 => (unfold z; clear z))
             | clear_value z)
    | split)

theorem State.haltPeel_keeps {σ s : State} {ch : Nat} {code : Nat} (hσ : Keeps σ s) : Keeps σ (State.haltPeel s ch code) := by
  unfold State.haltPeel
  repeat' (first
    | with_reducible assumption
    | with_reducible refine State.hostWrite_keeps ?_
    | with_reducible refine State.modPeel_keeps ?_
    | with_reducible refine State.withdraw_keeps ?_
    | with_reducible refine Keeps.ite ?_ ?_
    | (extract_lets -underBinder +onlyGivenNames z
       first | (refine (fun hz : Keeps σ z => ?_) ?_; on_goal 1 => clear_value z
                on_goal 2 => (unfold z; clear z))
             | clear_value z)
    | split)

theorem State.finishStop_keeps {σ s : State} {ch : Nat} (hσ : Keeps σ s) : Keeps σ (State.finishStop s ch) := by
  unfold State.finishStop
  repeat' (first
    | with_reducible assumption
    | with_reducible refine State.haltPeel_keeps ?_
    | with_reducible refine Keeps.ite ?_ ?_
    | (extract_lets -underBinder +onlyGivenNames z
       first | (refine (fun hz : Keeps σ z => ?_) ?_; on_goal 1 => clear_value z
                on_goal 2 => (unfold z; clear z))
             | clear_value z)
    | split)

theorem State.stopPeel_keeps {σ s : State} {ch code : Nat} (hσ : Keeps σ s) : Keeps σ (State.stopPeel s ch code) := by
  unfold State.stopPeel
  repeat' (first
    | with_reducible assumption
    | with_reducible refine State.finishStop_keeps ?_
    | with_reducible refine State.modPeel_keeps ?_
    | with_reducible refine State.withdraw_keeps ?_
    | with_reducible refine Keeps.ite ?_ ?_
    | (extract_lets -underBinder +onlyGivenNames z
       first | (refine (fun hz : Keeps σ z => ?_) ?_; on_goal 1 => clear_value z
                on_goal 2 => (unfold z; clear z))
             | clear_value z)
    | split)

theorem State.fetchDesc_keeps {σ s : State} {ch : Nat} (hσ : Keeps σ s) : Keeps σ (State.fetchDesc s ch) := by
  unfold State.fetchDesc
  repeat' (first
    | with_reducible assumption
    | with_reducible refine State.issueRead_keeps ?_
    | with_reducible refine Keeps.ite ?_ ?_
    | (extract_lets -underBinder +onlyGivenNames z
       first | (refine (fun hz : Keeps σ z => ?_) ?_; on_goal 1 => clear_value z
                on_goal 2 => (unfold z; clear z))
             | (refine (fun hz : Keeps σ z.2 => ?_) ?_; on_goal 1 => clear_value z
                on_goal 2 => (unfold z; clear z))
             | (refine (fun hz : Keeps σ z.1 => ?_) ?_; on_goal 1 => clear_value z
                on_goal 2 => (unfold z; clear z))
             | clear_value z)
    | split)

theorem State.runPeel_keeps {σ s : State} {ch : Nat} {cur : BitVec 64} (hσ : Keeps σ s) : Keeps σ (State.runPeel s ch cur) := by
  unfold State.runPeel
  repeat' (first
    | with_reducible assumption
    | with_reducible refine State.fetchDesc_keeps ?_
    | with_reducible refine State.modPeel_keeps ?_
    | with_reducible refine State.offerPeel_keeps ?_
    | with_reducible refine State.stopPeel_keeps ?_
    | with_reducible refine Keeps.ite ?_ ?_
    | (extract_lets -underBinder +onlyGivenNames z
       first | (refine (fun hz : Keeps σ z => ?_) ?_; on_goal 1 => clear_value z
                on_goal 2 => (unfold z; clear z))
             | clear_value z)
    | split)

theorem State.startIgnored_keeps {σ s : State} {ch : Nat} (hσ : Keeps σ s) : Keeps σ (State.startIgnored s ch) := by
  unfold State.startIgnored
  repeat' (first | with_reducible assumption | with_reducible refine State.modPeel_keeps ?_)

theorem State.peelStart_keeps {σ s : State} {ch : Nat} (hσ : Keeps σ s) : Keeps σ (State.peelStart s ch) := by
  unfold State.peelStart
  repeat' (first
    | with_reducible assumption
    | with_reducible refine State.runPeel_keeps ?_
    | with_reducible refine State.startIgnored_keeps ?_
    | with_reducible refine Keeps.ite ?_ ?_
    | (extract_lets -underBinder +onlyGivenNames z
       first | (refine (fun hz : Keeps σ z => ?_) ?_; on_goal 1 => clear_value z
                on_goal 2 => (unfold z; clear z))
             | clear_value z)
    | split)

theorem State.peelResume_keeps {σ s : State} {ch : Nat} (hσ : Keeps σ s) : Keeps σ (State.peelResume s ch) := by
  unfold State.peelResume
  repeat' (first
    | with_reducible assumption
    | with_reducible refine State.runPeel_keeps ?_
    | with_reducible refine State.startIgnored_keeps ?_
    | with_reducible refine Keeps.ite ?_ ?_
    | (extract_lets -underBinder +onlyGivenNames z
       first | (refine (fun hz : Keeps σ z => ?_) ?_; on_goal 1 => clear_value z
                on_goal 2 => (unfold z; clear z))
             | clear_value z)
    | split)

theorem State.peelStop_keeps {σ s : State} {ch : Nat} (hσ : Keeps σ s) : Keeps σ (State.peelStop s ch) := by
  unfold State.peelStop
  repeat' (first | with_reducible assumption | with_reducible refine State.stopPeel_keeps ?_)

theorem pumpSrc_keeps {σ : State} {ch n} {s : State} (hσ : Keeps σ s) : Keeps σ (pumpSrc ch n s) := by
  induction n generalizing s with
  | zero => exact hσ
  | succ n ih =>
    unfold pumpSrc
    split
    · exact hσ
    · exact ih (State.issueRead_keeps hσ)

theorem State.pumpPeel_keeps {σ s : State} {ch : Nat} (hσ : Keeps σ s) : Keeps σ (State.pumpPeel s ch) := by
  unfold State.pumpPeel
  repeat' (first | with_reducible assumption | with_reducible refine pumpSrc_keeps ?_)

theorem State.acceptPeel_keeps {σ s : State} {ch : Nat} {d : PeelDesc} (hσ : Keeps σ s) : Keeps σ (State.acceptPeel s ch d) := by
  unfold State.acceptPeel
  repeat' (first
    | with_reducible assumption
    | with_reducible refine State.fetchDesc_keeps ?_
    | with_reducible refine State.modPeel_keeps ?_
    | with_reducible refine State.pumpPeel_keeps ?_
    | with_reducible refine State.stampIngest_keeps ?_
    | with_reducible refine State.stopPeel_keeps ?_
    | with_reducible refine State.withdraw_keeps ?_
    | with_reducible refine Keeps.ite ?_ ?_
    | (extract_lets -underBinder +onlyGivenNames z
       first | (refine (fun hz : Keeps σ z => ?_) ?_; on_goal 1 => clear_value z
                on_goal 2 => (unfold z; clear z))
             | clear_value z)
    | split)

theorem State.placeBlocks_keeps {σ s : State} {ch : Nat} {j : PeelJob} (hσ : Keeps σ s) : Keeps σ (State.placeBlocks s ch j) := by
  unfold State.placeBlocks
  repeat' (first
    | with_reducible assumption
    | with_reducible refine Keeps.optMap ?_ ?_
    | with_reducible refine Keeps.optGet ?_ ?_
    | with_reducible refine Keeps.optElim ?_ ?_
    | with_reducible refine Keeps.foldl ?_ ?_
    | with_reducible refine Keeps.foldlP ?_ ?_
    | with_reducible refine Keeps.foldlQ ?_ ?_
    | with_reducible refine State.modCtx_keeps ?_
    | with_reducible refine State.modPeel_keeps ?_
    | with_reducible refine Keeps.ite ?_ ?_
    | (extract_lets -underBinder +onlyGivenNames z
       first | (refine (fun hz : Keeps σ z => ?_) ?_; on_goal 1 => clear_value z
                on_goal 2 => (unfold z; clear z))
             | (refine (fun hz : Keeps σ z.2 => ?_) ?_; on_goal 1 => clear_value z
                on_goal 2 => (unfold z; clear z))
             | (refine (fun hz : Keeps σ z.1 => ?_) ?_; on_goal 1 => clear_value z
                on_goal 2 => (unfold z; clear z))
             | clear_value z)
    | split
    | intro _)

theorem State.retireCtx_keeps {σ s : State} {stamp : Nat} (hσ : Keeps σ s) : Keeps σ (State.retireCtx s stamp) := by
  unfold State.retireCtx
  with_reducible exact State.modWin_keeps hσ

theorem State.afterRetire_keeps {σ s : State} {ch st : Nat} {last : Bool} (hσ : Keeps σ s) : Keeps σ (State.afterRetire s ch st last) := by
  unfold State.afterRetire
  repeat' (first
    | with_reducible assumption
    | with_reducible refine State.fetchDesc_keeps ?_
    | with_reducible refine State.finishStop_keeps ?_
    | with_reducible refine State.haltPeel_keeps ?_
    | with_reducible refine State.modPeel_keeps ?_
    | with_reducible refine State.offerPeel_keeps ?_
    | with_reducible refine State.stopPeel_keeps ?_
    | with_reducible refine Keeps.ite ?_ ?_
    | (extract_lets -underBinder +onlyGivenNames z
       first | (refine (fun hz : Keeps σ z => ?_) ?_; on_goal 1 => clear_value z
                on_goal 2 => (unfold z; clear z))
             | clear_value z)
    | split)

theorem State.discardCtx_keeps {σ s : State} {c : Ctx} (hσ : Keeps σ s) : Keeps σ (State.discardCtx s c) := by
  unfold State.discardCtx
  repeat' (first
    | with_reducible assumption
    | with_reducible refine State.cancelReads_keeps ?_
    | with_reducible refine State.dropCtx_keeps ?_
    | with_reducible refine State.effectParked_keeps ?_
    | with_reducible refine State.finishDeletes_keeps ?_
    | with_reducible refine State.leaveVersions_keeps ?_
    | with_reducible refine State.modFlash_keeps ?_
    | with_reducible refine State.settle_keeps ?_
    | with_reducible refine Keeps.ite ?_ ?_
    | (extract_lets -underBinder +onlyGivenNames z
       first | (refine (fun hz : Keeps σ z => ?_) ?_; on_goal 1 => clear_value z
                on_goal 2 => (unfold z; clear z))
             | clear_value z)
    | split)

theorem State.failSource_keeps {σ s : State} {ch stamp code : Nat} (hσ : Keeps σ s) : Keeps σ (State.failSource s ch stamp code) := by
  unfold State.failSource
  repeat' (first
    | with_reducible assumption
    | with_reducible refine State.retireCtx_keeps ?_
    | with_reducible refine Keeps.foldl ?_ ?_
    | with_reducible refine Keeps.foldlP ?_ ?_
    | with_reducible refine Keeps.foldlQ ?_ ?_
    | with_reducible refine State.discardCtx_keeps ?_
    | with_reducible refine State.modPcie_keeps ?_
    | with_reducible refine State.modPeel_keeps ?_
    | with_reducible refine State.stopPeel_keeps ?_
    | with_reducible refine Keeps.ite ?_ ?_
    | (extract_lets -underBinder +onlyGivenNames z
       first | (refine (fun hz : Keeps σ z => ?_) ?_; on_goal 1 => clear_value z
                on_goal 2 => (unfold z; clear z))
             | (refine (fun hz : Keeps σ z.2 => ?_) ?_; on_goal 1 => clear_value z
                on_goal 2 => (unfold z; clear z))
             | (refine (fun hz : Keeps σ z.1 => ?_) ?_; on_goal 1 => clear_value z
                on_goal 2 => (unfold z; clear z))
             | clear_value z)
    | split
    | intro _)

theorem State.failDesc_keeps {σ s : State} {ch code : Nat} (hσ : Keeps σ s) : Keeps σ (State.failDesc s ch code) := by
  unfold State.failDesc
  repeat' (first | with_reducible assumption | with_reducible refine State.stopPeel_keeps ?_)

theorem State.peelBmClear_keeps {σ s : State} (hσ : Keeps σ s) : Keeps σ (State.peelBmClear s) := by
  unfold State.peelBmClear
  repeat' (first
    | with_reducible assumption
    | with_reducible refine Keeps.foldl ?_ ?_
    | with_reducible refine Keeps.foldlP ?_ ?_
    | with_reducible refine Keeps.foldlQ ?_ ?_
    | with_reducible refine State.haltPeel_keeps ?_
    | with_reducible refine State.modPeel_keeps ?_
    | with_reducible refine Keeps.ite ?_ ?_
    | (extract_lets -underBinder +onlyGivenNames z
       first | (refine (fun hz : Keeps σ z => ?_) ?_; on_goal 1 => clear_value z
                on_goal 2 => (unfold z; clear z))
             | clear_value z)
    | split
    | intro _)

theorem State.peelBmSet_keeps {σ s : State} (hσ : Keeps σ s) : Keeps σ (State.peelBmSet s) := by
  unfold State.peelBmSet
  repeat' (first
    | with_reducible assumption
    | with_reducible refine Keeps.foldl ?_ ?_
    | with_reducible refine Keeps.foldlP ?_ ?_
    | with_reducible refine Keeps.foldlQ ?_ ?_
    | with_reducible refine State.fetchDesc_keeps ?_
    | with_reducible refine State.modPeel_keeps ?_
    | with_reducible refine State.offerPeel_keeps ?_
    | with_reducible refine State.peelResume_keeps ?_
    | with_reducible refine State.pumpPeel_keeps ?_
    | with_reducible refine Keeps.ite ?_ ?_
    | (extract_lets -underBinder +onlyGivenNames z
       first | (refine (fun hz : Keeps σ z => ?_) ?_; on_goal 1 => clear_value z
                on_goal 2 => (unfold z; clear z))
             | clear_value z)
    | split
    | intro _)

theorem State.peelReset_keeps {σ s : State} (hσ : Keeps σ s) : Keeps σ (State.peelReset s) := by
  unfold State.peelReset
  exact State.modHost_keeps (State.modWin_keeps hσ)

theorem State.peelShutdown_keeps {σ s : State} (hσ : Keeps σ s) : Keeps σ (State.peelShutdown s) := by
  unfold State.peelShutdown
  repeat' (first
    | with_reducible assumption
    | with_reducible refine Keeps.foldl ?_ ?_
    | with_reducible refine State.peelStop_keeps ?_
    | intro _)

theorem State.modSlot_keeps {σ s : State} {n : Nat} {f : PushSlot → PushSlot} (hσ : Keeps σ s) : Keeps σ (State.modSlot s n f) := by
  unfold State.modSlot
  repeat' (first | with_reducible assumption | with_reducible refine State.modWin_keeps ?_)

theorem State.discardWrite_keeps {σ s : State} (hσ : Keeps σ s) : Keeps σ (State.discardWrite s) := by
  unfold State.discardWrite
  repeat' (first | with_reducible assumption | with_reducible refine State.modWin_keeps ?_)

theorem State.lease_keeps {σ s : State} {slot : Nat} (hσ : Keeps σ s) : Keeps σ (State.lease s slot).2 := by
  unfold State.lease
  repeat' (first
    | with_reducible assumption
    | with_reducible refine State.modPoolOf_keeps ?_
    | with_reducible refine State.modWin_keeps ?_
    | with_reducible refine State.popBuf_keeps ?_ (by with_reducible assumption)
    | with_reducible refine Keeps.ite ?_ ?_
    | (extract_lets -underBinder +onlyGivenNames z
       first | (refine (fun hz : Keeps σ z => ?_) ?_; on_goal 1 => clear_value z
                on_goal 2 => (unfold z; clear z))
             | clear_value z)
    | split)
theorem State.lease_keeps_of {σ s : State} {slot : Nat} {t : State} {aa} (hσ : Keeps σ s) (heq : State.lease s slot = (aa, t)) : Keeps σ t := by
  have : Keeps σ (State.lease s slot).2 := State.lease_keeps hσ
  rw [heq] at this; exact this

theorem State.readLease_keeps {σ s : State} {slot : Nat} (hσ : Keeps σ s) : Keeps σ (State.readLease s slot) := by
  unfold State.readLease
  split
  · exact State.modPoolOf_keeps hσ
  · exact State.send_keeps (State.lease_keeps hσ)

theorem State.apertureWrite_keeps {σ s : State} {h off : Nat} {data : List (Option Byte)} (hσ : Keeps σ s) : Keeps σ (State.apertureWrite s h off data) := by
  unfold State.apertureWrite
  repeat' (first
    | with_reducible assumption
    | with_reducible refine Keeps.foldl ?_ ?_
    | with_reducible refine State.discardWrite_keeps ?_
    | with_reducible refine State.modWin_keeps ?_
    | with_reducible refine Keeps.ite ?_ ?_
    | (extract_lets -underBinder +onlyGivenNames z
       first | (refine (fun hz : Keeps σ z => ?_) ?_; on_goal 1 => clear_value z
                on_goal 2 => (unfold z; clear z))
             | clear_value z)
    | split
    | intro _)

theorem State.endLease_keeps {σ s : State} {h : Nat} (hσ : Keeps σ s) : Keeps σ (State.endLease s h) := by
  unfold State.endLease
  repeat' (first | with_reducible assumption | with_reducible refine State.modWin_keeps ?_ | with_reducible refine State.pushBuf_keeps ?_)

theorem State.offerSlot_keeps {σ s : State} {slot : Nat} (hσ : Keeps σ s) : Keeps σ (State.offerSlot s slot) := by
  unfold State.offerSlot
  repeat' (first
    | with_reducible assumption
    | with_reducible refine State.offer_keeps ?_
    | with_reducible refine Keeps.ite ?_ ?_
    | (extract_lets -underBinder +onlyGivenNames z
       first | (refine (fun hz : Keeps σ z => ?_) ?_; on_goal 1 => clear_value z
                on_goal 2 => (unfold z; clear z))
             | clear_value z)
    | split)

theorem State.commitSlot_keeps {σ s : State} {slot : Nat} (hσ : Keeps σ s) : Keeps σ (State.commitSlot s slot) := by
  unfold State.commitSlot
  repeat' (first
    | with_reducible assumption
    | with_reducible refine State.modBuf_keeps ?_
    | with_reducible refine State.modSlot_keeps ?_
    | with_reducible refine State.modWin_keeps ?_
    | with_reducible refine State.offerSlot_keeps ?_
    | with_reducible refine Keeps.ite ?_ ?_
    | (extract_lets -underBinder +onlyGivenNames z
       first | (refine (fun hz : Keeps σ z => ?_) ?_; on_goal 1 => clear_value z
                on_goal 2 => (unfold z; clear z))
             | clear_value z)
    | split)

theorem State.slotResume_keeps {σ s : State} {slot : Nat} (hσ : Keeps σ s) : Keeps σ (State.slotResume s slot) := by
  unfold State.slotResume
  repeat' (first | with_reducible assumption | with_reducible refine State.modSlot_keeps ?_ | with_reducible refine State.offerSlot_keeps ?_)

theorem State.slotRelease_keeps {σ s : State} {slot : Nat} (hσ : Keeps σ s) : Keeps σ (State.slotRelease s slot) := by
  unfold State.slotRelease
  repeat' (first
    | with_reducible assumption
    | with_reducible refine Keeps.foldl ?_ ?_
    | with_reducible refine Keeps.foldlP ?_ ?_
    | with_reducible refine Keeps.foldlQ ?_ ?_
    | with_reducible refine State.endLease_keeps ?_
    | intro _)

theorem State.pushReset_keeps {σ s : State} (hσ : Keeps σ s) : Keeps σ (State.pushReset s) := by
  unfold State.pushReset
  repeat' (first
    | with_reducible assumption
    | with_reducible refine Keeps.foldl ?_ ?_
    | with_reducible refine Keeps.foldlP ?_ ?_
    | with_reducible refine Keeps.foldlQ ?_ ?_
    | with_reducible refine State.modHost_keeps ?_
    | with_reducible refine State.modWin_keeps ?_
    | with_reducible refine State.pushBuf_keeps ?_
    | (extract_lets -underBinder +onlyGivenNames z
       first | (refine (fun hz : Keeps σ z => ?_) ?_; on_goal 1 => clear_value z
                on_goal 2 => (unfold z; clear z))
             | (refine (fun hz : Keeps σ z.2 => ?_) ?_; on_goal 1 => clear_value z
                on_goal 2 => (unfold z; clear z))
             | (refine (fun hz : Keeps σ z.1 => ?_) ?_; on_goal 1 => clear_value z
                on_goal 2 => (unfold z; clear z))
             | clear_value z)
    | intro _)

theorem State.peelActions_keeps {σ s : State} {ch v : Nat} (hσ : Keeps σ s) : Keeps σ (State.peelActions s ch v) := by
  unfold State.peelActions
  repeat' (first
    | with_reducible assumption
    | with_reducible refine State.peelResume_keeps ?_
    | with_reducible refine State.peelStart_keeps ?_
    | with_reducible refine State.peelStop_keeps ?_
    | with_reducible refine Keeps.ite ?_ ?_
    | (extract_lets -underBinder +onlyGivenNames z
       first | (refine (fun hz : Keeps σ z => ?_) ?_; on_goal 1 => clear_value z
                on_goal 2 => (unfold z; clear z))
             | clear_value z)
    | split)

theorem State.winDword_keeps {σ s : State} {a : Nat} (hσ : Keeps σ s) : Keeps σ (State.winDword s a).2 := by
  unfold State.winDword
  repeat' (first
    | with_reducible assumption
    | with_reducible refine State.lease_keeps ?_
    | with_reducible refine State.lease_keeps_of ?_ (by with_reducible assumption)
    | with_reducible refine Keeps.ite ?_ ?_
    | split)
theorem State.winDword_keeps_of {σ s : State} {a : Nat} {t : State} {aa} (hσ : Keeps σ s) (heq : State.winDword s a = (aa, t)) : Keeps σ t := by
  have : Keeps σ (State.winDword s a).2 := State.winDword_keeps hσ
  rw [heq] at this; exact this

theorem State.winRead_keeps {σ s : State} {a n : Nat} (hσ : Keeps σ s) : Keeps σ (State.winRead s a n).2 := by
  unfold State.winRead
  repeat' (first
    | with_reducible assumption
    | with_reducible refine State.winDword_keeps ?_
    | with_reducible refine State.winDword_keeps_of ?_ (by with_reducible assumption)
    | with_reducible refine Keeps.ite ?_ ?_
    | (extract_lets -underBinder +onlyGivenNames z
       first | (refine (fun hz : Keeps σ z => ?_) ?_; on_goal 1 => clear_value z
                on_goal 2 => (unfold z; clear z))
             | (refine (fun hz : Keeps σ z.2 => ?_) ?_; on_goal 1 => clear_value z
                on_goal 2 => (unfold z; clear z))
             | clear_value z)
    | split)
theorem State.winRead_keeps_of {σ s : State} {a n : Nat} {t : State} {aa} (hσ : Keeps σ s) (heq : State.winRead s a n = (aa, t)) : Keeps σ t := by
  have : Keeps σ (State.winRead s a n).2 := State.winRead_keeps hσ
  rw [heq] at this; exact this

theorem State.winFields_keeps {σ s : State} {a v : Nat} (hσ : Keeps σ s) : Keeps σ (State.winFields s a v) := by
  unfold State.winFields
  repeat' (first
    | with_reducible assumption
    | with_reducible refine State.modPeel_keeps ?_
    | with_reducible refine State.modSlot_keeps ?_
    | with_reducible refine Keeps.ite ?_ ?_
    | split)

theorem State.winActions_keeps {σ s : State} {a v : Nat} (hσ : Keeps σ s) : Keeps σ (State.winActions s a v) := by
  unfold State.winActions
  repeat' (first
    | with_reducible assumption
    | with_reducible refine State.commitSlot_keeps ?_
    | with_reducible refine State.peelActions_keeps ?_
    | with_reducible refine State.slotRelease_keeps ?_
    | with_reducible refine State.slotResume_keeps ?_
    | with_reducible refine Keeps.ite ?_ ?_
    | (extract_lets -underBinder +onlyGivenNames z
       first | (refine (fun hz : Keeps σ z => ?_) ?_; on_goal 1 => clear_value z
                on_goal 2 => (unfold z; clear z))
             | clear_value z)
    | split)

theorem State.winWrite_keeps {σ s : State} {a : Nat} {data : List (Option Byte)} (hσ : Keeps σ s) : Keeps σ (State.winWrite s a data) := by
  unfold State.winWrite
  repeat' (first
    | with_reducible assumption
    | with_reducible refine Keeps.foldl ?_ ?_
    | with_reducible refine Keeps.foldlP ?_ ?_
    | with_reducible refine Keeps.foldlQ ?_ ?_
    | with_reducible refine State.apertureWrite_keeps ?_
    | with_reducible refine State.discardWrite_keeps ?_
    | with_reducible refine State.winActions_keeps ?_
    | with_reducible refine State.winFields_keeps ?_
    | with_reducible refine Keeps.ite ?_ ?_
    | (extract_lets -underBinder +onlyGivenNames z
       first | (refine (fun hz : Keeps σ z => ?_) ?_; on_goal 1 => clear_value z
                on_goal 2 => (unfold z; clear z))
             | (refine (fun hz : Keeps σ z.2 => ?_) ?_; on_goal 1 => clear_value z
                on_goal 2 => (unfold z; clear z))
             | (refine (fun hz : Keeps σ z.1 => ?_) ?_; on_goal 1 => clear_value z
                on_goal 2 => (unfold z; clear z))
             | clear_value z)
    | split
    | intro _)

theorem State.mirrorPage_keeps {σ s : State} (hσ : Keeps σ s) : Keeps σ (State.mirrorPage s) := by
  unfold State.mirrorPage
  repeat' (first
    | with_reducible assumption
    | with_reducible refine State.modEvt_keeps ?_ ?_
    | with_reducible exact fun _ => ⟨rfl, rfl⟩
    | with_reducible exact fun _ => rfl
    | (intro x; try dsimp only; repeat' split) <;> with_reducible first | rfl | exact ⟨rfl, rfl⟩
    | (extract_lets -underBinder +onlyGivenNames z
       first | (refine (fun hz : Keeps σ z => ?_) ?_; on_goal 1 => clear_value z
                on_goal 2 => (unfold z; clear z))
             | clear_value z)
    | intro _)

theorem State.dropFlows_keeps {σ s : State} (hσ : Keeps σ s) : Keeps σ (State.dropFlows s) := by
  unfold State.dropFlows
  repeat' (first
    | with_reducible assumption
    | with_reducible refine State.modFlash_keeps ?_
    | with_reducible refine State.modHost_keeps ?_
    | with_reducible refine State.modPlace_keeps ?_
    | (extract_lets -underBinder +onlyGivenNames z
       first | (refine (fun hz : Keeps σ z => ?_) ?_; on_goal 1 => clear_value z
                on_goal 2 => (unfold z; clear z))
             | clear_value z))

theorem State.fabricLost_keeps {σ s : State} {f : FabFlow} (hσ : Keeps σ s) : Keeps σ (State.fabricLost s f) := by
  unfold State.fabricLost
  repeat' (first
    | with_reducible assumption
    | with_reducible refine State.endCopy_keeps ?_
    | with_reducible refine State.failVersion_keeps ?_
    | with_reducible refine State.retryJob_keeps ?_
    | split)

theorem State.unfence_keeps {σ s : State} {kind n : Nat} (hσ : Keeps σ s) : Keeps σ (State.unfence s kind n) := by
  unfold State.unfence
  repeat' (first | with_reducible assumption | with_reducible refine State.modPlace_keeps ?_ | split)

end Sys2Proof.Machine
end

