-- ==== Sys2Proof/Laws/KeepsBoard.lean ====
section
/-!
SUPPORT. One lemma per operation about `Keeps` (Safety): that the shared operations of the board and of the Rack mechanism undo nothing.
-/
namespace Sys2Proof.Machine
open Sys2Proof

set_option linter.unnecessarySeqFocus false
set_option linter.unusedTactic false
set_option linter.unreachableTactic false

theorem State.modSub_keeps {σ s : State} {n : Nat} {f : SubCh → SubCh} (hσ : Keeps σ s) : Keeps σ (State.modSub s n f) := by
  unfold State.modSub
  repeat' (first | with_reducible assumption | with_reducible refine State.modDram_keeps ?_)

theorem State.modHelper_keeps {σ s : State} {n : Nat} {f : Helper → Helper} (hσ : Keeps σ s) : Keeps σ (State.modHelper s n f) := by
  unfold State.modHelper
  repeat' (first | with_reducible assumption | with_reducible refine State.modSub_keeps ?_)

theorem State.track_keeps {σ s : State} {sub : Nat} {drift : List Int} (hσ : Keeps σ s) : Keeps σ (State.track s sub drift) := by
  unfold State.track
  repeat' (first
    | with_reducible assumption
    | with_reducible refine Keeps.foldl ?_ ?_
    | with_reducible refine State.fault_keeps ?_
    | with_reducible refine State.modHelper_keeps ?_
    | with_reducible refine State.modSub_keeps ?_
    | with_reducible refine Keeps.ite ?_ ?_
    | (extract_lets -underBinder +onlyGivenNames z
       first | (refine (fun hz : Keeps σ z => ?_) ?_; on_goal 1 => clear_value z
                on_goal 2 => (unfold z; clear z))
             | clear_value z)
    | split
    | intro _)

theorem State.poisoned_keeps {σ s : State} {holds key : Nat} (hσ : Keeps σ s) : Keeps σ (State.poisoned s holds key) := by
  unfold State.poisoned
  repeat' (first
    | with_reducible assumption
    | with_reducible refine State.dropOpenStack_keeps ?_
    | with_reducible refine State.fault_keeps ?_
    | with_reducible refine State.modEvt_keeps ?_ ?_
    | with_reducible refine State.modMap_keeps ?_
    | with_reducible refine State.modServo_keeps ?_
    | with_reducible exact fun _ => ⟨rfl, rfl⟩
    | with_reducible exact fun _ => rfl
    | (intro x; try dsimp only; repeat' split) <;> with_reducible first | rfl | exact ⟨rfl, rfl⟩
    | with_reducible refine Keeps.ite ?_ ?_
    | (extract_lets -underBinder +onlyGivenNames z
       first | (refine (fun hz : Keeps σ z => ?_) ?_; on_goal 1 => clear_value z
                on_goal 2 => (unfold z; clear z))
             | (refine (fun hz : Keeps σ z.2 => ?_) ?_; on_goal 1 => clear_value z
                on_goal 2 => (unfold z; clear z))
             | (refine (fun hz : Keeps σ z.1 => ?_) ?_; on_goal 1 => clear_value z
                on_goal 2 => (unfold z; clear z))
             | clear_value z)
    | split
    | intro _)

theorem State.setLevels_keeps {σ s : State} {levels : List Nat} (hσ : Keeps σ s) : Keeps σ (State.setLevels s levels) := by
  unfold State.setLevels
  repeat' (first
    | with_reducible assumption
    | with_reducible refine Keeps.optMap ?_ ?_
    | with_reducible refine Keeps.optGet ?_ ?_
    | with_reducible refine Keeps.optElim ?_ ?_
    | with_reducible refine State.modDram_keeps ?_
    | with_reducible refine Keeps.ite ?_ ?_
    | (extract_lets -underBinder +onlyGivenNames z
       first | (refine (fun hz : Keeps σ z => ?_) ?_; on_goal 1 => clear_value z
                on_goal 2 => (unfold z; clear z))
             | (refine (fun hz : Keeps σ z.2 => ?_) ?_; on_goal 1 => clear_value z
                on_goal 2 => (unfold z; clear z))
             | (refine (fun hz : Keeps σ z.1 => ?_) ?_; on_goal 1 => clear_value z
                on_goal 2 => (unfold z; clear z))
             | clear_value z)
    | split
    | intro _)

theorem State.modDie_keeps {σ s : State} {d : Nat} {f : DieSt → DieSt} (hσ : Keeps σ s) : Keeps σ (State.modDie s d f) := by
  unfold State.modDie
  repeat' (first | with_reducible assumption | with_reducible refine State.modFlashIf_keeps ?_)

theorem State.modChannel_keeps {σ s : State} {ch : Nat} {f : ChanSt → ChanSt} (hσ : Keeps σ s) : Keeps σ (State.modChannel s ch f) := by
  unfold State.modChannel
  repeat' (first | with_reducible assumption | with_reducible refine State.modFlashIf_keeps ?_)

theorem State.findDie_keeps {σ s : State} {ch : Nat} {r : DieReport} (hσ : Keeps σ s) : Keeps σ (State.findDie s ch r) := by
  unfold State.findDie
  repeat' (first
    | with_reducible assumption
    | with_reducible refine State.dieFailed_keeps ?_
    | with_reducible refine State.modDie_keeps ?_
    | with_reducible refine State.modFlashIf_keeps ?_
    | with_reducible refine State.note_keeps ?_
    | with_reducible refine Keeps.ite ?_ ?_
    | (extract_lets -underBinder +onlyGivenNames z
       first | (refine (fun hz : Keeps σ z => ?_) ?_; on_goal 1 => clear_value z
                on_goal 2 => (unfold z; clear z))
             | clear_value z)
    | split)

theorem State.trainGroup_keeps {σ s : State} {g : Nat} (hσ : Keeps σ s) : Keeps σ (State.trainGroup s g) := by
  unfold State.trainGroup
  repeat' (first
    | with_reducible assumption
    | with_reducible refine Keeps.foldl ?_ ?_
    | with_reducible refine Keeps.foldlP ?_ ?_
    | with_reducible refine Keeps.foldlQ ?_ ?_
    | with_reducible refine State.dieFailed_keeps ?_
    | with_reducible refine State.modDie_keeps ?_
    | with_reducible refine State.modFlashIf_keeps ?_
    | with_reducible refine State.note_keeps ?_
    | with_reducible refine Keeps.ite ?_ ?_
    | (extract_lets -underBinder +onlyGivenNames z
       first | (refine (fun hz : Keeps σ z => ?_) ?_; on_goal 1 => clear_value z
                on_goal 2 => (unfold z; clear z))
             | (refine (fun hz : Keeps σ z.2 => ?_) ?_; on_goal 1 => clear_value z
                on_goal 2 => (unfold z; clear z))
             | (refine (fun hz : Keeps σ z.1 => ?_) ?_; on_goal 1 => clear_value z
                on_goal 2 => (unfold z; clear z))
             | clear_value z)
    | split
    | intro _)

theorem State.retrainAll_keeps {σ s : State} (hσ : Keeps σ s) : Keeps σ (State.retrainAll s) := by
  unfold State.retrainAll
  repeat' (first
    | with_reducible assumption
    | with_reducible refine State.modFlashIf_keeps ?_
    | with_reducible refine Keeps.ite ?_ ?_
    | split)

theorem State.powerFail_keeps {σ s : State} (hσ : Keeps σ s) : Keeps σ (State.powerFail s) := by
  unfold State.powerFail
  repeat' (first
    | with_reducible assumption
    | with_reducible refine Keeps.foldl ?_ ?_
    | with_reducible refine Keeps.foldlP ?_ ?_
    | with_reducible refine Keeps.foldlQ ?_ ?_
    | with_reducible refine State.modChan_keeps ?_
    | with_reducible refine State.modLink_keeps ?_
    | with_reducible refine State.modPwr_keeps ?_ ?_
    | with_reducible refine State.modServo_keeps ?_
    | with_reducible refine State.seal_keeps ?_
    | with_reducible refine State.seqPowerFail_keeps ?_
    | with_reducible exact fun _ => ⟨rfl, rfl⟩
    | with_reducible exact fun _ => rfl
    | (intro x; try dsimp only; repeat' split) <;> with_reducible first | rfl | exact ⟨rfl, rfl⟩
    | with_reducible refine Keeps.ite ?_ ?_
    | (extract_lets -underBinder +onlyGivenNames z
       first | (refine (fun hz : Keeps σ z => ?_) ?_; on_goal 1 => clear_value z
                on_goal 2 => (unfold z; clear z))
             | clear_value z)
    | split
    | intro _)

theorem State.controllerLost_keeps {σ s : State} {dur vend : Nat} {steps : BitVec 8} {brown : Bool} (hσ : Keeps σ s) : Keeps σ (State.controllerLost s dur vend steps brown) := by
  unfold State.controllerLost
  repeat' (first
    | with_reducible assumption
    | with_reducible refine Keeps.foldl ?_ ?_
    | with_reducible refine Keeps.foldlP ?_ ?_
    | with_reducible refine Keeps.foldlQ ?_ ?_
    | with_reducible refine State.atBoot_keeps ?_
    | with_reducible refine State.drainJournal_keeps ?_
    | with_reducible refine State.loseSector_keeps ?_
    | with_reducible refine State.modFlt_keeps ?_
    | with_reducible refine State.modMedia_keeps ?_
    | with_reducible refine State.modNvme_keeps ?_
    | with_reducible refine State.modPins_keeps ?_
    | with_reducible refine State.modPwr_keeps ?_ ?_
    | with_reducible exact fun _ => ⟨rfl, rfl⟩
    | with_reducible exact fun _ => rfl
    | (intro x; try dsimp only; repeat' split) <;> with_reducible first | rfl | exact ⟨rfl, rfl⟩
    | with_reducible refine Keeps.ite ?_ ?_
    | (extract_lets -underBinder +onlyGivenNames z
       first | (refine (fun hz : Keeps σ z => ?_) ?_; on_goal 1 => clear_value z
                on_goal 2 => (unfold z; clear z))
             | clear_value z)
    | split
    | intro _)

theorem State.ramp_keeps {σ s : State} {failed : Option Nat} (hσ : Keeps σ s) : Keeps σ (State.ramp s failed) := by
  unfold State.ramp
  repeat' (first
    | with_reducible assumption
    | with_reducible refine State.modPwr_keeps ?_ ?_
    | with_reducible exact fun _ => ⟨rfl, rfl⟩
    | with_reducible exact fun _ => rfl
    | (intro x; try dsimp only; repeat' split) <;> with_reducible first | rfl | exact ⟨rfl, rfl⟩
    | with_reducible refine Keeps.ite ?_ ?_
    | (extract_lets -underBinder +onlyGivenNames z
       first | (refine (fun hz : Keeps σ z => ?_) ?_; on_goal 1 => clear_value z
                on_goal 2 => (unfold z; clear z))
             | clear_value z)
    | split
    | intro _)

theorem State.aonLost_keeps {σ s : State} (hσ : Keeps σ s) : Keeps σ (State.aonLost s) := by
  unfold State.aonLost
  repeat' (first
    | with_reducible assumption
    | with_reducible refine State.modFlt_keeps ?_
    | with_reducible refine State.modOspi_keeps ?_ ?_
    | with_reducible refine State.modPwr_keeps ?_ ?_
    | with_reducible refine State.modTherm_keeps ?_
    | with_reducible exact fun _ => ⟨rfl, rfl⟩
    | with_reducible exact fun _ => rfl
    | (intro x; try dsimp only; repeat' split) <;> with_reducible first | rfl | exact ⟨rfl, rfl⟩
    | (extract_lets -underBinder +onlyGivenNames z
       first | (refine (fun hz : Keeps σ z => ?_) ?_; on_goal 1 => clear_value z
                on_goal 2 => (unfold z; clear z))
             | clear_value z)
    | intro _)

theorem State.mainAt_keeps {σ s : State} {vin vb : Nat} (hσ : Keeps σ s) : Keeps σ (State.mainAt s vin vb) := by
  unfold State.mainAt
  repeat' (first
    | with_reducible assumption
    | with_reducible refine State.modPwr_keeps ?_ ?_
    | with_reducible exact fun _ => ⟨rfl, rfl⟩
    | with_reducible exact fun _ => rfl
    | (intro x; try dsimp only; repeat' split) <;> with_reducible first | rfl | exact ⟨rfl, rfl⟩
    | with_reducible refine Keeps.ite ?_ ?_
    | (extract_lets -underBinder +onlyGivenNames z
       first | (refine (fun hz : Keeps σ z => ?_) ?_; on_goal 1 => clear_value z
                on_goal 2 => (unfold z; clear z))
             | clear_value z)
    | split
    | intro _)

theorem State.leaveLowv_keeps {σ s : State} (hσ : Keeps σ s) : Keeps σ (State.leaveLowv s) := by
  unfold State.leaveLowv
  repeat' (first
    | with_reducible assumption
    | with_reducible refine State.demandSpin_keeps ?_
    | with_reducible refine State.flowDemand_keeps ?_
    | with_reducible refine State.modRack_keeps ?_
    | with_reducible refine State.settle_keeps ?_
    | with_reducible refine State.vmotUpdate_keeps ?_
    | with_reducible refine Keeps.ite ?_ ?_
    | (extract_lets -underBinder +onlyGivenNames z
       first | (refine (fun hz : Keeps σ z => ?_) ?_; on_goal 1 => clear_value z
                on_goal 2 => (unfold z; clear z))
             | clear_value z)
    | split)

theorem State.toLowv_keeps {σ s : State} (hσ : Keeps σ s) : Keeps σ (State.toLowv s) := by
  unfold State.toLowv
  repeat' (first
    | with_reducible assumption
    | with_reducible refine State.refuseRackJobs_keeps ?_
    | with_reducible refine State.spinDown_keeps ?_
    | with_reducible refine State.vmotUpdate_keeps ?_)

theorem State.endHold_keeps {σ s : State} {met : Bool} (hσ : Keeps σ s) : Keeps σ (State.endHold s met) := by
  unfold State.endHold
  repeat' (first
    | with_reducible assumption
    | with_reducible refine State.modPwr_keeps ?_ ?_
    | with_reducible refine State.note_keeps ?_
    | with_reducible refine State.settle_keeps ?_
    | with_reducible exact fun _ => ⟨rfl, rfl⟩
    | with_reducible exact fun _ => rfl
    | (intro x; try dsimp only; repeat' split) <;> with_reducible first | rfl | exact ⟨rfl, rfl⟩
    | split
    | intro _)

theorem State.stopReduced_keeps {σ s : State} (hσ : Keeps σ s) : Keeps σ (State.stopReduced s) := by
  unfold State.stopReduced
  repeat' (first
    | with_reducible assumption
    | with_reducible refine State.brakeWhenParked_keeps ?_
    | with_reducible refine State.modRack_keeps ?_
    | with_reducible refine Keeps.ite ?_ ?_
    | split)

theorem State.setPs_keeps {σ s : State} {n by_ : Nat} (hσ : Keeps σ s) : Keeps σ (State.setPs s n by_) := by
  unfold State.setPs
  repeat' (first
    | with_reducible assumption
    | with_reducible refine State.modDram_keeps ?_
    | with_reducible refine State.modNvme_keeps ?_
    | with_reducible refine State.modPwr_keeps ?_ ?_
    | with_reducible refine State.note_keeps ?_
    | with_reducible refine State.retuneOp_keeps ?_
    | with_reducible refine State.sendLtr_keeps ?_
    | with_reducible refine State.spinDown_keeps ?_
    | with_reducible refine State.stopReduced_keeps ?_
    | with_reducible exact fun _ => ⟨rfl, rfl⟩
    | with_reducible exact fun _ => rfl
    | (intro x; try dsimp only; repeat' split) <;> with_reducible first | rfl | exact ⟨rfl, rfl⟩
    | with_reducible refine Keeps.ite ?_ ?_
    | (extract_lets -underBinder +onlyGivenNames z
       first | (refine (fun hz : Keeps σ z => ?_) ?_; on_goal 1 => clear_value z
                on_goal 2 => (unfold z; clear z))
             | clear_value z)
    | split
    | intro _)

theorem State.governDown_keeps {σ s : State} (hσ : Keeps σ s) : Keeps σ (State.governDown s) := by
  unfold State.governDown
  repeat' (first
    | with_reducible assumption
    | with_reducible refine State.modPwr_keeps ?_ ?_
    | with_reducible refine State.retuneOp_keeps ?_
    | with_reducible exact fun _ => ⟨rfl, rfl⟩
    | with_reducible exact fun _ => rfl
    | (intro x; try dsimp only; repeat' split) <;> with_reducible first | rfl | exact ⟨rfl, rfl⟩
    | with_reducible refine Keeps.ite ?_ ?_
    | (extract_lets -underBinder +onlyGivenNames z
       first | (refine (fun hz : Keeps σ z => ?_) ?_; on_goal 1 => clear_value z
                on_goal 2 => (unfold z; clear z))
             | clear_value z)
    | split
    | intro _)

theorem State.governUp_keeps {σ s : State} (hσ : Keeps σ s) : Keeps σ (State.governUp s) := by
  unfold State.governUp
  repeat' (first
    | with_reducible assumption
    | with_reducible refine State.modPwr_keeps ?_ ?_
    | with_reducible refine State.retuneOp_keeps ?_
    | with_reducible exact fun _ => ⟨rfl, rfl⟩
    | with_reducible exact fun _ => rfl
    | (intro x; try dsimp only; repeat' split) <;> with_reducible first | rfl | exact ⟨rfl, rfl⟩
    | with_reducible refine Keeps.ite ?_ ?_
    | split
    | intro _)

theorem State.modSensor_keeps {σ s : State} {i : Nat} {f : Sensor → Sensor} (hσ : Keeps σ s) : Keeps σ (State.modSensor s i f) := by
  unfold State.modSensor
  repeat' (first | with_reducible assumption | with_reducible refine State.modTherm_keeps ?_)

theorem State.noteBand_keeps {σ s : State} {input : Option Nat} {old new : Nat} (hσ : Keeps σ s) : Keeps σ (State.noteBand s input old new) := by
  unfold State.noteBand
  repeat' (first | with_reducible assumption | with_reducible refine State.note_keeps ?_ | split)

theorem State.bandCtl_keeps {σ s : State} (hσ : Keeps σ s) : Keeps σ (State.bandCtl s) := by
  unfold State.bandCtl
  repeat' (first
    | with_reducible assumption
    | with_reducible refine State.modTherm_keeps ?_
    | with_reducible refine State.noteBand_keeps ?_
    | with_reducible refine Keeps.ite ?_ ?_
    | (extract_lets -underBinder +onlyGivenNames z
       first | (refine (fun hz : Keeps σ z => ?_) ?_; on_goal 1 => clear_value z
                on_goal 2 => (unfold z; clear z))
             | clear_value z)
    | split)

theorem State.bandPwr_keeps {σ s : State} (hσ : Keeps σ s) : Keeps σ (State.bandPwr s) := by
  unfold State.bandPwr
  repeat' (first
    | with_reducible assumption
    | with_reducible refine State.modPwr_keeps ?_ ?_
    | with_reducible refine State.modTherm_keeps ?_
    | with_reducible refine State.noteBand_keeps ?_
    | with_reducible exact fun _ => ⟨rfl, rfl⟩
    | with_reducible exact fun _ => rfl
    | (intro x; try dsimp only; repeat' split) <;> with_reducible first | rfl | exact ⟨rfl, rfl⟩
    | with_reducible refine Keeps.ite ?_ ?_
    | (extract_lets -underBinder +onlyGivenNames z
       first | (refine (fun hz : Keeps σ z => ?_) ?_; on_goal 1 => clear_value z
                on_goal 2 => (unfold z; clear z))
             | clear_value z)
    | split
    | intro _)

theorem State.bandFlash_keeps {σ s : State} {g : Nat} (hσ : Keeps σ s) : Keeps σ (State.bandFlash s g) := by
  unfold State.bandFlash
  repeat' (first
    | with_reducible assumption
    | with_reducible refine Keeps.optMap ?_ ?_
    | with_reducible refine Keeps.optGet ?_ ?_
    | with_reducible refine Keeps.optElim ?_ ?_
    | with_reducible refine State.modFlashIf_keeps ?_
    | with_reducible refine State.modTherm_keeps ?_
    | with_reducible refine State.noteBand_keeps ?_
    | with_reducible refine Keeps.ite ?_ ?_
    | (extract_lets -underBinder +onlyGivenNames z
       first | (refine (fun hz : Keeps σ z => ?_) ?_; on_goal 1 => clear_value z
                on_goal 2 => (unfold z; clear z))
             | (refine (fun hz : Keeps σ z.2 => ?_) ?_; on_goal 1 => clear_value z
                on_goal 2 => (unfold z; clear z))
             | (refine (fun hz : Keeps σ z.1 => ?_) ?_; on_goal 1 => clear_value z
                on_goal 2 => (unfold z; clear z))
             | clear_value z)
    | split
    | intro _)

theorem State.bandRack_keeps {σ s : State} (hσ : Keeps σ s) : Keeps σ (State.bandRack s) := by
  unfold State.bandRack
  repeat' (first
    | with_reducible assumption
    | with_reducible refine State.bandParams_keeps ?_
    | with_reducible refine State.modChan_keeps ?_
    | with_reducible refine State.noteBand_keeps ?_
    | with_reducible refine State.refuseRackJobs_keeps ?_
    | with_reducible refine Keeps.ite ?_ ?_
    | (extract_lets -underBinder +onlyGivenNames z
       first | (refine (fun hz : Keeps σ z => ?_) ?_; on_goal 1 => clear_value z
                on_goal 2 => (unfold z; clear z))
             | clear_value z)
    | split)

theorem State.bands_keeps {σ s : State} (hσ : Keeps σ s) : Keeps σ (State.bands s) := by
  unfold State.bands
  repeat' (first
    | with_reducible assumption
    | with_reducible refine Keeps.foldl ?_ ?_
    | with_reducible refine State.bandCtl_keeps ?_
    | with_reducible refine State.bandFlash_keeps ?_
    | with_reducible refine State.bandPwr_keeps ?_
    | with_reducible refine State.bandRack_keeps ?_
    | intro _)

theorem State.declareBroken_keeps {σ s : State} {i cond : Nat} (hσ : Keeps σ s) : Keeps σ (State.declareBroken s i cond) := by
  unfold State.declareBroken
  repeat' (first
    | with_reducible assumption
    | with_reducible refine State.fault_keeps ?_
    | with_reducible refine State.modSensor_keeps ?_
    | with_reducible refine State.note_keeps ?_
    | with_reducible refine State.warnBit_keeps ?_
    | (extract_lets -underBinder +onlyGivenNames z
       first | (refine (fun hz : Keeps σ z => ?_) ?_; on_goal 1 => clear_value z
                on_goal 2 => (unfold z; clear z))
             | clear_value z))

theorem State.protectiveShutdown_keeps {σ s : State} {i : Nat} {t : Int} (hσ : Keeps σ s) : Keeps σ (State.protectiveShutdown s i t) := by
  unfold State.protectiveShutdown
  repeat' (first
    | with_reducible assumption
    | with_reducible refine State.modFlt_keeps ?_
    | with_reducible refine State.modPwr_keeps ?_ ?_
    | with_reducible refine State.modTherm_keeps ?_
    | with_reducible refine State.powerFail_keeps ?_
    | with_reducible exact fun _ => ⟨rfl, rfl⟩
    | with_reducible exact fun _ => rfl
    | (intro x; try dsimp only; repeat' split) <;> with_reducible first | rfl | exact ⟨rfl, rfl⟩
    | (extract_lets -underBinder +onlyGivenNames z
       first | (refine (fun hz : Keeps σ z => ?_) ?_; on_goal 1 => clear_value z
                on_goal 2 => (unfold z; clear z))
             | clear_value z)
    | intro _)

theorem State.shutRelease_keeps {σ s : State} (hσ : Keeps σ s) : Keeps σ (State.shutRelease s) := by
  unfold State.shutRelease
  repeat' (first
    | with_reducible assumption
    | with_reducible refine State.modFlt_keeps ?_
    | with_reducible refine State.modTherm_keeps ?_
    | with_reducible refine Keeps.ite ?_ ?_
    | split)

theorem State.takeReading_keeps {σ s : State} {input : Nat} {reading : Option Int} {ref : Int} (hσ : Keeps σ s) : Keeps σ (State.takeReading s input reading ref) := by
  unfold State.takeReading
  repeat' (first
    | with_reducible assumption
    | with_reducible refine State.modSensor_keeps ?_
    | (extract_lets -underBinder +onlyGivenNames z
       first | (refine (fun hz : Keeps σ z => ?_) ?_; on_goal 1 => clear_value z
                on_goal 2 => (unfold z; clear z))
             | clear_value z)
    | split)

theorem State.judgeReading_keeps {σ s : State} {input : Nat} {ref : Int} (hσ : Keeps σ s) : Keeps σ (State.judgeReading s input ref) := by
  unfold State.judgeReading
  repeat' (first
    | with_reducible assumption
    | with_reducible refine State.bands_keeps ?_
    | with_reducible refine State.declareBroken_keeps ?_
    | with_reducible refine State.protectiveShutdown_keeps ?_
    | with_reducible refine Keeps.ite ?_ ?_
    | (extract_lets -underBinder +onlyGivenNames z
       first | (refine (fun hz : Keeps σ z => ?_) ?_; on_goal 1 => clear_value z
                on_goal 2 => (unfold z; clear z))
             | clear_value z)
    | split)

theorem State.evalSlope_keeps {σ s : State} {i : Nat} (hσ : Keeps σ s) : Keeps σ (State.evalSlope s i) := by
  unfold State.evalSlope
  repeat' (first
    | with_reducible assumption
    | with_reducible refine State.fault_keeps ?_
    | with_reducible refine State.modSensor_keeps ?_
    | with_reducible refine State.note_keeps ?_
    | with_reducible refine Keeps.ite ?_ ?_
    | (extract_lets -underBinder +onlyGivenNames z
       first | (refine (fun hz : Keeps σ z => ?_) ?_; on_goal 1 => clear_value z
                on_goal 2 => (unfold z; clear z))
             | (refine (fun hz : Keeps σ z.2 => ?_) ?_; on_goal 1 => clear_value z
                on_goal 2 => (unfold z; clear z))
             | (refine (fun hz : Keeps σ z.1 => ?_) ?_; on_goal 1 => clear_value z
                on_goal 2 => (unfold z; clear z))
             | clear_value z)
    | split)

theorem State.discardContexts_keeps {σ s : State} (hσ : Keeps σ s) : Keeps σ (State.discardContexts s) := by
  unfold State.discardContexts
  repeat' (first
    | with_reducible assumption
    | with_reducible refine State.cancelReads_keeps ?_
    | with_reducible refine State.unqueueVersion_keeps ?_
    | with_reducible refine State.modWin_keeps ?_
    | with_reducible refine Keeps.foldl ?_ ?_
    | with_reducible refine Keeps.foldlP ?_ ?_
    | with_reducible refine Keeps.foldlQ ?_ ?_
    | with_reducible refine State.dropVersion_keeps ?_
    | with_reducible refine State.effectParked_keeps ?_
    | with_reducible refine State.modCfg_keeps ?_
    | with_reducible refine State.modEvt_keeps ?_ ?_
    | with_reducible refine State.modFlash_keeps ?_
    | with_reducible refine State.modFw_keeps ?_ ?_
    | with_reducible refine State.modHost_keeps ?_
    | with_reducible refine State.modMap_keeps ?_
    | with_reducible refine State.modVersion_keeps ?_
    | with_reducible refine State.releaseVersion_keeps ?_
    | with_reducible refine State.settle_keeps ?_
    | with_reducible exact fun _ => ⟨rfl, rfl⟩
    | with_reducible exact fun _ => rfl
    | (intro x; try dsimp only; repeat' split) <;> with_reducible first | rfl | exact ⟨rfl, rfl⟩
    | with_reducible refine Keeps.ite ?_ ?_
    | (extract_lets -underBinder +onlyGivenNames z
       first | (refine (fun hz : Keeps σ z => ?_) ?_; on_goal 1 => clear_value z
                on_goal 2 => (unfold z; clear z))
             | (refine (fun hz : Keeps σ z.2 => ?_) ?_; on_goal 1 => clear_value z
                on_goal 2 => (unfold z; clear z))
             | (refine (fun hz : Keeps σ z.1 => ?_) ?_; on_goal 1 => clear_value z
                on_goal 2 => (unfold z; clear z))
             | clear_value z)
    | split
    | intro _)

theorem State.abandonReads_keeps {σ s : State} {reset : Bool} (hσ : Keeps σ s) : Keeps σ (State.abandonReads s reset) := by
  unfold State.abandonReads
  repeat' (first
    | with_reducible assumption
    | with_reducible refine State.modPcie_keeps ?_
    | (extract_lets -underBinder +onlyGivenNames z
       first | (refine (fun hz : Keeps σ z => ?_) ?_; on_goal 1 => clear_value z
                on_goal 2 => (unfold z; clear z))
             | clear_value z))

theorem State.disarm_keeps {σ s : State} (hσ : Keeps σ s) : Keeps σ (State.disarm s) := by
  unfold State.disarm
  repeat' (first
    | with_reducible assumption
    | with_reducible refine State.cancelScheduled_keeps ?_
    | with_reducible refine State.modCfg_keeps ?_
    | with_reducible refine State.modFw_keeps ?_ ?_
    | with_reducible refine State.note_keeps ?_
    | with_reducible refine State.trigger_keeps ?_
    | with_reducible exact fun _ => ⟨rfl, rfl⟩
    | with_reducible exact fun _ => rfl
    | (intro x; try dsimp only; repeat' split) <;> with_reducible first | rfl | exact ⟨rfl, rfl⟩
    | with_reducible refine Keeps.ite ?_ ?_
    | (extract_lets -underBinder +onlyGivenNames z
       first | (refine (fun hz : Keeps σ z => ?_) ?_; on_goal 1 => clear_value z
                on_goal 2 => (unfold z; clear z))
             | clear_value z)
    | split
    | intro _)

theorem State.resetController_keeps {σ s : State} (hσ : Keeps σ s) : Keeps σ (State.resetController s) := by
  unfold State.resetController
  repeat' (first
    | with_reducible assumption
    | with_reducible refine State.disarm_keeps ?_
    | with_reducible refine State.discardContexts_keeps ?_
    | with_reducible refine State.modNvme_keeps ?_
    | with_reducible refine State.peelReset_keeps ?_
    | with_reducible refine State.pushReset_keeps ?_
    | (extract_lets -underBinder +onlyGivenNames z
       first | (refine (fun hz : Keeps σ z => ?_) ?_; on_goal 1 => clear_value z
                on_goal 2 => (unfold z; clear z))
             | clear_value z))

theorem State.controllerReset_keeps {σ s : State} (hσ : Keeps σ s) : Keeps σ (State.controllerReset s) := by
  unfold State.controllerReset
  repeat' (first
    | with_reducible assumption
    | with_reducible refine State.abandonReads_keeps ?_
    | with_reducible refine State.modNvme_keeps ?_
    | with_reducible refine State.resetController_keeps ?_)

theorem State.controllerEnable_keeps {σ s : State} (hσ : Keeps σ s) : Keeps σ (State.controllerEnable s) := by
  unfold State.controllerEnable
  repeat' (first
    | with_reducible assumption
    | with_reducible refine State.announceDeferred_keeps ?_
    | with_reducible refine State.becomeReady_keeps ?_
    | with_reducible refine State.featureDefaults_keeps ?_
    | with_reducible refine State.modFw_keeps ?_ ?_
    | with_reducible refine State.modHost_keeps ?_
    | with_reducible refine State.modNvme_keeps ?_
    | with_reducible refine State.trigger_keeps ?_
    | with_reducible exact fun _ => ⟨rfl, rfl⟩
    | with_reducible exact fun _ => rfl
    | (intro x; try dsimp only; repeat' split) <;> with_reducible first | rfl | exact ⟨rfl, rfl⟩
    | with_reducible refine Keeps.ite ?_ ?_
    | (extract_lets -underBinder +onlyGivenNames z
       first | (refine (fun hz : Keeps σ z => ?_) ?_; on_goal 1 => clear_value z
                on_goal 2 => (unfold z; clear z))
             | clear_value z)
    | split
    | intro _)

theorem State.beginShutdown_keeps {σ s : State} (hσ : Keeps σ s) : Keeps σ (State.beginShutdown s) := by
  unfold State.beginShutdown
  repeat' (first
    | with_reducible assumption
    | with_reducible refine State.modNvme_keeps ?_
    | with_reducible refine State.peelShutdown_keeps ?_
    | with_reducible refine State.shutdownCheck_keeps ?_
    | with_reducible refine State.spinDown_keeps ?_
    | (extract_lets -underBinder +onlyGivenNames z
       first | (refine (fun hz : Keeps σ z => ?_) ?_; on_goal 1 => clear_value z
                on_goal 2 => (unfold z; clear z))
             | clear_value z))

theorem State.writeCc_keeps {σ s : State} {v : Nat} (hσ : Keeps σ s) : Keeps σ (State.writeCc s v) := by
  unfold State.writeCc
  repeat' (first
    | with_reducible assumption
    | with_reducible refine State.beginShutdown_keeps ?_
    | with_reducible refine State.controllerEnable_keeps ?_
    | with_reducible refine State.controllerReset_keeps ?_
    | with_reducible refine State.modNvme_keeps ?_
    | with_reducible refine Keeps.ite ?_ ?_
    | (extract_lets -underBinder +onlyGivenNames z
       first | (refine (fun hz : Keeps σ z => ?_) ?_; on_goal 1 => clear_value z
                on_goal 2 => (unfold z; clear z))
             | clear_value z)
    | split)

theorem State.windowReset_keeps {σ s : State} (hσ : Keeps σ s) : Keeps σ (State.windowReset s) := by
  unfold State.windowReset
  repeat' (first | with_reducible assumption | with_reducible refine State.modWin_keeps ?_)

theorem State.functionReset_keeps {σ s : State} (hσ : Keeps σ s) : Keeps σ (State.functionReset s) := by
  unfold State.functionReset
  repeat' (first
    | with_reducible assumption
    | with_reducible refine State.abandonReads_keeps ?_
    | with_reducible refine State.modNvme_keeps ?_
    | with_reducible refine State.modPcie_keeps ?_
    | with_reducible refine State.resetController_keeps ?_
    | with_reducible refine State.windowReset_keeps ?_
    | (extract_lets -underBinder +onlyGivenNames z
       first | (refine (fun hz : Keeps σ z => ?_) ?_; on_goal 1 => clear_value z
                on_goal 2 => (unfold z; clear z))
             | clear_value z))

theorem State.endpointReset_keeps {σ s : State} (hσ : Keeps σ s) : Keeps σ (State.endpointReset s) := by
  unfold State.endpointReset
  repeat' (first | with_reducible assumption | with_reducible refine State.functionReset_keeps ?_ | with_reducible refine State.modPcie_keeps ?_)

theorem State.linkAt_keeps {σ s : State} {width speed : Nat} {flit : Bool} (hσ : Keeps σ s) : Keeps σ (State.linkAt s width speed flit) := by
  unfold State.linkAt
  repeat' (first
    | with_reducible assumption
    | with_reducible refine State.modPcie_keeps ?_
    | with_reducible refine State.noteLink_keeps ?_
    | (extract_lets -underBinder +onlyGivenNames z
       first | (refine (fun hz : Keeps σ z => ?_) ?_; on_goal 1 => clear_value z
                on_goal 2 => (unfold z; clear z))
             | clear_value z))

theorem State.restTag_keeps {σ s : State} {r : OutReq} (hσ : Keeps σ s) : Keeps σ (State.restTag s r) := by
  unfold State.restTag
  repeat' (first
    | with_reducible assumption
    | with_reducible refine State.modPcie_keeps ?_
    | with_reducible refine Keeps.ite ?_ ?_
    | split)

theorem State.failFetchOf_keeps {σ s : State} {stamp : Nat} (hσ : Keeps σ s) : Keeps σ (State.failFetchOf s stamp) := by
  unfold State.failFetchOf
  repeat' (first
    | with_reducible assumption
    | with_reducible refine State.catchCmd_keeps ?_
    | with_reducible refine State.settle_keeps ?_
    | split)

theorem State.failRead_keeps {σ s : State} {r : OutReq} {timeout : Bool} (hσ : Keeps σ s) : Keeps σ (State.failRead s r timeout) := by
  unfold State.failRead
  repeat' (first
    | with_reducible assumption
    | with_reducible refine State.failDesc_keeps ?_
    | with_reducible refine State.failFetchOf_keeps ?_
    | with_reducible refine State.failSource_keeps ?_
    | with_reducible refine State.fault_keeps ?_
    | with_reducible refine State.modNvme_keeps ?_
    | with_reducible refine State.modPcie_keeps ?_
    | with_reducible refine State.pumpReads_keeps ?_
    | with_reducible refine State.restTag_keeps ?_
    | with_reducible refine Keeps.ite ?_ ?_
    | (extract_lets -underBinder +onlyGivenNames z
       first | (refine (fun hz : Keeps σ z => ?_) ?_; on_goal 1 => clear_value z
                on_goal 2 => (unfold z; clear z))
             | clear_value z)
    | split)

theorem State.expire_keeps {σ s : State} {r : OutReq} (hσ : Keeps σ s) : Keeps σ (State.expire s r) := by
  unfold State.expire
  repeat' (first
    | with_reducible assumption
    | with_reducible refine State.aerUncorrectable_keeps ?_
    | with_reducible refine State.failRead_keeps ?_
    | with_reducible refine State.reach_keeps ?_)

theorem State.unexpected_keeps {σ s : State} {tag : Nat} (hσ : Keeps σ s) : Keeps σ (State.unexpected s tag) := by
  unfold State.unexpected
  repeat' (first
    | with_reducible assumption
    | with_reducible refine State.aerUncorrectable_keeps ?_
    | with_reducible refine State.modWin_keeps ?_
    | with_reducible refine State.note_keeps ?_
    | with_reducible refine Keeps.ite ?_ ?_
    | (extract_lets -underBinder +onlyGivenNames z
       first | (refine (fun hz : Keeps σ z => ?_) ?_; on_goal 1 => clear_value z
                on_goal 2 => (unfold z; clear z))
             | clear_value z)
    | split)

theorem State.sendPending_keeps {σ s : State} (hσ : Keeps σ s) : Keeps σ (State.sendPending s) := by
  unfold State.sendPending
  repeat' (first
    | with_reducible assumption
    | with_reducible refine Keeps.foldl ?_ ?_
    | with_reducible refine Keeps.foldlP ?_ ?_
    | with_reducible refine Keeps.foldlQ ?_ ?_
    | with_reducible refine State.fireVector_keeps ?_
    | with_reducible refine State.modPcie_keeps ?_
    | intro _)

theorem State.resumeRequests_keeps {σ s : State} (hσ : Keeps σ s) : Keeps σ (State.resumeRequests s) := by
  unfold State.resumeRequests
  repeat' (first
    | with_reducible assumption
    | with_reducible refine State.settle_keeps ?_
    | with_reducible refine State.flushCqes_keeps ?_
    | with_reducible refine State.flushWrites_keeps ?_
    | with_reducible refine State.peelBmSet_keeps ?_
    | with_reducible refine State.pumpReads_keeps ?_
    | with_reducible refine State.sendPending_keeps ?_
    | with_reducible refine Keeps.ite ?_ ?_
    | split)

theorem State.setBusMaster_keeps {σ s : State} {v : Bool} (hσ : Keeps σ s) : Keeps σ (State.setBusMaster s v) := by
  unfold State.setBusMaster
  repeat' (first
    | with_reducible assumption
    | with_reducible refine State.modPcie_keeps ?_
    | with_reducible refine State.peelBmClear_keeps ?_
    | with_reducible refine State.resumeRequests_keeps ?_
    | with_reducible refine Keeps.ite ?_ ?_
    | (extract_lets -underBinder +onlyGivenNames z
       first | (refine (fun hz : Keeps σ z => ?_) ?_; on_goal 1 => clear_value z
                on_goal 2 => (unfold z; clear z))
             | clear_value z)
    | split)

theorem State.unmask_keeps {σ s : State} {v : Option Nat} (hσ : Keeps σ s) : Keeps σ (State.unmask s v) := by
  unfold State.unmask
  repeat' (first
    | with_reducible assumption
    | with_reducible refine State.modPcie_keeps ?_
    | with_reducible refine State.sendPending_keeps ?_
    | with_reducible refine Keeps.ite ?_ ?_
    | split)

theorem State.enterD3_keeps {σ s : State} (hσ : Keeps σ s) : Keeps σ (State.enterD3 s) := by
  unfold State.enterD3
  repeat' (first
    | with_reducible assumption
    | with_reducible refine State.modPcie_keeps ?_
    | with_reducible refine State.peelBmClear_keeps ?_
    | with_reducible refine State.sendLtr_keeps ?_
    | with_reducible refine Keeps.ite ?_ ?_
    | split)

theorem State.leaveD3_keeps {σ s : State} (hσ : Keeps σ s) : Keeps σ (State.leaveD3 s) := by
  unfold State.leaveD3
  repeat' (first
    | with_reducible assumption
    | with_reducible refine State.modPcie_keeps ?_
    | with_reducible refine State.resumeRequests_keeps ?_
    | with_reducible refine Keeps.ite ?_ ?_
    | split)

theorem State.extDword_keeps {σ s : State} {o : Nat} (hσ : Keeps σ s) : Keeps σ (State.extDword s o).2 := by
  unfold State.extDword
  repeat' (first
    | with_reducible assumption
    | with_reducible refine State.fresh_keeps ?_
    | with_reducible refine State.fresh_keeps_of ?_ (by with_reducible assumption)
    | with_reducible refine Keeps.ite ?_ ?_
    | (extract_lets -underBinder +onlyGivenNames z
       first | (refine (fun hz : Keeps σ z => ?_) ?_; on_goal 1 => clear_value z
                on_goal 2 => (unfold z; clear z))
             | (refine (fun hz : Keeps σ z.2 => ?_) ?_; on_goal 1 => clear_value z
                on_goal 2 => (unfold z; clear z))
             | (refine (fun hz : Keeps σ z.1 => ?_) ?_; on_goal 1 => clear_value z
                on_goal 2 => (unfold z; clear z))
             | clear_value z)
    | split)
theorem State.extDword_keeps_of {σ s : State} {o : Nat} {t : State} {aa} (hσ : Keeps σ s) (heq : State.extDword s o = (aa, t)) : Keeps σ t := by
  have : Keeps σ (State.extDword s o).2 := State.extDword_keeps hσ
  rw [heq] at this; exact this

theorem State.cfgRead_keeps {σ s : State} {o : Nat} (hσ : Keeps σ s) : Keeps σ (State.cfgRead s o).2 := by
  unfold State.cfgRead
  repeat' (first
    | with_reducible assumption
    | with_reducible refine State.extDword_keeps ?_
    | with_reducible refine State.extDword_keeps_of ?_ (by with_reducible assumption)
    | with_reducible refine Keeps.ite ?_ ?_
    | split)
theorem State.cfgRead_keeps_of {σ s : State} {o : Nat} {t : State} {aa} (hσ : Keeps σ s) (heq : State.cfgRead s o = (aa, t)) : Keeps σ t := by
  have : Keeps σ (State.cfgRead s o).2 := State.cfgRead_keeps hσ
  rw [heq] at this; exact this

theorem State.headerWrite_keeps {σ s : State} {o be v : Nat} (hσ : Keeps σ s) : Keeps σ (State.headerWrite s o be v) := by
  unfold State.headerWrite
  repeat' (first
    | with_reducible assumption
    | with_reducible refine State.modPcie_keeps ?_
    | with_reducible refine State.setBusMaster_keeps ?_
    | with_reducible refine State.tlp_keeps ?_
    | with_reducible refine Keeps.ite ?_ ?_
    | (extract_lets -underBinder +onlyGivenNames z
       first | (refine (fun hz : Keeps σ z => ?_) ?_; on_goal 1 => clear_value z
                on_goal 2 => (unfold z; clear z))
             | clear_value z)
    | split)

theorem State.keepBits_keeps {σ s : State} {o mask be dflt v : Nat} (hσ : Keeps σ s) : Keeps σ (State.keepBits s o mask be dflt v) := by
  unfold State.keepBits
  repeat' (first | with_reducible assumption | with_reducible refine State.modPcie_keeps ?_)

theorem State.capWrite_keeps {σ s : State} {o be v : Nat} (hσ : Keeps σ s) : Keeps σ (State.capWrite s o be v) := by
  unfold State.capWrite
  repeat' (first
    | with_reducible assumption
    | with_reducible refine State.enterD3_keeps ?_
    | with_reducible refine State.functionReset_keeps ?_
    | with_reducible refine State.keepBits_keeps ?_
    | with_reducible refine State.leaveD3_keeps ?_
    | with_reducible refine State.modPcie_keeps ?_
    | with_reducible refine State.unmask_keeps ?_
    | with_reducible refine Keeps.ite ?_ ?_
    | (extract_lets -underBinder +onlyGivenNames z
       first | (refine (fun hz : Keeps σ z => ?_) ?_; on_goal 1 => clear_value z
                on_goal 2 => (unfold z; clear z))
             | clear_value z)
    | split)

theorem State.extWrite_keeps {σ s : State} {o be v : Nat} (hσ : Keeps σ s) : Keeps σ (State.extWrite s o be v) := by
  unfold State.extWrite
  repeat' (first
    | with_reducible assumption
    | with_reducible refine State.extDword_keeps ?_
    | with_reducible refine State.extDword_keeps_of ?_ (by with_reducible assumption)
    | with_reducible refine State.keepBits_keeps ?_
    | with_reducible refine State.modPcie_keeps ?_
    | with_reducible refine Keeps.ite ?_ ?_
    | (extract_lets -underBinder +onlyGivenNames z
       first | (refine (fun hz : Keeps σ z => ?_) ?_; on_goal 1 => clear_value z
                on_goal 2 => (unfold z; clear z))
             | (refine (fun hz : Keeps σ z.1 => ?_) ?_; on_goal 1 => clear_value z
                on_goal 2 => (unfold z; clear z))
             | clear_value z)
    | split)

theorem State.cfgWrite_keeps {σ s : State} {o be v : Nat} (hσ : Keeps σ s) : Keeps σ (State.cfgWrite s o be v) := by
  unfold State.cfgWrite
  repeat' (first
    | with_reducible assumption
    | with_reducible refine State.capWrite_keeps ?_
    | with_reducible refine State.extWrite_keeps ?_
    | with_reducible refine State.headerWrite_keeps ?_
    | with_reducible refine Keeps.ite ?_ ?_
    | split)

theorem State.nvmeWrite_keeps {σ s : State} {o v : Nat} (hσ : Keeps σ s) : Keeps σ (State.nvmeWrite s o v) := by
  unfold State.nvmeWrite
  repeat' (first
    | with_reducible assumption
    | with_reducible refine State.clearIntMask_keeps ?_
    | with_reducible refine State.modNvme_keeps ?_
    | with_reducible refine State.ringCq_keeps ?_
    | with_reducible refine State.ringSq_keeps ?_
    | with_reducible refine State.setIntMask_keeps ?_
    | with_reducible refine State.writeCc_keeps ?_
    | with_reducible refine Keeps.ite ?_ ?_
    | split)

theorem State.recoveryWrite_keeps {σ s : State} {o v : Nat} (hσ : Keeps σ s) : Keeps σ (State.recoveryWrite s o v) := by
  unfold State.recoveryWrite
  repeat' (first
    | with_reducible assumption
    | with_reducible refine State.modFw_keeps ?_ ?_
    | with_reducible exact fun _ => ⟨rfl, rfl⟩
    | with_reducible exact fun _ => rfl
    | (intro x; try dsimp only; repeat' split) <;> with_reducible first | rfl | exact ⟨rfl, rfl⟩
    | split
    | intro _)

theorem State.bar0Write_keeps {σ s : State} {o : Nat} {data : List (Option Byte)} (hσ : Keeps σ s) : Keeps σ (State.bar0Write s o data) := by
  unfold State.bar0Write
  repeat' (first
    | with_reducible assumption
    | with_reducible refine Keeps.foldl ?_ ?_
    | with_reducible refine State.modFw_keeps ?_ ?_
    | with_reducible refine State.nvmeWrite_keeps ?_
    | with_reducible refine State.recoveryWrite_keeps ?_
    | with_reducible exact fun _ => ⟨rfl, rfl⟩
    | with_reducible exact fun _ => rfl
    | (intro x; try dsimp only; repeat' split) <;> with_reducible first | rfl | exact ⟨rfl, rfl⟩
    | with_reducible refine Keeps.ite ?_ ?_
    | (extract_lets -underBinder +onlyGivenNames z
       first | (refine (fun hz : Keeps σ z => ?_) ?_; on_goal 1 => clear_value z
                on_goal 2 => (unfold z; clear z))
             | (refine (fun hz : Keeps σ z.2 => ?_) ?_; on_goal 1 => clear_value z
                on_goal 2 => (unfold z; clear z))
             | (refine (fun hz : Keeps σ z.1 => ?_) ?_; on_goal 1 => clear_value z
                on_goal 2 => (unfold z; clear z))
             | clear_value z)
    | split
    | intro _)

theorem State.bar4Write_keeps {σ s : State} {o v : Nat} (hσ : Keeps σ s) : Keeps σ (State.bar4Write s o v) := by
  unfold State.bar4Write
  repeat' (first
    | with_reducible assumption
    | with_reducible refine State.modPcie_keeps ?_
    | with_reducible refine State.unmask_keeps ?_
    | with_reducible refine Keeps.ite ?_ ?_
    | (extract_lets -underBinder +onlyGivenNames z
       first | (refine (fun hz : Keeps σ z => ?_) ?_; on_goal 1 => clear_value z
                on_goal 2 => (unfold z; clear z))
             | (refine (fun hz : Keeps σ z.2 => ?_) ?_; on_goal 1 => clear_value z
                on_goal 2 => (unfold z; clear z))
             | (refine (fun hz : Keeps σ z.1 => ?_) ?_; on_goal 1 => clear_value z
                on_goal 2 => (unfold z; clear z))
             | clear_value z)
    | split)

theorem State.unsupported_keeps {σ s : State} {posted : Bool} (hσ : Keeps σ s) : Keeps σ (State.unsupported s posted) := by
  unfold State.unsupported
  repeat' (first
    | with_reducible assumption
    | with_reducible refine State.aerUncorrectable_keeps ?_
    | with_reducible refine State.send_keeps ?_
    | with_reducible refine Keeps.ite ?_ ?_
    | (extract_lets -underBinder +onlyGivenNames z
       first | (refine (fun hz : Keeps σ z => ?_) ?_; on_goal 1 => clear_value z
                on_goal 2 => (unfold z; clear z))
             | clear_value z)
    | split)

theorem State.collectorWrite_keeps {σ s : State} {o v : Nat} (hσ : Keeps σ s) : Keeps σ (State.collectorWrite s o v) := by
  unfold State.collectorWrite
  repeat' (first
    | with_reducible assumption
    | with_reducible refine State.modFlt_keeps ?_
    | with_reducible refine Keeps.ite ?_ ?_
    | split)

theorem State.ospiWrite_keeps {σ s : State} {o v : Nat} (hσ : Keeps σ s) : Keeps σ (State.ospiWrite s o v) := by
  unfold State.ospiWrite
  repeat' (first
    | with_reducible assumption
    | with_reducible refine State.modOspi_keeps ?_ ?_
    | with_reducible exact fun _ => ⟨rfl, rfl⟩
    | with_reducible exact fun _ => rfl
    | (intro x; try dsimp only; repeat' split) <;> with_reducible first | rfl | exact ⟨rfl, rfl⟩
    | with_reducible refine Keeps.ite ?_ ?_
    | (extract_lets -underBinder +onlyGivenNames z
       first | (refine (fun hz : Keeps σ z => ?_) ?_; on_goal 1 => clear_value z
                on_goal 2 => (unfold z; clear z))
             | clear_value z)
    | split
    | intro _)

theorem State.poolWrite_keeps {σ s : State} {o v : Nat} (hσ : Keeps σ s) : Keeps σ (State.poolWrite s o v) := by
  unfold State.poolWrite
  repeat' (first
    | with_reducible assumption
    | with_reducible refine State.modPool_keeps ?_
    | with_reducible refine Keeps.ite ?_ ?_
    | split)

theorem State.servoWrite_keeps {σ s : State} {o v : Nat} (hσ : Keeps σ s) : Keeps σ (State.servoWrite s o v) := by
  unfold State.servoWrite
  repeat' (first
    | with_reducible assumption
    | with_reducible refine State.modServo_keeps ?_
    | with_reducible refine Keeps.ite ?_ ?_
    | (extract_lets -underBinder +onlyGivenNames z
       first | (refine (fun hz : Keeps σ z => ?_) ?_; on_goal 1 => clear_value z
                on_goal 2 => (unfold z; clear z))
             | clear_value z)
    | split)

theorem State.miAnswer_keeps {σ s : State} {tag len : Nat} {fields : List (Nat × Nat × Nat)} {dw0 : Nat} (hσ : Keeps σ s) : NextKeeps σ (State.miAnswer s tag len fields dw0) := by
  unfold State.miAnswer
  repeat' (first
    | with_reducible assumption
    | with_reducible refine NextKeeps.next ?_
    | with_reducible refine State.send_keeps ?_
    | with_reducible refine Keeps.ite ?_ ?_
    | split
    | intro _)

theorem State.admitMgmt_keeps {σ s : State} {o : MgmtOrder} (hσ : Keeps σ s) : Keeps σ (State.admitMgmt s o) := by
  unfold State.admitMgmt
  repeat' (first | with_reducible assumption | with_reducible refine State.admit_keeps ?_)

theorem State.modSact_keeps {σ s : State} {a : Nat} {f : ServoAct → ServoAct} (hσ : Keeps σ s) : Keeps σ (State.modSact s a f) := by
  unfold State.modSact
  repeat' (first | with_reducible assumption | with_reducible refine State.modServo_keeps ?_)

theorem State.modSpindle_keeps {σ s : State} {f : SpindleSt → SpindleSt} (hσ : Keeps σ s) : Keeps σ (State.modSpindle s f) := by
  unfold State.modSpindle
  repeat' (first | with_reducible assumption | with_reducible refine State.modServo_keeps ?_)

theorem State.retrySeek_keeps {σ s : State} {a : Nat} (hσ : Keeps σ s) : Keeps σ (State.retrySeek s a) := by
  unfold State.retrySeek
  repeat' (first
    | with_reducible assumption
    | with_reducible refine State.fault_keeps ?_
    | with_reducible refine State.modSact_keeps ?_
    | with_reducible refine State.writeFault_keeps ?_
    | with_reducible refine Keeps.ite ?_ ?_
    | (extract_lets -underBinder +onlyGivenNames z
       first | (refine (fun hz : Keeps σ z => ?_) ?_; on_goal 1 => clear_value z
                on_goal 2 => (unfold z; clear z))
             | clear_value z)
    | split)

theorem State.drive_keeps {σ s : State} {a : Nat} {z : ServoAct} {yV yM : Int} {xf ok : Bool} (hσ : Keeps σ s) : Keeps σ (State.drive s a z yV yM xf ok) := by
  unfold State.drive
  repeat' (first
    | with_reducible assumption
    | with_reducible refine State.modSact_keeps ?_
    | with_reducible refine Keeps.ite ?_ ?_
    | (extract_lets -underBinder +onlyGivenNames z
       first | (refine (fun hz : Keeps σ z => ?_) ?_; on_goal 1 => clear_value z
                on_goal 2 => (unfold z; clear z))
             | (refine (fun hz : Keeps σ z.2 => ?_) ?_; on_goal 1 => clear_value z
                on_goal 2 => (unfold z; clear z))
             | clear_value z)
    | split)

theorem State.pushHist_keeps {σ s : State} {a : Nat} {c : Int} (hσ : Keeps σ s) : Keeps σ (State.pushHist s a c) := by
  unfold State.pushHist
  repeat' (first | with_reducible assumption | with_reducible refine State.modSact_keeps ?_)

theorem State.reacquire_keeps {σ s : State} {a : Nat} (hσ : Keeps σ s) : Keeps σ (State.reacquire s a) := by
  unfold State.reacquire
  repeat' (first | with_reducible assumption | with_reducible refine State.modPlace_keeps ?_ | with_reducible refine State.modSact_keeps ?_)

theorem State.judge_keeps {σ s : State} {a : Nat} (hσ : Keeps σ s) : Keeps σ (State.judge s a) := by
  unfold State.judge
  repeat' (first
    | with_reducible assumption
    | with_reducible refine State.modSact_keeps ?_
    | with_reducible refine State.rackLockCheck_keeps ?_
    | with_reducible refine Keeps.ite ?_ ?_
    | (extract_lets -underBinder +onlyGivenNames z
       first | (refine (fun hz : Keeps σ z => ?_) ?_; on_goal 1 => clear_value z
                on_goal 2 => (unfold z; clear z))
             | clear_value z)
    | split)

theorem State.servoSample_keeps {σ s : State} {a w : Nat} {ok : Bool} {track pes : Int} (hσ : Keeps σ s) : Keeps σ (State.servoSample s a w ok track pes) := by
  unfold State.servoSample
  repeat' (first
    | with_reducible assumption
    | with_reducible refine State.drive_keeps ?_
    | with_reducible refine State.judge_keeps ?_
    | with_reducible refine State.modSact_keeps ?_
    | with_reducible refine State.noteOther_keeps ?_
    | with_reducible refine State.pushHist_keeps ?_
    | with_reducible refine State.reacquire_keeps ?_
    | with_reducible refine State.retrySeek_keeps ?_
    | with_reducible refine State.track_keeps ?_
    | with_reducible refine Keeps.ite ?_ ?_
    | (extract_lets -underBinder +onlyGivenNames z
       first | (refine (fun hz : Keeps σ z => ?_) ?_; on_goal 1 => clear_value z
                on_goal 2 => (unfold z; clear z))
             | (refine (fun hz : Keeps σ z.2 => ?_) ?_; on_goal 1 => clear_value z
                on_goal 2 => (unfold z; clear z))
             | clear_value z)
    | split)

theorem State.reacquireSample_keeps {σ s : State} {a : Nat} {ok : Bool} {track pes : Int} (hσ : Keeps σ s) : Keeps σ (State.reacquireSample s a ok track pes) := by
  unfold State.reacquireSample
  repeat' (first
    | with_reducible assumption
    | with_reducible refine State.drive_keeps ?_
    | with_reducible refine State.modSact_keeps ?_
    | with_reducible refine State.pushHist_keeps ?_
    | with_reducible refine State.retrySeek_keeps ?_
    | with_reducible refine State.track_keeps ?_
    | with_reducible refine Keeps.ite ?_ ?_
    | (extract_lets -underBinder +onlyGivenNames z
       first | (refine (fun hz : Keeps σ z => ?_) ?_; on_goal 1 => clear_value z
                on_goal 2 => (unfold z; clear z))
             | clear_value z)
    | split)

theorem State.srvWedge_keeps {σ s : State} {a : Nat} {terr : Option Int} (hσ : Keeps σ s) : Keeps σ (State.srvWedge s a terr) := by
  unfold State.srvWedge
  repeat' (first
    | with_reducible assumption
    | with_reducible refine State.modSpindle_keeps ?_
    | with_reducible refine Keeps.ite ?_ ?_
    | (extract_lets -underBinder +onlyGivenNames z
       first | (refine (fun hz : Keeps σ z => ?_) ?_; on_goal 1 => clear_value z
                on_goal 2 => (unfold z; clear z))
             | clear_value z)
    | split)

theorem State.gate_keeps {σ s : State} {a : Nat} {ok : Bool} {pes : Int} {write : Option (Nat × Bool)} (hσ : Keeps σ s) : Keeps σ (State.gate s a ok pes write) := by
  unfold State.gate
  repeat' (first
    | with_reducible assumption
    | with_reducible refine State.loadSet_keeps ?_
    | with_reducible refine State.modRw_keeps ?_
    | with_reducible refine Keeps.ite ?_ ?_
    | (extract_lets -underBinder +onlyGivenNames z
       first | (refine (fun hz : Keeps σ z => ?_) ?_; on_goal 1 => clear_value z
                on_goal 2 => (unfold z; clear z))
             | clear_value z)
    | split)

theorem State.inhibitAll_keeps {σ s : State} (hσ : Keeps σ s) : Keeps σ (State.inhibitAll s) := by
  unfold State.inhibitAll
  repeat' (first | with_reducible assumption | with_reducible refine State.modChan_keeps ?_)

theorem State.speedJudge_keeps {σ s : State} {num den period : Nat} (hσ : Keeps σ s) : Keeps σ (State.speedJudge s num den period) := by
  unfold State.speedJudge
  repeat' (first
    | with_reducible assumption
    | with_reducible refine State.inhibitAll_keeps ?_
    | with_reducible refine State.modSpindle_keeps ?_
    | with_reducible refine Keeps.ite ?_ ?_
    | (extract_lets -underBinder +onlyGivenNames z
       first | (refine (fun hz : Keeps σ z => ?_) ?_; on_goal 1 => clear_value z
                on_goal 2 => (unfold z; clear z))
             | clear_value z)
    | split)

theorem State.retractBoth_keeps {σ s : State} (hσ : Keeps σ s) : Keeps σ (State.retractBoth s) := by
  unfold State.retractBoth
  repeat' (first
    | with_reducible assumption
    | with_reducible refine State.modLink_keeps ?_
    | with_reducible refine State.modServo_keeps ?_
    | with_reducible refine Keeps.ite ?_ ?_
    | split)

theorem State.putCal_keeps {σ s : State} {surface : Nat} {f : CalRec → CalRec} (hσ : Keeps σ s) : Keeps σ (State.putCal s surface f) := by
  unfold State.putCal
  repeat' (first
    | with_reducible assumption
    | with_reducible refine State.modChan_keeps ?_
    | (extract_lets -underBinder +onlyGivenNames z
       first | (refine (fun hz : Keeps σ z => ?_) ?_; on_goal 1 => clear_value z
                on_goal 2 => (unfold z; clear z))
             | clear_value z)
    | intro _)

theorem State.calFailed_keeps {σ s : State} {a h : Nat} (hσ : Keeps σ s) : Keeps σ (State.calFailed s a h) := by
  unfold State.calFailed
  repeat' (first
    | with_reducible assumption
    | with_reducible refine Keeps.optMap ?_ ?_
    | with_reducible refine Keeps.optGet ?_ ?_
    | with_reducible refine Keeps.optElim ?_ ?_
    | with_reducible refine State.healthWarn_keeps ?_
    | with_reducible refine State.modRw_keeps ?_
    | with_reducible refine State.putCal_keeps ?_
    | with_reducible refine State.retireHead_keeps ?_
    | with_reducible refine Keeps.ite ?_ ?_
    | (extract_lets -underBinder +onlyGivenNames z
       first | (refine (fun hz : Keeps σ z => ?_) ?_; on_goal 1 => clear_value z
                on_goal 2 => (unfold z; clear z))
             | clear_value z)
    | split
    | intro _)

theorem State.calGood_keeps {σ s : State} {a : Nat} {r : CalRun} {rres : Nat} (hσ : Keeps σ s) : Keeps σ (State.calGood s a r rres) := by
  unfold State.calGood
  repeat' (first
    | with_reducible assumption
    | with_reducible refine State.bandParams_keeps ?_
    | with_reducible refine State.healthWarn_keeps ?_
    | with_reducible refine State.modRw_keeps ?_
    | with_reducible refine State.putCal_keeps ?_
    | with_reducible refine State.retireHead_keeps ?_
    | with_reducible refine Keeps.ite ?_ ?_
    | (extract_lets -underBinder +onlyGivenNames z
       first | (refine (fun hz : Keeps σ z => ?_) ?_; on_goal 1 => clear_value z
                on_goal 2 => (unfold z; clear z))
             | clear_value z)
    | split
    | intro _)

end Sys2Proof.Machine
end

