-- ==== Sys2Proof/Laws/KeepsMediaCmds.lean ====
section
/-!
SUPPORT. One lemma per command about `Keeps` (Safety): that the commands of the media, the journal, the memories and the mount undo nothing.
-/
namespace Sys2Proof.Machine
open Sys2Proof

set_option linter.unusedTactic false
set_option linter.unreachableTactic false

theorem execVersionIdleTimeout_keeps {σ : State} {vid : Nat} {s : State} (hσ : Keeps σ s) : NextKeeps σ (execVersionIdleTimeout vid s) := by
  unfold execVersionIdleTimeout
  repeat' (first
    | with_reducible assumption
    | with_reducible refine NextKeeps.next ?_
    | with_reducible refine State.reach_keeps ?_
    | with_reducible refine State.seal_keeps ?_
    | with_reducible refine State.settle_keeps ?_
    | with_reducible refine Keeps.ite ?_ ?_
    | split
    | intro _)

theorem execWriteAssignment_keeps {σ : State} {vid : Nat} {s : State} (hσ : Keeps σ s) : NextKeeps σ (execWriteAssignment vid s) := by
  unfold execWriteAssignment
  repeat' (first
    | with_reducible assumption
    | with_reducible refine NextKeeps.next ?_
    | with_reducible refine State.evalDirect_keeps ?_
    | with_reducible refine State.modFlash_keeps ?_
    | with_reducible refine State.modVersion_keeps ?_
    | with_reducible refine State.queueCoder_keeps ?_ (by with_reducible assumption)
    | with_reducible refine State.reserveIn_keeps ?_ (by with_reducible assumption)
    | with_reducible refine State.toCipher_keeps ?_
    | with_reducible refine Keeps.ite ?_ ?_
    | (extract_lets -underBinder +onlyGivenNames z
       first | (refine (fun hz : Keeps σ z => ?_) ?_; on_goal 1 => clear_value z
                on_goal 2 => (unfold z; clear z))
             | clear_value z)
    | split
    | intro _)

theorem execEncodeJobEnd_keeps {σ : State} {vid : Nat} {parity : Bool} {s : State} (hσ : Keeps σ s) : NextKeeps σ (execEncodeJobEnd vid parity s) := by
  unfold execEncodeJobEnd
  repeat' (first
    | with_reducible assumption
    | with_reducible refine NextKeeps.next ?_
    | with_reducible refine State.coderDone_keeps ?_
    | with_reducible refine State.countFormat_keeps ?_
    | with_reducible refine State.failVersion_keeps ?_
    | with_reducible refine State.fault_keeps ?_
    | with_reducible refine State.toCipher_keeps ?_
    | with_reducible refine Keeps.ite ?_ ?_
    | (extract_lets -underBinder +onlyGivenNames z
       first | (refine (fun hz : Keeps σ z => ?_) ?_; on_goal 1 => clear_value z
                on_goal 2 => (unfold z; clear z))
             | clear_value z)
    | split
    | intro _)

theorem execBatchCloseTimeout_keeps {σ : State} {span batch : Nat} {s : State} (hσ : Keeps σ s) : NextKeeps σ (execBatchCloseTimeout span batch s) := by
  unfold execBatchCloseTimeout
  repeat' (first
    | with_reducible assumption
    | with_reducible refine NextKeeps.next ?_
    | with_reducible refine State.fillTail_keeps ?_
    | with_reducible refine State.modBatch_keeps ?_
    | with_reducible refine State.reach_keeps ?_
    | with_reducible refine Keeps.ite ?_ ?_
    | (extract_lets -underBinder +onlyGivenNames z
       first | (refine (fun hz : Keeps σ z => ?_) ?_; on_goal 1 => clear_value z
                on_goal 2 => (unfold z; clear z))
             | clear_value z)
    | split
    | intro _)

theorem execProgramComplete_keeps {σ : State} {span batch member : Nat} {good last : Bool} {s : State} (hσ : Keeps σ s) : NextKeeps σ (execProgramComplete span batch member good last s) := by
  unfold execProgramComplete
  repeat' (first
    | with_reducible assumption
    | with_reducible refine NextKeeps.next ?_
    | with_reducible refine State.afterProgram_keeps ?_
    | with_reducible refine State.closeIfDone_keeps ?_
    | with_reducible refine State.countProgrammed_keeps ?_
    | with_reducible refine State.memberFailed_keeps ?_
    | with_reducible refine State.memberFailed_keeps_of ?_ (by with_reducible assumption)
    | with_reducible refine State.modBatch_keeps ?_
    | with_reducible refine State.modSpan_keeps ?_
    | with_reducible refine State.noteOther_keeps ?_
    | with_reducible refine State.redoGroup_keeps ?_
    | with_reducible refine State.settle_keeps ?_
    | with_reducible refine State.unclean_keeps ?_
    | with_reducible refine Keeps.ite ?_ ?_
    | (extract_lets -underBinder +onlyGivenNames z
       first | (refine (fun hz : Keeps σ z => ?_) ?_; on_goal 1 => clear_value z
                on_goal 2 => (unfold z; clear z))
             | (refine (fun hz : Keeps σ z.2 => ?_) ?_; on_goal 1 => clear_value z
                on_goal 2 => (unfold z; clear z))
             | (refine (fun hz : Keeps σ z.1 => ?_) ?_; on_goal 1 => clear_value z
                on_goal 2 => (unfold z; clear z))
             | clear_value z)
    | split
    | intro _)

theorem execEraseComplete_keeps {σ : State} {span : Nat} {failed : List Nat} {s : State} (hσ : Keeps σ s) : NextKeeps σ (execEraseComplete span failed s) := by
  unfold execEraseComplete
  dsimp only
  split
  · exact NextKeeps.next hσ
  · with_reducible refine NextKeeps.next ?_
    with_reducible refine State.sanitizeCheck_keeps ?_
    with_reducible refine State.placeWaiting_keeps ?_
    with_reducible refine State.kneadUpdate_keeps ?_
    with_reducible refine State.modFlash_keeps ?_
    with_reducible refine State.modMedia_keeps ?_
    with_reducible refine Keeps.foldl hσ fun s m h => ?_
    split
    · with_reducible refine State.memberFailed_keeps ?_
      exact State.modBlock_keeps h
    · with_reducible refine Keeps.ite ?_ ?_
      · with_reducible refine State.retireBlock_keeps ?_
        exact State.modBlock_keeps h
      · exact State.modBlock_keeps h

theorem execFlashReadComplete_keeps {σ : State} {job : Nat} {s : State} (hσ : Keeps σ s) : NextKeeps σ (execFlashReadComplete job s) := by
  unfold execFlashReadComplete
  split
  · exact NextKeeps.next hσ
  · split
    · exact NextKeeps.next hσ
    · dsimp only
      split
      · next h =>
        split at h
        · exact NextKeeps.next (State.modJob_keeps (State.queueSoft_keeps (State.countReads_keeps hσ) h))
        · exact NextKeeps.next (State.modJob_keeps (State.queueHard_keeps (State.countReads_keeps hσ) h))
      · exact NextKeeps.next (State.modJob_keeps (State.countReads_keeps hσ))

theorem execCodewordDecodeEnd_keeps {σ : State} {job : Nat} {good : Bool} {maxBits entry lost : Nat} {s : State} (hσ : Keeps σ s) : NextKeeps σ (execCodewordDecodeEnd job good maxBits entry lost s) := by
  unfold execCodewordDecodeEnd
  repeat' (first
    | with_reducible assumption
    | with_reducible refine NextKeeps.next ?_
    | with_reducible refine State.countStep4_keeps ?_
    | with_reducible refine State.flagRefresh_keeps ?_
    | with_reducible refine State.ladder_keeps ?_
    | with_reducible refine State.modJob_keeps ?_
    | with_reducible refine State.modPlace_keeps ?_
    | with_reducible refine State.queueCipher_keeps ?_ (by with_reducible assumption)
    | with_reducible refine State.trackEntry_keeps ?_
    | with_reducible refine Keeps.ite ?_ ?_
    | (extract_lets -underBinder +onlyGivenNames z
       first | (refine (fun hz : Keeps σ z => ?_) ?_; on_goal 1 => clear_value z
                on_goal 2 => (unfold z; clear z))
             | clear_value z)
    | split
    | intro _)

theorem execCipherJobEnd_keeps {σ : State} {encrypt : Bool} {id : Nat} {parity : Bool} {s : State} (hσ : Keeps σ s) : NextKeeps σ (execCipherJobEnd encrypt id parity s) := by
  unfold execCipherJobEnd
  repeat' (first
    | with_reducible assumption
    | with_reducible refine NextKeeps.next ?_
    | with_reducible refine State.decrypted_keeps ?_
    | with_reducible refine State.encrypted_keeps ?_
    | with_reducible refine Keeps.ite ?_ ?_
    | split
    | intro _)

theorem execDecodeJobEnd_keeps {σ : State} {job : Nat} {parity mismatch : Bool} {s : State} (hσ : Keeps σ s) : NextKeeps σ (execDecodeJobEnd job parity mismatch s) := by
  unfold execDecodeJobEnd
  repeat' (first
    | with_reducible assumption
    | with_reducible refine NextKeeps.next ?_
    | with_reducible refine State.coderDone_keeps ?_
    | with_reducible refine State.deliverJob_keeps ?_
    | with_reducible refine State.fault_keeps ?_
    | with_reducible refine State.ladder_keeps ?_
    | with_reducible refine State.retryJob_keeps ?_
    | with_reducible refine Keeps.ite ?_ ?_
    | (extract_lets -underBinder +onlyGivenNames z
       first | (refine (fun hz : Keeps σ z => ?_) ?_; on_goal 1 => clear_value z
                on_goal 2 => (unfold z; clear z))
             | clear_value z)
    | split
    | intro _)

theorem execRackSpinupTimeout_keeps {σ s : State} (hσ : Keeps σ s) : NextKeeps σ (execRackSpinupTimeout s) := by
  unfold execRackSpinupTimeout
  repeat' (first
    | with_reducible assumption
    | with_reducible refine NextKeeps.next ?_
    | with_reducible refine State.fenceActuator_keeps ?_
    | with_reducible refine State.modRack_keeps ?_
    | with_reducible refine State.note_keeps ?_
    | with_reducible refine State.rackReady_keeps ?_
    | with_reducible refine State.reach_keeps ?_
    | with_reducible refine State.spinDown_keeps ?_
    | with_reducible refine Keeps.ite ?_ ?_
    | (extract_lets -underBinder +onlyGivenNames z
       first | (refine (fun hz : Keeps σ z => ?_) ?_; on_goal 1 => clear_value z
                on_goal 2 => (unfold z; clear z))
             | clear_value z)
    | split
    | intro _)

theorem execSpinupRetryWait_keeps {σ s : State} (hσ : Keeps σ s) : NextKeeps σ (execSpinupRetryWait s) := by
  unfold execSpinupRetryWait
  repeat' (first
    | with_reducible assumption
    | with_reducible refine NextKeeps.next ?_
    | with_reducible refine State.demandSpin_keeps ?_
    | with_reducible refine State.modRack_keeps ?_
    | with_reducible refine State.reach_keeps ?_
    | with_reducible refine State.refuseRackJobs_keeps ?_
    | with_reducible refine State.sanitizeCheck_keeps ?_
    | with_reducible refine Keeps.ite ?_ ?_
    | (extract_lets -underBinder +onlyGivenNames z
       first | (refine (fun hz : Keeps σ z => ?_) ?_; on_goal 1 => clear_value z
                on_goal 2 => (unfold z; clear z))
             | clear_value z)
    | split
    | intro _)

theorem execRackStandbyTimeout_keeps {σ s : State} (hσ : Keeps σ s) : NextKeeps σ (execRackStandbyTimeout s) := by
  unfold execRackStandbyTimeout
  repeat' (first
    | with_reducible assumption
    | with_reducible refine NextKeeps.next ?_
    | with_reducible refine State.reach_keeps ?_
    | with_reducible refine State.spinDown_keeps ?_
    | with_reducible refine Keeps.ite ?_ ?_
    | split
    | intro _)

theorem execSpindleStopped_keeps {σ s : State} (hσ : Keeps σ s) : NextKeeps σ (execSpindleStopped s) := by
  unfold execSpindleStopped
  repeat' (first
    | with_reducible assumption
    | with_reducible refine NextKeeps.next ?_
    | with_reducible refine State.demandSpin_keeps ?_
    | with_reducible refine State.modRack_keeps ?_
    | with_reducible refine State.modServo_keeps ?_
    | with_reducible refine State.sanitizeCheck_keeps ?_
    | with_reducible refine Keeps.ite ?_ ?_
    | (extract_lets -underBinder +onlyGivenNames z
       first | (refine (fun hz : Keeps σ z => ?_) ?_; on_goal 1 => clear_value z
                on_goal 2 => (unfold z; clear z))
             | clear_value z)
    | split
    | intro _)

theorem execStagingReadEnd_keeps {σ : State} {act : Nat} {good : Bool} {lost : Nat} {s : State} (hσ : Keeps σ s) : NextKeeps σ (execStagingReadEnd act good lost s) := by
  unfold execStagingReadEnd
  repeat' (first
    | with_reducible assumption
    | with_reducible refine NextKeeps.next ?_
    | with_reducible refine State.countReads_keeps ?_
    | with_reducible refine State.loseSource_keeps ?_
    | with_reducible refine State.modAct_keeps ?_
    | with_reducible refine State.modPlace_keeps ?_
    | with_reducible refine State.modRack_keeps ?_
    | with_reducible refine State.placeStaged_keeps ?_
    | with_reducible refine Keeps.ite ?_ ?_
    | (extract_lets -underBinder +onlyGivenNames z
       first | (refine (fun hz : Keeps σ z => ?_) ?_; on_goal 1 => clear_value z
                on_goal 2 => (unfold z; clear z))
             | clear_value z)
    | split
    | intro _)

theorem execBandWriteEnd_keeps {σ : State} {act : Nat} {good charge : Bool} {s : State} (hσ : Keeps σ s) : NextKeeps σ (execBandWriteEnd act good charge s) := by
  unfold execBandWriteEnd
  repeat' (first
    | with_reducible assumption
    | with_reducible refine NextKeeps.next ?_
    | with_reducible refine State.bands_keeps ?_
    | with_reducible refine State.modAct_keeps ?_
    | with_reducible refine State.modStack_keeps ?_
    | with_reducible refine State.unclean_keeps ?_
    | with_reducible refine State.writeFault_keeps ?_
    | with_reducible refine State.modRw_keeps ?_
    | with_reducible refine Keeps.ite ?_ ?_
    | (extract_lets -underBinder +onlyGivenNames z
       first | (refine (fun hz : Keeps σ z => ?_) ?_; on_goal 1 => clear_value z
                on_goal 2 => (unfold z; clear z))
             | clear_value z)
    | split
    | intro _)

theorem execLastTrackCheckEnd_keeps {σ : State} {act : Nat} {good charge : Bool} {s : State} (hσ : Keeps σ s) : NextKeeps σ (execLastTrackCheckEnd act good charge s) := by
  unfold execLastTrackCheckEnd
  repeat' (first
    | with_reducible assumption
    | with_reducible refine NextKeeps.next ?_
    | with_reducible refine State.modAct_keeps ?_
    | with_reducible refine State.writeFault_keeps ?_
    | with_reducible refine Keeps.ite ?_ ?_
    | (extract_lets -underBinder +onlyGivenNames z
       first | (refine (fun hz : Keeps σ z => ?_) ?_; on_goal 1 => clear_value z
                on_goal 2 => (unfold z; clear z))
             | clear_value z)
    | split
    | intro _)

theorem execParityBandReadbackEnd_keeps {σ : State} {act : Nat} {good charge : Bool} {s : State} (hσ : Keeps σ s) : NextKeeps σ (execParityBandReadbackEnd act good charge s) := by
  unfold execParityBandReadbackEnd
  repeat' (first
    | with_reducible assumption
    | with_reducible refine NextKeeps.next ?_
    | with_reducible refine State.chargeHead_keeps ?_
    | with_reducible refine State.modAct_keeps ?_
    | with_reducible refine State.modStack_keeps ?_
    | with_reducible refine State.writeFault_keeps ?_
    | with_reducible refine Keeps.ite ?_ ?_
    | (extract_lets -underBinder +onlyGivenNames z
       first | (refine (fun hz : Keeps σ z => ?_) ?_; on_goal 1 => clear_value z
                on_goal 2 => (unfold z; clear z))
             | clear_value z)
    | split
    | intro _)

theorem execStackSummaryWriteEnd_keeps {σ : State} {act copies : Nat} {s : State} (hσ : Keeps σ s) : NextKeeps σ (execStackSummaryWriteEnd act copies s) := by
  unfold execStackSummaryWriteEnd
  repeat' (first
    | with_reducible assumption
    | with_reducible refine NextKeeps.next ?_
    | with_reducible refine State.journal_keeps ?_
    | with_reducible refine State.modAct_keeps ?_
    | with_reducible refine State.modStack_keeps ?_
    | with_reducible refine State.noteOther_keeps ?_
    | with_reducible refine Keeps.ite ?_ ?_
    | (extract_lets -underBinder +onlyGivenNames z
       first | (refine (fun hz : Keeps σ z => ?_) ?_; on_goal 1 => clear_value z
                on_goal 2 => (unfold z; clear z))
             | clear_value z)
    | split
    | intro _)

theorem execStackIdleCloseTimeout_keeps {σ : State} {act : Nat} {s : State} (hσ : Keeps σ s) : NextKeeps σ (execStackIdleCloseTimeout act s) := by
  unfold execStackIdleCloseTimeout
  repeat' (first
    | with_reducible assumption
    | with_reducible refine NextKeeps.next ?_
    | with_reducible refine State.modAct_keeps ?_
    | with_reducible refine State.reach_keeps ?_
    | with_reducible refine Keeps.ite ?_ ?_
    | (extract_lets -underBinder +onlyGivenNames z
       first | (refine (fun hz : Keeps σ z => ?_) ?_; on_goal 1 => clear_value z
                on_goal 2 => (unfold z; clear z))
             | clear_value z)
    | split
    | intro _)

theorem State.rackDecoded_keeps {σ s : State} {j : ReadJob} (hσ : Keeps σ s) : Keeps σ (State.rackDecoded s j) := by
  unfold State.rackDecoded
  extract_lets n
  split
  · next h =>
    refine State.modPlace_keeps ?_
    split at h
    · exact State.queueSoft_keeps hσ h
    · split at h
      · exact State.queueHard_keeps hσ h
      · cases h
  · exact hσ

theorem execRackSectorReadEnd_keeps {σ : State} {job : Nat} {good : Bool} {bits lost : Nat} {s : State} (hσ : Keeps σ s) : NextKeeps σ (execRackSectorReadEnd job good bits lost s) := by
  unfold execRackSectorReadEnd
  split
  · exact NextKeeps.next hσ
  · split
    · exact NextKeeps.next hσ
    · extract_lets s1 mod s2
      have h1 : Keeps σ s1 := State.rackDecoded_keeps (State.modRack_keeps hσ)
      have hm : ∀ s f, Keeps σ s → Keeps σ (mod s f) := fun s f h => State.modFlash_keeps h
      have h2 : Keeps σ s2 := by
        unfold s2
        exact Keeps.ite (State.modStack_keeps h1) h1
      split
      · split
        · next h => exact NextKeeps.next (hm _ _ (State.queueCipher_keeps h2 h))
        · exact NextKeeps.next (hm _ _ h2)
      · exact NextKeeps.next (State.ladder_keeps h1)

theorem execRackKneadSelection_keeps {σ : State} {act : Nat} {s : State} (hσ : Keeps σ s) : NextKeeps σ (execRackKneadSelection act s) := by
  unfold execRackKneadSelection
  repeat' (first
    | with_reducible assumption
    | with_reducible refine NextKeeps.next ?_
    | with_reducible refine State.flowDemand_keeps ?_
    | with_reducible refine State.modAct_keeps ?_
    | with_reducible refine State.modPlace_keeps ?_
    | with_reducible refine State.rackKneadUpdate_keeps ?_
    | with_reducible refine State.releaseRack_keeps ?_
    | with_reducible refine Keeps.ite ?_ ?_
    | (extract_lets -underBinder +onlyGivenNames z
       first | (refine (fun hz : Keeps σ z => ?_) ?_; on_goal 1 => clear_value z
                on_goal 2 => (unfold z; clear z))
             | (refine (fun hz : Keeps σ z.2 => ?_) ?_; on_goal 1 => clear_value z
                on_goal 2 => (unfold z; clear z))
             | (refine (fun hz : Keeps σ z.1 => ?_) ?_; on_goal 1 => clear_value z
                on_goal 2 => (unfold z; clear z))
             | clear_value z)
    | split
    | intro _)

theorem execRackScrubRead_keeps {σ : State} {act index bits : Nat} {ladder : Bool} {nsid lcn lost : Nat} {last : Bool} {s : State} (hσ : Keeps σ s) : NextKeeps σ (execRackScrubRead act index bits ladder nsid lcn lost last s) := by
  unfold execRackScrubRead
  repeat' (first
    | with_reducible assumption
    | with_reducible refine NextKeeps.next ?_
    | with_reducible refine State.ladder_keeps ?_
    | with_reducible refine State.loseSource_keeps ?_
    | with_reducible refine State.modStack_keeps ?_
    | with_reducible refine Keeps.ite ?_ ?_
    | (extract_lets -underBinder +onlyGivenNames z
       first | (refine (fun hz : Keeps σ z => ?_) ?_; on_goal 1 => clear_value z
                on_goal 2 => (unfold z; clear z))
             | clear_value z)
    | split
    | intro _)

theorem execRootCopyToRack_keeps {σ s : State} (hσ : Keeps σ s) : NextKeeps σ (execRootCopyToRack s) := by
  unfold execRootCopyToRack
  repeat' (first
    | with_reducible assumption
    | with_reducible refine NextKeeps.next ?_
    | with_reducible refine State.modMedia_keeps ?_
    | with_reducible refine State.modRack_keeps ?_
    | with_reducible refine Keeps.ite ?_ ?_
    | (extract_lets -underBinder +onlyGivenNames z
       first | (refine (fun hz : Keeps σ z => ?_) ?_; on_goal 1 => clear_value z
                on_goal 2 => (unfold z; clear z))
             | (refine (fun hz : Keeps σ z.1 => ?_) ?_; on_goal 1 => clear_value z
                on_goal 2 => (unfold z; clear z))
             | clear_value z)
    | split
    | intro _)

theorem execJournalPageProgramComplete_keeps {σ : State} {good : Bool} {die block : Nat} {s : State} (hσ : Keeps σ s) : NextKeeps σ (execJournalPageProgramComplete good die block s) := by
  unfold execJournalPageProgramComplete
  repeat' (first
    | with_reducible assumption
    | with_reducible refine NextKeeps.next ?_
    | with_reducible refine State.journalDurable_keeps ?_
    | with_reducible refine State.memberFailed_keeps ?_
    | with_reducible refine State.memberFailed_keeps_of ?_ (by with_reducible assumption)
    | with_reducible refine Keeps.ite ?_ ?_
    | split
    | intro _)

theorem execDeallocationJournalDelay_keeps {σ s : State} (hσ : Keeps σ s) : NextKeeps σ (execDeallocationJournalDelay s) := by
  unfold execDeallocationJournalDelay
  repeat' (first
    | with_reducible assumption
    | with_reducible refine NextKeeps.next ?_
    | with_reducible refine State.journalDurable_keeps ?_
    | with_reducible refine State.reach_keeps ?_
    | split
    | intro _)

theorem execCheckpointRoundStart_keeps {σ s : State} (hσ : Keeps σ s) : NextKeeps σ (execCheckpointRoundStart s) := by
  unfold execCheckpointRoundStart
  repeat' (first
    | with_reducible assumption
    | with_reducible refine NextKeeps.next ?_
    | with_reducible refine State.modMap_keeps ?_
    | with_reducible refine State.reach_keeps ?_
    | with_reducible refine Keeps.ite ?_ ?_
    | (extract_lets -underBinder +onlyGivenNames z
       first | (refine (fun hz : Keeps σ z => ?_) ?_; on_goal 1 => clear_value z
                on_goal 2 => (unfold z; clear z))
             | clear_value z)
    | split
    | intro _)

theorem execCheckpointRootDurable_keeps {σ s : State} (hσ : Keeps σ s) : NextKeeps σ (execCheckpointRootDurable s) := by
  unfold execCheckpointRootDurable
  repeat' (first
    | with_reducible assumption
    | with_reducible refine NextKeeps.next ?_
    | with_reducible refine Keeps.foldl ?_ ?_
    | with_reducible refine State.modMap_keeps ?_
    | with_reducible refine State.shutdownCheck_keeps ?_
    | with_reducible refine State.writeRoot_keeps ?_
    | with_reducible refine Keeps.ite ?_ ?_
    | (extract_lets -underBinder +onlyGivenNames z
       first | (refine (fun hz : Keeps σ z => ?_) ?_; on_goal 1 => clear_value z
                on_goal 2 => (unfold z; clear z))
             | clear_value z)
    | split
    | intro _)

theorem execMapPageLoadComplete_keeps {σ : State} {page : Nat} {good : Bool} {s : State} (hσ : Keeps σ s) : NextKeeps σ (execMapPageLoadComplete page good s) := by
  unfold execMapPageLoadComplete
  repeat' (first
    | with_reducible assumption
    | with_reducible refine NextKeeps.next ?_
    | with_reducible refine Keeps.foldl ?_ ?_
    | with_reducible refine Keeps.foldlP ?_ ?_
    | with_reducible refine Keeps.foldlQ ?_ ?_
    | with_reducible refine State.evict_keeps ?_
    | with_reducible refine State.effectParked_keeps ?_
    | with_reducible refine State.loseUnits_keeps ?_
    | with_reducible refine State.loseUnits_keeps_of ?_ (by with_reducible assumption)
    | with_reducible refine State.modMap_keeps ?_
    | with_reducible refine State.putDesc_keeps ?_
    | with_reducible refine State.settle_keeps ?_
    | with_reducible refine Keeps.ite ?_ ?_
    | (extract_lets -underBinder +onlyGivenNames z
       first | (refine (fun hz : Keeps σ z => ?_) ?_; on_goal 1 => clear_value z
                on_goal 2 => (unfold z; clear z))
             | (refine (fun hz : Keeps σ z.2 => ?_) ?_; on_goal 1 => clear_value z
                on_goal 2 => (unfold z; clear z))
             | (refine (fun hz : Keeps σ z.1 => ?_) ?_; on_goal 1 => clear_value z
                on_goal 2 => (unfold z; clear z))
             | clear_value z)
    | split
    | intro _)

theorem execMapPageSpill_keeps {σ : State} {page : Nat} {s : State} (hσ : Keeps σ s) : NextKeeps σ (execMapPageSpill page s) := by
  unfold execMapPageSpill
  repeat' (first
    | with_reducible assumption
    | with_reducible refine NextKeeps.next ?_
    | with_reducible refine State.modMap_keeps ?_
    | with_reducible refine State.modMedia_keeps ?_
    | with_reducible refine Keeps.ite ?_ ?_
    | (extract_lets -underBinder +onlyGivenNames z
       first | (refine (fun hz : Keeps σ z => ?_) ?_; on_goal 1 => clear_value z
                on_goal 2 => (unfold z; clear z))
             | (refine (fun hz : Keeps σ z.2 => ?_) ?_; on_goal 1 => clear_value z
                on_goal 2 => (unfold z; clear z))
             | (refine (fun hz : Keeps σ z.1 => ?_) ?_; on_goal 1 => clear_value z
                on_goal 2 => (unfold z; clear z))
             | clear_value z)
    | split
    | intro _)

theorem execAgeingSweepVisit_keeps {σ : State} {nsid lcn : Nat} {s : State} (hσ : Keeps σ s) : NextKeeps σ (execAgeingSweepVisit nsid lcn s) := by
  unfold execAgeingSweepVisit
  repeat' (first
    | with_reducible assumption
    | with_reducible refine NextKeeps.next ?_
    | with_reducible refine State.putDesc_keeps ?_
    | with_reducible refine Keeps.ite ?_ ?_
    | (extract_lets -underBinder +onlyGivenNames z
       first | (refine (fun hz : Keeps σ z => ?_) ?_; on_goal 1 => clear_value z
                on_goal 2 => (unfold z; clear z))
             | clear_value z)
    | split
    | intro _)

theorem execEvacuationChoice_keeps {σ : State} {nsid lcn : Nat} {s : State} (hσ : Keeps σ s) : NextKeeps σ (execEvacuationChoice nsid lcn s) := by
  unfold execEvacuationChoice
  repeat' (first
    | with_reducible assumption
    | with_reducible refine NextKeeps.next ?_
    | with_reducible refine State.carryOut_keeps ?_
    | with_reducible refine State.evalEmergency_keeps ?_
    | with_reducible refine State.evalEvacuation_keeps ?_
    | with_reducible refine State.evalMigration_keeps ?_
    | with_reducible refine State.putDesc_keeps ?_
    | with_reducible refine Keeps.ite ?_ ?_
    | (extract_lets -underBinder +onlyGivenNames z
       first | (refine (fun hz : Keeps σ z => ?_) ?_; on_goal 1 => clear_value z
                on_goal 2 => (unfold z; clear z))
             | clear_value z)
    | split
    | intro _)

theorem execMigrationQueueRoom_keeps {σ : State} {act : Nat} {s : State} (hσ : Keeps σ s) : NextKeeps σ (execMigrationQueueRoom act s) := by
  unfold execMigrationQueueRoom
  repeat' (first
    | with_reducible assumption
    | with_reducible refine NextKeeps.next ?_
    | with_reducible exact hz _
    | with_reducible exact hz _ _
    | with_reducible refine hz _ ?_
    | with_reducible refine hz _ _ ?_
    | with_reducible refine State.enqueue_keeps ?_
    | with_reducible refine State.modPlace_keeps ?_
    | with_reducible refine Keeps.ite ?_ ?_
    | (extract_lets -underBinder +onlyGivenNames z
       first | (refine (fun hz : Keeps σ z => ?_) ?_; on_goal 1 => clear_value z
                on_goal 2 => (unfold z; clear z))
             | (refine (fun hz : Keeps σ z.2 => ?_) ?_; on_goal 1 => clear_value z
                on_goal 2 => (unfold z; clear z))
             | (refine (fun hz : Keeps σ z.1 => ?_) ?_; on_goal 1 => clear_value z
                on_goal 2 => (unfold z; clear z))
             | (refine (fun hz : ∀ x, Keeps σ x → Keeps σ (z x) => ?_) ?_; on_goal 1 => clear_value z
                on_goal 2 => (unfold z; clear z))
             | (refine (fun hz : ∀ x y, Keeps σ x → Keeps σ (z x y) => ?_) ?_; on_goal 1 => clear_value z
                on_goal 2 => (unfold z; clear z))
             | (refine (fun hz : ∀ y, Keeps σ (z y) => ?_) ?_; on_goal 1 => clear_value z
                on_goal 2 => (unfold z; clear z))
             | (refine (fun hz : ∀ y w, Keeps σ (z y w) => ?_) ?_; on_goal 1 => clear_value z
                on_goal 2 => (unfold z; clear z))
             | clear_value z)
    | split
    | intro _)

theorem execCopySourceReadEnd_keeps {σ : State} {copy : Nat} {good ladder : Bool} {bits lost : Nat} {s : State} (hσ : Keeps σ s) : NextKeeps σ (execCopySourceReadEnd copy good ladder bits lost s) := by
  unfold execCopySourceReadEnd
  repeat' (first
    | with_reducible assumption
    | with_reducible refine NextKeeps.next ?_
    | with_reducible refine State.countReads_keeps ?_
    | with_reducible refine State.endCopy_keeps ?_
    | with_reducible refine State.flagRefresh_keeps ?_
    | with_reducible refine State.ladder_keeps ?_
    | with_reducible refine State.loseSource_keeps ?_
    | with_reducible refine State.modCopy_keeps ?_
    | with_reducible refine State.placeCopy_keeps ?_
    | with_reducible refine State.releaseEmpty_keeps ?_
    | with_reducible refine Keeps.ite ?_ ?_
    | (extract_lets -underBinder +onlyGivenNames z
       first | (refine (fun hz : Keeps σ z => ?_) ?_; on_goal 1 => clear_value z
                on_goal 2 => (unfold z; clear z))
             | (refine (fun hz : Keeps σ z.2 => ?_) ?_; on_goal 1 => clear_value z
                on_goal 2 => (unfold z; clear z))
             | clear_value z)
    | split
    | intro _)

theorem execCopyReadVerifyEnd_keeps {σ : State} {copy : Nat} {good : Bool} {bits member : Nat} {s : State} (hσ : Keeps σ s) : NextKeeps σ (execCopyReadVerifyEnd copy good bits member s) := by
  unfold execCopyReadVerifyEnd
  repeat' (first
    | with_reducible assumption
    | with_reducible refine NextKeeps.next ?_
    | with_reducible refine State.jform_keeps ?_
    | with_reducible refine State.jform_keeps_of ?_ (by with_reducible assumption)
    | with_reducible refine State.memberFailed_keeps ?_
    | with_reducible refine State.memberFailed_keeps_of ?_ (by with_reducible assumption)
    | with_reducible refine State.modCopy_keeps ?_
    | with_reducible refine State.modMedia_keeps ?_
    | with_reducible refine State.modSpan_keeps ?_
    | with_reducible refine State.redoGroup_keeps ?_
    | with_reducible refine State.settle_keeps ?_
    | with_reducible refine State.unclean_keeps ?_
    | with_reducible refine Keeps.ite ?_ ?_
    | (extract_lets -underBinder +onlyGivenNames z
       first | (refine (fun hz : Keeps σ z => ?_) ?_; on_goal 1 => clear_value z
                on_goal 2 => (unfold z; clear z))
             | (refine (fun hz : Keeps σ z.2 => ?_) ?_; on_goal 1 => clear_value z
                on_goal 2 => (unfold z; clear z))
             | (refine (fun hz : Keeps σ z.1 => ?_) ?_; on_goal 1 => clear_value z
                on_goal 2 => (unfold z; clear z))
             | clear_value z)
    | split
    | intro _)

theorem execKneadSpanSelection_keeps {σ s : State} (hσ : Keeps σ s) : NextKeeps σ (execKneadSpanSelection s) := by
  unfold execKneadSpanSelection
  repeat' (first
    | with_reducible assumption
    | with_reducible refine NextKeeps.next ?_
    | with_reducible refine Keeps.foldl ?_ ?_
    | with_reducible refine State.flagWear_keeps ?_
    | with_reducible refine State.kneadUpdate_keeps ?_
    | with_reducible refine State.modFlash_keeps ?_
    | with_reducible refine State.releaseEmpty_keeps ?_
    | with_reducible refine State.startCopy_keeps ?_
    | with_reducible refine Keeps.ite ?_ ?_
    | (extract_lets -underBinder +onlyGivenNames z
       first | (refine (fun hz : Keeps σ z => ?_) ?_; on_goal 1 => clear_value z
                on_goal 2 => (unfold z; clear z))
             | (refine (fun hz : Keeps σ z.2 => ?_) ?_; on_goal 1 => clear_value z
                on_goal 2 => (unfold z; clear z))
             | (refine (fun hz : Keeps σ z.1 => ?_) ?_; on_goal 1 => clear_value z
                on_goal 2 => (unfold z; clear z))
             | clear_value z)
    | split
    | intro _)

theorem execRetentionAgeUpdate_keeps {σ s : State} (hσ : Keeps σ s) : NextKeeps σ (execRetentionAgeUpdate s) := by
  unfold execRetentionAgeUpdate
  repeat' (first
    | with_reducible assumption
    | with_reducible refine Keeps.optMap ?_ ?_
    | with_reducible refine Keeps.optGet ?_ ?_
    | with_reducible refine Keeps.optElim ?_ ?_
    | with_reducible refine NextKeeps.next ?_
    | with_reducible refine Keeps.foldl ?_ ?_
    | with_reducible refine Keeps.foldlP ?_ ?_
    | with_reducible refine Keeps.foldlQ ?_ ?_
    | with_reducible refine State.bandFlash_keeps ?_
    | with_reducible refine State.modFlash_keeps ?_
    | with_reducible refine State.reach_keeps ?_
    | with_reducible refine State.spareUpdate_keeps ?_
    | with_reducible refine Keeps.ite ?_ ?_
    | (extract_lets -underBinder +onlyGivenNames z
       first | (refine (fun hz : Keeps σ z => ?_) ?_; on_goal 1 => clear_value z
                on_goal 2 => (unfold z; clear z))
             | (refine (fun hz : Keeps σ z.2 => ?_) ?_; on_goal 1 => clear_value z
                on_goal 2 => (unfold z; clear z))
             | (refine (fun hz : Keeps σ z.1 => ?_) ?_; on_goal 1 => clear_value z
                on_goal 2 => (unfold z; clear z))
             | clear_value z)
    | split
    | intro _)

theorem execScrubRead_keeps {σ : State} {span member bits : Nat} {ladder : Bool} {nsid lcn lost : Nat} {last : Bool} {s : State} (hσ : Keeps σ s) : NextKeeps σ (execScrubRead span member bits ladder nsid lcn lost last s) := by
  unfold execScrubRead
  repeat' (first
    | with_reducible assumption
    | with_reducible refine NextKeeps.next ?_
    | with_reducible refine State.countReads_keeps ?_
    | with_reducible refine State.flagRefresh_keeps ?_
    | with_reducible refine State.ladder_keeps ?_
    | with_reducible refine State.loseSource_keeps ?_
    | with_reducible refine State.modSpan_keeps ?_
    | with_reducible refine Keeps.ite ?_ ?_
    | (extract_lets -underBinder +onlyGivenNames z
       first | (refine (fun hz : Keeps σ z => ?_) ?_; on_goal 1 => clear_value z
                on_goal 2 => (unfold z; clear z))
             | clear_value z)
    | split
    | intro _)

theorem execChannelFenceRebuildTimeout_keeps {σ : State} {ch : Nat} {s : State} (hσ : Keeps σ s) : NextKeeps σ (execChannelFenceRebuildTimeout ch s) := by
  unfold execChannelFenceRebuildTimeout
  repeat' (first
    | with_reducible assumption
    | with_reducible refine NextKeeps.next ?_
    | with_reducible refine State.modFlash_keeps ?_
    | with_reducible refine State.reach_keeps ?_
    | with_reducible refine Keeps.ite ?_ ?_
    | (extract_lets -underBinder +onlyGivenNames z
       first | (refine (fun hz : Keeps σ z => ?_) ?_; on_goal 1 => clear_value z
                on_goal 2 => (unfold z; clear z))
             | (refine (fun hz : Keeps σ z.2 => ?_) ?_; on_goal 1 => clear_value z
                on_goal 2 => (unfold z; clear z))
             | (refine (fun hz : Keeps σ z.1 => ?_) ?_; on_goal 1 => clear_value z
                on_goal 2 => (unfold z; clear z))
             | clear_value z)
    | split
    | intro _)

theorem execWrite_keeps {σ : State} {stamp : Nat} {data : List Crumb} {s : State} (hσ : Keeps σ s) : NextKeeps σ (execWrite stamp data s) := by
  unfold execWrite
  repeat' (first
    | with_reducible assumption
    | with_reducible refine NextKeeps.next ?_
    | with_reducible refine State.onIo_keeps ?_ ?_
    | with_reducible refine State.settle_keeps ?_
    | with_reducible refine State.takeData_keeps ?_
    | with_reducible refine Keeps.ite ?_ ?_
    | split
    | intro _)

theorem execRead_keeps {σ : State} {stamp : Nat} {s : State} (hσ : Keeps σ s) : NextKeeps σ (execRead stamp s) := by
  unfold execRead
  repeat' (first
    | with_reducible assumption
    | with_reducible refine NextKeeps.next ?_
    | with_reducible refine State.complete_keeps ?_
    | with_reducible refine State.countRead_keeps ?_
    | with_reducible refine State.hostWrite_keeps ?_
    | with_reducible refine State.onIo_keeps ?_ ?_
    | with_reducible refine Keeps.ite ?_ ?_
    | split
    | intro _)

theorem execCompare_keeps {σ : State} {stamp : Nat} {data : List Crumb} {s : State} (hσ : Keeps σ s) : NextKeeps σ (execCompare stamp data s) := by
  unfold execCompare
  repeat' (first
    | with_reducible assumption
    | with_reducible refine NextKeeps.next ?_
    | with_reducible refine State.complete_keeps ?_
    | with_reducible refine State.modNvme_keeps ?_
    | with_reducible refine State.onIo_keeps ?_ ?_
    | with_reducible refine Keeps.ite ?_ ?_
    | (extract_lets -underBinder +onlyGivenNames z
       first | (refine (fun hz : Keeps σ z => ?_) ?_; on_goal 1 => clear_value z
                on_goal 2 => (unfold z; clear z))
             | clear_value z)
    | split
    | intro _)

theorem execVerify_keeps {σ : State} {stamp : Nat} {s : State} (hσ : Keeps σ s) : NextKeeps σ (execVerify stamp s) := by
  unfold execVerify
  repeat' (first
    | with_reducible assumption
    | with_reducible refine NextKeeps.next ?_
    | with_reducible refine State.complete_keeps ?_
    | with_reducible refine State.onIo_keeps ?_ ?_
    | with_reducible refine Keeps.ite ?_ ?_
    | split
    | intro _)

theorem execFlush_keeps {σ : State} {stamp : Nat} {s : State} (hσ : Keeps σ s) : NextKeeps σ (execFlush stamp s) := by
  unfold execFlush
  repeat' (first
    | with_reducible assumption
    | with_reducible refine NextKeeps.next ?_
    | with_reducible refine State.complete_keeps ?_
    | with_reducible refine State.onIo_keeps ?_ ?_
    | intro _)

theorem execWriteZeroes_keeps {σ : State} {stamp : Nat} {s : State} (hσ : Keeps σ s) : NextKeeps σ (execWriteZeroes stamp s) := by
  unfold execWriteZeroes
  repeat' (first
    | with_reducible assumption
    | with_reducible refine NextKeeps.next ?_
    | with_reducible refine Keeps.foldl ?_ ?_
    | with_reducible refine State.modCtx_keeps ?_
    | with_reducible refine State.onIo_keeps ?_ ?_
    | with_reducible refine State.settle_keeps ?_
    | with_reducible refine State.zeroChunk_keeps ?_
    | intro _)

theorem execDeallocate_keeps {σ : State} {stamp : Nat} {s : State} (hσ : Keeps σ s) : NextKeeps σ (execDeallocate stamp s) := by
  unfold execDeallocate
  repeat' (first
    | with_reducible assumption
    | with_reducible refine NextKeeps.next ?_
    | with_reducible refine Keeps.foldl ?_ ?_
    | with_reducible refine State.complete_keeps ?_
    | with_reducible refine State.deallocChunk_keeps ?_
    | with_reducible refine State.finishWrites_keeps ?_
    | with_reducible refine State.modCtx_keeps ?_
    | with_reducible refine State.modEnt_keeps ?_
    | with_reducible refine State.onIo_keeps ?_ ?_
    | with_reducible refine State.settle_keeps ?_
    | with_reducible refine Keeps.ite ?_ ?_
    | (extract_lets -underBinder +onlyGivenNames z
       first | (refine (fun hz : Keeps σ z => ?_) ?_; on_goal 1 => clear_value z
                on_goal 2 => (unfold z; clear z))
             | (refine (fun hz : Keeps σ z.1 => ?_) ?_; on_goal 1 => clear_value z
                on_goal 2 => (unfold z; clear z))
             | clear_value z)
    | split
    | intro _)

theorem execDatasetManagementHint_keeps {σ : State} {stamp : Nat} {s : State} (hσ : Keeps σ s) : NextKeeps σ (execDatasetManagementHint stamp s) := by
  unfold execDatasetManagementHint
  repeat' (first
    | with_reducible assumption
    | with_reducible refine NextKeeps.next ?_
    | with_reducible refine State.complete_keeps ?_
    | with_reducible refine State.onIo_keeps ?_ ?_
    | with_reducible refine Keeps.ite ?_ ?_
    | split
    | intro _)

theorem execRawThroughRead_keeps {σ : State} {stamp : Nat} {s : State} (hσ : Keeps σ s) : NextKeeps σ (execRawThroughRead stamp s) := by
  unfold execRawThroughRead
  repeat' (first
    | with_reducible assumption
    | with_reducible refine NextKeeps.next ?_
    | with_reducible refine State.complete_keeps ?_
    | with_reducible refine State.hostWrite_keeps ?_
    | with_reducible refine State.onIo_keeps ?_ ?_
    | with_reducible refine Keeps.ite ?_ ?_
    | (extract_lets -underBinder +onlyGivenNames z
       first | (refine (fun hz : Keeps σ z => ?_) ?_; on_goal 1 => clear_value z
                on_goal 2 => (unfold z; clear z))
             | (refine (fun hz : Keeps σ z.2 => ?_) ?_; on_goal 1 => clear_value z
                on_goal 2 => (unfold z; clear z))
             | (refine (fun hz : Keeps σ z.1 => ?_) ?_; on_goal 1 => clear_value z
                on_goal 2 => (unfold z; clear z))
             | clear_value z)
    | split
    | intro _)

theorem execPlacementQuery_keeps {σ : State} {stamp : Nat} {s : State} (hσ : Keeps σ s) : NextKeeps σ (execPlacementQuery stamp s) := by
  unfold execPlacementQuery
  repeat' (first
    | with_reducible assumption
    | with_reducible refine NextKeeps.next ?_
    | with_reducible refine State.complete_keeps ?_
    | with_reducible refine State.effectParked_keeps ?_
    | with_reducible refine State.hostWrite_keeps ?_
    | with_reducible refine State.onIo_keeps ?_ ?_
    | with_reducible refine State.settle_keeps ?_
    | with_reducible refine Keeps.ite ?_ ?_
    | (extract_lets -underBinder +onlyGivenNames z
       first | (refine (fun hz : Keeps σ z => ?_) ?_; on_goal 1 => clear_value z
                on_goal 2 => (unfold z; clear z))
             | clear_value z)
    | split
    | intro _)

theorem execChannelInitialisation_keeps {σ : State} {ch : Nat} {rb : Bool} {dies : List DieReport} {s : State} (hσ : Keeps σ s) : NextKeeps σ (execChannelInitialisation ch rb dies s) := by
  unfold execChannelInitialisation
  repeat' (first
    | with_reducible assumption
    | with_reducible refine NextKeeps.next ?_
    | with_reducible refine Keeps.foldl ?_ ?_
    | with_reducible refine Keeps.foldlP ?_ ?_
    | with_reducible refine Keeps.foldlQ ?_ ?_
    | with_reducible refine State.dieFailed_keeps ?_
    | with_reducible refine State.fault_keeps ?_
    | with_reducible refine State.findDie_keeps ?_
    | with_reducible refine State.modChannel_keeps ?_
    | with_reducible refine State.modDie_keeps ?_
    | with_reducible refine State.note_keeps ?_
    | with_reducible refine State.trainGroup_keeps ?_
    | with_reducible refine Keeps.ite ?_ ?_
    | (extract_lets -underBinder +onlyGivenNames z
       first | (refine (fun hz : Keeps σ z => ?_) ?_; on_goal 1 => clear_value z
                on_goal 2 => (unfold z; clear z))
             | (refine (fun hz : Keeps σ z.2 => ?_) ?_; on_goal 1 => clear_value z
                on_goal 2 => (unfold z; clear z))
             | (refine (fun hz : Keeps σ z.1 => ?_) ?_; on_goal 1 => clear_value z
                on_goal 2 => (unfold z; clear z))
             | clear_value z)
    | split
    | intro _)

theorem execStatusPoll_keeps {σ : State} {die op : Nat} {ready : Bool} {s : State} (hσ : Keeps σ s) : NextKeeps σ (execStatusPoll die op ready s) := by
  unfold execStatusPoll
  repeat' (first
    | with_reducible assumption
    | with_reducible refine NextKeeps.next ?_
    | with_reducible refine State.modDie_keeps ?_
    | with_reducible refine Keeps.ite ?_ ?_
    | split
    | intro _)

theorem execOperationTimeout_keeps {σ : State} {die op a b c : Nat} {resetOk : Bool} {s : State} (hσ : Keeps σ s) : NextKeeps σ (execOperationTimeout die op a b c resetOk s) := by
  unfold execOperationTimeout
  repeat' (first
    | with_reducible assumption
    | with_reducible refine NextKeeps.next ?_
    | with_reducible refine State.dieFailed_keeps ?_
    | with_reducible refine execProgramComplete_keeps ?_
    | with_reducible refine State.fault_keeps ?_
    | with_reducible refine State.ladder_keeps ?_
    | with_reducible refine State.modDie_keeps ?_
    | with_reducible refine Keeps.ite ?_ ?_
    | (extract_lets -underBinder +onlyGivenNames z
       first | (refine (fun hz : Keeps σ z => ?_) ?_; on_goal 1 => clear_value z
                on_goal 2 => (unfold z; clear z))
             | (refine (fun hz : Keeps σ z.1 => ?_) ?_; on_goal 1 => clear_value z
                on_goal 2 => (unfold z; clear z))
             | clear_value z)
    | split
    | intro _)

theorem execRetrainInterval_keeps {σ : State} {die eye full : Nat} {s : State} (hσ : Keeps σ s) : NextKeeps σ (execRetrainInterval die eye full s) := by
  unfold execRetrainInterval
  repeat' (first
    | with_reducible assumption
    | with_reducible refine NextKeeps.next ?_
    | with_reducible exact hz _
    | with_reducible exact hz _ _
    | with_reducible refine hz _ ?_
    | with_reducible refine hz _ _ ?_
    | with_reducible refine State.dieFailed_keeps ?_
    | with_reducible refine State.modDie_keeps ?_
    | with_reducible refine State.reach_keeps ?_
    | with_reducible refine Keeps.ite ?_ ?_
    | (extract_lets -underBinder +onlyGivenNames z
       first | (refine (fun hz : Keeps σ z => ?_) ?_; on_goal 1 => clear_value z
                on_goal 2 => (unfold z; clear z))
             | (refine (fun hz : ∀ x, Keeps σ x → Keeps σ (z x) => ?_) ?_; on_goal 1 => clear_value z
                on_goal 2 => (unfold z; clear z))
             | (refine (fun hz : ∀ x y, Keeps σ x → Keeps σ (z x y) => ?_) ?_; on_goal 1 => clear_value z
                on_goal 2 => (unfold z; clear z))
             | (refine (fun hz : ∀ y, Keeps σ (z y) => ?_) ?_; on_goal 1 => clear_value z
                on_goal 2 => (unfold z; clear z))
             | (refine (fun hz : ∀ y w, Keeps σ (z y w) => ?_) ?_; on_goal 1 => clear_value z
                on_goal 2 => (unfold z; clear z))
             | clear_value z)
    | split
    | intro _)

theorem execPatternRunStart_keeps {σ : State} {sub : Nat} {s : State} (hσ : Keeps σ s) : NextKeeps σ (execPatternRunStart sub s) := by
  unfold execPatternRunStart
  repeat' (first
    | with_reducible assumption
    | with_reducible refine NextKeeps.next ?_
    | with_reducible refine State.modHelper_keeps ?_
    | with_reducible refine Keeps.ite ?_ ?_
    | split
    | intro _)

theorem execPatternCompareClear_keeps {σ : State} {sub : Nat} {s : State} (hσ : Keeps σ s) : NextKeeps σ (execPatternCompareClear sub s) := by
  unfold execPatternCompareClear
  repeat' (first
    | with_reducible assumption
    | with_reducible refine NextKeeps.next ?_
    | with_reducible refine State.modHelper_keeps ?_
    | intro _)

theorem execPatternRunEnd_keeps {σ : State} {sub : Nat} {bad : List (Nat × Nat)} {s : State} (hσ : Keeps σ s) : NextKeeps σ (execPatternRunEnd sub bad s) := by
  unfold execPatternRunEnd
  repeat' (first
    | with_reducible assumption
    | with_reducible refine NextKeeps.next ?_
    | with_reducible refine Keeps.foldl ?_ ?_
    | with_reducible refine State.modHelper_keeps ?_
    | with_reducible refine Keeps.ite ?_ ?_
    | (extract_lets -underBinder +onlyGivenNames z
       first | (refine (fun hz : Keeps σ z => ?_) ?_; on_goal 1 => clear_value z
                on_goal 2 => (unfold z; clear z))
             | (refine (fun hz : Keeps σ z.2 => ?_) ?_; on_goal 1 => clear_value z
                on_goal 2 => (unfold z; clear z))
             | (refine (fun hz : Keeps σ z.1 => ?_) ?_; on_goal 1 => clear_value z
                on_goal 2 => (unfold z; clear z))
             | clear_value z)
    | split
    | intro _)

theorem execDqsTrackingInterval_keeps {σ : State} {sub : Nat} {drift : List Int} {s : State} (hσ : Keeps σ s) : NextKeeps σ (execDqsTrackingInterval sub drift s) := by
  unfold execDqsTrackingInterval
  repeat' (first
    | with_reducible assumption
    | with_reducible refine NextKeeps.next ?_
    | with_reducible refine State.track_keeps ?_
    | with_reducible refine Keeps.ite ?_ ?_
    | split
    | intro _)

theorem execRefreshRateCheck_keeps {σ : State} {hot : List Nat} {s : State} (hσ : Keeps σ s) : NextKeeps σ (execRefreshRateCheck hot s) := by
  unfold execRefreshRateCheck
  repeat' (first
    | with_reducible assumption
    | with_reducible refine NextKeeps.next ?_
    | with_reducible refine Keeps.foldl ?_ ?_
    | with_reducible refine State.fault_keeps ?_
    | with_reducible refine State.modSub_keeps ?_
    | with_reducible refine Keeps.ite ?_ ?_
    | (extract_lets -underBinder +onlyGivenNames z
       first | (refine (fun hz : Keeps σ z => ?_) ?_; on_goal 1 => clear_value z
                on_goal 2 => (unfold z; clear z))
             | clear_value z)
    | split
    | intro _)

theorem execRefreshInterval_keeps {σ : State} {sub : Nat} {s : State} (hσ : Keeps σ s) : NextKeeps σ (execRefreshInterval sub s) := by
  unfold execRefreshInterval
  repeat' (first
    | with_reducible assumption
    | with_reducible refine NextKeeps.next ?_
    | with_reducible refine State.modSub_keeps ?_
    | with_reducible refine Keeps.ite ?_ ?_
    | split
    | intro _)

theorem execPatrolScrubBurst_keeps {σ : State} {result holds key : Nat} {s : State} (hσ : Keeps σ s) : NextKeeps σ (execPatrolScrubBurst result holds key s) := by
  unfold execPatrolScrubBurst
  repeat' (first
    | with_reducible assumption
    | with_reducible refine NextKeeps.next ?_
    | with_reducible refine State.fault_keeps ?_
    | with_reducible refine State.modDram_keeps ?_
    | with_reducible refine State.poisoned_keeps ?_
    | with_reducible refine Keeps.ite ?_ ?_
    | (extract_lets -underBinder +onlyGivenNames z
       first | (refine (fun hz : Keeps σ z => ?_) ?_; on_goal 1 => clear_value z
                on_goal 2 => (unfold z; clear z))
             | clear_value z)
    | split
    | intro _)

theorem execSelfRefreshExit_keeps {σ : State} {drift : List (List Int)} {s : State} (hσ : Keeps σ s) : NextKeeps σ (execSelfRefreshExit drift s) := by
  unfold execSelfRefreshExit
  repeat' (first
    | with_reducible assumption
    | with_reducible refine NextKeeps.next ?_
    | with_reducible refine Keeps.foldl ?_ ?_
    | with_reducible refine Keeps.foldlP ?_ ?_
    | with_reducible refine Keeps.foldlQ ?_ ?_
    | with_reducible refine State.flushStaged_keeps ?_
    | with_reducible refine State.modDram_keeps ?_
    | with_reducible refine State.modPwr_keeps ?_ ?_
    | with_reducible refine State.track_keeps ?_
    | with_reducible exact fun _ => ⟨rfl, rfl⟩
    | with_reducible exact fun _ => rfl
    | (intro x; try dsimp only; repeat' split) <;> with_reducible first | rfl | exact ⟨rfl, rfl⟩
    | with_reducible refine Keeps.ite ?_ ?_
    | (extract_lets -underBinder +onlyGivenNames z
       first | (refine (fun hz : Keeps σ z => ?_) ?_; on_goal 1 => clear_value z
                on_goal 2 => (unfold z; clear z))
             | clear_value z)
    | split
    | intro _)

theorem execDramAlert_keeps {σ : State} {sub : Nat} {fresh : Bool} {s : State} (hσ : Keeps σ s) : NextKeeps σ (execDramAlert sub fresh s) := by
  unfold execDramAlert
  repeat' (first
    | with_reducible assumption
    | with_reducible refine NextKeeps.next ?_
    | with_reducible refine Keeps.foldl ?_ ?_
    | with_reducible refine State.fault_keeps ?_
    | with_reducible refine State.fresh_keeps ?_
    | with_reducible refine State.fresh_keeps_of ?_ (by with_reducible assumption)
    | with_reducible refine State.modSub_keeps ?_
    | with_reducible refine Keeps.ite ?_ ?_
    | (extract_lets -underBinder +onlyGivenNames z
       first | (refine (fun hz : Keeps σ z => ?_) ?_; on_goal 1 => clear_value z
                on_goal 2 => (unfold z; clear z))
             | clear_value z)
    | split
    | intro _)

theorem execDramRequestChoice_keeps {σ : State} {sub : Nat} {arrivals : List DramArrival} {levels : List Nat} {s : State} (hσ : Keeps σ s) : NextKeeps σ (execDramRequestChoice sub arrivals levels s) := by
  unfold execDramRequestChoice
  repeat' (first
    | with_reducible assumption
    | with_reducible refine NextKeeps.next ?_
    | with_reducible refine Keeps.foldl ?_ ?_
    | with_reducible refine State.modDram_keeps ?_
    | with_reducible refine State.modSub_keeps ?_
    | with_reducible refine State.setLevels_keeps ?_
    | with_reducible refine Keeps.ite ?_ ?_
    | (extract_lets -underBinder +onlyGivenNames z
       first | (refine (fun hz : Keeps σ z => ?_) ?_; on_goal 1 => clear_value z
                on_goal 2 => (unfold z; clear z))
             | clear_value z)
    | split
    | intro _)

theorem execDramBurstReadEnd_keeps {σ : State} {sub id result : Nat} {s : State} (hσ : Keeps σ s) : NextKeeps σ (execDramBurstReadEnd sub id result s) := by
  unfold execDramBurstReadEnd
  repeat' (first
    | with_reducible assumption
    | with_reducible refine NextKeeps.next ?_
    | with_reducible exact hz _
    | with_reducible exact hz _ _
    | with_reducible refine hz _ ?_
    | with_reducible refine hz _ _ ?_
    | with_reducible refine State.fault_keeps ?_
    | with_reducible refine State.modSub_keeps ?_
    | with_reducible refine State.poisoned_keeps ?_
    | with_reducible refine Keeps.ite ?_ ?_
    | (extract_lets -underBinder +onlyGivenNames z
       first | (refine (fun hz : Keeps σ z => ?_) ?_; on_goal 1 => clear_value z
                on_goal 2 => (unfold z; clear z))
             | (refine (fun hz : ∀ x, Keeps σ x → Keeps σ (z x) => ?_) ?_; on_goal 1 => clear_value z
                on_goal 2 => (unfold z; clear z))
             | (refine (fun hz : ∀ x y, Keeps σ x → Keeps σ (z x y) => ?_) ?_; on_goal 1 => clear_value z
                on_goal 2 => (unfold z; clear z))
             | (refine (fun hz : ∀ y, Keeps σ (z y) => ?_) ?_; on_goal 1 => clear_value z
                on_goal 2 => (unfold z; clear z))
             | (refine (fun hz : ∀ y w, Keeps σ (z y w) => ?_) ?_; on_goal 1 => clear_value z
                on_goal 2 => (unfold z; clear z))
             | clear_value z)
    | split
    | intro _)

theorem execMount_keeps {σ : State} {lost : List (Nat × Nat)} {s : State} (hσ : Keeps σ s) : NextKeeps σ (execMount lost s) := by
  unfold execMount
  repeat' (first
    | with_reducible assumption
    | with_reducible refine NextKeeps.next ?_
    | with_reducible exact hz _
    | with_reducible exact hz _ _
    | with_reducible refine hz _ ?_
    | with_reducible refine hz _ _ ?_
    | with_reducible refine State.afterMount_keeps ?_
    | with_reducible refine State.copyStaged_keeps ?_
    | with_reducible refine State.demandSpin_keeps ?_
    | with_reducible refine State.modFw_keeps ?_ ?_
    | with_reducible refine State.modMap_keeps ?_
    | with_reducible refine State.modMedia_keeps ?_
    | with_reducible refine State.mountFrom_keeps ?_
    | with_reducible refine State.settle_keeps ?_
    | with_reducible refine State.startRing_keeps ?_
    | with_reducible exact fun _ => ⟨rfl, rfl⟩
    | with_reducible exact fun _ => rfl
    | (intro x; try dsimp only; repeat' split) <;> with_reducible first | rfl | exact ⟨rfl, rfl⟩
    | with_reducible refine Keeps.ite ?_ ?_
    | (extract_lets -underBinder +onlyGivenNames z
       first | (refine (fun hz : Keeps σ z => ?_) ?_; on_goal 1 => clear_value z
                on_goal 2 => (unfold z; clear z))
             | (refine (fun hz : Keeps σ z.2 => ?_) ?_; on_goal 1 => clear_value z
                on_goal 2 => (unfold z; clear z))
             | (refine (fun hz : ∀ x, Keeps σ x → Keeps σ (z x) => ?_) ?_; on_goal 1 => clear_value z
                on_goal 2 => (unfold z; clear z))
             | (refine (fun hz : ∀ x y, Keeps σ x → Keeps σ (z x y) => ?_) ?_; on_goal 1 => clear_value z
                on_goal 2 => (unfold z; clear z))
             | (refine (fun hz : ∀ y, Keeps σ (z y) => ?_) ?_; on_goal 1 => clear_value z
                on_goal 2 => (unfold z; clear z))
             | (refine (fun hz : ∀ y w, Keeps σ (z y w) => ?_) ?_; on_goal 1 => clear_value z
                on_goal 2 => (unfold z; clear z))
             | clear_value z)
    | split
    | intro _)

theorem execControllerReady_keeps {σ s : State} (hσ : Keeps σ s) : NextKeeps σ (execControllerReady s) := by
  unfold execControllerReady
  repeat' (first
    | with_reducible assumption
    | with_reducible refine NextKeeps.next ?_
    | with_reducible refine State.becomeReady_keeps ?_
    | intro _)

end Sys2Proof.Machine
end

