-- ==== Sys2Proof/Laws/KeepsHostCmds.lean ====
section
/-!
SUPPORT. One lemma per command about `Keeps` (Safety): that the commands of the host, of the firmware and of ingest undo nothing.
-/
namespace Sys2Proof.Machine
open Sys2Proof

set_option linter.unusedTactic false
set_option linter.unreachableTactic false

theorem execGetLogSupportedPages_keeps {σ : State} {stamp : Nat} {s : State} (hσ : Keeps σ s) : NextKeeps σ (execGetLogSupportedPages stamp s) := by
  unfold execGetLogSupportedPages
  repeat' (first
    | with_reducible assumption
    | with_reducible refine NextKeeps.next ?_
    | with_reducible refine State.onLog_keeps ?_ ?_
    | intro _)

theorem execGetLogErrorInformation_keeps {σ : State} {stamp : Nat} {s : State} (hσ : Keeps σ s) : NextKeeps σ (execGetLogErrorInformation stamp s) := by
  unfold execGetLogErrorInformation
  repeat' (first
    | with_reducible assumption
    | with_reducible refine NextKeeps.next ?_
    | with_reducible refine State.onLog_keeps ?_ ?_
    | intro _)

theorem execGetLogChangedNamespaces_keeps {σ : State} {stamp : Nat} {s : State} (hσ : Keeps σ s) : NextKeeps σ (execGetLogChangedNamespaces stamp s) := by
  unfold execGetLogChangedNamespaces
  repeat' (first
    | with_reducible assumption
    | with_reducible refine NextKeeps.next ?_
    | with_reducible refine State.clearEvent_keeps ?_
    | with_reducible refine State.modNvme_keeps ?_
    | with_reducible refine State.onLog_keeps ?_ ?_
    | with_reducible refine Keeps.ite ?_ ?_
    | split
    | intro _)

theorem execGetLogCommandsEffects_keeps {σ : State} {stamp : Nat} {s : State} (hσ : Keeps σ s) : NextKeeps σ (execGetLogCommandsEffects stamp s) := by
  unfold execGetLogCommandsEffects
  repeat' (first
    | with_reducible assumption
    | with_reducible refine NextKeeps.next ?_
    | with_reducible refine State.onLog_keeps ?_ ?_
    | intro _)

theorem execGetLogDeviceSelfTest_keeps {σ : State} {stamp : Nat} {s : State} (hσ : Keeps σ s) : NextKeeps σ (execGetLogDeviceSelfTest stamp s) := by
  unfold execGetLogDeviceSelfTest
  repeat' (first
    | with_reducible assumption
    | with_reducible refine NextKeeps.next ?_
    | with_reducible refine State.onLog_keeps ?_ ?_
    | split
    | intro _)

theorem execGetLogSanitizeStatus_keeps {σ : State} {stamp : Nat} {s : State} (hσ : Keeps σ s) : NextKeeps σ (execGetLogSanitizeStatus stamp s) := by
  unfold execGetLogSanitizeStatus
  repeat' (first
    | with_reducible assumption
    | with_reducible refine NextKeeps.next ?_
    | with_reducible refine clearUnlessRae_keeps ?_
    | with_reducible refine State.onLog_keeps ?_ ?_
    | with_reducible refine Keeps.ite ?_ ?_
    | split
    | intro _)

theorem execGetLogFirmwareSlot_keeps {σ : State} {stamp : Nat} {s : State} (hσ : Keeps σ s) : NextKeeps σ (execGetLogFirmwareSlot stamp s) := by
  unfold execGetLogFirmwareSlot
  repeat' (first
    | with_reducible assumption
    | with_reducible refine NextKeeps.next ?_
    | with_reducible refine clearUnlessRae_keeps ?_
    | with_reducible refine State.onLog_keeps ?_ ?_
    | with_reducible refine Keeps.ite ?_ ?_
    | (extract_lets -underBinder +onlyGivenNames z
       first | (refine (fun hz : Keeps σ z => ?_) ?_; on_goal 1 => clear_value z
                on_goal 2 => (unfold z; clear z))
             | clear_value z)
    | split
    | intro _)

theorem execGetLogDeferredError_keeps {σ : State} {stamp : Nat} {s : State} (hσ : Keeps σ s) : NextKeeps σ (execGetLogDeferredError stamp s) := by
  unfold execGetLogDeferredError
  repeat' (first
    | with_reducible assumption
    | with_reducible refine NextKeeps.next ?_
    | with_reducible refine State.announceDeferred_keeps ?_
    | with_reducible refine State.clearEvent_keeps ?_
    | with_reducible refine State.complete_keeps ?_
    | with_reducible refine State.giveData_keeps ?_
    | with_reducible refine State.modHost_keeps ?_
    | with_reducible refine State.onAdmin_keeps ?_ ?_
    | with_reducible refine Keeps.ite ?_ ?_
    | (extract_lets -underBinder +onlyGivenNames z
       first | (refine (fun hz : Keeps σ z => ?_) ?_; on_goal 1 => clear_value z
                on_goal 2 => (unfold z; clear z))
             | clear_value z)
    | split
    | intro _)

theorem execGetLogFaultStatus_keeps {σ : State} {stamp : Nat} {s : State} (hσ : Keeps σ s) : NextKeeps σ (execGetLogFaultStatus stamp s) := by
  unfold execGetLogFaultStatus
  repeat' (first
    | with_reducible assumption
    | with_reducible refine NextKeeps.next ?_
    | with_reducible refine clearUnlessRae_keeps ?_
    | with_reducible refine State.onLog_keeps ?_ ?_
    | intro _)

theorem execGetLogHealthEarlyWarning_keeps {σ : State} {stamp : Nat} {s : State} (hσ : Keeps σ s) : NextKeeps σ (execGetLogHealthEarlyWarning stamp s) := by
  unfold execGetLogHealthEarlyWarning
  repeat' (first
    | with_reducible assumption
    | with_reducible refine NextKeeps.next ?_
    | with_reducible refine State.clearEvent_keeps ?_
    | with_reducible refine State.modEvt_keeps ?_ ?_
    | with_reducible refine State.onLog_keeps ?_ ?_
    | with_reducible exact fun _ => ⟨rfl, rfl⟩
    | with_reducible exact fun _ => rfl
    | (intro x; try dsimp only; repeat' split) <;> with_reducible first | rfl | exact ⟨rfl, rfl⟩
    | with_reducible refine Keeps.ite ?_ ?_
    | split
    | intro _)

theorem execGetLogEventRecorder_keeps {σ : State} {stamp : Nat} {s : State} (hσ : Keeps σ s) : NextKeeps σ (execGetLogEventRecorder stamp s) := by
  unfold execGetLogEventRecorder
  repeat' (first
    | with_reducible assumption
    | with_reducible refine NextKeeps.next ?_
    | with_reducible refine State.onLog_keeps ?_ ?_
    | intro _)

theorem execGetLogAgeing_keeps {σ : State} {stamp : Nat} {s : State} (hσ : Keeps σ s) : NextKeeps σ (execGetLogAgeing stamp s) := by
  unfold execGetLogAgeing
  repeat' (first
    | with_reducible assumption
    | with_reducible refine Keeps.optMap ?_ ?_
    | with_reducible refine Keeps.optGet ?_ ?_
    | with_reducible refine Keeps.optElim ?_ ?_
    | with_reducible refine NextKeeps.next ?_
    | with_reducible refine clearUnlessRae_keeps ?_
    | with_reducible refine State.onLog_keeps ?_ ?_
    | (extract_lets -underBinder +onlyGivenNames z
       first | (refine (fun hz : Keeps σ z => ?_) ?_; on_goal 1 => clear_value z
                on_goal 2 => (unfold z; clear z))
             | clear_value z)
    | intro _)

theorem execIdentifyController_keeps {σ : State} {stamp : Nat} {s : State} (hσ : Keeps σ s) : NextKeeps σ (execIdentifyController stamp s) := by
  unfold execIdentifyController
  repeat' (first
    | with_reducible assumption
    | with_reducible refine NextKeeps.next ?_
    | with_reducible refine State.complete_keeps ?_
    | with_reducible refine State.giveData_keeps ?_
    | with_reducible refine State.onAdmin_keeps ?_ ?_
    | with_reducible refine Keeps.ite ?_ ?_
    | split
    | intro _)

theorem execIdentifyNamespace_keeps {σ : State} {stamp : Nat} {s : State} (hσ : Keeps σ s) : NextKeeps σ (execIdentifyNamespace stamp s) := by
  unfold execIdentifyNamespace
  repeat' (first
    | with_reducible assumption
    | with_reducible refine NextKeeps.next ?_
    | with_reducible refine State.complete_keeps ?_
    | with_reducible refine State.giveData_keeps ?_
    | with_reducible refine State.onAdmin_keeps ?_ ?_
    | with_reducible refine Keeps.ite ?_ ?_
    | (extract_lets -underBinder +onlyGivenNames z
       first | (refine (fun hz : Keeps σ z => ?_) ?_; on_goal 1 => clear_value z
                on_goal 2 => (unfold z; clear z))
             | clear_value z)
    | split
    | intro _)

theorem execIdentifyLists_keeps {σ : State} {stamp : Nat} {s : State} (hσ : Keeps σ s) : NextKeeps σ (execIdentifyLists stamp s) := by
  unfold execIdentifyLists
  repeat' (first
    | with_reducible assumption
    | with_reducible refine NextKeeps.next ?_
    | with_reducible refine State.complete_keeps ?_
    | with_reducible refine State.giveData_keeps ?_
    | with_reducible refine State.onAdmin_keeps ?_ ?_
    | with_reducible refine Keeps.ite ?_ ?_
    | (extract_lets -underBinder +onlyGivenNames z
       first | (refine (fun hz : Keeps σ z => ?_) ?_; on_goal 1 => clear_value z
                on_goal 2 => (unfold z; clear z))
             | (refine (fun hz : Keeps σ z.2 => ?_) ?_; on_goal 1 => clear_value z
                on_goal 2 => (unfold z; clear z))
             | (refine (fun hz : Keeps σ z.1 => ?_) ?_; on_goal 1 => clear_value z
                on_goal 2 => (unfold z; clear z))
             | clear_value z)
    | split
    | intro _)

theorem execCreateIoCompletionQueue_keeps {σ : State} {stamp : Nat} {s : State} (hσ : Keeps σ s) : NextKeeps σ (execCreateIoCompletionQueue stamp s) := by
  unfold execCreateIoCompletionQueue
  repeat' (first
    | with_reducible assumption
    | with_reducible refine NextKeeps.next ?_
    | with_reducible refine State.complete_keeps ?_
    | with_reducible refine State.modNvme_keeps ?_
    | with_reducible refine State.onAdmin_keeps ?_ ?_
    | with_reducible refine Keeps.ite ?_ ?_
    | (extract_lets -underBinder +onlyGivenNames z
       first | (refine (fun hz : Keeps σ z => ?_) ?_; on_goal 1 => clear_value z
                on_goal 2 => (unfold z; clear z))
             | clear_value z)
    | split
    | intro _)

theorem execCreateIoSubmissionQueue_keeps {σ : State} {stamp : Nat} {s : State} (hσ : Keeps σ s) : NextKeeps σ (execCreateIoSubmissionQueue stamp s) := by
  unfold execCreateIoSubmissionQueue
  repeat' (first
    | with_reducible assumption
    | with_reducible refine NextKeeps.next ?_
    | with_reducible refine State.complete_keeps ?_
    | with_reducible refine State.modNvme_keeps ?_
    | with_reducible refine State.onAdmin_keeps ?_ ?_
    | with_reducible refine Keeps.ite ?_ ?_
    | (extract_lets -underBinder +onlyGivenNames z
       first | (refine (fun hz : Keeps σ z => ?_) ?_; on_goal 1 => clear_value z
                on_goal 2 => (unfold z; clear z))
             | clear_value z)
    | split
    | intro _)

theorem execDeleteIoSubmissionQueue_keeps {σ : State} {stamp : Nat} {s : State} (hσ : Keeps σ s) : NextKeeps σ (execDeleteIoSubmissionQueue stamp s) := by
  unfold execDeleteIoSubmissionQueue
  repeat' (first
    | with_reducible assumption
    | with_reducible refine NextKeeps.next ?_
    | with_reducible refine Keeps.foldl ?_ ?_
    | with_reducible refine State.catchCmd_keeps ?_
    | with_reducible refine State.complete_keeps ?_
    | with_reducible refine State.dropReq_keeps ?_
    | with_reducible refine State.finishDeletes_keeps ?_
    | with_reducible refine State.modCtx_keeps ?_
    | with_reducible refine State.modNvme_keeps ?_
    | with_reducible refine State.onAdmin_keeps ?_ ?_
    | with_reducible refine State.settle_keeps ?_
    | with_reducible refine Keeps.ite ?_ ?_
    | (extract_lets -underBinder +onlyGivenNames z
       first | (refine (fun hz : Keeps σ z => ?_) ?_; on_goal 1 => clear_value z
                on_goal 2 => (unfold z; clear z))
             | clear_value z)
    | split
    | intro _)

theorem execDeleteIoCompletionQueue_keeps {σ : State} {stamp : Nat} {s : State} (hσ : Keeps σ s) : NextKeeps σ (execDeleteIoCompletionQueue stamp s) := by
  unfold execDeleteIoCompletionQueue
  repeat' (first
    | with_reducible assumption
    | with_reducible refine NextKeeps.next ?_
    | with_reducible refine State.complete_keeps ?_
    | with_reducible refine State.modNvme_keeps ?_
    | with_reducible refine State.onAdmin_keeps ?_ ?_
    | with_reducible refine Keeps.ite ?_ ?_
    | (extract_lets -underBinder +onlyGivenNames z
       first | (refine (fun hz : Keeps σ z => ?_) ?_; on_goal 1 => clear_value z
                on_goal 2 => (unfold z; clear z))
             | (refine (fun hz : Keeps σ z.2 => ?_) ?_; on_goal 1 => clear_value z
                on_goal 2 => (unfold z; clear z))
             | clear_value z)
    | split
    | intro _)

theorem execAbort_keeps {σ : State} {stamp : Nat} {s : State} (hσ : Keeps σ s) : NextKeeps σ (execAbort stamp s) := by
  unfold execAbort
  repeat' (first
    | with_reducible assumption
    | with_reducible refine NextKeeps.next ?_
    | with_reducible refine State.catchCmd_keeps ?_
    | with_reducible refine State.complete_keeps ?_
    | with_reducible refine State.onAdmin_keeps ?_ ?_
    | with_reducible refine State.settle_keeps ?_
    | with_reducible refine Keeps.ite ?_ ?_
    | (extract_lets -underBinder +onlyGivenNames z
       first | (refine (fun hz : Keeps σ z => ?_) ?_; on_goal 1 => clear_value z
                on_goal 2 => (unfold z; clear z))
             | clear_value z)
    | split
    | intro _)

theorem execAsynchronousEventRequest_keeps {σ : State} {stamp : Nat} {s : State} (hσ : Keeps σ s) : NextKeeps σ (execAsynchronousEventRequest stamp s) := by
  unfold execAsynchronousEventRequest
  repeat' (first
    | with_reducible assumption
    | with_reducible refine NextKeeps.next ?_
    | with_reducible refine State.complete_keeps ?_
    | with_reducible refine State.deliver_keeps ?_
    | with_reducible refine State.modNvme_keeps ?_
    | with_reducible refine State.onAdmin_keeps ?_ ?_
    | with_reducible refine Keeps.ite ?_ ?_
    | (extract_lets -underBinder +onlyGivenNames z
       first | (refine (fun hz : Keeps σ z => ?_) ?_; on_goal 1 => clear_value z
                on_goal 2 => (unfold z; clear z))
             | (refine (fun hz : Keeps σ z.2 => ?_) ?_; on_goal 1 => clear_value z
                on_goal 2 => (unfold z; clear z))
             | (refine (fun hz : Keeps σ z.1 => ?_) ?_; on_goal 1 => clear_value z
                on_goal 2 => (unfold z; clear z))
             | clear_value z)
    | split
    | intro _)

theorem execNamespaceCreate_keeps {σ : State} {stamp nsze ncap flbas : Nat} {s : State} (hσ : Keeps σ s) : NextKeeps σ (execNamespaceCreate stamp nsze ncap flbas s) := by
  unfold execNamespaceCreate
  repeat' (first
    | with_reducible assumption
    | with_reducible refine NextKeeps.next ?_
    | with_reducible refine State.awaitJournal_keeps ?_
    | with_reducible refine State.complete_keeps ?_
    | with_reducible refine State.journal_keeps ?_
    | with_reducible refine State.modNvme_keeps ?_
    | with_reducible refine State.newKey_keeps ?_
    | with_reducible refine State.newKey_keeps_of ?_ (by with_reducible assumption)
    | with_reducible refine State.onAdmin_keeps ?_ ?_
    | with_reducible refine Keeps.ite ?_ ?_
    | (extract_lets -underBinder +onlyGivenNames z
       first | (refine (fun hz : Keeps σ z => ?_) ?_; on_goal 1 => clear_value z
                on_goal 2 => (unfold z; clear z))
             | (refine (fun hz : Keeps σ z.2 => ?_) ?_; on_goal 1 => clear_value z
                on_goal 2 => (unfold z; clear z))
             | clear_value z)
    | split
    | intro _)

theorem execNamespaceDelete_keeps {σ : State} {stamp : Nat} {s : State} (hσ : Keeps σ s) : NextKeeps σ (execNamespaceDelete stamp s) := by
  unfold execNamespaceDelete
  repeat' (first
    | with_reducible assumption
    | with_reducible refine NextKeeps.next ?_
    | with_reducible refine Keeps.foldl ?_ ?_
    | with_reducible refine Keeps.foldlP ?_ ?_
    | with_reducible refine Keeps.foldlQ ?_ ?_
    | with_reducible refine State.awaitJournal_keeps ?_
    | with_reducible refine State.complete_keeps ?_
    | with_reducible refine State.journal_keeps ?_
    | with_reducible refine State.modCoder_keeps ?_
    | with_reducible refine State.modFlash_keeps ?_
    | with_reducible refine State.modNvme_keeps ?_
    | with_reducible refine State.modPlace_keeps ?_
    | with_reducible refine State.nsChanged_keeps ?_
    | with_reducible refine State.onAdmin_keeps ?_ ?_
    | with_reducible refine State.resetNs_keeps ?_
    | with_reducible refine Keeps.ite ?_ ?_
    | (extract_lets -underBinder +onlyGivenNames z
       first | (refine (fun hz : Keeps σ z => ?_) ?_; on_goal 1 => clear_value z
                on_goal 2 => (unfold z; clear z))
             | (refine (fun hz : Keeps σ z.2 => ?_) ?_; on_goal 1 => clear_value z
                on_goal 2 => (unfold z; clear z))
             | (refine (fun hz : Keeps σ z.1 => ?_) ?_; on_goal 1 => clear_value z
                on_goal 2 => (unfold z; clear z))
             | clear_value z)
    | split
    | intro _)

theorem execNamespaceAttach_keeps {σ : State} {stamp : Nat} {ctrls : List Nat} {s : State} (hσ : Keeps σ s) : NextKeeps σ (execNamespaceAttach stamp ctrls s) := by
  unfold execNamespaceAttach
  repeat' (first
    | with_reducible assumption
    | with_reducible refine NextKeeps.next ?_
    | with_reducible refine State.complete_keeps ?_
    | with_reducible refine State.journal_keeps ?_
    | with_reducible refine State.modNvme_keeps ?_
    | with_reducible refine State.nsChanged_keeps ?_
    | with_reducible refine State.onAdmin_keeps ?_ ?_
    | with_reducible refine Keeps.ite ?_ ?_
    | (extract_lets -underBinder +onlyGivenNames z
       first | (refine (fun hz : Keeps σ z => ?_) ?_; on_goal 1 => clear_value z
                on_goal 2 => (unfold z; clear z))
             | clear_value z)
    | split
    | intro _)

theorem execNamespaceDetach_keeps {σ : State} {stamp : Nat} {ctrls : List Nat} {s : State} (hσ : Keeps σ s) : NextKeeps σ (execNamespaceDetach stamp ctrls s) := by
  unfold execNamespaceDetach
  repeat' (first
    | with_reducible assumption
    | with_reducible refine NextKeeps.next ?_
    | with_reducible refine State.complete_keeps ?_
    | with_reducible refine State.journal_keeps ?_
    | with_reducible refine State.modNvme_keeps ?_
    | with_reducible refine State.nsChanged_keeps ?_
    | with_reducible refine State.onAdmin_keeps ?_ ?_
    | with_reducible refine State.settle_keeps ?_
    | with_reducible refine Keeps.ite ?_ ?_
    | (extract_lets -underBinder +onlyGivenNames z
       first | (refine (fun hz : Keeps σ z => ?_) ?_; on_goal 1 => clear_value z
                on_goal 2 => (unfold z; clear z))
             | clear_value z)
    | split
    | intro _)

theorem execFormatNvm_keeps {σ : State} {stamp : Nat} {s : State} (hσ : Keeps σ s) : NextKeeps σ (execFormatNvm stamp s) := by
  unfold execFormatNvm
  repeat' (first
    | with_reducible assumption
    | with_reducible refine NextKeeps.next ?_
    | with_reducible refine State.awaitJournal_keeps ?_
    | with_reducible refine State.complete_keeps ?_
    | with_reducible refine State.formatNs_keeps ?_
    | with_reducible refine State.onAdmin_keeps ?_ ?_
    | with_reducible refine Keeps.ite ?_ ?_
    | split
    | intro _)

theorem execFormatNvmCryptoErase_keeps {σ : State} {stamp : Nat} {s : State} (hσ : Keeps σ s) : NextKeeps σ (execFormatNvmCryptoErase stamp s) := by
  unfold execFormatNvmCryptoErase
  repeat' (first
    | with_reducible assumption
    | with_reducible refine NextKeeps.next ?_
    | with_reducible refine State.complete_keeps ?_
    | with_reducible refine State.cryptoErase_keeps ?_
    | with_reducible refine State.drainJournal_keeps ?_
    | with_reducible refine State.formatNs_keeps ?_
    | with_reducible refine State.onAdmin_keeps ?_ ?_
    | with_reducible refine State.settle_keeps ?_
    | with_reducible refine Keeps.ite ?_ ?_
    | split
    | intro _)

theorem execSanitizeExitFailure_keeps {σ : State} {stamp : Nat} {s : State} (hσ : Keeps σ s) : NextKeeps σ (execSanitizeExitFailure stamp s) := by
  unfold execSanitizeExitFailure
  repeat' (first
    | with_reducible assumption
    | with_reducible refine NextKeeps.next ?_
    | with_reducible refine State.complete_keeps ?_
    | with_reducible refine State.modNvme_keeps ?_
    | with_reducible refine State.onAdmin_keeps ?_ ?_
    | with_reducible refine State.settle_keeps ?_
    | with_reducible refine Keeps.ite ?_ ?_
    | split
    | intro _)

theorem execSanitizeBlockErase_keeps {σ : State} {stamp : Nat} {s : State} (hσ : Keeps σ s) : NextKeeps σ (execSanitizeBlockErase stamp s) := by
  unfold execSanitizeBlockErase
  repeat' (first
    | with_reducible assumption
    | with_reducible refine NextKeeps.next ?_
    | with_reducible refine Keeps.foldl ?_ ?_
    | with_reducible refine Keeps.foldlP ?_ ?_
    | with_reducible refine Keeps.foldlQ ?_ ?_
    | with_reducible refine State.complete_keeps ?_
    | with_reducible refine State.drainJournal_keeps ?_
    | with_reducible refine State.dropOpenStack_keeps ?_
    | with_reducible refine State.modFlash_keeps ?_
    | with_reducible refine State.modNvme_keeps ?_
    | with_reducible refine State.modPlace_keeps ?_
    | with_reducible refine State.onAdmin_keeps ?_ ?_
    | with_reducible refine State.resetAll_keeps ?_
    | with_reducible refine State.sanitizeCheck_keeps ?_
    | with_reducible refine State.settle_keeps ?_
    | with_reducible refine Keeps.ite ?_ ?_
    | (extract_lets -underBinder +onlyGivenNames z
       first | (refine (fun hz : Keeps σ z => ?_) ?_; on_goal 1 => clear_value z
                on_goal 2 => (unfold z; clear z))
             | (refine (fun hz : Keeps σ z.2 => ?_) ?_; on_goal 1 => clear_value z
                on_goal 2 => (unfold z; clear z))
             | (refine (fun hz : Keeps σ z.1 => ?_) ?_; on_goal 1 => clear_value z
                on_goal 2 => (unfold z; clear z))
             | clear_value z)
    | split
    | intro _)

theorem execSanitizeCryptoErase_keeps {σ : State} {stamp : Nat} {s : State} (hσ : Keeps σ s) : NextKeeps σ (execSanitizeCryptoErase stamp s) := by
  unfold execSanitizeCryptoErase
  repeat' (first
    | with_reducible assumption
    | with_reducible refine NextKeeps.next ?_
    | with_reducible refine Keeps.foldl ?_ ?_
    | with_reducible refine State.complete_keeps ?_
    | with_reducible refine State.cryptoErase_keeps ?_
    | with_reducible refine State.drainJournal_keeps ?_
    | with_reducible refine State.modNvme_keeps ?_
    | with_reducible refine State.onAdmin_keeps ?_ ?_
    | with_reducible refine State.raiseEvent_keeps ?_
    | with_reducible refine State.resetAll_keeps ?_
    | with_reducible refine State.settle_keeps ?_
    | with_reducible refine Keeps.ite ?_ ?_
    | (extract_lets -underBinder +onlyGivenNames z
       first | (refine (fun hz : Keeps σ z => ?_) ?_; on_goal 1 => clear_value z
                on_goal 2 => (unfold z; clear z))
             | (refine (fun hz : Keeps σ z.1 => ?_) ?_; on_goal 1 => clear_value z
                on_goal 2 => (unfold z; clear z))
             | clear_value z)
    | split
    | intro _)

theorem execDeviceSelfTestShort_keeps {σ : State} {stamp result : Nat} {s : State} (hσ : Keeps σ s) : NextKeeps σ (execDeviceSelfTestShort stamp result s) := by
  unfold execDeviceSelfTestShort
  repeat' (first
    | with_reducible assumption
    | with_reducible refine NextKeeps.next ?_
    | with_reducible refine State.complete_keeps ?_
    | with_reducible refine State.onAdmin_keeps ?_ ?_
    | with_reducible refine State.testDone_keeps ?_
    | with_reducible refine Keeps.ite ?_ ?_
    | (extract_lets -underBinder +onlyGivenNames z
       first | (refine (fun hz : Keeps σ z => ?_) ?_; on_goal 1 => clear_value z
                on_goal 2 => (unfold z; clear z))
             | clear_value z)
    | split
    | intro _)

theorem execDeviceSelfTestExtended_keeps {σ : State} {stamp result : Nat} {lost : List (Nat × Nat × Nat)} {s : State} (hσ : Keeps σ s) : NextKeeps σ (execDeviceSelfTestExtended stamp result lost s) := by
  unfold execDeviceSelfTestExtended
  repeat' (first
    | with_reducible assumption
    | with_reducible refine NextKeeps.next ?_
    | with_reducible refine Keeps.foldl ?_ ?_
    | with_reducible refine Keeps.foldlP ?_ ?_
    | with_reducible refine Keeps.foldlQ ?_ ?_
    | with_reducible refine State.complete_keeps ?_
    | with_reducible refine State.loseSource_keeps ?_
    | with_reducible refine State.modFlash_keeps ?_
    | with_reducible refine State.modRack_keeps ?_
    | with_reducible refine State.onAdmin_keeps ?_ ?_
    | with_reducible refine State.testDone_keeps ?_
    | with_reducible refine Keeps.ite ?_ ?_
    | (extract_lets -underBinder +onlyGivenNames z
       first | (refine (fun hz : Keeps σ z => ?_) ?_; on_goal 1 => clear_value z
                on_goal 2 => (unfold z; clear z))
             | (refine (fun hz : Keeps σ z.2 => ?_) ?_; on_goal 1 => clear_value z
                on_goal 2 => (unfold z; clear z))
             | (refine (fun hz : Keeps σ z.1 => ?_) ?_; on_goal 1 => clear_value z
                on_goal 2 => (unfold z; clear z))
             | clear_value z)
    | split
    | intro _)

theorem execStreamsAllocateResources_keeps {σ : State} {stamp : Nat} {s : State} (hσ : Keeps σ s) : NextKeeps σ (execStreamsAllocateResources stamp s) := by
  unfold execStreamsAllocateResources
  repeat' (first
    | with_reducible assumption
    | with_reducible refine NextKeeps.next ?_
    | with_reducible refine State.complete_keeps ?_
    | with_reducible refine State.modPlace_keeps ?_
    | with_reducible refine State.onAdmin_keeps ?_ ?_
    | with_reducible refine Keeps.ite ?_ ?_
    | (extract_lets -underBinder +onlyGivenNames z
       first | (refine (fun hz : Keeps σ z => ?_) ?_; on_goal 1 => clear_value z
                on_goal 2 => (unfold z; clear z))
             | clear_value z)
    | split
    | intro _)

theorem execStreamsReleaseIdentifier_keeps {σ : State} {stamp : Nat} {s : State} (hσ : Keeps σ s) : NextKeeps σ (execStreamsReleaseIdentifier stamp s) := by
  unfold execStreamsReleaseIdentifier
  repeat' (first
    | with_reducible assumption
    | with_reducible refine NextKeeps.next ?_
    | with_reducible refine State.complete_keeps ?_
    | with_reducible refine State.modPlace_keeps ?_
    | with_reducible refine State.onAdmin_keeps ?_ ?_
    | with_reducible refine Keeps.ite ?_ ?_
    | (extract_lets -underBinder +onlyGivenNames z
       first | (refine (fun hz : Keeps σ z => ?_) ?_; on_goal 1 => clear_value z
                on_goal 2 => (unfold z; clear z))
             | (refine (fun hz : Keeps σ z.2 => ?_) ?_; on_goal 1 => clear_value z
                on_goal 2 => (unfold z; clear z))
             | clear_value z)
    | split
    | intro _)

theorem execStreamsReturnParameters_keeps {σ : State} {stamp : Nat} {s : State} (hσ : Keeps σ s) : NextKeeps σ (execStreamsReturnParameters stamp s) := by
  unfold execStreamsReturnParameters
  repeat' (first
    | with_reducible assumption
    | with_reducible refine Keeps.optMap ?_ ?_
    | with_reducible refine Keeps.optGet ?_ ?_
    | with_reducible refine Keeps.optElim ?_ ?_
    | with_reducible refine NextKeeps.next ?_
    | with_reducible refine State.complete_keeps ?_
    | with_reducible refine State.giveData_keeps ?_
    | with_reducible refine State.onAdmin_keeps ?_ ?_
    | with_reducible refine Keeps.ite ?_ ?_
    | (extract_lets -underBinder +onlyGivenNames z
       first | (refine (fun hz : Keeps σ z => ?_) ?_; on_goal 1 => clear_value z
                on_goal 2 => (unfold z; clear z))
             | (refine (fun hz : Keeps σ z.2 => ?_) ?_; on_goal 1 => clear_value z
                on_goal 2 => (unfold z; clear z))
             | clear_value z)
    | split
    | intro _)

theorem execSwapPoint_keeps {σ s : State} (hσ : Keeps σ s) : NextKeeps σ (execSwapPoint s) := by
  unfold execSwapPoint
  repeat' (first
    | with_reducible assumption
    | with_reducible refine NextKeeps.next ?_
    | with_reducible refine State.swapNow_keeps ?_
    | intro _)

theorem execSwapFallbackTimeout_keeps {σ s : State} (hσ : Keeps σ s) : NextKeeps σ (execSwapFallbackTimeout s) := by
  unfold execSwapFallbackTimeout
  repeat' (first
    | with_reducible assumption
    | with_reducible refine NextKeeps.next ?_
    | with_reducible refine State.reach_keeps ?_
    | with_reducible refine State.swapNow_keeps ?_
    | with_reducible refine Keeps.ite ?_ ?_
    | split
    | intro _)

theorem execRecordPinChange_keeps {σ : State} {level : Bool} {s : State} (hσ : Keeps σ s) : NextKeeps σ (execRecordPinChange level s) := by
  unfold execRecordPinChange
  repeat' (first
    | with_reducible assumption
    | with_reducible refine NextKeeps.next ?_
    | with_reducible refine State.modCfg_keeps ?_
    | with_reducible refine Keeps.ite ?_ ?_
    | split
    | intro _)

theorem execRecordDebounceComplete_keeps {σ s : State} (hσ : Keeps σ s) : NextKeeps σ (execRecordDebounceComplete s) := by
  unfold execRecordDebounceComplete
  repeat' (first
    | with_reducible assumption
    | with_reducible refine NextKeeps.next ?_
    | with_reducible refine State.modCfg_keeps ?_
    | with_reducible refine State.reach_keeps ?_
    | with_reducible refine State.trigger_keeps ?_
    | with_reducible refine Keeps.ite ?_ ?_
    | (extract_lets -underBinder +onlyGivenNames z
       first | (refine (fun hz : Keeps σ z => ?_) ?_; on_goal 1 => clear_value z
                on_goal 2 => (unfold z; clear z))
             | clear_value z)
    | split
    | intro _)

theorem execScheduledSwapCompare_keeps {σ s : State} (hσ : Keeps σ s) : NextKeeps σ (execScheduledSwapCompare s) := by
  unfold execScheduledSwapCompare
  repeat' (first
    | with_reducible assumption
    | with_reducible refine NextKeeps.next ?_
    | with_reducible refine State.schedule_keeps ?_
    | with_reducible refine Keeps.ite ?_ ?_
    | split
    | intro _)

theorem execProfileSwap_keeps {σ : State} {stamp : Nat} {s : State} (hσ : Keeps σ s) : NextKeeps σ (execProfileSwap stamp s) := by
  unfold execProfileSwap
  repeat' (first
    | with_reducible assumption
    | with_reducible refine NextKeeps.next ?_
    | with_reducible refine State.complete_keeps ?_
    | with_reducible refine State.modCfg_keeps ?_
    | with_reducible refine State.modCtx_keeps ?_
    | with_reducible refine State.onAdmin_keeps ?_ ?_
    | with_reducible refine State.trigger_keeps ?_
    | with_reducible refine Keeps.ite ?_ ?_
    | (extract_lets -underBinder +onlyGivenNames z
       first | (refine (fun hz : Keeps σ z => ?_) ?_; on_goal 1 => clear_value z
                on_goal 2 => (unfold z; clear z))
             | clear_value z)
    | split
    | intro _)

theorem execSetProfileControl_keeps {σ : State} {stamp : Nat} {data : List Byte} {s : State} (hσ : Keeps σ s) : NextKeeps σ (execSetProfileControl stamp data s) := by
  unfold execSetProfileControl
  repeat' (first
    | with_reducible assumption
    | with_reducible refine NextKeeps.next ?_
    | with_reducible refine State.complete_keeps ?_
    | with_reducible refine State.modCfg_keeps ?_
    | with_reducible refine State.onSet_keeps ?_ ?_
    | with_reducible refine State.schedule_keeps ?_
    | with_reducible refine State.trigger_keeps ?_
    | with_reducible refine Keeps.ite ?_ ?_
    | (extract_lets -underBinder +onlyGivenNames z
       first | (refine (fun hz : Keeps σ z => ?_) ?_; on_goal 1 => clear_value z
                on_goal 2 => (unfold z; clear z))
             | clear_value z)
    | split
    | intro _)

theorem execGetProfileControl_keeps {σ : State} {stamp : Nat} {s : State} (hσ : Keeps σ s) : NextKeeps σ (execGetProfileControl stamp s) := by
  unfold execGetProfileControl
  repeat' (first
    | with_reducible assumption
    | with_reducible refine NextKeeps.next ?_
    | with_reducible refine State.complete_keeps ?_
    | with_reducible refine State.giveData_keeps ?_
    | with_reducible refine State.onGet_keeps ?_ ?_
    | intro _)

theorem execOspiProgram_keeps {σ : State} {addr len : Nat} {data : List Byte} {s : State} (hσ : Keeps σ s) : NextKeeps σ (execOspiProgram addr len data s) := by
  unfold execOspiProgram
  repeat' (first
    | with_reducible assumption
    | with_reducible refine NextKeeps.next ?_
    | with_reducible refine State.modOspi_keeps ?_ ?_
    | with_reducible refine State.ospiGo_keeps ?_
    | with_reducible exact fun _ => ⟨rfl, rfl⟩
    | with_reducible exact fun _ => rfl
    | (intro x; try dsimp only; repeat' split) <;> with_reducible first | rfl | exact ⟨rfl, rfl⟩
    | (extract_lets -underBinder +onlyGivenNames z
       first | (refine (fun hz : Keeps σ z => ?_) ?_; on_goal 1 => clear_value z
                on_goal 2 => (unfold z; clear z))
             | clear_value z)
    | intro _)

theorem execOspiErase_keeps {σ : State} {addr : Nat} {s : State} (hσ : Keeps σ s) : NextKeeps σ (execOspiErase addr s) := by
  unfold execOspiErase
  repeat' (first
    | with_reducible assumption
    | with_reducible refine NextKeeps.next ?_
    | with_reducible refine State.modOspi_keeps ?_ ?_
    | with_reducible refine State.ospiGo_keeps ?_
    | with_reducible exact fun _ => ⟨rfl, rfl⟩
    | with_reducible exact fun _ => rfl
    | (intro x; try dsimp only; repeat' split) <;> with_reducible first | rfl | exact ⟨rfl, rfl⟩
    | (extract_lets -underBinder +onlyGivenNames z
       first | (refine (fun hz : Keeps σ z => ?_) ?_; on_goal 1 => clear_value z
                on_goal 2 => (unfold z; clear z))
             | clear_value z)
    | intro _)

theorem execOspiOperationEnd_keeps {σ : State} {bank outcome : Nat} {ready : Bool} {s : State} (hσ : Keeps σ s) : NextKeeps σ (execOspiOperationEnd bank outcome ready s) := by
  unfold execOspiOperationEnd
  split
  · exact NextKeeps.next hσ
  · next op hop =>
    extract_lets free result
    have hf : ∀ s, Keeps σ s → Keeps σ (free s) := fun s h => State.modOspi_keeps h fun _ => rfl
    have hr : ∀ s r, Keeps σ s → Keeps σ (result s r) := fun s r h => State.modOspi_keeps h fun _ => rfl
    split
    · refine NextKeeps.next ?_
      split
      · exact hf _ hσ
      · exact hσ
    · split
      · refine NextKeeps.next (hf _ (hr _ _ (State.modOspi_nvm hσ fun h => ?_)))
        dsimp only
        split
        · exact mclear_wf h
        · exact mwriteN_wf h
      · split
        · exact NextKeeps.next hσ
        · refine NextKeeps.next ?_
          have h1 : Keeps σ (if outcome = 6 then s.reach (op.start + if op.erase then 3 * sec else 5 * ms) else s) := by
            split
            · exact State.reach_keeps hσ
            · exact hσ
          have h2 := State.fault_keeps (id := 0x2B1) (detail := []) (hr _ outcome (State.loseSector_keeps (a := op.addr) h1))
          split
          · exact hf _ h2
          · exact State.modOspi_keeps h2 fun _ => rfl

theorem execOspiLock_keeps {σ s : State} (hσ : Keeps σ s) : NextKeeps σ (execOspiLock s) := by
  unfold execOspiLock
  repeat' (first
    | with_reducible assumption
    | with_reducible refine NextKeeps.next ?_
    | with_reducible refine State.modOspi_keeps ?_ ?_
    | with_reducible exact fun _ => ⟨rfl, rfl⟩
    | with_reducible exact fun _ => rfl
    | (intro x; try dsimp only; repeat' split) <;> with_reducible first | rfl | exact ⟨rfl, rfl⟩
    | intro _)

theorem execNvmWindowBusFault_keeps {σ : State} {addr : Nat} {s : State} (hσ : Keeps σ s) : NextKeeps σ (execNvmWindowBusFault addr s) := by
  unfold execNvmWindowBusFault
  repeat' (first
    | with_reducible assumption
    | with_reducible refine NextKeeps.next ?_
    | with_reducible refine State.send_keeps ?_
    | with_reducible refine Keeps.ite ?_ ?_
    | split
    | intro _)

theorem State.allocate_keeps {σ s : State} {owner p : Nat} {linkBad : Bool} (hσ : Keeps σ s) : Keeps σ (State.allocate s owner p linkBad) := by
  unfold State.allocate
  repeat' (first
    | with_reducible assumption
    | with_reducible refine State.answer_keeps ?_
    | with_reducible refine State.fault_keeps ?_
    | with_reducible refine State.modPoolOf_keeps ?_
    | with_reducible refine State.poolResult_keeps ?_
    | with_reducible refine State.popBuf_keeps ?_ (by with_reducible assumption)
    | with_reducible refine State.send_keeps ?_
    | with_reducible refine Keeps.ite ?_ ?_
    | (extract_lets -underBinder +onlyGivenNames z
       first | (refine (fun hz : Keeps σ z => ?_) ?_; on_goal 1 => clear_value z
                on_goal 2 => (unfold z; clear z))
             | clear_value z)
    | split
    | intro _)

theorem execBufferAlloc_keeps {σ : State} {owner pool count : Nat} {linkBad : Bool} {s : State} (hσ : Keeps σ s) : NextKeeps σ (execBufferAlloc owner pool count linkBad s) := by
  unfold execBufferAlloc
  repeat' (first
    | with_reducible assumption
    | with_reducible refine NextKeeps.next ?_
    | with_reducible refine State.allocate_keeps ?_
    | with_reducible refine State.answer_keeps ?_
    | with_reducible refine State.fault_keeps ?_
    | with_reducible refine State.modPoolOf_keeps ?_
    | with_reducible refine State.poolResult_keeps ?_
    | with_reducible refine State.popBuf_keeps ?_ (by with_reducible assumption)
    | with_reducible refine State.send_keeps ?_
    | with_reducible refine Keeps.ite ?_ ?_
    | (extract_lets -underBinder +onlyGivenNames z
       first | (refine (fun hz : Keeps σ z => ?_) ?_; on_goal 1 => clear_value z
                on_goal 2 => (unfold z; clear z))
             | clear_value z)
    | split
    | intro _)

theorem State.freeBuf_keeps {σ s : State} {owner handle : Nat} (hσ : Keeps σ s) : Keeps σ (State.freeBuf s owner handle) := by
  unfold State.freeBuf
  repeat' (first
    | with_reducible assumption
    | with_reducible refine State.poolReject_keeps ?_
    | with_reducible refine State.poolResult_keeps ?_
    | with_reducible refine State.pushBuf_keeps ?_
    | with_reducible refine State.setsDone_keeps ?_
    | with_reducible refine Keeps.ite ?_ ?_
    | (extract_lets -underBinder +onlyGivenNames z
       first | (refine (fun hz : Keeps σ z => ?_) ?_; on_goal 1 => clear_value z
                on_goal 2 => (unfold z; clear z))
             | clear_value z)
    | split
    | intro _)

theorem execBufferFree_keeps {σ : State} {owner handle : Nat} {s : State} (hσ : Keeps σ s) : NextKeeps σ (execBufferFree owner handle s) := by
  unfold execBufferFree
  repeat' (first
    | with_reducible assumption
    | with_reducible refine NextKeeps.next ?_
    | with_reducible refine State.freeBuf_keeps ?_
    | with_reducible refine State.modPoolOf_keeps ?_
    | with_reducible refine State.poolReject_keeps ?_
    | with_reducible refine State.poolResult_keeps ?_
    | with_reducible refine State.pushBuf_keeps ?_
    | with_reducible refine State.setsDone_keeps ?_
    | with_reducible refine Keeps.ite ?_ ?_
    | (extract_lets -underBinder +onlyGivenNames z
       first | (refine (fun hz : Keeps σ z => ?_) ?_; on_goal 1 => clear_value z
                on_goal 2 => (unfold z; clear z))
             | clear_value z)
    | split
    | intro _)

theorem execBufferTransfer_keeps {σ : State} {owner handle receiver : Nat} {s : State} (hσ : Keeps σ s) : NextKeeps σ (execBufferTransfer owner handle receiver s) := by
  unfold execBufferTransfer
  repeat' (first
    | with_reducible assumption
    | with_reducible refine NextKeeps.next ?_
    | with_reducible refine State.modBuf_keeps ?_
    | with_reducible refine State.poolReject_keeps ?_
    | with_reducible refine State.poolResult_keeps ?_
    | with_reducible refine Keeps.ite ?_ ?_
    | split
    | intro _)

theorem execBufferShare_keeps {σ : State} {owner handle : Nat} {list : List Nat} {last : Nat} {s : State} (hσ : Keeps σ s) : NextKeeps σ (execBufferShare owner handle list last s) := by
  unfold execBufferShare
  repeat' (first
    | with_reducible assumption
    | with_reducible refine Keeps.optMap ?_ ?_
    | with_reducible refine Keeps.optGet ?_ ?_
    | with_reducible refine Keeps.optElim ?_ ?_
    | with_reducible refine NextKeeps.next ?_
    | with_reducible refine State.modBuf_keeps ?_
    | with_reducible refine State.poolReject_keeps ?_
    | with_reducible refine State.poolResult_keeps ?_
    | with_reducible refine Keeps.ite ?_ ?_
    | (extract_lets -underBinder +onlyGivenNames z
       first | (refine (fun hz : Keeps σ z => ?_) ?_; on_goal 1 => clear_value z
                on_goal 2 => (unfold z; clear z))
             | clear_value z)
    | split
    | intro _)

theorem execBufferRelease_keeps {σ : State} {owner handle : Nat} {s : State} (hσ : Keeps σ s) : NextKeeps σ (execBufferRelease owner handle s) := by
  unfold execBufferRelease
  repeat' (first
    | with_reducible assumption
    | with_reducible refine NextKeeps.next ?_
    | with_reducible refine State.modBuf_keeps ?_
    | with_reducible refine State.poolReject_keeps ?_
    | with_reducible refine State.poolResult_keeps ?_
    | with_reducible refine Keeps.ite ?_ ?_
    | (extract_lets -underBinder +onlyGivenNames z
       first | (refine (fun hz : Keeps σ z => ?_) ?_; on_goal 1 => clear_value z
                on_goal 2 => (unfold z; clear z))
             | clear_value z)
    | split
    | intro _)

theorem execBufferGroupGrant_keeps {σ : State} {pool : Nat} {s : State} (hσ : Keeps σ s) : NextKeeps σ (execBufferGroupGrant pool s) := by
  unfold execBufferGroupGrant
  repeat' (first
    | with_reducible assumption
    | with_reducible refine NextKeeps.next ?_
    | with_reducible refine Keeps.foldl ?_ ?_
    | with_reducible refine State.answer_keeps ?_
    | with_reducible refine State.modPoolOf_keeps ?_
    | with_reducible refine State.popBuf_keeps ?_ (by with_reducible assumption)
    | with_reducible refine State.send_keeps ?_
    | with_reducible refine Keeps.ite ?_ ?_
    | (extract_lets -underBinder +onlyGivenNames z
       first | (refine (fun hz : Keeps σ z => ?_) ?_; on_goal 1 => clear_value z
                on_goal 2 => (unfold z; clear z))
             | clear_value z)
    | split
    | intro _)

theorem State.serveHeld_keeps {σ s : State} {p : Nat} (hσ : Keeps σ s) : Keeps σ (State.serveHeld s p) := by
  unfold State.serveHeld
  refine Keeps.foldl (State.modPoolOf_keeps hσ) fun s i h => ?_
  extract_lets t
  have ht : Keeps σ t := by
    unfold t
    split
    · exact State.readLease_keeps h
    · exact State.allocate_keeps h
    · exact h
  split
  · exact State.freeBuf_keeps ht
  · exact ht

theorem execFreeListRebuild_keeps {σ : State} {pool : Nat} {order : List Nat} {s : State} (hσ : Keeps σ s) : NextKeeps σ (execFreeListRebuild pool order s) := by
  unfold execFreeListRebuild
  repeat' (first
    | with_reducible assumption
    | with_reducible refine NextKeeps.next ?_
    | with_reducible refine State.serveHeld_keeps ?_
    | with_reducible refine State.modPoolOf_keeps ?_
    | with_reducible refine Keeps.ite ?_ ?_
    | split
    | intro _)

theorem execPoolMinfreeClear_keeps {σ : State} {pool : Nat} {s : State} (hσ : Keeps σ s) : NextKeeps σ (execPoolMinfreeClear pool s) := by
  unfold execPoolMinfreeClear
  repeat' (first
    | with_reducible assumption
    | with_reducible refine NextKeeps.next ?_
    | with_reducible refine State.modPoolOf_keeps ?_
    | intro _)

theorem execSetArbitration_keeps {σ : State} {stamp : Nat} {s : State} (hσ : Keeps σ s) : NextKeeps σ (execSetArbitration stamp s) := by
  unfold execSetArbitration
  repeat' (first
    | with_reducible assumption
    | with_reducible refine NextKeeps.next ?_
    | with_reducible refine State.complete_keeps ?_
    | with_reducible refine State.modNvme_keeps ?_
    | with_reducible refine State.onSet_keeps ?_ ?_
    | intro _)

theorem execGetArbitration_keeps {σ : State} {stamp : Nat} {s : State} (hσ : Keeps σ s) : NextKeeps σ (execGetArbitration stamp s) := by
  unfold execGetArbitration
  repeat' (first
    | with_reducible assumption
    | with_reducible refine NextKeeps.next ?_
    | with_reducible refine State.getValue_keeps ?_
    | with_reducible refine State.onGet_keeps ?_ ?_
    | intro _)

theorem execSetTemperatureThreshold_keeps {σ : State} {stamp : Nat} {s : State} (hσ : Keeps σ s) : NextKeeps σ (execSetTemperatureThreshold stamp s) := by
  unfold execSetTemperatureThreshold
  repeat' (first
    | with_reducible assumption
    | with_reducible refine NextKeeps.next ?_
    | with_reducible refine Keeps.foldl ?_ ?_
    | with_reducible exact hz _
    | with_reducible exact hz _ _
    | with_reducible refine hz _ ?_
    | with_reducible refine hz _ _ ?_
    | with_reducible refine State.complete_keeps ?_
    | with_reducible refine State.modNvme_keeps ?_
    | with_reducible refine State.onSet_keeps ?_ ?_
    | with_reducible refine Keeps.ite ?_ ?_
    | (extract_lets -underBinder +onlyGivenNames z
       first | (refine (fun hz : Keeps σ z => ?_) ?_; on_goal 1 => clear_value z
                on_goal 2 => (unfold z; clear z))
             | (refine (fun hz : Keeps σ z.2 => ?_) ?_; on_goal 1 => clear_value z
                on_goal 2 => (unfold z; clear z))
             | (refine (fun hz : Keeps σ z.1 => ?_) ?_; on_goal 1 => clear_value z
                on_goal 2 => (unfold z; clear z))
             | (refine (fun hz : ∀ x, Keeps σ x → Keeps σ (z x) => ?_) ?_; on_goal 1 => clear_value z
                on_goal 2 => (unfold z; clear z))
             | (refine (fun hz : ∀ x y, Keeps σ x → Keeps σ (z x y) => ?_) ?_; on_goal 1 => clear_value z
                on_goal 2 => (unfold z; clear z))
             | (refine (fun hz : ∀ y, Keeps σ (z y) => ?_) ?_; on_goal 1 => clear_value z
                on_goal 2 => (unfold z; clear z))
             | (refine (fun hz : ∀ y w, Keeps σ (z y w) => ?_) ?_; on_goal 1 => clear_value z
                on_goal 2 => (unfold z; clear z))
             | clear_value z)
    | split
    | intro _)

theorem execGetTemperatureThreshold_keeps {σ : State} {stamp : Nat} {s : State} (hσ : Keeps σ s) : NextKeeps σ (execGetTemperatureThreshold stamp s) := by
  unfold execGetTemperatureThreshold
  repeat' (first
    | with_reducible assumption
    | with_reducible refine NextKeeps.next ?_
    | with_reducible refine State.complete_keeps ?_
    | with_reducible refine State.getValue_keeps ?_
    | with_reducible refine State.onGet_keeps ?_ ?_
    | with_reducible refine Keeps.ite ?_ ?_
    | (extract_lets -underBinder +onlyGivenNames z
       first | (refine (fun hz : Keeps σ z => ?_) ?_; on_goal 1 => clear_value z
                on_goal 2 => (unfold z; clear z))
             | (refine (fun hz : Keeps σ z.2 => ?_) ?_; on_goal 1 => clear_value z
                on_goal 2 => (unfold z; clear z))
             | (refine (fun hz : Keeps σ z.1 => ?_) ?_; on_goal 1 => clear_value z
                on_goal 2 => (unfold z; clear z))
             | clear_value z)
    | split
    | intro _)

theorem execSetErrorRecovery_keeps {σ : State} {stamp : Nat} {s : State} (hσ : Keeps σ s) : NextKeeps σ (execSetErrorRecovery stamp s) := by
  unfold execSetErrorRecovery
  repeat' (first
    | with_reducible assumption
    | with_reducible refine NextKeeps.next ?_
    | with_reducible refine State.complete_keeps ?_
    | with_reducible refine State.modNvme_keeps ?_
    | with_reducible refine State.onSet_keeps ?_ ?_
    | with_reducible refine Keeps.ite ?_ ?_
    | split
    | intro _)

theorem execGetErrorRecovery_keeps {σ : State} {stamp : Nat} {s : State} (hσ : Keeps σ s) : NextKeeps σ (execGetErrorRecovery stamp s) := by
  unfold execGetErrorRecovery
  repeat' (first
    | with_reducible assumption
    | with_reducible refine NextKeeps.next ?_
    | with_reducible refine State.getValue_keeps ?_
    | with_reducible refine State.onGet_keeps ?_ ?_
    | intro _)

theorem execSetNumberOfQueues_keeps {σ : State} {stamp : Nat} {s : State} (hσ : Keeps σ s) : NextKeeps σ (execSetNumberOfQueues stamp s) := by
  unfold execSetNumberOfQueues
  repeat' (first
    | with_reducible assumption
    | with_reducible refine NextKeeps.next ?_
    | with_reducible refine State.complete_keeps ?_
    | with_reducible refine State.onSet_keeps ?_ ?_
    | intro _)

theorem execGetNumberOfQueues_keeps {σ : State} {stamp : Nat} {s : State} (hσ : Keeps σ s) : NextKeeps σ (execGetNumberOfQueues stamp s) := by
  unfold execGetNumberOfQueues
  repeat' (first
    | with_reducible assumption
    | with_reducible refine NextKeeps.next ?_
    | with_reducible refine State.complete_keeps ?_
    | with_reducible refine State.onGet_keeps ?_ ?_
    | intro _)

theorem execSetInterruptCoalescing_keeps {σ : State} {stamp : Nat} {s : State} (hσ : Keeps σ s) : NextKeeps σ (execSetInterruptCoalescing stamp s) := by
  unfold execSetInterruptCoalescing
  repeat' (first
    | with_reducible assumption
    | with_reducible refine NextKeeps.next ?_
    | with_reducible refine State.complete_keeps ?_
    | with_reducible refine State.modNvme_keeps ?_
    | with_reducible refine State.onSet_keeps ?_ ?_
    | intro _)

theorem execGetInterruptCoalescing_keeps {σ : State} {stamp : Nat} {s : State} (hσ : Keeps σ s) : NextKeeps σ (execGetInterruptCoalescing stamp s) := by
  unfold execGetInterruptCoalescing
  repeat' (first
    | with_reducible assumption
    | with_reducible refine NextKeeps.next ?_
    | with_reducible refine State.getValue_keeps ?_
    | with_reducible refine State.onGet_keeps ?_ ?_
    | intro _)

theorem execSetInterruptVectorConfig_keeps {σ : State} {stamp : Nat} {s : State} (hσ : Keeps σ s) : NextKeeps σ (execSetInterruptVectorConfig stamp s) := by
  unfold execSetInterruptVectorConfig
  repeat' (first
    | with_reducible assumption
    | with_reducible refine NextKeeps.next ?_
    | with_reducible refine State.complete_keeps ?_
    | with_reducible refine State.modNvme_keeps ?_
    | with_reducible refine State.onSet_keeps ?_ ?_
    | with_reducible refine Keeps.ite ?_ ?_
    | (extract_lets -underBinder +onlyGivenNames z
       first | (refine (fun hz : Keeps σ z => ?_) ?_; on_goal 1 => clear_value z
                on_goal 2 => (unfold z; clear z))
             | clear_value z)
    | split
    | intro _)

theorem execGetInterruptVectorConfig_keeps {σ : State} {stamp : Nat} {s : State} (hσ : Keeps σ s) : NextKeeps σ (execGetInterruptVectorConfig stamp s) := by
  unfold execGetInterruptVectorConfig
  repeat' (first
    | with_reducible assumption
    | with_reducible refine NextKeeps.next ?_
    | with_reducible refine State.complete_keeps ?_
    | with_reducible refine State.getValue_keeps ?_
    | with_reducible refine State.onGet_keeps ?_ ?_
    | with_reducible refine Keeps.ite ?_ ?_
    | (extract_lets -underBinder +onlyGivenNames z
       first | (refine (fun hz : Keeps σ z => ?_) ?_; on_goal 1 => clear_value z
                on_goal 2 => (unfold z; clear z))
             | clear_value z)
    | split
    | intro _)

theorem execSetWriteAtomicityNormal_keeps {σ : State} {stamp : Nat} {s : State} (hσ : Keeps σ s) : NextKeeps σ (execSetWriteAtomicityNormal stamp s) := by
  unfold execSetWriteAtomicityNormal
  repeat' (first
    | with_reducible assumption
    | with_reducible refine NextKeeps.next ?_
    | with_reducible refine State.complete_keeps ?_
    | with_reducible refine State.modNvme_keeps ?_
    | with_reducible refine State.onSet_keeps ?_ ?_
    | intro _)

theorem execGetWriteAtomicityNormal_keeps {σ : State} {stamp : Nat} {s : State} (hσ : Keeps σ s) : NextKeeps σ (execGetWriteAtomicityNormal stamp s) := by
  unfold execGetWriteAtomicityNormal
  repeat' (first
    | with_reducible assumption
    | with_reducible refine NextKeeps.next ?_
    | with_reducible refine State.getValue_keeps ?_
    | with_reducible refine State.onGet_keeps ?_ ?_
    | intro _)

theorem execSetAsyncEventConfig_keeps {σ : State} {stamp : Nat} {s : State} (hσ : Keeps σ s) : NextKeeps σ (execSetAsyncEventConfig stamp s) := by
  unfold execSetAsyncEventConfig
  repeat' (first
    | with_reducible assumption
    | with_reducible refine NextKeeps.next ?_
    | with_reducible refine State.complete_keeps ?_
    | with_reducible refine State.modNvme_keeps ?_
    | with_reducible refine State.onSet_keeps ?_ ?_
    | intro _)

theorem execGetAsyncEventConfig_keeps {σ : State} {stamp : Nat} {s : State} (hσ : Keeps σ s) : NextKeeps σ (execGetAsyncEventConfig stamp s) := by
  unfold execGetAsyncEventConfig
  repeat' (first
    | with_reducible assumption
    | with_reducible refine NextKeeps.next ?_
    | with_reducible refine State.getValue_keeps ?_
    | with_reducible refine State.onGet_keeps ?_ ?_
    | intro _)

theorem execGetTimestamp_keeps {σ : State} {stamp : Nat} {s : State} (hσ : Keeps σ s) : NextKeeps σ (execGetTimestamp stamp s) := by
  unfold execGetTimestamp
  repeat' (first
    | with_reducible assumption
    | with_reducible refine NextKeeps.next ?_
    | with_reducible refine State.complete_keeps ?_
    | with_reducible refine State.giveData_keeps ?_
    | with_reducible refine State.onGet_keeps ?_ ?_
    | with_reducible refine Keeps.ite ?_ ?_
    | (extract_lets -underBinder +onlyGivenNames z
       first | (refine (fun hz : Keeps σ z => ?_) ?_; on_goal 1 => clear_value z
                on_goal 2 => (unfold z; clear z))
             | clear_value z)
    | split
    | intro _)

theorem execSetHctm_keeps {σ : State} {stamp : Nat} {s : State} (hσ : Keeps σ s) : NextKeeps σ (execSetHctm stamp s) := by
  unfold execSetHctm
  repeat' (first
    | with_reducible assumption
    | with_reducible refine NextKeeps.next ?_
    | with_reducible refine State.complete_keeps ?_
    | with_reducible refine State.modNvme_keeps ?_
    | with_reducible refine State.onSet_keeps ?_ ?_
    | with_reducible refine Keeps.ite ?_ ?_
    | (extract_lets -underBinder +onlyGivenNames z
       first | (refine (fun hz : Keeps σ z => ?_) ?_; on_goal 1 => clear_value z
                on_goal 2 => (unfold z; clear z))
             | clear_value z)
    | split
    | intro _)

theorem execGetHctm_keeps {σ : State} {stamp : Nat} {s : State} (hσ : Keeps σ s) : NextKeeps σ (execGetHctm stamp s) := by
  unfold execGetHctm
  repeat' (first
    | with_reducible assumption
    | with_reducible refine NextKeeps.next ?_
    | with_reducible refine State.getValue_keeps ?_
    | with_reducible refine State.onGet_keeps ?_ ?_
    | intro _)

theorem execSetTimestamp_keeps {σ : State} {stamp : Nat} {value : BitVec 48} {s : State} (hσ : Keeps σ s) : NextKeeps σ (execSetTimestamp stamp value s) := by
  unfold execSetTimestamp
  repeat' (first
    | with_reducible assumption
    | with_reducible refine NextKeeps.next ?_
    | with_reducible refine State.ageUnpowered_keeps ?_
    | with_reducible refine State.complete_keeps ?_
    | with_reducible refine State.modNvme_keeps ?_
    | with_reducible refine State.note_keeps ?_
    | with_reducible refine State.onSet_keeps ?_ ?_
    | with_reducible refine Keeps.ite ?_ ?_
    | (extract_lets -underBinder +onlyGivenNames z
       first | (refine (fun hz : Keeps σ z => ?_) ?_; on_goal 1 => clear_value z
                on_goal 2 => (unfold z; clear z))
             | clear_value z)
    | split
    | intro _)

theorem execTimestampWaitExpiry_keeps {σ s : State} (hσ : Keeps σ s) : NextKeeps σ (execTimestampWaitExpiry s) := by
  unfold execTimestampWaitExpiry
  repeat' (first
    | with_reducible assumption
    | with_reducible refine NextKeeps.next ?_
    | with_reducible refine State.modNvme_keeps ?_
    | with_reducible refine State.reach_keeps ?_
    | with_reducible refine State.scrubAll_keeps ?_
    | split
    | intro _)

theorem execSetStreamFormat_keeps {σ : State} {stamp : Nat} {data : List Byte} {s : State} (hσ : Keeps σ s) : NextKeeps σ (execSetStreamFormat stamp data s) := by
  unfold execSetStreamFormat
  repeat' (first
    | with_reducible assumption
    | with_reducible refine NextKeeps.next ?_
    | with_reducible refine State.awaitJournal_keeps ?_
    | with_reducible refine State.complete_keeps ?_
    | with_reducible refine State.journal_keeps ?_
    | with_reducible refine State.modCoder_keeps ?_
    | with_reducible refine State.onSet_keeps ?_ ?_
    | with_reducible refine State.settle_keeps ?_
    | with_reducible refine Keeps.ite ?_ ?_
    | (extract_lets -underBinder +onlyGivenNames z
       first | (refine (fun hz : Keeps σ z => ?_) ?_; on_goal 1 => clear_value z
                on_goal 2 => (unfold z; clear z))
             | clear_value z)
    | split
    | intro _)

theorem execGetStreamFormat_keeps {σ : State} {stamp : Nat} {s : State} (hσ : Keeps σ s) : NextKeeps σ (execGetStreamFormat stamp s) := by
  unfold execGetStreamFormat
  repeat' (first
    | with_reducible assumption
    | with_reducible refine NextKeeps.next ?_
    | with_reducible refine State.complete_keeps ?_
    | with_reducible refine State.giveData_keeps ?_
    | with_reducible refine State.onGet_keeps ?_ ?_
    | with_reducible refine Keeps.ite ?_ ?_
    | (extract_lets -underBinder +onlyGivenNames z
       first | (refine (fun hz : Keeps σ z => ?_) ?_; on_goal 1 => clear_value z
                on_goal 2 => (unfold z; clear z))
             | clear_value z)
    | split
    | intro _)

theorem execSetRackSpindleControl_keeps {σ : State} {stamp : Nat} {s : State} (hσ : Keeps σ s) : NextKeeps σ (execSetRackSpindleControl stamp s) := by
  unfold execSetRackSpindleControl
  repeat' (first
    | with_reducible assumption
    | with_reducible refine NextKeeps.next ?_
    | with_reducible refine State.setSpindle_keeps ?_
    | intro _)

theorem execRackSpinUpAction_keeps {σ : State} {stamp : Nat} {s : State} (hσ : Keeps σ s) : NextKeeps σ (execRackSpinUpAction stamp s) := by
  unfold execRackSpinUpAction
  repeat' (first
    | with_reducible assumption
    | with_reducible refine NextKeeps.next ?_
    | with_reducible refine State.setSpindle_keeps ?_
    | intro _)

theorem execRackSpinDownAction_keeps {σ : State} {stamp : Nat} {s : State} (hσ : Keeps σ s) : NextKeeps σ (execRackSpinDownAction stamp s) := by
  unfold execRackSpinDownAction
  repeat' (first
    | with_reducible assumption
    | with_reducible refine NextKeeps.next ?_
    | with_reducible refine State.setSpindle_keeps ?_
    | intro _)

theorem execGetRackSpindleControl_keeps {σ : State} {stamp : Nat} {s : State} (hσ : Keeps σ s) : NextKeeps σ (execGetRackSpindleControl stamp s) := by
  unfold execGetRackSpindleControl
  repeat' (first
    | with_reducible assumption
    | with_reducible refine NextKeeps.next ?_
    | with_reducible refine State.complete_keeps ?_
    | with_reducible refine State.onGet_keeps ?_ ?_
    | with_reducible refine Keeps.ite ?_ ?_
    | (extract_lets -underBinder +onlyGivenNames z
       first | (refine (fun hz : Keeps σ z => ?_) ?_; on_goal 1 => clear_value z
                on_goal 2 => (unfold z; clear z))
             | clear_value z)
    | split
    | intro _)

theorem execPlacementHintsAdd_keeps {σ : State} {stamp : Nat} {data : List Byte} {s : State} (hσ : Keeps σ s) : NextKeeps σ (execPlacementHintsAdd stamp data s) := by
  unfold execPlacementHintsAdd
  repeat' (first
    | with_reducible assumption
    | with_reducible refine NextKeeps.next ?_
    | with_reducible refine State.hintsSet_keeps ?_
    | intro _)

theorem execPlacementHintsRemove_keeps {σ : State} {stamp : Nat} {data : List Byte} {s : State} (hσ : Keeps σ s) : NextKeeps σ (execPlacementHintsRemove stamp data s) := by
  unfold execPlacementHintsRemove
  repeat' (first
    | with_reducible assumption
    | with_reducible refine NextKeeps.next ?_
    | with_reducible refine State.hintsSet_keeps ?_
    | intro _)

theorem execPlacementHintsRemoveAll_keeps {σ : State} {stamp : Nat} {s : State} (hσ : Keeps σ s) : NextKeeps σ (execPlacementHintsRemoveAll stamp s) := by
  unfold execPlacementHintsRemoveAll
  repeat' (first
    | with_reducible assumption
    | with_reducible refine NextKeeps.next ?_
    | with_reducible refine State.hintsSet_keeps ?_
    | intro _)

theorem execGetPlacementHints_keeps {σ : State} {stamp : Nat} {s : State} (hσ : Keeps σ s) : NextKeeps σ (execGetPlacementHints stamp s) := by
  unfold execGetPlacementHints
  repeat' (first
    | with_reducible assumption
    | with_reducible refine NextKeeps.next ?_
    | with_reducible refine State.complete_keeps ?_
    | with_reducible refine State.giveData_keeps ?_
    | with_reducible refine State.onGet_keeps ?_ ?_
    | intro _)

theorem execSetCaptureWindowControl_keeps {σ : State} {stamp : Nat} {s : State} (hσ : Keeps σ s) : NextKeeps σ (execSetCaptureWindowControl stamp s) := by
  unfold execSetCaptureWindowControl
  repeat' (first
    | with_reducible assumption
    | with_reducible refine NextKeeps.next ?_
    | with_reducible refine State.complete_keeps ?_
    | with_reducible refine State.lease_keeps ?_
    | with_reducible refine State.lease_keeps_of ?_ (by with_reducible assumption)
    | with_reducible refine State.modCtx_keeps ?_
    | with_reducible refine State.onSet_keeps ?_ ?_
    | with_reducible refine State.queueSet_keeps ?_
    | with_reducible refine Keeps.ite ?_ ?_
    | (extract_lets -underBinder +onlyGivenNames z
       first | (refine (fun hz : Keeps σ z => ?_) ?_; on_goal 1 => clear_value z
                on_goal 2 => (unfold z; clear z))
             | (refine (fun hz : Keeps σ z.1 => ?_) ?_; on_goal 1 => clear_value z
                on_goal 2 => (unfold z; clear z))
             | clear_value z)
    | split
    | intro _)

theorem execGetCaptureWindowControl_keeps {σ : State} {stamp : Nat} {s : State} (hσ : Keeps σ s) : NextKeeps σ (execGetCaptureWindowControl stamp s) := by
  unfold execGetCaptureWindowControl
  repeat' (first
    | with_reducible assumption
    | with_reducible refine NextKeeps.next ?_
    | with_reducible refine State.getValue_keeps ?_
    | with_reducible refine State.onGet_keeps ?_ ?_
    | intro _)

theorem execFaultInjectForce_keeps {σ : State} {stamp : Nat} {s : State} (hσ : Keeps σ s) : NextKeeps σ (execFaultInjectForce stamp s) := by
  unfold execFaultInjectForce
  repeat' (first
    | with_reducible assumption
    | with_reducible refine NextKeeps.next ?_
    | with_reducible refine State.complete_keeps ?_
    | with_reducible refine State.onAdmin_keeps ?_ ?_
    | with_reducible refine State.setForce_keeps ?_
    | with_reducible refine Keeps.ite ?_ ?_
    | (extract_lets -underBinder +onlyGivenNames z
       first | (refine (fun hz : Keeps σ z => ?_) ?_; on_goal 1 => clear_value z
                on_goal 2 => (unfold z; clear z))
             | clear_value z)
    | split
    | intro _)

theorem execFaultInjectClearAll_keeps {σ : State} {stamp : Nat} {s : State} (hσ : Keeps σ s) : NextKeeps σ (execFaultInjectClearAll stamp s) := by
  unfold execFaultInjectClearAll
  repeat' (first
    | with_reducible assumption
    | with_reducible refine NextKeeps.next ?_
    | with_reducible refine State.complete_keeps ?_
    | with_reducible refine State.modFlt_keeps ?_
    | with_reducible refine State.onAdmin_keeps ?_ ?_
    | with_reducible refine Keeps.ite ?_ ?_
    | (extract_lets -underBinder +onlyGivenNames z
       first | (refine (fun hz : Keeps σ z => ?_) ?_; on_goal 1 => clear_value z
                on_goal 2 => (unfold z; clear z))
             | (refine (fun hz : Keeps σ z.2 => ?_) ?_; on_goal 1 => clear_value z
                on_goal 2 => (unfold z; clear z))
             | (refine (fun hz : Keeps σ z.1 => ?_) ?_; on_goal 1 => clear_value z
                on_goal 2 => (unfold z; clear z))
             | clear_value z)
    | split
    | intro _)

theorem execEventRecorderClearUpto_keeps {σ : State} {stamp : Nat} {s : State} (hσ : Keeps σ s) : NextKeeps σ (execEventRecorderClearUpto stamp s) := by
  unfold execEventRecorderClearUpto
  repeat' (first
    | with_reducible assumption
    | with_reducible refine NextKeeps.next ?_
    | with_reducible refine State.clearOrder_keeps ?_
    | with_reducible refine State.complete_keeps ?_
    | with_reducible refine State.onAdmin_keeps ?_ ?_
    | with_reducible refine Keeps.ite ?_ ?_
    | split
    | intro _)

theorem execEventRecorderClearAll_keeps {σ : State} {stamp : Nat} {s : State} (hσ : Keeps σ s) : NextKeeps σ (execEventRecorderClearAll stamp s) := by
  unfold execEventRecorderClearAll
  repeat' (first
    | with_reducible assumption
    | with_reducible refine NextKeeps.next ?_
    | with_reducible refine State.clearOrder_keeps ?_
    | with_reducible refine State.onAdmin_keeps ?_ ?_
    | with_reducible refine Keeps.ite ?_ ?_
    | split
    | intro _)

theorem execGetLogPlacementReport_keeps {σ : State} {stamp : Nat} {s : State} (hσ : Keeps σ s) : NextKeeps σ (execGetLogPlacementReport stamp s) := by
  unfold execGetLogPlacementReport
  repeat' (first
    | with_reducible assumption
    | with_reducible refine NextKeeps.next ?_
    | with_reducible refine clearUnlessRae_keeps ?_
    | with_reducible refine State.onLog_keeps ?_ ?_
    | intro _)

theorem execGetLogMediaGeometry_keeps {σ : State} {stamp : Nat} {s : State} (hσ : Keeps σ s) : NextKeeps σ (execGetLogMediaGeometry stamp s) := by
  unfold execGetLogMediaGeometry
  repeat' (first
    | with_reducible assumption
    | with_reducible refine NextKeeps.next ?_
    | with_reducible refine clearUnlessRae_keeps ?_
    | with_reducible refine State.onLog_keeps ?_ ?_
    | intro _)

theorem execFirmwareImageDownload_keeps {σ : State} {stamp : Nat} {data : List Byte} {s : State} (hσ : Keeps σ s) : NextKeeps σ (execFirmwareImageDownload stamp data s) := by
  unfold execFirmwareImageDownload
  repeat' (first
    | with_reducible assumption
    | with_reducible refine NextKeeps.next ?_
    | with_reducible refine State.complete_keeps ?_
    | with_reducible refine State.modFw_keeps ?_ ?_
    | with_reducible refine State.onAdmin_keeps ?_ ?_
    | with_reducible exact fun _ => ⟨rfl, rfl⟩
    | with_reducible exact fun _ => rfl
    | (intro x; try dsimp only; repeat' split) <;> with_reducible first | rfl | exact ⟨rfl, rfl⟩
    | with_reducible refine Keeps.ite ?_ ?_
    | (extract_lets -underBinder +onlyGivenNames z
       first | (refine (fun hz : Keeps σ z => ?_) ?_; on_goal 1 => clear_value z
                on_goal 2 => (unfold z; clear z))
             | clear_value z)
    | split
    | intro _)

theorem execFirmwareCommitReplace_keeps {σ : State} {stamp : Nat} {bad : List Nat} {fails : Bool} {s : State} (hσ : Keeps σ s) : NextKeeps σ (execFirmwareCommitReplace stamp bad fails s) := by
  unfold execFirmwareCommitReplace
  repeat' (first
    | with_reducible assumption
    | with_reducible refine NextKeeps.next ?_
    | with_reducible refine State.commit_keeps ?_
    | intro _)

theorem execFirmwareCommitNextReset_keeps {σ : State} {stamp : Nat} {bad : List Nat} {fails : Bool} {s : State} (hσ : Keeps σ s) : NextKeeps σ (execFirmwareCommitNextReset stamp bad fails s) := by
  unfold execFirmwareCommitNextReset
  repeat' (first
    | with_reducible assumption
    | with_reducible refine NextKeeps.next ?_
    | with_reducible refine State.commit_keeps ?_
    | intro _)

theorem execFirmwareCommitActivateSlot_keeps {σ : State} {stamp : Nat} {bad : List Nat} {fails : Bool} {s : State} (hσ : Keeps σ s) : NextKeeps σ (execFirmwareCommitActivateSlot stamp bad fails s) := by
  unfold execFirmwareCommitActivateSlot
  repeat' (first
    | with_reducible assumption
    | with_reducible refine NextKeeps.next ?_
    | with_reducible refine State.commit_keeps ?_
    | intro _)

theorem execFirmwareCommitImmediate_keeps {σ : State} {stamp : Nat} {bad : List Nat} {fails : Bool} {s : State} (hσ : Keeps σ s) : NextKeeps σ (execFirmwareCommitImmediate stamp bad fails s) := by
  unfold execFirmwareCommitImmediate
  repeat' (first
    | with_reducible assumption
    | with_reducible refine NextKeeps.next ?_
    | with_reducible refine State.commit_keeps ?_
    | intro _)

theorem execSetScheduledActivation_keeps {σ : State} {stamp : Nat} {data : List Byte} {s : State} (hσ : Keeps σ s) : NextKeeps σ (execSetScheduledActivation stamp data s) := by
  unfold execSetScheduledActivation
  repeat' (first
    | with_reducible assumption
    | with_reducible refine NextKeeps.next ?_
    | with_reducible refine State.cancelScheduled_keeps ?_
    | with_reducible refine State.complete_keeps ?_
    | with_reducible refine State.modFw_keeps ?_ ?_
    | with_reducible refine State.onSet_keeps ?_ ?_
    | with_reducible exact fun _ => ⟨rfl, rfl⟩
    | with_reducible exact fun _ => rfl
    | (intro x; try dsimp only; repeat' split) <;> with_reducible first | rfl | exact ⟨rfl, rfl⟩
    | with_reducible refine Keeps.ite ?_ ?_
    | (extract_lets -underBinder +onlyGivenNames z
       first | (refine (fun hz : Keeps σ z => ?_) ?_; on_goal 1 => clear_value z
                on_goal 2 => (unfold z; clear z))
             | clear_value z)
    | split
    | intro _)

theorem execGetScheduledActivation_keeps {σ : State} {stamp : Nat} {s : State} (hσ : Keeps σ s) : NextKeeps σ (execGetScheduledActivation stamp s) := by
  unfold execGetScheduledActivation
  repeat' (first
    | with_reducible assumption
    | with_reducible refine NextKeeps.next ?_
    | with_reducible refine State.complete_keeps ?_
    | with_reducible refine State.giveData_keeps ?_
    | with_reducible refine State.onGet_keeps ?_ ?_
    | with_reducible refine Keeps.ite ?_ ?_
    | (extract_lets -underBinder +onlyGivenNames z
       first | (refine (fun hz : Keeps σ z => ?_) ?_; on_goal 1 => clear_value z
                on_goal 2 => (unfold z; clear z))
             | clear_value z)
    | split
    | intro _)

theorem execEpochAdvance_keeps {σ : State} {margins : List (List (List Int))} {eyes : List (Nat × Nat × Nat × Nat)} {s : State} (hσ : Keeps σ s) : NextKeeps σ (execEpochAdvance margins eyes s) := by
  unfold execEpochAdvance
  repeat' (first
    | with_reducible assumption
    | with_reducible refine Keeps.optMap ?_ ?_
    | with_reducible refine Keeps.optGet ?_ ?_
    | with_reducible refine Keeps.optElim ?_ ?_
    | with_reducible refine NextKeeps.next ?_
    | with_reducible refine State.epochHealth_keeps ?_
    | with_reducible refine State.modDram_keeps ?_
    | with_reducible refine State.modFlashIf_keeps ?_
    | with_reducible refine State.modPlace_keeps ?_
    | with_reducible refine State.reach_keeps ?_
    | with_reducible refine State.replan_keeps ?_
    | with_reducible refine Keeps.ite ?_ ?_
    | (extract_lets -underBinder +onlyGivenNames z
       first | (refine (fun hz : Keeps σ z => ?_) ?_; on_goal 1 => clear_value z
                on_goal 2 => (unfold z; clear z))
             | (refine (fun hz : Keeps σ z.2 => ?_) ?_; on_goal 1 => clear_value z
                on_goal 2 => (unfold z; clear z))
             | (refine (fun hz : Keeps σ z.1 => ?_) ?_; on_goal 1 => clear_value z
                on_goal 2 => (unfold z; clear z))
             | clear_value z)
    | split
    | intro _)

theorem execSequencerSubmit_keeps {σ : State} {seq off : Nat} {data : List Byte} {handles : List Nat} {s : State} (hσ : Keeps σ s) : NextKeeps σ (execSequencerSubmit seq off data handles s) := by
  unfold execSequencerSubmit
  repeat' (first
    | with_reducible assumption
    | with_reducible refine Keeps.optMap ?_ ?_
    | with_reducible refine Keeps.optGet ?_ ?_
    | with_reducible refine Keeps.optElim ?_ ?_
    | with_reducible refine NextKeeps.next ?_
    | with_reducible refine State.modSeq_keeps ?_
    | with_reducible refine Keeps.ite ?_ ?_
    | (extract_lets -underBinder +onlyGivenNames z
       first | (refine (fun hz : Keeps σ z => ?_) ?_; on_goal 1 => clear_value z
                on_goal 2 => (unfold z; clear z))
             | clear_value z)
    | split
    | intro _)

theorem execCompletionRecordRead_keeps {σ : State} {seq : Nat} {last : Bool} {s : State} (hσ : Keeps σ s) : NextKeeps σ (execCompletionRecordRead seq last s) := by
  unfold execCompletionRecordRead
  repeat' (first
    | with_reducible assumption
    | with_reducible refine NextKeeps.next ?_
    | with_reducible refine State.answer_keeps ?_
    | with_reducible refine State.modSeq_keeps ?_
    | with_reducible refine State.send_keeps ?_
    | with_reducible refine Keeps.ite ?_ ?_
    | split
    | intro _)

theorem execSequencerHold_keeps {σ : State} {seq : Nat} {s : State} (hσ : Keeps σ s) : NextKeeps σ (execSequencerHold seq s) := by
  unfold execSequencerHold
  repeat' (first
    | with_reducible assumption
    | with_reducible refine NextKeeps.next ?_
    | with_reducible refine State.modSeq_keeps ?_
    | with_reducible refine Keeps.ite ?_ ?_
    | split
    | intro _)

theorem execSequencerHoldRelease_keeps {σ : State} {seq : Nat} {s : State} (hσ : Keeps σ s) : NextKeeps σ (execSequencerHoldRelease seq s) := by
  unfold execSequencerHoldRelease
  repeat' (first
    | with_reducible assumption
    | with_reducible refine NextKeeps.next ?_
    | with_reducible refine State.modSeq_keeps ?_
    | with_reducible refine Keeps.ite ?_ ?_
    | split
    | intro _)

theorem execMachineCheckClear_keeps {σ : State} {seq : Nat} {s : State} (hσ : Keeps σ s) : NextKeeps σ (execMachineCheckClear seq s) := by
  unfold execMachineCheckClear
  repeat' (first
    | with_reducible assumption
    | with_reducible refine NextKeeps.next ?_
    | with_reducible refine State.modSeq_keeps ?_
    | with_reducible refine Keeps.ite ?_ ?_
    | split
    | intro _)

theorem execOperationDispatch_keeps {σ : State} {seq : Nat} {parity : Bool} {s : State} (hσ : Keeps σ s) : NextKeeps σ (execOperationDispatch seq parity s) := by
  unfold execOperationDispatch
  repeat' (first
    | with_reducible assumption
    | with_reducible refine NextKeeps.next ?_
    | with_reducible refine State.machineCheck_keeps ?_
    | with_reducible refine State.modSeq_keeps ?_
    | with_reducible refine State.unsupported_keeps ?_
    | with_reducible refine Keeps.ite ?_ ?_
    | (extract_lets -underBinder +onlyGivenNames z
       first | (refine (fun hz : Keeps σ z => ?_) ?_; on_goal 1 => clear_value z
                on_goal 2 => (unfold z; clear z))
             | clear_value z)
    | split
    | intro _)

theorem execWatchdogTrap_keeps {σ : State} {seq ctx : Nat} {s : State} (hσ : Keeps σ s) : NextKeeps σ (execWatchdogTrap seq ctx s) := by
  unfold execWatchdogTrap
  repeat' (first
    | with_reducible assumption
    | with_reducible refine NextKeeps.next ?_
    | with_reducible refine State.modSeq_keeps ?_
    | with_reducible refine State.reach_keeps ?_
    | (extract_lets -underBinder +onlyGivenNames z
       first | (refine (fun hz : Keeps σ z => ?_) ?_; on_goal 1 => clear_value z
                on_goal 2 => (unfold z; clear z))
             | clear_value z)
    | split
    | intro _)

theorem execYieldDelayEnd_keeps {σ : State} {seq ctx : Nat} {s : State} (hσ : Keeps σ s) : NextKeeps σ (execYieldDelayEnd seq ctx s) := by
  unfold execYieldDelayEnd
  repeat' (first
    | with_reducible assumption
    | with_reducible refine NextKeeps.next ?_
    | with_reducible refine State.modSeq_keeps ?_
    | with_reducible refine Keeps.ite ?_ ?_
    | split
    | intro _)

theorem execMicrowordExecute_keeps {σ : State} {seq : Nat} {par : Nat} {status : Byte} {strobe lost : Bool} {cwfail maxbits : Byte} {s : State} (hσ : Keeps σ s) : NextKeeps σ (execMicrowordExecute seq par status strobe lost cwfail maxbits s) := by
  unfold execMicrowordExecute
  repeat' (first
    | with_reducible assumption
    | with_reducible refine NextKeeps.next ?_
    | with_reducible refine State.machineCheck_keeps ?_
    | with_reducible refine State.modSeq_keeps ?_
    | with_reducible refine State.runWord_keeps ?_
    | with_reducible refine State.takeTrap_keeps ?_
    | with_reducible refine State.vendorHandler_keeps ?_
    | with_reducible refine Keeps.ite ?_ ?_
    | (extract_lets -underBinder +onlyGivenNames z
       first | (refine (fun hz : Keeps σ z => ?_) ?_; on_goal 1 => clear_value z
                on_goal 2 => (unfold z; clear z))
             | clear_value z)
    | split
    | intro _)

theorem execBootStart_keeps {σ : State} {bankSize : Nat} {bad : List (Nat × Nat)} {otpBad : Bool} {margins : List (List (List Int))} {s : State} (hσ : Keeps σ s) : NextKeeps σ (execBootStart bankSize bad otpBad margins s) := by
  unfold execBootStart
  split
  · exact NextKeeps.next hσ
  · extract_lets s1 s2 s3 s4
    have h1 : Keeps σ s1 := State.atBoot_keeps (State.reach_keeps hσ)
    have h2 : Keeps σ s2 := State.modPwr_keeps h1 fun _ => ⟨rfl, rfl⟩
    have h3 : Keeps σ s3 := State.modNvme_keeps (State.modFw_startNow h2 rfl)
    have h4 : Keeps σ s4 := State.modOspi_keeps h3 fun _ => rfl
    refine NextKeeps.next ?_
    split
    · exact State.recover_keeps h4
    · exact State.replanAtStart_keeps (State.takeMasks_keeps (State.noteStart_keeps (State.romStart_keeps h4)))

theorem execBootFetchFault_keeps {σ : State} {bad : List (Nat × Nat)} {s : State} (hσ : Keeps σ s) : NextKeeps σ (execBootFetchFault bad s) := by
  unfold execBootFetchFault
  repeat' (first
    | with_reducible assumption
    | with_reducible refine NextKeeps.next ?_
    | with_reducible refine State.modFw_keeps ?_ ?_
    | with_reducible refine State.modOspi_keeps ?_ ?_
    | with_reducible refine State.romStart_keeps ?_
    | with_reducible exact fun _ => ⟨rfl, rfl⟩
    | with_reducible exact fun _ => rfl
    | (intro x; try dsimp only; repeat' split) <;> with_reducible first | rfl | exact ⟨rfl, rfl⟩
    | with_reducible refine Keeps.ite ?_ ?_
    | (extract_lets -underBinder +onlyGivenNames z
       first | (refine (fun hz : Keeps σ z => ?_) ?_; on_goal 1 => clear_value z
                on_goal 2 => (unfold z; clear z))
             | clear_value z)
    | split
    | intro _)

theorem execDramTrainingEnd_keeps {σ : State} {passes : List Bool} {eyes : List (Nat × Nat × Nat × Nat)} {s : State} (hσ : Keeps σ s) : NextKeeps σ (execDramTrainingEnd passes eyes s) := by
  unfold execDramTrainingEnd
  repeat' (first
    | with_reducible assumption
    | with_reducible refine Keeps.optMap ?_ ?_
    | with_reducible refine Keeps.optGet ?_ ?_
    | with_reducible refine Keeps.optElim ?_ ?_
    | with_reducible refine NextKeeps.next ?_
    | with_reducible refine Keeps.foldl ?_ ?_
    | with_reducible refine Keeps.foldlP ?_ ?_
    | with_reducible refine Keeps.foldlQ ?_ ?_
    | with_reducible refine State.fault_keeps ?_
    | with_reducible refine State.modDram_keeps ?_
    | with_reducible refine State.modFw_keeps ?_ ?_
    | with_reducible refine State.note_keeps ?_
    | with_reducible exact fun _ => ⟨rfl, rfl⟩
    | with_reducible exact fun _ => rfl
    | (intro x; try dsimp only; repeat' split) <;> with_reducible first | rfl | exact ⟨rfl, rfl⟩
    | with_reducible refine Keeps.ite ?_ ?_
    | (extract_lets -underBinder +onlyGivenNames z
       first | (refine (fun hz : Keeps σ z => ?_) ?_; on_goal 1 => clear_value z
                on_goal 2 => (unfold z; clear z))
             | (refine (fun hz : Keeps σ z.2 => ?_) ?_; on_goal 1 => clear_value z
                on_goal 2 => (unfold z; clear z))
             | clear_value z)
    | split
    | intro _)

theorem execMicrocodeLoad_keeps {σ : State} {base : McuModule} {patches : List McuModule} {custom : Option McuModule} {failed : List Nat} {bad : List (Nat × Nat)} {s : State} (hσ : Keeps σ s) : NextKeeps σ (execMicrocodeLoad base patches custom failed bad s) := by
  unfold execMicrocodeLoad
  repeat' (first
    | with_reducible assumption
    | with_reducible refine NextKeeps.next ?_
    | with_reducible refine State.bootFrom_keeps ?_
    | with_reducible refine State.loadSeqs_keeps ?_
    | with_reducible refine State.modFw_keeps ?_ ?_
    | with_reducible refine State.takeModules_keeps ?_
    | with_reducible refine State.takeOverrides_keeps ?_
    | with_reducible exact fun _ => ⟨rfl, rfl⟩
    | with_reducible exact fun _ => rfl
    | (intro x; try dsimp only; repeat' split) <;> with_reducible first | rfl | exact ⟨rfl, rfl⟩
    | with_reducible refine Keeps.ite ?_ ?_
    | (extract_lets -underBinder +onlyGivenNames z
       first | (refine (fun hz : Keeps σ z => ?_) ?_; on_goal 1 => clear_value z
                on_goal 2 => (unfold z; clear z))
             | clear_value z)
    | split
    | intro _)

theorem execRecoveryWindowWrite_keeps {σ : State} {k : Nat} {data : List Byte} {s : State} (hσ : Keeps σ s) : NextKeeps σ (execRecoveryWindowWrite k data s) := by
  unfold execRecoveryWindowWrite
  repeat' (first
    | with_reducible assumption
    | with_reducible refine NextKeeps.next ?_
    | with_reducible refine State.modFw_keeps ?_ ?_
    | with_reducible exact fun _ => ⟨rfl, rfl⟩
    | with_reducible exact fun _ => rfl
    | (intro x; try dsimp only; repeat' split) <;> with_reducible first | rfl | exact ⟨rfl, rfl⟩
    | with_reducible refine Keeps.ite ?_ ?_
    | split
    | intro _)

theorem execRecoveryInstall_keeps {σ : State} {bad : List Nat} {fails : Bool} {s : State} (hσ : Keeps σ s) : NextKeeps σ (execRecoveryInstall bad fails s) := by
  unfold execRecoveryInstall
  repeat' (first
    | with_reducible assumption
    | with_reducible refine NextKeeps.next ?_
    | with_reducible refine Keeps.foldl ?_ ?_
    | with_reducible refine State.completeTwin_keeps ?_
    | with_reducible refine State.installFails_keeps ?_
    | with_reducible refine State.modFw_keeps ?_ ?_
    | with_reducible refine State.prepareTwin_keeps ?_
    | with_reducible refine State.writeSlotSet_keeps ?_
    | with_reducible exact fun _ => ⟨rfl, rfl⟩
    | with_reducible exact fun _ => rfl
    | (intro x; try dsimp only; repeat' split) <;> with_reducible first | rfl | exact ⟨rfl, rfl⟩
    | with_reducible refine Keeps.ite ?_ ?_
    | (extract_lets -underBinder +onlyGivenNames z
       first | (refine (fun hz : Keeps σ z => ?_) ?_; on_goal 1 => clear_value z
                on_goal 2 => (unfold z; clear z))
             | (refine (fun hz : Keeps σ z.2 => ?_) ?_; on_goal 1 => clear_value z
                on_goal 2 => (unfold z; clear z))
             | (refine (fun hz : Keeps σ z.1 => ?_) ?_; on_goal 1 => clear_value z
                on_goal 2 => (unfold z; clear z))
             | clear_value z)
    | split
    | intro _)

theorem execRecoveryRestart_keeps {σ : State} {bad : List (Nat × Nat)} {s : State} (hσ : Keeps σ s) : NextKeeps σ (execRecoveryRestart bad s) := by
  unfold execRecoveryRestart
  split
  · exact NextKeeps.next hσ
  · extract_lets p s1 s2
    have h2 : Keeps σ s2 := State.modPwr_keeps (State.modPcie_keeps (State.atBoot_keeps hσ)) fun _ => ⟨rfl, rfl⟩
    exact NextKeeps.next (State.romStart_keeps (State.modFw_startNow h2 rfl))

theorem execActivationCompare_keeps {σ s : State} (hσ : Keeps σ s) : NextKeeps σ (execActivationCompare s) := by
  unfold execActivationCompare
  repeat' (first
    | with_reducible assumption
    | with_reducible refine NextKeeps.next ?_
    | with_reducible refine State.modFw_keeps ?_ ?_
    | with_reducible refine State.trigger_keeps ?_
    | with_reducible exact fun _ => ⟨rfl, rfl⟩
    | with_reducible exact fun _ => rfl
    | (intro x; try dsimp only; repeat' split) <;> with_reducible first | rfl | exact ⟨rfl, rfl⟩
    | with_reducible refine Keeps.ite ?_ ?_
    | split
    | intro _)

theorem execActivationPoint_keeps {σ : State} {base : McuModule} {patches : List McuModule} {custom : Option McuModule} {failed : List Nat} {s : State} (hσ : Keeps σ s) : NextKeeps σ (execActivationPoint base patches custom failed s) := by
  unfold execActivationPoint
  repeat' (first
    | with_reducible assumption
    | with_reducible refine NextKeeps.next ?_
    | with_reducible refine State.beginPause_keeps ?_
    | with_reducible refine State.beginPause_keeps_of ?_ (by with_reducible assumption)
    | with_reducible refine State.modFw_keeps ?_ ?_
    | with_reducible refine State.runActivation_keeps ?_
    | with_reducible refine State.trigger_keeps ?_
    | with_reducible exact fun _ => ⟨rfl, rfl⟩
    | with_reducible exact fun _ => rfl
    | (intro x; try dsimp only; repeat' split) <;> with_reducible first | rfl | exact ⟨rfl, rfl⟩
    | with_reducible refine Keeps.ite ?_ ?_
    | (extract_lets -underBinder +onlyGivenNames z
       first | (refine (fun hz : Keeps σ z => ?_) ?_; on_goal 1 => clear_value z
                on_goal 2 => (unfold z; clear z))
             | (refine (fun hz : Keeps σ z.2 => ?_) ?_; on_goal 1 => clear_value z
                on_goal 2 => (unfold z; clear z))
             | clear_value z)
    | split
    | intro _)

theorem execActivationCoreReady_keeps {σ : State} {ok : Bool} {s : State} (hσ : Keeps σ s) : NextKeeps σ (execActivationCoreReady ok s) := by
  unfold execActivationCoreReady
  repeat' (first
    | with_reducible assumption
    | with_reducible refine NextKeeps.next ?_
    | with_reducible refine State.finishActivation_keeps ?_
    | with_reducible refine State.revertActivation_keeps ?_
    | with_reducible refine Keeps.ite ?_ ?_
    | split
    | intro _)

theorem execActivationStepTimeout_keeps {σ s : State} (hσ : Keeps σ s) : NextKeeps σ (execActivationStepTimeout s) := by
  unfold execActivationStepTimeout
  repeat' (first
    | with_reducible assumption
    | with_reducible refine NextKeeps.next ?_
    | with_reducible refine State.reach_keeps ?_
    | with_reducible refine State.revertActivation_keeps ?_
    | with_reducible refine Keeps.ite ?_ ?_
    | split
    | intro _)

theorem execSubmissionQueueDoorbell_keeps {σ : State} {qid tail : Nat} {s : State} (hσ : Keeps σ s) : NextKeeps σ (execSubmissionQueueDoorbell qid tail s) := by
  unfold execSubmissionQueueDoorbell
  repeat' (first
    | with_reducible assumption
    | with_reducible refine NextKeeps.next ?_
    | with_reducible refine State.ringSq_keeps ?_
    | intro _)

theorem execCompletionQueueDoorbell_keeps {σ : State} {qid head : Nat} {s : State} (hσ : Keeps σ s) : NextKeeps σ (execCompletionQueueDoorbell qid head s) := by
  unfold execCompletionQueueDoorbell
  repeat' (first
    | with_reducible assumption
    | with_reducible refine NextKeeps.next ?_
    | with_reducible refine State.ringCq_keeps ?_
    | intro _)

theorem execInterruptMaskSet_keeps {σ : State} {mask : Dword} {s : State} (hσ : Keeps σ s) : NextKeeps σ (execInterruptMaskSet mask s) := by
  unfold execInterruptMaskSet
  repeat' (first
    | with_reducible assumption
    | with_reducible refine NextKeeps.next ?_
    | with_reducible refine State.setIntMask_keeps ?_
    | with_reducible refine Keeps.ite ?_ ?_
    | split
    | intro _)

theorem execInterruptMaskClear_keeps {σ : State} {mask : Dword} {s : State} (hσ : Keeps σ s) : NextKeeps σ (execInterruptMaskClear mask s) := by
  unfold execInterruptMaskClear
  repeat' (first
    | with_reducible assumption
    | with_reducible refine NextKeeps.next ?_
    | with_reducible refine State.clearIntMask_keeps ?_
    | with_reducible refine Keeps.ite ?_ ?_
    | split
    | intro _)

theorem execInterruptAggregationTimeout_keeps {σ : State} {qid : Nat} {s : State} (hσ : Keeps σ s) : NextKeeps σ (execInterruptAggregationTimeout qid s) := by
  unfold execInterruptAggregationTimeout
  repeat' (first
    | with_reducible assumption
    | with_reducible refine NextKeeps.next ?_
    | with_reducible refine State.fireVector_keeps ?_
    | with_reducible refine State.modNvme_keeps ?_
    | with_reducible refine Keeps.ite ?_ ?_
    | split
    | intro _)

theorem execCommandFetch_keeps {σ : State} {qid : Nat} {sqe : Sqe} {ranges : List (Nat × Nat)} {window : List (Nat × Nat × Nat)} {s : State} (hσ : Keeps σ s) : NextKeeps σ (execCommandFetch qid sqe ranges window s) := by
  unfold execCommandFetch
  repeat' (first
    | with_reducible assumption
    | with_reducible refine NextKeeps.next ?_
    | with_reducible refine State.admit_keeps ?_
    | with_reducible refine State.answer_keeps ?_
    | with_reducible refine State.arbitrate_keeps ?_ (by with_reducible assumption)
    | with_reducible refine State.dropReq_keeps ?_
    | with_reducible refine State.issueRead_keeps ?_
    | with_reducible refine State.modHost_keeps ?_
    | with_reducible refine State.modNvme_keeps ?_
    | with_reducible refine State.noteOrder_keeps ?_
    | with_reducible refine State.reportDeferred_keeps ?_
    | with_reducible refine State.startFetched_keeps ?_
    | with_reducible refine State.wake_keeps ?_
    | with_reducible refine Keeps.ite ?_ ?_
    | (extract_lets -underBinder +onlyGivenNames z
       first | (refine (fun hz : Keeps σ z => ?_) ?_; on_goal 1 => clear_value z
                on_goal 2 => (unfold z; clear z))
             | clear_value z)
    | split
    | intro _)

theorem execFetchResume_keeps {σ s : State} (hσ : Keeps σ s) : NextKeeps σ (execFetchResume s) := by
  unfold execFetchResume
  repeat' (first
    | with_reducible assumption
    | with_reducible refine NextKeeps.next ?_
    | with_reducible refine State.modHost_keeps ?_
    | with_reducible refine Keeps.ite ?_ ?_
    | split
    | intro _)

theorem execPeelStart_keeps {σ : State} {ch : Nat} {s : State} (hσ : Keeps σ s) : NextKeeps σ (execPeelStart ch s) := by
  unfold execPeelStart
  repeat' (first
    | with_reducible assumption
    | with_reducible refine NextKeeps.next ?_
    | with_reducible refine State.peelStart_keeps ?_
    | with_reducible refine Keeps.ite ?_ ?_
    | split
    | intro _)

theorem execPeelStop_keeps {σ : State} {ch : Nat} {s : State} (hσ : Keeps σ s) : NextKeeps σ (execPeelStop ch s) := by
  unfold execPeelStop
  repeat' (first
    | with_reducible assumption
    | with_reducible refine NextKeeps.next ?_
    | with_reducible refine State.peelStop_keeps ?_
    | with_reducible refine Keeps.ite ?_ ?_
    | split
    | intro _)

theorem execPeelResume_keeps {σ : State} {ch : Nat} {s : State} (hσ : Keeps σ s) : NextKeeps σ (execPeelResume ch s) := by
  unfold execPeelResume
  repeat' (first
    | with_reducible assumption
    | with_reducible refine NextKeeps.next ?_
    | with_reducible refine State.peelResume_keeps ?_
    | with_reducible refine Keeps.ite ?_ ?_
    | split
    | intro _)

theorem execPeelDescriptorReadComplete_keeps {σ : State} {ch : Nat} {data : List Byte} {s : State} (hσ : Keeps σ s) : NextKeeps σ (execPeelDescriptorReadComplete ch data s) := by
  unfold execPeelDescriptorReadComplete
  repeat' (first
    | with_reducible assumption
    | with_reducible refine NextKeeps.next ?_
    | with_reducible refine State.dropReq_keeps ?_
    | with_reducible refine State.modPeel_keeps ?_
    | with_reducible refine State.offerPeel_keeps ?_
    | with_reducible refine State.pumpReads_keeps ?_
    | with_reducible refine State.stopPeel_keeps ?_
    | with_reducible refine Keeps.ite ?_ ?_
    | (extract_lets -underBinder +onlyGivenNames z
       first | (refine (fun hz : Keeps σ z => ?_) ?_; on_goal 1 => clear_value z
                on_goal 2 => (unfold z; clear z))
             | (refine (fun hz : Keeps σ z.2 => ?_) ?_; on_goal 1 => clear_value z
                on_goal 2 => (unfold z; clear z))
             | clear_value z)
    | split
    | intro _)

theorem execPeelPollInterval_keeps {σ : State} {ch : Nat} {s : State} (hσ : Keeps σ s) : NextKeeps σ (execPeelPollInterval ch s) := by
  unfold execPeelPollInterval
  repeat' (first
    | with_reducible assumption
    | with_reducible refine NextKeeps.next ?_
    | with_reducible refine State.fetchDesc_keeps ?_
    | with_reducible refine Keeps.ite ?_ ?_
    | split
    | intro _)

theorem execPeelDescriptorAccept_keeps {σ : State} {ch : Nat} {s : State} (hσ : Keeps σ s) : NextKeeps σ (execPeelDescriptorAccept ch s) := by
  unfold execPeelDescriptorAccept
  repeat' (first
    | with_reducible assumption
    | with_reducible refine NextKeeps.next ?_
    | with_reducible refine State.acceptPeel_keeps ?_
    | with_reducible refine State.ingestTurn_keeps ?_ (by with_reducible assumption)
    | with_reducible refine State.modHost_keeps ?_
    | with_reducible refine Keeps.ite ?_ ?_
    | (extract_lets -underBinder +onlyGivenNames z
       first | (refine (fun hz : Keeps σ z => ?_) ?_; on_goal 1 => clear_value z
                on_goal 2 => (unfold z; clear z))
             | clear_value z)
    | split
    | intro _)

theorem execPeelSourceReadComplete_keeps {σ : State} {ch stamp off : Nat} {data : List Byte} {s : State} (hσ : Keeps σ s) : NextKeeps σ (execPeelSourceReadComplete ch stamp off data s) := by
  unfold execPeelSourceReadComplete
  repeat' (first
    | with_reducible assumption
    | with_reducible refine NextKeeps.next ?_
    | with_reducible refine State.dropReq_keeps ?_
    | with_reducible refine State.modPeel_keeps ?_
    | with_reducible refine State.placeBlocks_keeps ?_
    | with_reducible refine State.pumpPeel_keeps ?_
    | with_reducible refine State.pumpReads_keeps ?_
    | with_reducible refine State.settle_keeps ?_
    | with_reducible refine Keeps.ite ?_ ?_
    | (extract_lets -underBinder +onlyGivenNames z
       first | (refine (fun hz : Keeps σ z => ?_) ?_; on_goal 1 => clear_value z
                on_goal 2 => (unfold z; clear z))
             | (refine (fun hz : Keeps σ z.2 => ?_) ?_; on_goal 1 => clear_value z
                on_goal 2 => (unfold z; clear z))
             | clear_value z)
    | split
    | intro _)

theorem execPeelRetirement_keeps {σ : State} {ch : Nat} {s : State} (hσ : Keeps σ s) : NextKeeps σ (execPeelRetirement ch s) := by
  unfold execPeelRetirement
  repeat' (first
    | with_reducible assumption
    | with_reducible refine State.retireCtx_keeps ?_
    | with_reducible refine NextKeeps.next ?_
    | with_reducible refine State.afterRetire_keeps ?_
    | with_reducible refine State.hostWrite_keeps ?_
    | with_reducible refine State.modPeel_keeps ?_
    | with_reducible refine State.pumpPeel_keeps ?_
    | with_reducible refine Keeps.ite ?_ ?_
    | (extract_lets -underBinder +onlyGivenNames z
       first | (refine (fun hz : Keeps σ z => ?_) ?_; on_goal 1 => clear_value z
                on_goal 2 => (unfold z; clear z))
             | clear_value z)
    | split
    | intro _)

theorem execPushLease_keeps {σ : State} {slot : Nat} {s : State} (hσ : Keeps σ s) : NextKeeps σ (execPushLease slot s) := by
  unfold execPushLease
  repeat' (first
    | with_reducible assumption
    | with_reducible refine NextKeeps.next ?_
    | with_reducible refine State.readLease_keeps ?_
    | with_reducible refine State.send_keeps ?_
    | with_reducible refine Keeps.ite ?_ ?_
    | (extract_lets -underBinder +onlyGivenNames z
       first | (refine (fun hz : Keeps σ z => ?_) ?_; on_goal 1 => clear_value z
                on_goal 2 => (unfold z; clear z))
             | (refine (fun hz : Keeps σ z.2 => ?_) ?_; on_goal 1 => clear_value z
                on_goal 2 => (unfold z; clear z))
             | clear_value z)
    | split
    | intro _)

theorem execApertureWrite_keeps {σ : State} {handle off : Nat} {data : List (Option Byte)} {s : State} (hσ : Keeps σ s) : NextKeeps σ (execApertureWrite handle off data s) := by
  unfold execApertureWrite
  repeat' (first
    | with_reducible assumption
    | with_reducible refine NextKeeps.next ?_
    | with_reducible refine State.apertureWrite_keeps ?_
    | with_reducible refine Keeps.ite ?_ ?_
    | split
    | intro _)

theorem execLeaseExpiry_keeps {σ : State} {handle : Nat} {s : State} (hσ : Keeps σ s) : NextKeeps σ (execLeaseExpiry handle s) := by
  unfold execLeaseExpiry
  repeat' (first
    | with_reducible assumption
    | with_reducible refine NextKeeps.next ?_
    | with_reducible refine State.endLease_keeps ?_
    | with_reducible refine State.reach_keeps ?_
    | split
    | intro _)

theorem execSlotResume_keeps {σ : State} {slot : Nat} {s : State} (hσ : Keeps σ s) : NextKeeps σ (execSlotResume slot s) := by
  unfold execSlotResume
  repeat' (first
    | with_reducible assumption
    | with_reducible refine NextKeeps.next ?_
    | with_reducible refine State.slotResume_keeps ?_
    | with_reducible refine Keeps.ite ?_ ?_
    | split
    | intro _)

theorem execSlotReleaseAll_keeps {σ : State} {slot : Nat} {s : State} (hσ : Keeps σ s) : NextKeeps σ (execSlotReleaseAll slot s) := by
  unfold execSlotReleaseAll
  repeat' (first
    | with_reducible assumption
    | with_reducible refine NextKeeps.next ?_
    | with_reducible refine State.slotRelease_keeps ?_
    | with_reducible refine Keeps.ite ?_ ?_
    | split
    | intro _)

theorem execCommitRecordAccept_keeps {σ : State} {slot : Nat} {s : State} (hσ : Keeps σ s) : NextKeeps σ (execCommitRecordAccept slot s) := by
  unfold execCommitRecordAccept
  repeat' (first
    | with_reducible assumption
    | with_reducible refine Keeps.optMap ?_ ?_
    | with_reducible refine Keeps.optGet ?_ ?_
    | with_reducible refine Keeps.optElim ?_ ?_
    | with_reducible refine NextKeeps.next ?_
    | with_reducible refine Keeps.foldl ?_ ?_
    | with_reducible refine Keeps.foldlP ?_ ?_
    | with_reducible refine Keeps.foldlQ ?_ ?_
    | with_reducible refine State.ingestTurn_keeps ?_ (by with_reducible assumption)
    | with_reducible refine State.modHost_keeps ?_
    | with_reducible refine State.modSlot_keeps ?_
    | with_reducible refine State.offerSlot_keeps ?_
    | with_reducible refine State.stampIngest_keeps ?_
    | with_reducible refine State.withdraw_keeps ?_
    | with_reducible refine Keeps.ite ?_ ?_
    | (extract_lets -underBinder +onlyGivenNames z
       first | (refine (fun hz : Keeps σ z => ?_) ?_; on_goal 1 => clear_value z
                on_goal 2 => (unfold z; clear z))
             | (refine (fun hz : Keeps σ z.2 => ?_) ?_; on_goal 1 => clear_value z
                on_goal 2 => (unfold z; clear z))
             | (refine (fun hz : Keeps σ z.1 => ?_) ?_; on_goal 1 => clear_value z
                on_goal 2 => (unfold z; clear z))
             | clear_value z)
    | split
    | intro _)

theorem execCommitRetirement_keeps {σ : State} {slot : Nat} {s : State} (hσ : Keeps σ s) : NextKeeps σ (execCommitRetirement slot s) := by
  unfold execCommitRetirement
  repeat' (first
    | with_reducible assumption
    | with_reducible refine State.retireCtx_keeps ?_
    | with_reducible refine NextKeeps.next ?_
    | with_reducible refine State.hostWrite_keeps ?_
    | with_reducible refine State.modSlot_keeps ?_
    | with_reducible refine State.withdraw_keeps ?_
    | with_reducible refine Keeps.ite ?_ ?_
    | (extract_lets -underBinder +onlyGivenNames z
       first | (refine (fun hz : Keeps σ z => ?_) ?_; on_goal 1 => clear_value z
                on_goal 2 => (unfold z; clear z))
             | clear_value z)
    | split
    | intro _)

theorem execPushCommit_keeps {σ : State} {slot off : Nat} {data : List Byte} {s : State} (hσ : Keeps σ s) : NextKeeps σ (execPushCommit slot off data s) := by
  unfold execPushCommit
  repeat' (first
    | with_reducible assumption
    | with_reducible refine NextKeeps.next ?_
    | with_reducible refine State.winWrite_keeps ?_
    | with_reducible refine Keeps.ite ?_ ?_
    | split
    | intro _)

theorem execHardwareFaultDetected_keeps {σ : State} {id : Nat} {detail : List Nat} {s : State} (hσ : Keeps σ s) : NextKeeps σ (execHardwareFaultDetected id detail s) := by
  unfold execHardwareFaultDetected
  repeat' (first
    | with_reducible assumption
    | with_reducible refine NextKeeps.next ?_
    | with_reducible refine State.aerCorrectable_keeps ?_
    | with_reducible refine State.aerUncorrectable_keeps ?_
    | with_reducible refine State.fault_keeps ?_
    | with_reducible refine State.modFlt_keeps ?_
    | with_reducible refine Keeps.ite ?_ ?_
    | (extract_lets -underBinder +onlyGivenNames z
       first | (refine (fun hz : Keeps σ z => ?_) ?_; on_goal 1 => clear_value z
                on_goal 2 => (unfold z; clear z))
             | clear_value z)
    | split
    | intro _)

theorem execCorrectedSuppressionSecond_keeps {σ s : State} (hσ : Keeps σ s) : NextKeeps σ (execCorrectedSuppressionSecond s) := by
  unfold execCorrectedSuppressionSecond
  repeat' (first
    | with_reducible assumption
    | with_reducible refine NextKeeps.next ?_
    | with_reducible refine Keeps.foldl ?_ ?_
    | with_reducible refine Keeps.foldlP ?_ ?_
    | with_reducible refine Keeps.foldlQ ?_ ?_
    | with_reducible refine State.modSrc_keeps ?_
    | with_reducible refine State.note_keeps ?_
    | with_reducible refine State.reach_keeps ?_
    | with_reducible refine Keeps.ite ?_ ?_
    | (extract_lets -underBinder +onlyGivenNames z
       first | (refine (fun hz : Keeps σ z => ?_) ?_; on_goal 1 => clear_value z
                on_goal 2 => (unfold z; clear z))
             | (refine (fun hz : Keeps σ z.2 => ?_) ?_; on_goal 1 => clear_value z
                on_goal 2 => (unfold z; clear z))
             | (refine (fun hz : Keeps σ z.1 => ?_) ?_; on_goal 1 => clear_value z
                on_goal 2 => (unfold z; clear z))
             | clear_value z)
    | split
    | intro _)

theorem execReactionTimerExpiry_keeps {σ : State} {id : Nat} {s : State} (hσ : Keeps σ s) : NextKeeps σ (execReactionTimerExpiry id s) := by
  unfold execReactionTimerExpiry
  repeat' (first
    | with_reducible assumption
    | with_reducible refine NextKeeps.next ?_
    | with_reducible refine State.fatal_keeps ?_
    | with_reducible refine State.faultRecord_keeps ?_
    | with_reducible refine State.reach_keeps ?_
    | with_reducible refine Keeps.ite ?_ ?_
    | (extract_lets -underBinder +onlyGivenNames z
       first | (refine (fun hz : Keeps σ z => ?_) ?_; on_goal 1 => clear_value z
                on_goal 2 => (unfold z; clear z))
             | clear_value z)
    | split
    | intro _)

theorem execFaultAck_keeps {σ : State} {id : Nat} {cleared : Bool} {s : State} (hσ : Keeps σ s) : NextKeeps σ (execFaultAck id cleared s) := by
  unfold execFaultAck
  repeat' (first
    | with_reducible assumption
    | with_reducible refine NextKeeps.next ?_
    | with_reducible refine State.driveFaultN_keeps ?_
    | with_reducible refine State.fenceActuator_keeps ?_
    | with_reducible refine State.modSrc_keeps ?_
    | with_reducible refine Keeps.ite ?_ ?_
    | (extract_lets -underBinder +onlyGivenNames z
       first | (refine (fun hz : Keeps σ z => ?_) ?_; on_goal 1 => clear_value z
                on_goal 2 => (unfold z; clear z))
             | clear_value z)
    | split
    | intro _)

theorem execHeartbeatWrite_keeps {σ : State} {core : Nat} {s : State} (hσ : Keeps σ s) : NextKeeps σ (execHeartbeatWrite core s) := by
  unfold execHeartbeatWrite
  repeat' (first
    | with_reducible assumption
    | with_reducible refine NextKeeps.next ?_
    | with_reducible refine State.modFlt_keeps ?_
    | with_reducible refine Keeps.ite ?_ ?_
    | split
    | intro _)

theorem execHeartbeatMissed_keeps {σ : State} {core : Nat} {s : State} (hσ : Keeps σ s) : NextKeeps σ (execHeartbeatMissed core s) := by
  unfold execHeartbeatMissed
  repeat' (first
    | with_reducible assumption
    | with_reducible refine NextKeeps.next ?_
    | with_reducible refine State.fault_keeps ?_
    | with_reducible refine State.modFlt_keeps ?_
    | with_reducible refine State.reach_keeps ?_
    | with_reducible refine Keeps.ite ?_ ?_
    | (extract_lets -underBinder +onlyGivenNames z
       first | (refine (fun hz : Keeps σ z => ?_) ?_; on_goal 1 => clear_value z
                on_goal 2 => (unfold z; clear z))
             | clear_value z)
    | split
    | intro _)

theorem execForceBitWrite_keeps {σ : State} {id : Nat} {v : Bool} {s : State} (hσ : Keeps σ s) : NextKeeps σ (execForceBitWrite id v s) := by
  unfold execForceBitWrite
  repeat' (first
    | with_reducible assumption
    | with_reducible refine NextKeeps.next ?_
    | with_reducible refine State.setForce_keeps ?_
    | intro _)

theorem execMirrorPageProgram_keeps {σ : State} {good : Bool} {s : State} (hσ : Keeps σ s) : NextKeeps σ (execMirrorPageProgram good s) := by
  unfold execMirrorPageProgram
  repeat' (first
    | with_reducible assumption
    | with_reducible refine NextKeeps.next ?_
    | with_reducible refine Keeps.foldl ?_ ?_
    | with_reducible refine State.fault_keeps ?_
    | with_reducible refine State.mirrorPage_keeps ?_
    | with_reducible refine State.reach_keeps ?_
    | with_reducible refine Keeps.ite ?_ ?_
    | (extract_lets -underBinder +onlyGivenNames z
       first | (refine (fun hz : Keeps σ z => ?_) ?_; on_goal 1 => clear_value z
                on_goal 2 => (unfold z; clear z))
             | clear_value z)
    | split
    | intro _)

theorem execSafeStateFlashDone_keeps {σ s : State} (hσ : Keeps σ s) : NextKeeps σ (execSafeStateFlashDone s) := by
  unfold execSafeStateFlashDone
  repeat' (first
    | with_reducible assumption
    | with_reducible refine NextKeeps.next ?_
    | with_reducible refine Keeps.foldl ?_ ?_
    | with_reducible refine Keeps.foldlP ?_ ?_
    | with_reducible refine Keeps.foldlQ ?_ ?_
    | with_reducible refine State.complete_keeps ?_
    | with_reducible refine State.drainJournal_keeps ?_
    | with_reducible refine State.dropFlows_keeps ?_
    | with_reducible refine State.mirrorPage_keeps ?_
    | with_reducible refine State.modFlashIf_keeps ?_
    | with_reducible refine State.modFlt_keeps ?_
    | with_reducible refine State.modMedia_keeps ?_
    | with_reducible refine State.revertActivation_keeps ?_
    | with_reducible refine Keeps.ite ?_ ?_
    | (extract_lets -underBinder +onlyGivenNames z
       first | (refine (fun hz : Keeps σ z => ?_) ?_; on_goal 1 => clear_value z
                on_goal 2 => (unfold z; clear z))
             | (refine (fun hz : Keeps σ z.2 => ?_) ?_; on_goal 1 => clear_value z
                on_goal 2 => (unfold z; clear z))
             | (refine (fun hz : Keeps σ z.1 => ?_) ?_; on_goal 1 => clear_value z
                on_goal 2 => (unfold z; clear z))
             | clear_value z)
    | split
    | intro _)

theorem execQuietPeriodExpiry_keeps {σ s : State} (hσ : Keeps σ s) : NextKeeps σ (execQuietPeriodExpiry s) := by
  unfold execQuietPeriodExpiry
  repeat' (first
    | with_reducible assumption
    | with_reducible refine NextKeeps.next ?_
    | with_reducible refine State.modFlt_keeps ?_
    | with_reducible refine State.reach_keeps ?_
    | with_reducible refine Keeps.ite ?_ ?_
    | split
    | intro _)

theorem execSafeStateRecoveryEnd_keeps {σ : State} {failed : List Nat} {lost : List (Nat × Nat)} {s : State} (hσ : Keeps σ s) : NextKeeps σ (execSafeStateRecoveryEnd failed lost s) := by
  unfold execSafeStateRecoveryEnd
  repeat' (first
    | with_reducible assumption
    | with_reducible refine Keeps.optMap ?_ ?_
    | with_reducible refine Keeps.optGet ?_ ?_
    | with_reducible refine Keeps.optElim ?_ ?_
    | with_reducible refine NextKeeps.next ?_
    | with_reducible refine State.afterMount_keeps ?_
    | with_reducible refine State.becomeReady_keeps ?_
    | with_reducible refine State.driveFaultN_keeps ?_
    | with_reducible refine State.modFlashIf_keeps ?_
    | with_reducible refine State.modFlt_keeps ?_
    | with_reducible refine State.modLink_keeps ?_
    | with_reducible refine State.modMap_keeps ?_
    | with_reducible refine State.modMedia_keeps ?_
    | with_reducible refine State.mountFrom_keeps ?_
    | with_reducible refine State.note_keeps ?_
    | with_reducible refine State.peelReset_keeps ?_
    | with_reducible refine State.pushReset_keeps ?_
    | with_reducible refine State.reloadSeqs_keeps ?_
    | with_reducible refine State.settle_keeps ?_
    | with_reducible refine Keeps.ite ?_ ?_
    | (extract_lets -underBinder +onlyGivenNames z
       first | (refine (fun hz : Keeps σ z => ?_) ?_; on_goal 1 => clear_value z
                on_goal 2 => (unfold z; clear z))
             | (refine (fun hz : Keeps σ z.2 => ?_) ?_; on_goal 1 => clear_value z
                on_goal 2 => (unfold z; clear z))
             | (refine (fun hz : Keeps σ z.1 => ?_) ?_; on_goal 1 => clear_value z
                on_goal 2 => (unfold z; clear z))
             | clear_value z)
    | split
    | intro _)

theorem execFabricBlockReceive_keeps {σ : State} {src dst blk flow id lcn : Nat} {good : Bool} {s : State} (hσ : Keeps σ s) : NextKeeps σ (execFabricBlockReceive src dst blk flow id lcn good s) := by
  unfold execFabricBlockReceive
  repeat' (first
    | with_reducible assumption
    | with_reducible refine Keeps.optMap ?_ ?_
    | with_reducible refine Keeps.optGet ?_ ?_
    | with_reducible refine Keeps.optElim ?_ ?_
    | with_reducible refine NextKeeps.next ?_
    | with_reducible refine State.fabricLost_keeps ?_
    | with_reducible refine State.fault_keeps ?_
    | with_reducible refine State.fencePort_keeps ?_
    | with_reducible refine State.modFab_keeps ?_
    | with_reducible refine Keeps.ite ?_ ?_
    | (extract_lets -underBinder +onlyGivenNames z
       first | (refine (fun hz : Keeps σ z => ?_) ?_; on_goal 1 => clear_value z
                on_goal 2 => (unfold z; clear z))
             | clear_value z)
    | split
    | intro _)

theorem execUnitRelease_keeps {σ : State} {kind n : Nat} {s : State} (hσ : Keeps σ s) : NextKeeps σ (execUnitRelease kind n s) := by
  unfold execUnitRelease
  repeat' (first
    | with_reducible assumption
    | with_reducible refine NextKeeps.next ?_
    | with_reducible refine State.loadSeqs_keeps ?_
    | with_reducible refine State.modPlace_keeps ?_
    | with_reducible refine State.modServo_keeps ?_
    | with_reducible refine State.note_keeps ?_
    | with_reducible refine State.placeWaiting_keeps ?_
    | with_reducible refine State.unfence_keeps ?_
    | with_reducible refine Keeps.ite ?_ ?_
    | (extract_lets -underBinder +onlyGivenNames z
       first | (refine (fun hz : Keeps σ z => ?_) ?_; on_goal 1 => clear_value z
                on_goal 2 => (unfold z; clear z))
             | (refine (fun hz : Keeps σ z.2 => ?_) ?_; on_goal 1 => clear_value z
                on_goal 2 => (unfold z; clear z))
             | (refine (fun hz : Keeps σ z.1 => ?_) ?_; on_goal 1 => clear_value z
                on_goal 2 => (unfold z; clear z))
             | clear_value z)
    | split
    | intro _)

theorem execActuatorUnlockTimeout_keeps {σ : State} {act : Nat} {s : State} (hσ : Keeps σ s) : NextKeeps σ (execActuatorUnlockTimeout act s) := by
  unfold execActuatorUnlockTimeout
  repeat' (first
    | with_reducible assumption
    | with_reducible refine NextKeeps.next ?_
    | with_reducible refine State.fenceActuator_keeps ?_
    | with_reducible refine State.reach_keeps ?_
    | with_reducible refine State.reacquire_keeps ?_
    | with_reducible refine Keeps.ite ?_ ?_
    | (extract_lets -underBinder +onlyGivenNames z
       first | (refine (fun hz : Keeps σ z => ?_) ?_; on_goal 1 => clear_value z
                on_goal 2 => (unfold z; clear z))
             | clear_value z)
    | split
    | intro _)

end Sys2Proof.Machine
end

