-- ==== Sys2Proof/Laws/KeepsBoardCmds.lean ====
section
/-!
SUPPORT. One lemma per command about `Keeps` (Safety): that the commands of the board, of the endpoint and of the Rack mechanism undo nothing.
-/
namespace Sys2Proof.Machine
open Sys2Proof

set_option linter.unusedTactic false
set_option linter.unreachableTactic false

theorem execVinMainUndervoltage_keeps {σ : State} {vin : Nat} {s : State} (hσ : Keeps σ s) : NextKeeps σ (execVinMainUndervoltage vin s) := by
  unfold execVinMainUndervoltage
  repeat' (first
    | with_reducible assumption
    | with_reducible refine NextKeeps.next ?_
    | with_reducible refine State.modPwr_keeps ?_ ?_
    | with_reducible refine State.powerFail_keeps ?_
    | with_reducible exact fun _ => ⟨rfl, rfl⟩
    | with_reducible exact fun _ => rfl
    | (intro x; try dsimp only; repeat' split) <;> with_reducible first | rfl | exact ⟨rfl, rfl⟩
    | with_reducible refine Keeps.ite ?_ ?_
    | split
    | intro _)

theorem execPowerLossSequenceEnd_keeps {σ : State} {dur vend : Nat} {s : State} (hσ : Keeps σ s) : NextKeeps σ (execPowerLossSequenceEnd dur vend s) := by
  unfold execPowerLossSequenceEnd
  repeat' (first
    | with_reducible assumption
    | with_reducible refine NextKeeps.next ?_
    | with_reducible refine State.controllerLost_keeps ?_
    | with_reducible refine State.reach_keeps ?_
    | with_reducible refine Keeps.ite ?_ ?_
    | (extract_lets -underBinder +onlyGivenNames z
       first | (refine (fun hz : Keeps σ z => ?_) ?_; on_goal 1 => clear_value z
                on_goal 2 => (unfold z; clear z))
             | clear_value z)
    | split
    | intro _)

theorem execVinBkupBrownOut_keeps {σ : State} {dur vend : Nat} {steps : BitVec 6} {s : State} (hσ : Keeps σ s) : NextKeeps σ (execVinBkupBrownOut dur vend steps s) := by
  unfold execVinBkupBrownOut
  repeat' (first
    | with_reducible assumption
    | with_reducible refine NextKeeps.next ?_
    | with_reducible refine State.controllerLost_keeps ?_
    | with_reducible refine State.reach_keeps ?_
    | with_reducible refine Keeps.ite ?_ ?_
    | (extract_lets -underBinder +onlyGivenNames z
       first | (refine (fun hz : Keeps σ z => ?_) ?_; on_goal 1 => clear_value z
                on_goal 2 => (unfold z; clear z))
             | clear_value z)
    | split
    | intro _)

theorem execPowerUpSequence_keeps {σ : State} {vin vb : Nat} {failed : Option Nat} {cold : Bool} {s : State} (hσ : Keeps σ s) : NextKeeps σ (execPowerUpSequence vin vb failed cold s) := by
  unfold execPowerUpSequence
  repeat' (first
    | with_reducible assumption
    | with_reducible refine NextKeeps.next ?_
    | with_reducible refine State.aonLost_keeps ?_
    | with_reducible refine State.mainAt_keeps ?_
    | with_reducible refine State.modPwr_keeps ?_ ?_
    | with_reducible refine State.ramp_keeps ?_
    | with_reducible exact fun _ => ⟨rfl, rfl⟩
    | with_reducible exact fun _ => rfl
    | (intro x; try dsimp only; repeat' split) <;> with_reducible first | rfl | exact ⟨rfl, rfl⟩
    | with_reducible refine Keeps.ite ?_ ?_
    | (extract_lets -underBinder +onlyGivenNames z
       first | (refine (fun hz : Keeps σ z => ?_) ?_; on_goal 1 => clear_value z
                on_goal 2 => (unfold z; clear z))
             | clear_value z)
    | split
    | intro _)

theorem execRailRetryTimeout_keeps {σ : State} {failed : Option Nat} {s : State} (hσ : Keeps σ s) : NextKeeps σ (execRailRetryTimeout failed s) := by
  unfold execRailRetryTimeout
  repeat' (first
    | with_reducible assumption
    | with_reducible refine NextKeeps.next ?_
    | with_reducible refine State.ramp_keeps ?_
    | with_reducible refine State.reach_keeps ?_
    | with_reducible refine Keeps.ite ?_ ?_
    | split
    | intro _)

theorem execSysrstNLow_keeps {σ s : State} (hσ : Keeps σ s) : NextKeeps σ (execSysrstNLow s) := by
  unfold execSysrstNLow
  repeat' (first
    | with_reducible assumption
    | with_reducible refine NextKeeps.next ?_
    | with_reducible refine State.modPins_keeps ?_
    | with_reducible refine State.powerFail_keeps ?_
    | intro _)

theorem execSysrstNRelease_keeps {σ s : State} (hσ : Keeps σ s) : NextKeeps σ (execSysrstNRelease s) := by
  unfold execSysrstNRelease
  repeat' (first
    | with_reducible assumption
    | with_reducible refine NextKeeps.next ?_
    | with_reducible refine State.modPins_keeps ?_
    | with_reducible refine Keeps.ite ?_ ?_
    | split
    | intro _)

theorem execRailOutOfRegulation_keeps {σ : State} {rail : Nat} {long : Bool} {s : State} (hσ : Keeps σ s) : NextKeeps σ (execRailOutOfRegulation rail long s) := by
  unfold execRailOutOfRegulation
  repeat' (first
    | with_reducible assumption
    | with_reducible refine NextKeeps.next ?_
    | with_reducible refine State.fault_keeps ?_
    | with_reducible refine State.modPins_keeps ?_
    | with_reducible refine State.powerFail_keeps ?_
    | with_reducible refine State.reach_keeps ?_
    | with_reducible refine Keeps.ite ?_ ?_
    | (extract_lets -underBinder +onlyGivenNames z
       first | (refine (fun hz : Keeps σ z => ?_) ?_; on_goal 1 => clear_value z
                on_goal 2 => (unfold z; clear z))
             | clear_value z)
    | split
    | intro _)

theorem execCrystalStopped_keeps {σ s : State} (hσ : Keeps σ s) : NextKeeps σ (execCrystalStopped s) := by
  unfold execCrystalStopped
  repeat' (first
    | with_reducible assumption
    | with_reducible refine NextKeeps.next ?_
    | with_reducible refine State.fatal_keeps ?_
    | with_reducible refine State.fault_keeps ?_
    | with_reducible refine State.modPwr_keeps ?_ ?_
    | with_reducible exact fun _ => ⟨rfl, rfl⟩
    | with_reducible exact fun _ => rfl
    | (intro x; try dsimp only; repeat' split) <;> with_reducible first | rfl | exact ⟨rfl, rfl⟩
    | with_reducible refine Keeps.ite ?_ ?_
    | (extract_lets -underBinder +onlyGivenNames z
       first | (refine (fun hz : Keeps σ z => ?_) ?_; on_goal 1 => clear_value z
                on_goal 2 => (unfold z; clear z))
             | clear_value z)
    | split
    | intro _)

theorem execVinOvervoltage_keeps {σ : State} {bkup : Bool} {mv : Nat} {s : State} (hσ : Keeps σ s) : NextKeeps σ (execVinOvervoltage bkup mv s) := by
  unfold execVinOvervoltage
  repeat' (first
    | with_reducible assumption
    | with_reducible refine NextKeeps.next ?_
    | with_reducible refine State.fault_keeps ?_
    | with_reducible refine State.modPins_keeps ?_
    | with_reducible refine State.modPwr_keeps ?_ ?_
    | with_reducible refine State.toLowv_keeps ?_
    | with_reducible exact fun _ => ⟨rfl, rfl⟩
    | with_reducible exact fun _ => rfl
    | (intro x; try dsimp only; repeat' split) <;> with_reducible first | rfl | exact ⟨rfl, rfl⟩
    | with_reducible refine Keeps.ite ?_ ?_
    | (extract_lets -underBinder +onlyGivenNames z
       first | (refine (fun hz : Keeps σ z => ?_) ?_; on_goal 1 => clear_value z
                on_goal 2 => (unfold z; clear z))
             | clear_value z)
    | split
    | intro _)

theorem execVinOvervoltageCleared_keeps {σ : State} {mv : Nat} {s : State} (hσ : Keeps σ s) : NextKeeps σ (execVinOvervoltageCleared mv s) := by
  unfold execVinOvervoltageCleared
  repeat' (first
    | with_reducible assumption
    | with_reducible refine NextKeeps.next ?_
    | with_reducible refine State.leaveLowv_keeps ?_
    | with_reducible refine State.modPins_keeps ?_
    | with_reducible refine State.modPwr_keeps ?_ ?_
    | with_reducible exact fun _ => ⟨rfl, rfl⟩
    | with_reducible exact fun _ => rfl
    | (intro x; try dsimp only; repeat' split) <;> with_reducible first | rfl | exact ⟨rfl, rfl⟩
    | with_reducible refine Keeps.ite ?_ ?_
    | (extract_lets -underBinder +onlyGivenNames z
       first | (refine (fun hz : Keeps σ z => ?_) ?_; on_goal 1 => clear_value z
                on_goal 2 => (unfold z; clear z))
             | clear_value z)
    | split
    | intro _)

theorem execVinMainBelowRackMinimum_keeps {σ : State} {mv : Nat} {s : State} (hσ : Keeps σ s) : NextKeeps σ (execVinMainBelowRackMinimum mv s) := by
  unfold execVinMainBelowRackMinimum
  repeat' (first
    | with_reducible assumption
    | with_reducible refine NextKeeps.next ?_
    | with_reducible refine State.modPwr_keeps ?_ ?_
    | with_reducible refine State.toLowv_keeps ?_
    | with_reducible exact fun _ => ⟨rfl, rfl⟩
    | with_reducible exact fun _ => rfl
    | (intro x; try dsimp only; repeat' split) <;> with_reducible first | rfl | exact ⟨rfl, rfl⟩
    | with_reducible refine Keeps.ite ?_ ?_
    | (extract_lets -underBinder +onlyGivenNames z
       first | (refine (fun hz : Keeps σ z => ?_) ?_; on_goal 1 => clear_value z
                on_goal 2 => (unfold z; clear z))
             | clear_value z)
    | split
    | intro _)

theorem execRackVoltageRestored_keeps {σ : State} {mv : Nat} {s : State} (hσ : Keeps σ s) : NextKeeps σ (execRackVoltageRestored mv s) := by
  unfold execRackVoltageRestored
  repeat' (first
    | with_reducible assumption
    | with_reducible refine NextKeeps.next ?_
    | with_reducible refine State.leaveLowv_keeps ?_
    | with_reducible refine State.modPwr_keeps ?_ ?_
    | with_reducible exact fun _ => ⟨rfl, rfl⟩
    | with_reducible exact fun _ => rfl
    | (intro x; try dsimp only; repeat' split) <;> with_reducible first | rfl | exact ⟨rfl, rfl⟩
    | with_reducible refine Keeps.ite ?_ ?_
    | (extract_lets -underBinder +onlyGivenNames z
       first | (refine (fun hz : Keeps σ z => ?_) ?_; on_goal 1 => clear_value z
                on_goal 2 => (unfold z; clear z))
             | clear_value z)
    | split
    | intro _)

theorem execChargeVoltageReached_keeps {σ s : State} (hσ : Keeps σ s) : NextKeeps σ (execChargeVoltageReached s) := by
  unfold execChargeVoltageReached
  repeat' (first
    | with_reducible assumption
    | with_reducible refine NextKeeps.next ?_
    | with_reducible refine State.modPwr_keeps ?_ ?_
    | with_reducible exact fun _ => ⟨rfl, rfl⟩
    | with_reducible exact fun _ => rfl
    | (intro x; try dsimp only; repeat' split) <;> with_reducible first | rfl | exact ⟨rfl, rfl⟩
    | with_reducible refine Keeps.ite ?_ ?_
    | split
    | intro _)

theorem execHoldupCheckStart_keeps {σ : State} {vb : Nat} {s : State} (hσ : Keeps σ s) : NextKeeps σ (execHoldupCheckStart vb s) := by
  unfold execHoldupCheckStart
  repeat' (first
    | with_reducible assumption
    | with_reducible refine NextKeeps.next ?_
    | with_reducible refine State.modPwr_keeps ?_ ?_
    | with_reducible refine State.reach_keeps ?_
    | with_reducible refine State.setNow_keeps ?_ ?_
    | with_reducible exact fun _ => ⟨rfl, rfl⟩
    | with_reducible exact fun _ => rfl
    | (intro x; try dsimp only; repeat' split) <;> with_reducible first | rfl | exact ⟨rfl, rfl⟩
    | omega
    | with_reducible refine Keeps.ite ?_ ?_
    | (extract_lets -underBinder +onlyGivenNames z
       first | (refine (fun hz : Keeps σ z => ?_) ?_; on_goal 1 => clear_value z
                on_goal 2 => (unfold z; clear z))
             | clear_value z)
    | split
    | intro _)

theorem execHoldupCheckEnd_keeps {σ : State} {step fall t : Nat} {s : State} (hσ : Keeps σ s) : NextKeeps σ (execHoldupCheckEnd step fall t s) := by
  unfold execHoldupCheckEnd
  repeat' (first
    | with_reducible assumption
    | with_reducible refine NextKeeps.next ?_
    | with_reducible refine State.endHold_keeps ?_
    | with_reducible refine State.fault_keeps ?_
    | with_reducible refine State.fresh_keeps ?_
    | with_reducible refine State.fresh_keeps_of ?_ (by with_reducible assumption)
    | with_reducible refine State.healthWarn_keeps ?_
    | with_reducible refine State.modPwr_keeps ?_ ?_
    | with_reducible refine State.note_keeps ?_
    | with_reducible refine State.setNow_keeps ?_ ?_
    | with_reducible refine State.warnBit_keeps ?_
    | with_reducible exact fun _ => ⟨rfl, rfl⟩
    | with_reducible exact fun _ => rfl
    | (intro x; try dsimp only; repeat' split) <;> with_reducible first | rfl | exact ⟨rfl, rfl⟩
    | omega
    | with_reducible refine Keeps.ite ?_ ?_
    | (extract_lets -underBinder +onlyGivenNames z
       first | (refine (fun hz : Keeps σ z => ?_) ?_; on_goal 1 => clear_value z
                on_goal 2 => (unfold z; clear z))
             | (refine (fun hz : Keeps σ z.2 => ?_) ?_; on_goal 1 => clear_value z
                on_goal 2 => (unfold z; clear z))
             | clear_value z)
    | split
    | intro _)

theorem execWriteHoldLimit_keeps {σ s : State} (hσ : Keeps σ s) : NextKeeps σ (execWriteHoldLimit s) := by
  unfold execWriteHoldLimit
  repeat' (first
    | with_reducible assumption
    | with_reducible refine NextKeeps.next ?_
    | with_reducible refine State.endHold_keeps ?_
    | with_reducible refine State.fault_keeps ?_
    | with_reducible refine State.reach_keeps ?_
    | with_reducible refine State.warnBit_keeps ?_
    | (extract_lets -underBinder +onlyGivenNames z
       first | (refine (fun hz : Keeps σ z => ?_) ?_; on_goal 1 => clear_value z
                on_goal 2 => (unfold z; clear z))
             | clear_value z)
    | split
    | intro _)

theorem execSetPowerManagement_keeps {σ : State} {stamp : Nat} {s : State} (hσ : Keeps σ s) : NextKeeps σ (execSetPowerManagement stamp s) := by
  unfold execSetPowerManagement
  repeat' (first
    | with_reducible assumption
    | with_reducible refine NextKeeps.next ?_
    | with_reducible refine State.complete_keeps ?_
    | with_reducible refine State.onSet_keeps ?_ ?_
    | with_reducible refine State.setPs_keeps ?_
    | with_reducible refine Keeps.ite ?_ ?_
    | (extract_lets -underBinder +onlyGivenNames z
       first | (refine (fun hz : Keeps σ z => ?_) ?_; on_goal 1 => clear_value z
                on_goal 2 => (unfold z; clear z))
             | clear_value z)
    | split
    | intro _)

theorem execGetPowerManagement_keeps {σ : State} {stamp : Nat} {s : State} (hσ : Keeps σ s) : NextKeeps σ (execGetPowerManagement stamp s) := by
  unfold execGetPowerManagement
  repeat' (first
    | with_reducible assumption
    | with_reducible refine NextKeeps.next ?_
    | with_reducible refine State.complete_keeps ?_
    | with_reducible refine State.onGet_keeps ?_ ?_
    | intro _)

theorem execBudgetGovernorTick_keeps {σ : State} {activity : List Nat} {s : State} (hσ : Keeps σ s) : NextKeeps σ (execBudgetGovernorTick activity s) := by
  unfold execBudgetGovernorTick
  repeat' (first
    | with_reducible assumption
    | with_reducible refine NextKeeps.next ?_
    | with_reducible refine Keeps.foldl ?_ ?_
    | with_reducible refine Keeps.foldlP ?_ ?_
    | with_reducible refine Keeps.foldlQ ?_ ?_
    | with_reducible refine State.governDown_keeps ?_
    | with_reducible refine State.governUp_keeps ?_
    | with_reducible refine State.modPwr_keeps ?_ ?_
    | with_reducible refine State.reach_keeps ?_
    | with_reducible exact fun _ => ⟨rfl, rfl⟩
    | with_reducible exact fun _ => rfl
    | (intro x; try dsimp only; repeat' split) <;> with_reducible first | rfl | exact ⟨rfl, rfl⟩
    | with_reducible refine Keeps.ite ?_ ?_
    | (extract_lets -underBinder +onlyGivenNames z
       first | (refine (fun hz : Keeps σ z => ?_) ?_; on_goal 1 => clear_value z
                on_goal 2 => (unfold z; clear z))
             | (refine (fun hz : Keeps σ z.2 => ?_) ?_; on_goal 1 => clear_value z
                on_goal 2 => (unfold z; clear z))
             | (refine (fun hz : Keeps σ z.1 => ?_) ?_; on_goal 1 => clear_value z
                on_goal 2 => (unfold z; clear z))
             | clear_value z)
    | split
    | intro _)

theorem execDomainIdleTimeout_keeps {σ : State} {dom : Nat} {s : State} (hσ : Keeps σ s) : NextKeeps σ (execDomainIdleTimeout dom s) := by
  unfold execDomainIdleTimeout
  repeat' (first
    | with_reducible assumption
    | with_reducible refine NextKeeps.next ?_
    | with_reducible refine State.modDram_keeps ?_
    | with_reducible refine State.modPwr_keeps ?_ ?_
    | with_reducible exact fun _ => ⟨rfl, rfl⟩
    | with_reducible exact fun _ => rfl
    | (intro x; try dsimp only; repeat' split) <;> with_reducible first | rfl | exact ⟨rfl, rfl⟩
    | with_reducible refine Keeps.ite ?_ ?_
    | (extract_lets -underBinder +onlyGivenNames z
       first | (refine (fun hz : Keeps σ z => ?_) ?_; on_goal 1 => clear_value z
                on_goal 2 => (unfold z; clear z))
             | clear_value z)
    | split
    | intro _)

theorem execDomainWake_keeps {σ : State} {dom : Nat} {s : State} (hσ : Keeps σ s) : NextKeeps σ (execDomainWake dom s) := by
  unfold execDomainWake
  repeat' (first
    | with_reducible assumption
    | with_reducible refine NextKeeps.next ?_
    | with_reducible refine State.modFlashIf_keeps ?_
    | with_reducible refine State.modPwr_keeps ?_ ?_
    | with_reducible refine State.setNow_keeps ?_ ?_
    | with_reducible exact fun _ => ⟨rfl, rfl⟩
    | with_reducible exact fun _ => rfl
    | (intro x; try dsimp only; repeat' split) <;> with_reducible first | rfl | exact ⟨rfl, rfl⟩
    | omega
    | with_reducible refine Keeps.ite ?_ ?_
    | (extract_lets -underBinder +onlyGivenNames z
       first | (refine (fun hz : Keeps σ z => ?_) ?_; on_goal 1 => clear_value z
                on_goal 2 => (unfold z; clear z))
             | (refine (fun hz : Keeps σ z.2 => ?_) ?_; on_goal 1 => clear_value z
                on_goal 2 => (unfold z; clear z))
             | (refine (fun hz : Keeps σ z.1 => ?_) ?_; on_goal 1 => clear_value z
                on_goal 2 => (unfold z; clear z))
             | clear_value z)
    | split
    | intro _)

theorem execOpTransitionEnd_keeps {σ : State} {monitorsOk : Bool} {s : State} (hσ : Keeps σ s) : NextKeeps σ (execOpTransitionEnd monitorsOk s) := by
  unfold execOpTransitionEnd
  repeat' (first
    | with_reducible assumption
    | with_reducible refine NextKeeps.next ?_
    | with_reducible refine State.modPwr_keeps ?_ ?_
    | with_reducible refine State.requestOp_keeps ?_
    | with_reducible exact fun _ => ⟨rfl, rfl⟩
    | with_reducible exact fun _ => rfl
    | (intro x; try dsimp only; repeat' split) <;> with_reducible first | rfl | exact ⟨rfl, rfl⟩
    | with_reducible refine Keeps.ite ?_ ?_
    | (extract_lets -underBinder +onlyGivenNames z
       first | (refine (fun hz : Keeps σ z => ?_) ?_; on_goal 1 => clear_value z
                on_goal 2 => (unfold z; clear z))
             | clear_value z)
    | split
    | intro _)

theorem execCpmTrip_keeps {σ : State} {n : Nat} {s : State} (hσ : Keeps σ s) : NextKeeps σ (execCpmTrip n s) := by
  unfold execCpmTrip
  repeat' (first
    | with_reducible assumption
    | with_reducible refine NextKeeps.next ?_
    | with_reducible refine State.fault_keeps ?_
    | with_reducible refine State.modPwr_keeps ?_ ?_
    | with_reducible exact fun _ => ⟨rfl, rfl⟩
    | with_reducible exact fun _ => rfl
    | (intro x; try dsimp only; repeat' split) <;> with_reducible first | rfl | exact ⟨rfl, rfl⟩
    | with_reducible refine Keeps.ite ?_ ?_
    | split
    | intro _)

theorem execTemperatureSample_keeps {σ : State} {input : Nat} {reading : Option Int} {s : State} (hσ : Keeps σ s) : NextKeeps σ (execTemperatureSample input reading s) := by
  unfold execTemperatureSample
  repeat' (first
    | with_reducible assumption
    | with_reducible refine NextKeeps.next ?_
    | with_reducible refine State.judgeReading_keeps ?_
    | with_reducible refine State.reach_keeps ?_
    | with_reducible refine State.shutRelease_keeps ?_
    | with_reducible refine State.takeReading_keeps ?_
    | with_reducible refine Keeps.ite ?_ ?_
    | (extract_lets -underBinder +onlyGivenNames z
       first | (refine (fun hz : Keeps σ z => ?_) ?_; on_goal 1 => clear_value z
                on_goal 2 => (unfold z; clear z))
             | clear_value z)
    | split
    | intro _)

theorem execRateOfRiseEvaluation_keeps {σ s : State} (hσ : Keeps σ s) : NextKeeps σ (execRateOfRiseEvaluation s) := by
  unfold execRateOfRiseEvaluation
  repeat' (first
    | with_reducible assumption
    | with_reducible refine NextKeeps.next ?_
    | with_reducible refine Keeps.foldl ?_ ?_
    | with_reducible refine State.evalSlope_keeps ?_
    | with_reducible refine State.modTherm_keeps ?_
    | with_reducible refine State.reach_keeps ?_
    | with_reducible refine Keeps.ite ?_ ?_
    | (extract_lets -underBinder +onlyGivenNames z
       first | (refine (fun hz : Keeps σ z => ?_) ?_; on_goal 1 => clear_value z
                on_goal 2 => (unfold z; clear z))
             | clear_value z)
    | split
    | intro _)

theorem execCompositeTemperatureUpdate_keeps {σ s : State} (hσ : Keeps σ s) : NextKeeps σ (execCompositeTemperatureUpdate s) := by
  unfold execCompositeTemperatureUpdate
  repeat' (first
    | with_reducible assumption
    | with_reducible refine Keeps.optMap ?_ ?_
    | with_reducible refine Keeps.optGet ?_ ?_
    | with_reducible refine Keeps.optElim ?_ ?_
    | with_reducible refine NextKeeps.next ?_
    | with_reducible refine State.clearWarnBit_keeps ?_
    | with_reducible refine State.modTherm_keeps ?_
    | with_reducible refine State.note_keeps ?_
    | with_reducible refine State.reach_keeps ?_
    | with_reducible refine State.warnBit_keeps ?_
    | with_reducible refine Keeps.ite ?_ ?_
    | (extract_lets -underBinder +onlyGivenNames z
       first | (refine (fun hz : Keeps σ z => ?_) ?_; on_goal 1 => clear_value z
                on_goal 2 => (unfold z; clear z))
             | (refine (fun hz : Keeps σ z.2 => ?_) ?_; on_goal 1 => clear_value z
                on_goal 2 => (unfold z; clear z))
             | clear_value z)
    | split
    | intro _)

theorem execGetLogSmartHealth_keeps {σ : State} {stamp : Nat} {s : State} (hσ : Keeps σ s) : NextKeeps σ (execGetLogSmartHealth stamp s) := by
  unfold execGetLogSmartHealth
  repeat' (first
    | with_reducible assumption
    | with_reducible refine Keeps.optMap ?_ ?_
    | with_reducible refine Keeps.optGet ?_ ?_
    | with_reducible refine Keeps.optElim ?_ ?_
    | with_reducible refine NextKeeps.next ?_
    | with_reducible refine clearUnlessRae_keeps ?_
    | with_reducible refine State.drawn_keeps ?_
    | with_reducible refine State.onLog_keeps ?_ ?_
    | (extract_lets -underBinder +onlyGivenNames z
       first | (refine (fun hz : Keeps σ z => ?_) ?_; on_goal 1 => clear_value z
                on_goal 2 => (unfold z; clear z))
             | clear_value z)
    | intro _)

theorem execControllerEnable_keeps {σ : State} {cc : Dword} {s : State} (hσ : Keeps σ s) : NextKeeps σ (execControllerEnable cc s) := by
  unfold execControllerEnable
  repeat' (first
    | with_reducible assumption
    | with_reducible refine NextKeeps.next ?_
    | with_reducible refine State.writeCc_keeps ?_
    | with_reducible refine Keeps.ite ?_ ?_
    | split
    | intro _)

theorem execControllerReset_keeps {σ : State} {cc : Dword} {s : State} (hσ : Keeps σ s) : NextKeeps σ (execControllerReset cc s) := by
  unfold execControllerReset
  repeat' (first
    | with_reducible assumption
    | with_reducible refine NextKeeps.next ?_
    | with_reducible refine State.writeCc_keeps ?_
    | with_reducible refine Keeps.ite ?_ ?_
    | split
    | intro _)

theorem execShutdownNotification_keeps {σ : State} {shn : BitVec 2} {s : State} (hσ : Keeps σ s) : NextKeeps σ (execShutdownNotification shn s) := by
  unfold execShutdownNotification
  repeat' (first
    | with_reducible assumption
    | with_reducible refine NextKeeps.next ?_
    | with_reducible refine State.writeCc_keeps ?_
    | with_reducible refine Keeps.ite ?_ ?_
    | split
    | intro _)

theorem execFunctionLevelReset_keeps {σ s : State} (hσ : Keeps σ s) : NextKeeps σ (execFunctionLevelReset s) := by
  unfold execFunctionLevelReset
  repeat' (first
    | with_reducible assumption
    | with_reducible refine NextKeeps.next ?_
    | with_reducible refine State.functionReset_keeps ?_
    | with_reducible refine Keeps.ite ?_ ?_
    | split
    | intro _)

theorem execPerstNAssert_keeps {σ s : State} (hσ : Keeps σ s) : NextKeeps σ (execPerstNAssert s) := by
  unfold execPerstNAssert
  repeat' (first
    | with_reducible assumption
    | with_reducible refine NextKeeps.next ?_
    | with_reducible refine State.endpointReset_keeps ?_
    | with_reducible refine State.modPcie_keeps ?_
    | intro _)

theorem execPerstNRelease_keeps {σ s : State} (hσ : Keeps σ s) : NextKeeps σ (execPerstNRelease s) := by
  unfold execPerstNRelease
  repeat' (first
    | with_reducible assumption
    | with_reducible refine NextKeeps.next ?_
    | with_reducible refine State.modPcie_keeps ?_
    | with_reducible refine Keeps.ite ?_ ?_
    | split
    | intro _)

theorem execHotReset_keeps {σ s : State} (hσ : Keeps σ s) : NextKeeps σ (execHotReset s) := by
  unfold execHotReset
  repeat' (first
    | with_reducible assumption
    | with_reducible refine NextKeeps.next ?_
    | with_reducible refine State.endpointReset_keeps ?_
    | with_reducible refine Keeps.ite ?_ ?_
    | split
    | intro _)

theorem execLinkDown_keeps {σ s : State} (hσ : Keeps σ s) : NextKeeps σ (execLinkDown s) := by
  unfold execLinkDown
  repeat' (first
    | with_reducible assumption
    | with_reducible refine NextKeeps.next ?_
    | with_reducible refine State.endpointReset_keeps ?_
    | with_reducible refine Keeps.ite ?_ ?_
    | split
    | intro _)

theorem execRefclkLoss_keeps {σ s : State} (hσ : Keeps σ s) : NextKeeps σ (execRefclkLoss s) := by
  unfold execRefclkLoss
  repeat' (first
    | with_reducible assumption
    | with_reducible refine NextKeeps.next ?_
    | with_reducible refine State.endpointReset_keeps ?_
    | with_reducible refine State.modPcie_keeps ?_
    | with_reducible refine Keeps.ite ?_ ?_
    | (extract_lets -underBinder +onlyGivenNames z
       first | (refine (fun hz : Keeps σ z => ?_) ?_; on_goal 1 => clear_value z
                on_goal 2 => (unfold z; clear z))
             | clear_value z)
    | split
    | intro _)

theorem execRefclkReturn_keeps {σ s : State} (hσ : Keeps σ s) : NextKeeps σ (execRefclkReturn s) := by
  unfold execRefclkReturn
  repeat' (first
    | with_reducible assumption
    | with_reducible refine NextKeeps.next ?_
    | with_reducible refine State.modPcie_keeps ?_
    | intro _)

theorem execLinkTrainingEnd_keeps {σ : State} {width speed : Nat} {flit : Bool} {s : State} (hσ : Keeps σ s) : NextKeeps σ (execLinkTrainingEnd width speed flit s) := by
  unfold execLinkTrainingEnd
  repeat' (first
    | with_reducible assumption
    | with_reducible refine NextKeeps.next ?_
    | with_reducible refine State.linkAt_keeps ?_
    | with_reducible refine Keeps.ite ?_ ?_
    | split
    | intro _)

theorem execPartnerLinkChange_keeps {σ : State} {width speed : Nat} {s : State} (hσ : Keeps σ s) : NextKeeps σ (execPartnerLinkChange width speed s) := by
  unfold execPartnerLinkChange
  repeat' (first
    | with_reducible assumption
    | with_reducible refine NextKeeps.next ?_
    | with_reducible refine State.linkAt_keeps ?_
    | with_reducible refine Keeps.ite ?_ ?_
    | split
    | intro _)

theorem execAspmL1IdleTimeout_keeps {σ s : State} (hσ : Keeps σ s) : NextKeeps σ (execAspmL1IdleTimeout s) := by
  unfold execAspmL1IdleTimeout
  repeat' (first
    | with_reducible assumption
    | with_reducible refine NextKeeps.next ?_
    | with_reducible refine State.modPcie_keeps ?_
    | with_reducible refine Keeps.ite ?_ ?_
    | split
    | intro _)

theorem execL0pWidthChange_keeps {σ : State} {down : Bool} {s : State} (hσ : Keeps σ s) : NextKeeps σ (execL0pWidthChange down s) := by
  unfold execL0pWidthChange
  repeat' (first
    | with_reducible assumption
    | with_reducible refine NextKeeps.next ?_
    | with_reducible refine State.modPcie_keeps ?_
    | with_reducible refine Keeps.ite ?_ ?_
    | (extract_lets -underBinder +onlyGivenNames z
       first | (refine (fun hz : Keeps σ z => ?_) ?_; on_goal 1 => clear_value z
                on_goal 2 => (unfold z; clear z))
             | clear_value z)
    | split
    | intro _)

theorem execCompletionTimeout_keeps {σ : State} {tag : Nat} {s : State} (hσ : Keeps σ s) : NextKeeps σ (execCompletionTimeout tag s) := by
  unfold execCompletionTimeout
  repeat' (first
    | with_reducible assumption
    | with_reducible refine NextKeeps.next ?_
    | with_reducible refine State.expire_keeps ?_
    | with_reducible refine Keeps.ite ?_ ?_
    | split
    | intro _)

theorem execUnexpectedCompletion_keeps {σ : State} {tag : Nat} {s : State} (hσ : Keeps σ s) : NextKeeps σ (execUnexpectedCompletion tag s) := by
  unfold execUnexpectedCompletion
  repeat' (first
    | with_reducible assumption
    | with_reducible refine NextKeeps.next ?_
    | with_reducible refine State.unexpected_keeps ?_
    | with_reducible refine Keeps.ite ?_ ?_
    | split
    | intro _)

theorem State.headerErr_keeps {σ s : State} {n : Nat} (hσ : Keeps σ s) : Keeps σ (State.headerErr s n) := State.modPcie_keeps hσ

theorem execReadCompletionReceived_keeps {σ : State} {tag status : Nat} {s : State} (hσ : Keeps σ s) : NextKeeps σ (execReadCompletionReceived tag status s) := by
  unfold execReadCompletionReceived
  repeat' (first
    | with_reducible assumption
    | with_reducible refine NextKeeps.next ?_
    | with_reducible refine State.aerUncorrectable_keeps ?_
    | with_reducible refine State.expire_keeps ?_
    | with_reducible refine State.headerErr_keeps ?_
    | with_reducible refine State.failRead_keeps ?_
    | with_reducible refine State.modPcie_keeps ?_
    | with_reducible refine State.pumpReads_keeps ?_
    | with_reducible refine State.unexpected_keeps ?_
    | with_reducible refine Keeps.ite ?_ ?_
    | split
    | intro _)

theorem execSqFetchRetry_keeps {σ s : State} (hσ : Keeps σ s) : NextKeeps σ (execSqFetchRetry s) := by
  unfold execSqFetchRetry
  repeat' (first
    | with_reducible assumption
    | with_reducible refine NextKeeps.next ?_
    | with_reducible refine State.issueRead_keeps ?_
    | with_reducible refine State.modPcie_keeps ?_
    | with_reducible refine State.reach_keeps ?_
    | (extract_lets -underBinder +onlyGivenNames z
       first | (refine (fun hz : Keeps σ z => ?_) ?_; on_goal 1 => clear_value z
                on_goal 2 => (unfold z; clear z))
             | clear_value z)
    | split
    | intro _)

theorem execTagReuseTimeout_keeps {σ : State} {tag : Nat} {s : State} (hσ : Keeps σ s) : NextKeeps σ (execTagReuseTimeout tag s) := by
  unfold execTagReuseTimeout
  repeat' (first
    | with_reducible assumption
    | with_reducible refine NextKeeps.next ?_
    | with_reducible refine State.modPcie_keeps ?_
    | with_reducible refine State.pumpReads_keeps ?_
    | with_reducible refine State.reach_keeps ?_
    | split
    | intro _)

theorem execPoisonedWriteReceived_keeps {σ s : State} (hσ : Keeps σ s) : NextKeeps σ (execPoisonedWriteReceived s) := by
  unfold execPoisonedWriteReceived
  repeat' (first
    | with_reducible assumption
    | with_reducible refine NextKeeps.next ?_
    | with_reducible refine State.aerUncorrectable_keeps ?_
    | with_reducible refine State.modPcie_keeps ?_
    | with_reducible refine Keeps.ite ?_ ?_
    | split
    | intro _)

theorem execBusMasterEnableClear_keeps {σ s : State} (hσ : Keeps σ s) : NextKeeps σ (execBusMasterEnableClear s) := by
  unfold execBusMasterEnableClear
  repeat' (first
    | with_reducible assumption
    | with_reducible refine NextKeeps.next ?_
    | with_reducible refine State.setBusMaster_keeps ?_
    | intro _)

theorem execBusMasterEnableSet_keeps {σ s : State} (hσ : Keeps σ s) : NextKeeps σ (execBusMasterEnableSet s) := by
  unfold execBusMasterEnableSet
  repeat' (first
    | with_reducible assumption
    | with_reducible refine NextKeeps.next ?_
    | with_reducible refine State.setBusMaster_keeps ?_
    | with_reducible refine Keeps.ite ?_ ?_
    | split
    | intro _)

theorem execMsixVectorUnmask_keeps {σ : State} {v : Option Nat} {s : State} (hσ : Keeps σ s) : NextKeeps σ (execMsixVectorUnmask v s) := by
  unfold execMsixVectorUnmask
  repeat' (first
    | with_reducible assumption
    | with_reducible refine NextKeeps.next ?_
    | with_reducible refine State.unmask_keeps ?_
    | with_reducible refine Keeps.ite ?_ ?_
    | split
    | intro _)

theorem execD3hotEntry_keeps {σ s : State} (hσ : Keeps σ s) : NextKeeps σ (execD3hotEntry s) := by
  unfold execD3hotEntry
  repeat' (first
    | with_reducible assumption
    | with_reducible refine NextKeeps.next ?_
    | with_reducible refine State.enterD3_keeps ?_
    | with_reducible refine Keeps.ite ?_ ?_
    | split
    | intro _)

theorem execD0Return_keeps {σ s : State} (hσ : Keeps σ s) : NextKeeps σ (execD0Return s) := by
  unfold execD0Return
  repeat' (first
    | with_reducible assumption
    | with_reducible refine NextKeeps.next ?_
    | with_reducible refine State.leaveD3_keeps ?_
    | with_reducible refine Keeps.ite ?_ ?_
    | split
    | intro _)

theorem execJtagInstruction_keeps {σ : State} {boundary : Bool} {s : State} (hσ : Keeps σ s) : NextKeeps σ (execJtagInstruction boundary s) := by
  unfold execJtagInstruction
  repeat' (first
    | with_reducible assumption
    | with_reducible refine NextKeeps.next ?_
    | with_reducible refine State.modPins_keeps ?_
    | with_reducible refine Keeps.ite ?_ ?_
    | split
    | intro _)

theorem execConfigurationRequest_keeps {σ : State} {off : Nat} {write : Option (Nat × Nat)} {ready : Bool} {s : State} (hσ : Keeps σ s) : NextKeeps σ (execConfigurationRequest off write ready s) := by
  unfold execConfigurationRequest
  repeat' (first
    | with_reducible assumption
    | with_reducible refine NextKeeps.next ?_
    | with_reducible refine State.cfgRead_keeps ?_
    | with_reducible refine State.cfgRead_keeps_of ?_ (by with_reducible assumption)
    | with_reducible refine State.cfgWrite_keeps ?_
    | with_reducible refine State.modPcie_keeps ?_
    | with_reducible refine State.send_keeps ?_
    | with_reducible refine Keeps.ite ?_ ?_
    | (extract_lets -underBinder +onlyGivenNames z
       first | (refine (fun hz : Keeps σ z => ?_) ?_; on_goal 1 => clear_value z
                on_goal 2 => (unfold z; clear z))
             | (refine (fun hz : Keeps σ z.2 => ?_) ?_; on_goal 1 => clear_value z
                on_goal 2 => (unfold z; clear z))
             | clear_value z)
    | split
    | intro _)

theorem execInboundMemoryRequest_keeps {σ : State} {addr : Nat} {req : MemReq} {s : State} (hσ : Keeps σ s) : NextKeeps σ (execInboundMemoryRequest addr req s) := by
  unfold execInboundMemoryRequest
  repeat' (first
    | with_reducible assumption
    | with_reducible refine NextKeeps.next ?_
    | with_reducible refine Keeps.foldl ?_ ?_
    | with_reducible refine Keeps.foldlP ?_ ?_
    | with_reducible refine Keeps.foldlQ ?_ ?_
    | with_reducible refine State.bar0Write_keeps ?_
    | with_reducible refine State.bar4Write_keeps ?_
    | with_reducible refine State.modPcie_keeps ?_
    | with_reducible refine State.send_keeps ?_
    | with_reducible refine State.unsupported_keeps ?_
    | with_reducible refine State.winRead_keeps ?_
    | with_reducible refine State.winRead_keeps_of ?_ (by with_reducible assumption)
    | with_reducible refine State.readLease_keeps ?_
    | with_reducible refine State.winWrite_keeps ?_
    | with_reducible refine Keeps.ite ?_ ?_
    | (extract_lets -underBinder +onlyGivenNames z
       first | (refine (fun hz : Keeps σ z => ?_) ?_; on_goal 1 => clear_value z
                on_goal 2 => (unfold z; clear z))
             | (refine (fun hz : Keeps σ z.2 => ?_) ?_; on_goal 1 => clear_value z
                on_goal 2 => (unfold z; clear z))
             | (refine (fun hz : Keeps σ z.1 => ?_) ?_; on_goal 1 => clear_value z
                on_goal 2 => (unfold z; clear z))
             | clear_value z)
    | split
    | intro _)

theorem execRegisterWrite_keeps {σ : State} {block : RegBlock} {core off v : Nat} {s : State} (hσ : Keeps σ s) : NextKeeps σ (execRegisterWrite block core off v s) := by
  unfold execRegisterWrite
  repeat' (first
    | with_reducible assumption
    | with_reducible refine NextKeeps.next ?_
    | with_reducible refine State.bar0Write_keeps ?_
    | with_reducible refine State.collectorWrite_keeps ?_
    | with_reducible refine State.modDram_keeps ?_
    | with_reducible refine State.modSeqs_keeps ?_
    | with_reducible refine State.ospiWrite_keeps ?_
    | with_reducible refine State.poolWrite_keeps ?_
    | with_reducible refine State.servoWrite_keeps ?_
    | with_reducible refine State.winWrite_keeps ?_
    | with_reducible refine Keeps.ite ?_ ?_
    | split
    | intro _)

theorem execMiReadDataStructure_keeps {σ : State} {tag dtyp port : Nat} {s : State} (hσ : Keeps σ s) : NextKeeps σ (execMiReadDataStructure tag dtyp port s) := by
  unfold execMiReadDataStructure
  repeat' (first
    | with_reducible assumption
    | with_reducible refine NextKeeps.next ?_
    | with_reducible refine State.fresh_keeps ?_
    | with_reducible refine State.fresh_keeps_of ?_ (by with_reducible assumption)
    | with_reducible refine State.miAnswer_keeps ?_
    | with_reducible refine State.send_keeps ?_
    | with_reducible refine Keeps.ite ?_ ?_
    | (extract_lets -underBinder +onlyGivenNames z
       first | (refine (fun hz : Keeps σ z => ?_) ?_; on_goal 1 => clear_value z
                on_goal 2 => (unfold z; clear z))
             | (refine (fun hz : Keeps σ z.2 => ?_) ?_; on_goal 1 => clear_value z
                on_goal 2 => (unfold z; clear z))
             | clear_value z)
    | split
    | intro _)

theorem execMiSubsystemHealthPoll_keeps {σ : State} {tag : Nat} {s : State} (hσ : Keeps σ s) : NextKeeps σ (execMiSubsystemHealthPoll tag s) := by
  unfold execMiSubsystemHealthPoll
  repeat' (first
    | with_reducible assumption
    | with_reducible refine NextKeeps.next ?_
    | with_reducible refine State.miAnswer_keeps ?_
    | with_reducible refine Keeps.ite ?_ ?_
    | (extract_lets -underBinder +onlyGivenNames z
       first | (refine (fun hz : Keeps σ z => ?_) ?_; on_goal 1 => clear_value z
                on_goal 2 => (unfold z; clear z))
             | clear_value z)
    | split
    | intro _)

theorem execMiControllerHealthPoll_keeps {σ : State} {tag first : Nat} {s : State} (hσ : Keeps σ s) : NextKeeps σ (execMiControllerHealthPoll tag first s) := by
  unfold execMiControllerHealthPoll
  repeat' (first
    | with_reducible assumption
    | with_reducible refine NextKeeps.next ?_
    | with_reducible refine State.miAnswer_keeps ?_
    | with_reducible refine Keeps.ite ?_ ?_
    | split
    | intro _)

theorem execMiConfigurationSet_keeps {σ : State} {tag cfg port v : Nat} {s : State} (hσ : Keeps σ s) : NextKeeps σ (execMiConfigurationSet tag cfg port v s) := by
  unfold execMiConfigurationSet
  repeat' (first
    | with_reducible assumption
    | with_reducible refine NextKeeps.next ?_
    | with_reducible refine State.miAnswer_keeps ?_
    | with_reducible refine State.modNvme_keeps ?_
    | with_reducible refine State.send_keeps ?_
    | with_reducible refine Keeps.ite ?_ ?_
    | split
    | intro _)

theorem execMiConfigurationGet_keeps {σ : State} {tag cfg port : Nat} {s : State} (hσ : Keeps σ s) : NextKeeps σ (execMiConfigurationGet tag cfg port s) := by
  unfold execMiConfigurationGet
  repeat' (first
    | with_reducible assumption
    | with_reducible refine NextKeeps.next ?_
    | with_reducible refine State.miAnswer_keeps ?_
    | with_reducible refine State.send_keeps ?_
    | with_reducible refine Keeps.ite ?_ ?_
    | split
    | intro _)

theorem execMiTunnelledAdminCommand_keeps {σ : State} {tag : Nat} {sqe : Sqe} {s : State} (hσ : Keeps σ s) : NextKeeps σ (execMiTunnelledAdminCommand tag sqe s) := by
  unfold execMiTunnelledAdminCommand
  repeat' (first
    | with_reducible assumption
    | with_reducible refine NextKeeps.next ?_
    | with_reducible refine State.admitMgmt_keeps ?_
    | with_reducible refine State.modNvme_keeps ?_
    | with_reducible refine State.send_keeps ?_
    | with_reducible refine Keeps.ite ?_ ?_
    | (extract_lets -underBinder +onlyGivenNames z
       first | (refine (fun hz : Keeps σ z => ?_) ?_; on_goal 1 => clear_value z
                on_goal 2 => (unfold z; clear z))
             | clear_value z)
    | split
    | intro _)

theorem execOrderArbitrationCycle_keeps {σ : State} {sameData : List Nat} {s : State} (hσ : Keeps σ s) : NextKeeps σ (execOrderArbitrationCycle sameData s) := by
  unfold execOrderArbitrationCycle
  repeat' (first
    | with_reducible assumption
    | with_reducible refine NextKeeps.next ?_
    | with_reducible refine Keeps.foldl ?_ ?_
    | with_reducible refine State.admitMgmt_keeps ?_
    | with_reducible refine State.modNvme_keeps ?_
    | with_reducible refine State.send_keeps ?_
    | with_reducible refine State.setNow_keeps ?_ ?_
    | omega
    | with_reducible refine Keeps.ite ?_ ?_
    | (extract_lets -underBinder +onlyGivenNames z
       first | (refine (fun hz : Keeps σ z => ?_) ?_; on_goal 1 => clear_value z
                on_goal 2 => (unfold z; clear z))
             | clear_value z)
    | split
    | intro _)

theorem execWedgeRecord_keeps {σ : State} {act : Nat} {rec : BitVec 128} {write : Option (Nat × Bool)} {s : State} (hσ : Keeps σ s) : NextKeeps σ (execWedgeRecord act rec write s) := by
  unfold execWedgeRecord
  repeat' (first
    | with_reducible assumption
    | with_reducible refine NextKeeps.next ?_
    | with_reducible refine State.gate_keeps ?_
    | with_reducible refine State.modSact_keeps ?_
    | with_reducible refine State.pushHist_keeps ?_
    | with_reducible refine State.reacquire_keeps ?_
    | with_reducible refine State.reacquireSample_keeps ?_
    | with_reducible refine State.servoSample_keeps ?_
    | with_reducible refine State.srvWedge_keeps ?_
    | with_reducible refine State.track_keeps ?_
    | with_reducible refine Keeps.ite ?_ ?_
    | (extract_lets -underBinder +onlyGivenNames z
       first | (refine (fun hz : Keeps σ z => ?_) ?_; on_goal 1 => clear_value z
                on_goal 2 => (unfold z; clear z))
             | clear_value z)
    | split
    | intro _)

theorem execServoGo_keeps {σ : State} {act : Nat} {target : BitVec 32} {head : BitVec 4} {op : Nat} {s : State} (hσ : Keeps σ s) : NextKeeps σ (execServoGo act target head op s) := by
  unfold execServoGo
  repeat' (first
    | with_reducible assumption
    | with_reducible refine NextKeeps.next ?_
    | with_reducible refine State.modSact_keeps ?_
    | with_reducible refine Keeps.ite ?_ ?_
    | (extract_lets -underBinder +onlyGivenNames z
       first | (refine (fun hz : Keeps σ z => ?_) ?_; on_goal 1 => clear_value z
                on_goal 2 => (unfold z; clear z))
             | clear_value z)
    | split
    | intro _)

theorem execHeadSwitchSettle_keeps {σ : State} {act : Nat} {s : State} (hσ : Keeps σ s) : NextKeeps σ (execHeadSwitchSettle act s) := by
  unfold execHeadSwitchSettle
  repeat' (first
    | with_reducible assumption
    | with_reducible refine State.loadSet_keeps ?_
    | with_reducible refine NextKeeps.next ?_
    | with_reducible refine State.modSact_keeps ?_
    | with_reducible refine State.reach_keeps ?_
    | with_reducible refine Keeps.ite ?_ ?_
    | (extract_lets -underBinder +onlyGivenNames z
       first | (refine (fun hz : Keeps σ z => ?_) ?_; on_goal 1 => clear_value z
                on_goal 2 => (unfold z; clear z))
             | clear_value z)
    | split
    | intro _)

theorem execSeekTimeLimit_keeps {σ : State} {act : Nat} {s : State} (hσ : Keeps σ s) : NextKeeps σ (execSeekTimeLimit act s) := by
  unfold execSeekTimeLimit
  repeat' (first
    | with_reducible assumption
    | with_reducible refine NextKeeps.next ?_
    | with_reducible refine State.reach_keeps ?_
    | with_reducible refine State.retrySeek_keeps ?_
    | with_reducible refine Keeps.ite ?_ ?_
    | (extract_lets -underBinder +onlyGivenNames z
       first | (refine (fun hz : Keeps σ z => ?_) ?_; on_goal 1 => clear_value z
                on_goal 2 => (unfold z; clear z))
             | clear_value z)
    | split
    | intro _)

theorem execRunoutQueueRefill_keeps {σ : State} {act : Nat} {s : State} (hσ : Keeps σ s) : NextKeeps σ (execRunoutQueueRefill act s) := by
  unfold execRunoutQueueRefill
  repeat' (first
    | with_reducible assumption
    | with_reducible refine Keeps.optMap ?_ ?_
    | with_reducible refine Keeps.optGet ?_ ?_
    | with_reducible refine Keeps.optElim ?_ ?_
    | with_reducible refine NextKeeps.next ?_
    | with_reducible refine State.modSact_keeps ?_
    | with_reducible refine Keeps.ite ?_ ?_
    | (extract_lets -underBinder +onlyGivenNames z
       first | (refine (fun hz : Keeps σ z => ?_) ?_; on_goal 1 => clear_value z
                on_goal 2 => (unfold z; clear z))
             | clear_value z)
    | split
    | intro _)

theorem execSpeedLoopUpdate_keeps {σ : State} {period at_ : Nat} {theta : Option Nat} {s : State} (hσ : Keeps σ s) : NextKeeps σ (execSpeedLoopUpdate period at_ theta s) := by
  unfold execSpeedLoopUpdate
  repeat' (first
    | with_reducible assumption
    | with_reducible refine NextKeeps.next ?_
    | with_reducible refine State.modSpindle_keeps ?_
    | with_reducible refine State.send_keeps ?_
    | with_reducible refine State.speedJudge_keeps ?_
    | with_reducible refine Keeps.ite ?_ ?_
    | (extract_lets -underBinder +onlyGivenNames z
       first | (refine (fun hz : Keeps σ z => ?_) ?_; on_goal 1 => clear_value z
                on_goal 2 => (unfold z; clear z))
             | (refine (fun hz : Keeps σ z.2 => ?_) ?_; on_goal 1 => clear_value z
                on_goal 2 => (unfold z; clear z))
             | (refine (fun hz : Keeps σ z.1 => ?_) ?_; on_goal 1 => clear_value z
                on_goal 2 => (unfold z; clear z))
             | clear_value z)
    | split
    | intro _)

theorem execSpindleSpeedErrorTimeout_keeps {σ s : State} (hσ : Keeps σ s) : NextKeeps σ (execSpindleSpeedErrorTimeout s) := by
  unfold execSpindleSpeedErrorTimeout
  repeat' (first
    | with_reducible assumption
    | with_reducible refine NextKeeps.next ?_
    | with_reducible refine State.fault_keeps ?_
    | with_reducible refine State.inhibitAll_keeps ?_
    | with_reducible refine State.modSpindle_keeps ?_
    | with_reducible refine State.reach_keeps ?_
    | (extract_lets -underBinder +onlyGivenNames z
       first | (refine (fun hz : Keeps σ z => ?_) ?_; on_goal 1 => clear_value z
                on_goal 2 => (unfold z; clear z))
             | clear_value z)
    | split
    | intro _)

theorem execRotorSensingEnd_keeps {σ : State} {ambiguous : Bool} {s : State} (hσ : Keeps σ s) : NextKeeps σ (execRotorSensingEnd ambiguous s) := by
  unfold execRotorSensingEnd
  repeat' (first
    | with_reducible assumption
    | with_reducible refine NextKeeps.next ?_
    | with_reducible refine State.modSpindle_keeps ?_
    | with_reducible refine State.setNow_keeps ?_ ?_
    | omega
    | with_reducible refine Keeps.ite ?_ ?_
    | (extract_lets -underBinder +onlyGivenNames z
       first | (refine (fun hz : Keeps σ z => ?_) ?_; on_goal 1 => clear_value z
                on_goal 2 => (unfold z; clear z))
             | clear_value z)
    | split
    | intro _)

theorem execOpenLoopRampTimeout_keeps {σ s : State} (hσ : Keeps σ s) : NextKeeps σ (execOpenLoopRampTimeout s) := by
  unfold execOpenLoopRampTimeout
  repeat' (first
    | with_reducible assumption
    | with_reducible refine NextKeeps.next ?_
    | with_reducible refine State.modSpindle_keeps ?_
    | with_reducible refine State.reach_keeps ?_
    | with_reducible refine Keeps.ite ?_ ?_
    | (extract_lets -underBinder +onlyGivenNames z
       first | (refine (fun hz : Keeps σ z => ?_) ?_; on_goal 1 => clear_value z
                on_goal 2 => (unfold z; clear z))
             | clear_value z)
    | split
    | intro _)

theorem execBackEmfDetected_keeps {σ s : State} (hσ : Keeps σ s) : NextKeeps σ (execBackEmfDetected s) := by
  unfold execBackEmfDetected
  repeat' (first
    | with_reducible assumption
    | with_reducible refine NextKeeps.next ?_
    | with_reducible refine State.modSpindle_keeps ?_
    | with_reducible refine Keeps.ite ?_ ?_
    | split
    | intro _)

theorem execRunUpSpeedReached_keeps {σ s : State} (hσ : Keeps σ s) : NextKeeps σ (execRunUpSpeedReached s) := by
  unfold execRunUpSpeedReached
  repeat' (first
    | with_reducible assumption
    | with_reducible refine NextKeeps.next ?_
    | with_reducible refine State.modServo_keeps ?_
    | with_reducible refine Keeps.ite ?_ ?_
    | split
    | intro _)

theorem execActuatorLoadEnd_keeps {σ : State} {act track : Nat} {s : State} (hσ : Keeps σ s) : NextKeeps σ (execActuatorLoadEnd act track s) := by
  unfold execActuatorLoadEnd
  repeat' (first
    | with_reducible assumption
    | with_reducible refine State.loadSet_keeps ?_
    | with_reducible refine NextKeeps.next ?_
    | with_reducible refine State.modSact_keeps ?_
    | with_reducible refine State.track_keeps ?_
    | with_reducible refine Keeps.ite ?_ ?_
    | (extract_lets -underBinder +onlyGivenNames z
       first | (refine (fun hz : Keeps σ z => ?_) ?_; on_goal 1 => clear_value z
                on_goal 2 => (unfold z; clear z))
             | clear_value z)
    | split
    | intro _)

theorem execLoadTimeout_keeps {σ : State} {act : Nat} {s : State} (hσ : Keeps σ s) : NextKeeps σ (execLoadTimeout act s) := by
  unfold execLoadTimeout
  repeat' (first
    | with_reducible assumption
    | with_reducible refine NextKeeps.next ?_
    | with_reducible refine State.modSact_keeps ?_
    | with_reducible refine State.reach_keeps ?_
    | with_reducible refine Keeps.ite ?_ ?_
    | (extract_lets -underBinder +onlyGivenNames z
       first | (refine (fun hz : Keeps σ z => ?_) ?_; on_goal 1 => clear_value z
                on_goal 2 => (unfold z; clear z))
             | clear_value z)
    | split
    | intro _)

theorem execUnloadEnd_keeps {σ : State} {act : Nat} {s : State} (hσ : Keeps σ s) : NextKeeps σ (execUnloadEnd act s) := by
  unfold execUnloadEnd
  repeat' (first
    | with_reducible assumption
    | with_reducible refine State.heatersOff_keeps ?_
    | with_reducible refine NextKeeps.next ?_
    | with_reducible refine State.brakeWhenParked_keeps ?_
    | with_reducible refine State.modSact_keeps ?_
    | with_reducible refine State.setNow_keeps ?_ ?_
    | omega
    | with_reducible refine Keeps.ite ?_ ?_
    | (extract_lets -underBinder +onlyGivenNames z
       first | (refine (fun hz : Keeps σ z => ?_) ?_; on_goal 1 => clear_value z
                on_goal 2 => (unfold z; clear z))
             | clear_value z)
    | split
    | intro _)

theorem execBrakingSpeedReached_keeps {σ s : State} (hσ : Keeps σ s) : NextKeeps σ (execBrakingSpeedReached s) := by
  unfold execBrakingSpeedReached
  repeat' (first
    | with_reducible assumption
    | with_reducible refine NextKeeps.next ?_
    | with_reducible refine State.modSpindle_keeps ?_
    | with_reducible refine Keeps.ite ?_ ?_
    | split
    | intro _)

theorem execRetractLineAssert_keeps {σ s : State} (hσ : Keeps σ s) : NextKeeps σ (execRetractLineAssert s) := by
  unfold execRetractLineAssert
  repeat' (first
    | with_reducible assumption
    | with_reducible refine NextKeeps.next ?_
    | with_reducible refine State.modLink_keeps ?_
    | with_reducible refine State.retractBoth_keeps ?_
    | with_reducible refine State.setNow_keeps ?_ ?_
    | omega
    | with_reducible refine Keeps.ite ?_ ?_
    | (extract_lets -underBinder +onlyGivenNames z
       first | (refine (fun hz : Keeps σ z => ?_) ?_; on_goal 1 => clear_value z
                on_goal 2 => (unfold z; clear z))
             | clear_value z)
    | split
    | intro _)

theorem execPowerDieRetractTimeout_keeps {σ s : State} (hσ : Keeps σ s) : NextKeeps σ (execPowerDieRetractTimeout s) := by
  unfold execPowerDieRetractTimeout
  repeat' (first
    | with_reducible assumption
    | with_reducible refine NextKeeps.next ?_
    | with_reducible refine State.modLink_keeps ?_
    | with_reducible refine State.retractBoth_keeps ?_
    | with_reducible refine State.setNow_keeps ?_ ?_
    | omega
    | with_reducible refine Keeps.ite ?_ ?_
    | split
    | intro _)

theorem execRetractParked_keeps {σ s : State} (hσ : Keeps σ s) : NextKeeps σ (execRetractParked s) := by
  unfold execRetractParked
  repeat' (first
    | with_reducible assumption
    | with_reducible refine NextKeeps.next ?_
    | with_reducible refine State.modRack_keeps ?_
    | with_reducible refine State.modServo_keeps ?_
    | with_reducible refine Keeps.ite ?_ ?_
    | (extract_lets -underBinder +onlyGivenNames z
       first | (refine (fun hz : Keeps σ z => ?_) ?_; on_goal 1 => clear_value z
                on_goal 2 => (unfold z; clear z))
             | clear_value z)
    | split
    | intro _)

theorem execLinkSilenceTimeout_keeps {σ s : State} (hσ : Keeps σ s) : NextKeeps σ (execLinkSilenceTimeout s) := by
  unfold execLinkSilenceTimeout
  repeat' (first
    | with_reducible assumption
    | with_reducible refine NextKeeps.next ?_
    | with_reducible refine State.modLink_keeps ?_
    | with_reducible refine State.reach_keeps ?_
    | with_reducible refine State.retractBoth_keeps ?_
    | with_reducible refine Keeps.ite ?_ ?_
    | split
    | intro _)

theorem execLinkFrameInterval_keeps {σ s : State} (hσ : Keeps σ s) : NextKeeps σ (execLinkFrameInterval s) := by
  unfold execLinkFrameInterval
  repeat' (first
    | with_reducible assumption
    | with_reducible refine NextKeeps.next ?_
    | with_reducible refine State.modLink_keeps ?_
    | with_reducible refine State.reach_keeps ?_
    | with_reducible refine State.send_keeps ?_
    | with_reducible refine Keeps.ite ?_ ?_
    | split
    | intro _)

theorem execDieLinkFrame_keeps {σ : State} {toPower good : Bool} {dac : Option Nat} {s : State} (hσ : Keeps σ s) : NextKeeps σ (execDieLinkFrame toPower good dac s) := by
  unfold execDieLinkFrame
  repeat' (first
    | with_reducible assumption
    | with_reducible refine NextKeeps.next ?_
    | with_reducible refine State.fault_keeps ?_
    | with_reducible refine State.modLink_keeps ?_
    | with_reducible refine State.send_keeps ?_
    | with_reducible refine Keeps.ite ?_ ?_
    | (extract_lets -underBinder +onlyGivenNames z
       first | (refine (fun hz : Keeps σ z => ?_) ?_; on_goal 1 => clear_value z
                on_goal 2 => (unfold z; clear z))
             | clear_value z)
    | split
    | intro _)

theorem execPowerDieRearm_keeps {σ s : State} (hσ : Keeps σ s) : NextKeeps σ (execPowerDieRearm s) := by
  unfold execPowerDieRearm
  repeat' (first
    | with_reducible assumption
    | with_reducible refine NextKeeps.next ?_
    | with_reducible refine State.flowDemand_keeps ?_
    | with_reducible refine State.modLink_keeps ?_
    | with_reducible refine State.modServo_keeps ?_
    | with_reducible refine Keeps.ite ?_ ?_
    | (extract_lets -underBinder +onlyGivenNames z
       first | (refine (fun hz : Keeps σ z => ?_) ?_; on_goal 1 => clear_value z
                on_goal 2 => (unfold z; clear z))
             | clear_value z)
    | split
    | intro _)

theorem execPreampFault_keeps {σ : State} {act kind : Nat} {again : Bool} {s : State} (hσ : Keeps σ s) : NextKeeps σ (execPreampFault act kind again s) := by
  unfold execPreampFault
  repeat' (first
    | with_reducible assumption
    | with_reducible refine NextKeeps.next ?_
    | with_reducible refine State.chargeHead_keeps ?_
    | with_reducible refine State.modRw_keeps ?_
    | with_reducible refine State.noteOther_keeps ?_
    | with_reducible refine State.retireHead_keeps ?_
    | with_reducible refine State.writeFault_keeps ?_
    | with_reducible refine Keeps.ite ?_ ?_
    | (extract_lets -underBinder +onlyGivenNames z
       first | (refine (fun hz : Keeps σ z => ?_) ?_; on_goal 1 => clear_value z
                on_goal 2 => (unfold z; clear z))
             | clear_value z)
    | split
    | intro _)

theorem execPreampFaultPersistence_keeps {σ : State} {act : Nat} {s : State} (hσ : Keeps σ s) : NextKeeps σ (execPreampFaultPersistence act s) := by
  unfold execPreampFaultPersistence
  repeat' (first
    | with_reducible assumption
    | with_reducible refine NextKeeps.next ?_
    | with_reducible refine State.fault_keeps ?_
    | with_reducible refine State.fenceActuator_keeps ?_
    | with_reducible refine State.modRw_keeps ?_
    | with_reducible refine State.reach_keeps ?_
    | with_reducible refine Keeps.ite ?_ ?_
    | (extract_lets -underBinder +onlyGivenNames z
       first | (refine (fun hz : Keeps σ z => ?_) ?_; on_goal 1 => clear_value z
                on_goal 2 => (unfold z; clear z))
             | clear_value z)
    | split
    | intro _)

theorem execHeadCalibrationDue_keeps {σ : State} {act : Nat} {s : State} (hσ : Keeps σ s) : NextKeeps σ (execHeadCalibrationDue act s) := by
  unfold execHeadCalibrationDue
  repeat' (first
    | with_reducible assumption
    | with_reducible refine NextKeeps.next ?_
    | with_reducible refine State.modRw_keeps ?_
    | with_reducible refine Keeps.ite ?_ ?_
    | (extract_lets -underBinder +onlyGivenNames z
       first | (refine (fun hz : Keeps σ z => ?_) ?_; on_goal 1 => clear_value z
                on_goal 2 => (unfold z; clear z))
             | clear_value z)
    | split
    | intro _)

theorem execCalibrationStepEnd_keeps {σ : State} {act : Nat} {again : Bool} {contact : Option Nat} {rates : List Nat} {rres : Nat} {s : State} (hσ : Keeps σ s) : NextKeeps σ (execCalibrationStepEnd act again contact rates rres s) := by
  unfold execCalibrationStepEnd
  repeat' (first
    | with_reducible assumption
    | with_reducible refine NextKeeps.next ?_
    | with_reducible refine Keeps.foldl ?_ ?_
    | with_reducible exact hz _
    | with_reducible exact hz _ _
    | with_reducible refine hz _ ?_
    | with_reducible refine hz _ _ ?_
    | with_reducible refine State.calFailed_keeps ?_
    | with_reducible refine State.calGood_keeps ?_
    | with_reducible refine State.modRw_keeps ?_
    | with_reducible refine State.retireHead_keeps ?_
    | with_reducible refine Keeps.ite ?_ ?_
    | (extract_lets -underBinder +onlyGivenNames z
       first | (refine (fun hz : Keeps σ z => ?_) ?_; on_goal 1 => clear_value z
                on_goal 2 => (unfold z; clear z))
             | (refine (fun hz : ∀ x, Keeps σ x → Keeps σ (z x) => ?_) ?_; on_goal 1 => clear_value z
                on_goal 2 => (unfold z; clear z))
             | (refine (fun hz : ∀ x y, Keeps σ x → Keeps σ (z x y) => ?_) ?_; on_goal 1 => clear_value z
                on_goal 2 => (unfold z; clear z))
             | (refine (fun hz : ∀ y, Keeps σ (z y) => ?_) ?_; on_goal 1 => clear_value z
                on_goal 2 => (unfold z; clear z))
             | (refine (fun hz : ∀ y w, Keeps σ (z y w) => ?_) ?_; on_goal 1 => clear_value z
                on_goal 2 => (unfold z; clear z))
             | clear_value z)
    | split
    | intro _)

end Sys2Proof.Machine
end

