-- ==== Sys2Proof/Laws/PerInstr.lean ====
section
/-!
SUPPORT. Per command: a queue whose commands are well formed stays so when a step takes its front. One lemma per constructor.
-/
namespace Sys2Proof.Laws.Rows
open Sys2Proof Sys2Proof.Machine

/-- A well-formed queue with a command at its front: the command is well formed, and so is the queue's rest. -/
def Statement (i : Instr) : Prop := ∀ (s : State) (rest : List Instr), s.pending = i :: rest → QueueWf s → i.wf = true ∧ QueueWf (s.setPending rest)

/-- It holds of every command, since a queue is well formed command by command. -/
theorem front (i : Instr) : Statement i := by
  intro s rest h hw
  unfold QueueWf at *
  rw [h, List.all_cons, Bool.and_eq_true] at hw
  exact hw

theorem powerUpSequence (vin vb : Nat) (failed : Option Nat) (cold : Bool) : Statement (.powerUpSequence vin vb failed cold) := front _
theorem railRetryTimeout (failed : Option Nat) : Statement (.railRetryTimeout failed) := front _
theorem bootStart (bankSize : Nat) (bad : List (Nat × Nat)) (otpBad : Bool) (margins : List (List (List Int))) : Statement (.bootStart bankSize bad otpBad margins) := front _
theorem bootFetchFault (bad : List (Nat × Nat)) : Statement (.bootFetchFault bad) := front _
theorem nvmWindowBusFault (addr : Nat) : Statement (.nvmWindowBusFault addr) := front _
theorem dramTrainingEnd (passes : List Bool) (eyes : List (Nat × Nat × Nat × Nat)) : Statement (.dramTrainingEnd passes eyes) := front _
theorem microcodeLoad (base : McuModule) (patches : List McuModule) (custom : Option McuModule) (failed : List Nat) (bad : List (Nat × Nat)) : Statement (.microcodeLoad base patches custom failed bad) := front _
theorem channelInitialisation (ch : Nat) (rb : Bool) (dies : List DieReport) : Statement (.channelInitialisation ch rb dies) := front _
theorem mount (lost : List (Nat × Nat)) : Statement (.mount lost) := front _
theorem controllerReady : Statement (.controllerReady) := front _
theorem vinMainUndervoltage (vin : Nat) : Statement (.vinMainUndervoltage vin) := front _
theorem powerLossSequenceEnd (dur vend : Nat) : Statement (.powerLossSequenceEnd dur vend) := front _
theorem vinBkupBrownOut (dur vend : Nat) (steps : BitVec 6) : Statement (.vinBkupBrownOut dur vend steps) := front _
theorem sysrstNLow : Statement (.sysrstNLow) := front _
theorem sysrstNRelease : Statement (.sysrstNRelease) := front _
theorem railOutOfRegulation (rail : Nat) (long : Bool) : Statement (.railOutOfRegulation rail long) := front _
theorem crystalStopped : Statement (.crystalStopped) := front _
theorem vinOvervoltage (bkup : Bool) (mv : Nat) : Statement (.vinOvervoltage bkup mv) := front _
theorem vinMainBelowRackMinimum (mv : Nat) : Statement (.vinMainBelowRackMinimum mv) := front _
theorem rackVoltageRestored (mv : Nat) : Statement (.rackVoltageRestored mv) := front _
theorem chargeVoltageReached : Statement (.chargeVoltageReached) := front _
theorem holdupCheckStart (vb : Nat) : Statement (.holdupCheckStart vb) := front _
theorem holdupCheckEnd (step fall t : Nat) : Statement (.holdupCheckEnd step fall t) := front _
theorem writeHoldLimit : Statement (.writeHoldLimit) := front _
theorem budgetGovernorTick (activity : List Nat) : Statement (.budgetGovernorTick activity) := front _
theorem domainIdleTimeout (dom : Nat) : Statement (.domainIdleTimeout dom) := front _
theorem domainWake (dom : Nat) : Statement (.domainWake dom) := front _
theorem opTransitionEnd (monitorsOk : Bool) : Statement (.opTransitionEnd monitorsOk) := front _
theorem temperatureSample (input : Nat) (reading : Option Int) : Statement (.temperatureSample input reading) := front _
theorem compositeTemperatureUpdate : Statement (.compositeTemperatureUpdate) := front _
theorem rateOfRiseEvaluation : Statement (.rateOfRiseEvaluation) := front _
theorem cpmTrip (n : Nat) : Statement (.cpmTrip n) := front _
theorem dieLinkFrame (toPower good : Bool) (dac : Option Nat) : Statement (.dieLinkFrame toPower good dac) := front _
theorem linkFrameInterval : Statement (.linkFrameInterval) := front _
theorem linkSilenceTimeout : Statement (.linkSilenceTimeout) := front _
theorem powerDieRearm : Statement (.powerDieRearm) := front _
theorem retractLineAssert : Statement (.retractLineAssert) := front _
theorem powerDieRetractTimeout : Statement (.powerDieRetractTimeout) := front _
theorem retractParked : Statement (.retractParked) := front _
theorem fabricBlockReceive (src : Nat) (dst : Nat) (blk : Nat) (flow : Nat) (id : Nat) (lcn : Nat) (good : Bool) : Statement (.fabricBlockReceive src dst blk flow id lcn good) := front _
theorem unitRelease (kind : Nat) (n : Nat) : Statement (.unitRelease kind n) := front _
theorem actuatorUnlockTimeout (act : Nat) : Statement (.actuatorUnlockTimeout act) := front _
theorem controllerEnable (cc : Dword) : Statement (.controllerEnable cc) := front _
theorem controllerReset (cc : Dword) : Statement (.controllerReset cc) := front _
theorem shutdownNotification (shn : BitVec 2) : Statement (.shutdownNotification shn) := front _
theorem submissionQueueDoorbell (qid tail : Nat) : Statement (.submissionQueueDoorbell qid tail) := front _
theorem completionQueueDoorbell (qid head : Nat) : Statement (.completionQueueDoorbell qid head) := front _
theorem interruptMaskSet (mask : Dword) : Statement (.interruptMaskSet mask) := front _
theorem interruptMaskClear (mask : Dword) : Statement (.interruptMaskClear mask) := front _
theorem registerWrite (block : RegBlock) (core off v : Nat) : Statement (.registerWrite block core off v) := front _
theorem commandFetch (qid : Nat) (sqe : Sqe) (ranges : List (Nat × Nat)) (window : List (Nat × Nat × Nat)) : Statement (.commandFetch qid sqe ranges window) := front _
theorem fetchResume : Statement (.fetchResume) := front _
theorem versionIdleTimeout (vid : Nat) : Statement (.versionIdleTimeout vid) := front _
theorem writeAssignment (vid : Nat) : Statement (.writeAssignment vid) := front _
theorem encodeJobEnd (vid : Nat) (parity : Bool) : Statement (.encodeJobEnd vid parity) := front _
theorem decodeJobEnd (job : Nat) (parity mismatch : Bool) : Statement (.decodeJobEnd job parity mismatch) := front _
theorem cipherJobEnd (encrypt : Bool) (id : Nat) (parity : Bool) : Statement (.cipherJobEnd encrypt id parity) := front _
theorem batchCloseTimeout (span batch : Nat) : Statement (.batchCloseTimeout span batch) := front _
theorem programComplete (span batch member : Nat) (good last : Bool) : Statement (.programComplete span batch member good last) := front _
theorem interruptAggregationTimeout (qid : Nat) : Statement (.interruptAggregationTimeout qid) := front _
theorem flashReadComplete (job : Nat) : Statement (.flashReadComplete job) := front _
theorem codewordDecodeEnd (job : Nat) (good : Bool) (maxBits entry lost : Nat) : Statement (.codewordDecodeEnd job good maxBits entry lost) := front _
theorem eraseComplete (span : Nat) (failed : List Nat) : Statement (.eraseComplete span failed) := front _
theorem statusPoll (die : Nat) (op : Nat) (ready : Bool) : Statement (.statusPoll die op ready) := front _
theorem operationTimeout (die : Nat) (op : Nat) (a : Nat) (b : Nat) (c : Nat) (resetOk : Bool) : Statement (.operationTimeout die op a b c resetOk) := front _
theorem retrainInterval (die : Nat) (eye : Nat) (full : Nat) : Statement (.retrainInterval die eye full) := front _
theorem sequencerSubmit (seq : Nat) (off : Nat) (data : List Byte) (handles : List Nat) : Statement (.sequencerSubmit seq off data handles) := front _
theorem completionRecordRead (seq : Nat) (last : Bool) : Statement (.completionRecordRead seq last) := front _
theorem sequencerHold (seq : Nat) : Statement (.sequencerHold seq) := front _
theorem sequencerHoldRelease (seq : Nat) : Statement (.sequencerHoldRelease seq) := front _
theorem machineCheckClear (seq : Nat) : Statement (.machineCheckClear seq) := front _
theorem operationDispatch (seq : Nat) (parity : Bool) : Statement (.operationDispatch seq parity) := front _
theorem microwordExecute (seq : Nat) (par : Nat) (status : Byte) (strobe : Bool) (lost : Bool) (cwfail : Byte) (maxbits : Byte) : Statement (.microwordExecute seq par status strobe lost cwfail maxbits) := front _
theorem yieldDelayEnd (seq : Nat) (ctx : Nat) : Statement (.yieldDelayEnd seq ctx) := front _
theorem watchdogTrap (seq : Nat) (ctx : Nat) : Statement (.watchdogTrap seq ctx) := front _
theorem mapPageLoadComplete (page : Nat) (good : Bool) : Statement (.mapPageLoadComplete page good) := front _
theorem mapPageSpill (page : Nat) : Statement (.mapPageSpill page) := front _
theorem journalPageProgramComplete (good : Bool) (die block : Nat) : Statement (.journalPageProgramComplete good die block) := front _
theorem deallocationJournalDelay : Statement (.deallocationJournalDelay) := front _
theorem checkpointRoundStart : Statement (.checkpointRoundStart) := front _
theorem checkpointRootDurable : Statement (.checkpointRootDurable) := front _
theorem epochAdvance (margins : List (List (List Int))) (eyes : List (Nat × Nat × Nat × Nat)) : Statement (.epochAdvance margins eyes) := front _
theorem ageingSweepVisit (nsid lcn : Nat) : Statement (.ageingSweepVisit nsid lcn) := front _
theorem evacuationChoice (nsid lcn : Nat) : Statement (.evacuationChoice nsid lcn) := front _
theorem migrationQueueRoom (act : Nat) : Statement (.migrationQueueRoom act) := front _
theorem copySourceReadEnd (copy : Nat) (good ladder : Bool) (bits lost : Nat) : Statement (.copySourceReadEnd copy good ladder bits lost) := front _
theorem copyReadVerifyEnd (copy : Nat) (good : Bool) (bits member : Nat) : Statement (.copyReadVerifyEnd copy good bits member) := front _
theorem kneadSpanSelection : Statement (.kneadSpanSelection) := front _
theorem retentionAgeUpdate : Statement (.retentionAgeUpdate) := front _
theorem scrubRead (span member bits : Nat) (ladder : Bool) (nsid lcn lost : Nat) (last : Bool) : Statement (.scrubRead span member bits ladder nsid lcn lost last) := front _
theorem channelFenceRebuildTimeout (ch : Nat) : Statement (.channelFenceRebuildTimeout ch) := front _
theorem peelStart (ch : Nat) : Statement (.peelStart ch) := front _
theorem peelStop (ch : Nat) : Statement (.peelStop ch) := front _
theorem peelResume (ch : Nat) : Statement (.peelResume ch) := front _
theorem peelDescriptorReadComplete (ch : Nat) (data : List Byte) : Statement (.peelDescriptorReadComplete ch data) := front _
theorem peelDescriptorAccept (ch : Nat) : Statement (.peelDescriptorAccept ch) := front _
theorem peelPollInterval (ch : Nat) : Statement (.peelPollInterval ch) := front _
theorem peelSourceReadComplete (ch : Nat) (stamp : Nat) (off : Nat) (data : List Byte) : Statement (.peelSourceReadComplete ch stamp off data) := front _
theorem peelRetirement (ch : Nat) : Statement (.peelRetirement ch) := front _
theorem pushLease (slot : Nat) : Statement (.pushLease slot) := front _
theorem apertureWrite (handle : Nat) (off : Nat) (data : List (Option Byte)) : Statement (.apertureWrite handle off data) := front _
theorem leaseExpiry (handle : Nat) : Statement (.leaseExpiry handle) := front _
theorem pushCommit (slot : Nat) (off : Nat) (data : List Byte) : Statement (.pushCommit slot off data) := front _
theorem slotResume (slot : Nat) : Statement (.slotResume slot) := front _
theorem slotReleaseAll (slot : Nat) : Statement (.slotReleaseAll slot) := front _
theorem commitRecordAccept (slot : Nat) : Statement (.commitRecordAccept slot) := front _
theorem commitRetirement (slot : Nat) : Statement (.commitRetirement slot) := front _
theorem recordPinChange (level : Bool) : Statement (.recordPinChange level) := front _
theorem recordDebounceComplete : Statement (.recordDebounceComplete) := front _
theorem swapPoint : Statement (.swapPoint) := front _
theorem swapFallbackTimeout : Statement (.swapFallbackTimeout) := front _
theorem scheduledSwapCompare : Statement (.scheduledSwapCompare) := front _
theorem orderArbitrationCycle (sameData : List Nat) : Statement (.orderArbitrationCycle sameData) := front _
theorem ospiProgram (addr : Nat) (len : Nat) (data : List Byte) : Statement (.ospiProgram addr len data) := front _
theorem ospiErase (addr : Nat) : Statement (.ospiErase addr) := front _
theorem ospiOperationEnd (bank : Nat) (outcome : Nat) (ready : Bool) : Statement (.ospiOperationEnd bank outcome ready) := front _
theorem ospiLock : Statement (.ospiLock) := front _
theorem activationCompare : Statement (.activationCompare) := front _
theorem activationPoint (base : McuModule) (patches : List McuModule) (custom : Option McuModule) (failed : List Nat) : Statement (.activationPoint base patches custom failed) := front _
theorem activationCoreReady (ok : Bool) : Statement (.activationCoreReady ok) := front _
theorem recoveryInstall (bad : List Nat) (fails : Bool) : Statement (.recoveryInstall bad fails) := front _
theorem recoveryRestart (bad : List (Nat × Nat)) : Statement (.recoveryRestart bad) := front _
theorem recoveryWindowWrite (k : Nat) (data : List Byte) : Statement (.recoveryWindowWrite k data) := front _
theorem hardwareFaultDetected (id : Nat) (detail : List Nat) : Statement (.hardwareFaultDetected id detail) := front _
theorem correctedSuppressionSecond : Statement (.correctedSuppressionSecond) := front _
theorem reactionTimerExpiry (id : Nat) : Statement (.reactionTimerExpiry id) := front _
theorem faultAck (id : Nat) (cleared : Bool) : Statement (.faultAck id cleared) := front _
theorem heartbeatWrite (core : Nat) : Statement (.heartbeatWrite core) := front _
theorem heartbeatMissed (core : Nat) : Statement (.heartbeatMissed core) := front _
theorem safeStateFlashDone : Statement (.safeStateFlashDone) := front _
theorem quietPeriodExpiry : Statement (.quietPeriodExpiry) := front _
theorem safeStateRecoveryEnd (failed : List Nat) (lost : List (Nat × Nat)) : Statement (.safeStateRecoveryEnd failed lost) := front _
theorem forceBitWrite (id : Nat) (v : Bool) : Statement (.forceBitWrite id v) := front _
theorem mirrorPageProgram (good : Bool) : Statement (.mirrorPageProgram good) := front _
theorem patternRunStart (sub : Nat) : Statement (.patternRunStart sub) := front _
theorem patternCompareClear (sub : Nat) : Statement (.patternCompareClear sub) := front _
theorem patternRunEnd (sub : Nat) (bad : List (Nat × Nat)) : Statement (.patternRunEnd sub bad) := front _
theorem dqsTrackingInterval (sub : Nat) (drift : List Int) : Statement (.dqsTrackingInterval sub drift) := front _
theorem refreshRateCheck (hot : List Nat) : Statement (.refreshRateCheck hot) := front _
theorem refreshInterval (sub : Nat) : Statement (.refreshInterval sub) := front _
theorem patrolScrubBurst (result : Nat) (holds : Nat) (key : Nat) : Statement (.patrolScrubBurst result holds key) := front _
theorem selfRefreshExit (drift : List (List Int)) : Statement (.selfRefreshExit drift) := front _
theorem dramAlert (sub : Nat) (fresh : Bool) : Statement (.dramAlert sub fresh) := front _
theorem dramRequestChoice (sub : Nat) (arrivals : List DramArrival) (levels : List Nat) : Statement (.dramRequestChoice sub arrivals levels) := front _
theorem dramBurstReadEnd (sub : Nat) (id : Nat) (result : Nat) : Statement (.dramBurstReadEnd sub id result) := front _
theorem bufferAlloc (owner : Nat) (pool : Nat) (count : Nat) (linkBad : Bool) : Statement (.bufferAlloc owner pool count linkBad) := front _
theorem bufferFree (owner : Nat) (handle : Nat) : Statement (.bufferFree owner handle) := front _
theorem bufferTransfer (owner : Nat) (handle : Nat) (receiver : Nat) : Statement (.bufferTransfer owner handle receiver) := front _
theorem bufferShare (owner : Nat) (handle : Nat) (list : List Nat) (last : Nat) : Statement (.bufferShare owner handle list last) := front _
theorem bufferRelease (owner : Nat) (handle : Nat) : Statement (.bufferRelease owner handle) := front _
theorem bufferGroupGrant (pool : Nat) : Statement (.bufferGroupGrant pool) := front _
theorem freeListRebuild (pool : Nat) (order : List Nat) : Statement (.freeListRebuild pool order) := front _
theorem poolMinfreeClear (pool : Nat) : Statement (.poolMinfreeClear pool) := front _
theorem linkTrainingEnd (width speed : Nat) (flit : Bool) : Statement (.linkTrainingEnd width speed flit) := front _
theorem partnerLinkChange (width speed : Nat) : Statement (.partnerLinkChange width speed) := front _
theorem aspmL1IdleTimeout : Statement (.aspmL1IdleTimeout) := front _
theorem l0pWidthChange (down : Bool) : Statement (.l0pWidthChange down) := front _
theorem configurationRequest (off : Nat) (write : Option (Nat × Nat)) (ready : Bool) : Statement (.configurationRequest off write ready) := front _
theorem inboundMemoryRequest (addr : Nat) (req : MemReq) : Statement (.inboundMemoryRequest addr req) := front _
theorem poisonedWriteReceived : Statement (.poisonedWriteReceived) := front _
theorem readCompletionReceived (tag status : Nat) : Statement (.readCompletionReceived tag status) := front _
theorem completionTimeout (tag : Nat) : Statement (.completionTimeout tag) := front _
theorem unexpectedCompletion (tag : Nat) : Statement (.unexpectedCompletion tag) := front _
theorem busMasterEnableClear : Statement (.busMasterEnableClear) := front _
theorem busMasterEnableSet : Statement (.busMasterEnableSet) := front _
theorem msixVectorUnmask (v : Option Nat) : Statement (.msixVectorUnmask v) := front _
theorem d3hotEntry : Statement (.d3hotEntry) := front _
theorem d0Return : Statement (.d0Return) := front _
theorem functionLevelReset : Statement (.functionLevelReset) := front _
theorem perstNAssert : Statement (.perstNAssert) := front _
theorem perstNRelease : Statement (.perstNRelease) := front _
theorem hotReset : Statement (.hotReset) := front _
theorem linkDown : Statement (.linkDown) := front _
theorem refclkLoss : Statement (.refclkLoss) := front _
theorem jtagInstruction (boundary : Bool) : Statement (.jtagInstruction boundary) := front _
theorem write (stamp : Nat) (data : List Crumb) : Statement (.write stamp data) := front _
theorem read (stamp : Nat) : Statement (.read stamp) := front _
theorem compare (stamp : Nat) (data : List Crumb) : Statement (.compare stamp data) := front _
theorem verify (stamp : Nat) : Statement (.verify stamp) := front _
theorem flush (stamp : Nat) : Statement (.flush stamp) := front _
theorem writeZeroes (stamp : Nat) : Statement (.writeZeroes stamp) := front _
theorem deallocate (stamp : Nat) : Statement (.deallocate stamp) := front _
theorem datasetManagementHint (stamp : Nat) : Statement (.datasetManagementHint stamp) := front _
theorem rawThroughRead (stamp : Nat) : Statement (.rawThroughRead stamp) := front _
theorem placementQuery (stamp : Nat) : Statement (.placementQuery stamp) := front _
theorem createIoSubmissionQueue (stamp : Nat) : Statement (.createIoSubmissionQueue stamp) := front _
theorem deleteIoSubmissionQueue (stamp : Nat) : Statement (.deleteIoSubmissionQueue stamp) := front _
theorem createIoCompletionQueue (stamp : Nat) : Statement (.createIoCompletionQueue stamp) := front _
theorem deleteIoCompletionQueue (stamp : Nat) : Statement (.deleteIoCompletionQueue stamp) := front _
theorem identifyController (stamp : Nat) : Statement (.identifyController stamp) := front _
theorem identifyNamespace (stamp : Nat) : Statement (.identifyNamespace stamp) := front _
theorem identifyLists (stamp : Nat) : Statement (.identifyLists stamp) := front _
theorem abort (stamp : Nat) : Statement (.abort stamp) := front _
theorem asynchronousEventRequest (stamp : Nat) : Statement (.asynchronousEventRequest stamp) := front _
theorem namespaceCreate (stamp nsze ncap flbas : Nat) : Statement (.namespaceCreate stamp nsze ncap flbas) := front _
theorem namespaceDelete (stamp : Nat) : Statement (.namespaceDelete stamp) := front _
theorem namespaceAttach (stamp : Nat) (ctrls : List Nat) : Statement (.namespaceAttach stamp ctrls) := front _
theorem namespaceDetach (stamp : Nat) (ctrls : List Nat) : Statement (.namespaceDetach stamp ctrls) := front _
theorem firmwareImageDownload (stamp : Nat) (data : List Byte) : Statement (.firmwareImageDownload stamp data) := front _
theorem firmwareCommitReplace (stamp : Nat) (bad : List Nat) (fails : Bool) : Statement (.firmwareCommitReplace stamp bad fails) := front _
theorem firmwareCommitNextReset (stamp : Nat) (bad : List Nat) (fails : Bool) : Statement (.firmwareCommitNextReset stamp bad fails) := front _
theorem firmwareCommitActivateSlot (stamp : Nat) (bad : List Nat) (fails : Bool) : Statement (.firmwareCommitActivateSlot stamp bad fails) := front _
theorem firmwareCommitImmediate (stamp : Nat) (bad : List Nat) (fails : Bool) : Statement (.firmwareCommitImmediate stamp bad fails) := front _
theorem deviceSelfTestShort (stamp result : Nat) : Statement (.deviceSelfTestShort stamp result) := front _
theorem deviceSelfTestExtended (stamp result : Nat) (lost : List (Nat × Nat × Nat)) : Statement (.deviceSelfTestExtended stamp result lost) := front _
theorem streamsAllocateResources (stamp : Nat) : Statement (.streamsAllocateResources stamp) := front _
theorem streamsReleaseIdentifier (stamp : Nat) : Statement (.streamsReleaseIdentifier stamp) := front _
theorem streamsReturnParameters (stamp : Nat) : Statement (.streamsReturnParameters stamp) := front _
theorem formatNvm (stamp : Nat) : Statement (.formatNvm stamp) := front _
theorem formatNvmCryptoErase (stamp : Nat) : Statement (.formatNvmCryptoErase stamp) := front _
theorem sanitizeExitFailure (stamp : Nat) : Statement (.sanitizeExitFailure stamp) := front _
theorem sanitizeBlockErase (stamp : Nat) : Statement (.sanitizeBlockErase stamp) := front _
theorem sanitizeCryptoErase (stamp : Nat) : Statement (.sanitizeCryptoErase stamp) := front _
theorem profileSwap (stamp : Nat) : Statement (.profileSwap stamp) := front _
theorem faultInjectForce (stamp : Nat) : Statement (.faultInjectForce stamp) := front _
theorem faultInjectClearAll (stamp : Nat) : Statement (.faultInjectClearAll stamp) := front _
theorem eventRecorderClearUpto (stamp : Nat) : Statement (.eventRecorderClearUpto stamp) := front _
theorem eventRecorderClearAll (stamp : Nat) : Statement (.eventRecorderClearAll stamp) := front _
theorem setArbitration (stamp : Nat) : Statement (.setArbitration stamp) := front _
theorem getArbitration (stamp : Nat) : Statement (.getArbitration stamp) := front _
theorem setPowerManagement (stamp : Nat) : Statement (.setPowerManagement stamp) := front _
theorem getPowerManagement (stamp : Nat) : Statement (.getPowerManagement stamp) := front _
theorem setTemperatureThreshold (stamp : Nat) : Statement (.setTemperatureThreshold stamp) := front _
theorem getTemperatureThreshold (stamp : Nat) : Statement (.getTemperatureThreshold stamp) := front _
theorem setErrorRecovery (stamp : Nat) : Statement (.setErrorRecovery stamp) := front _
theorem getErrorRecovery (stamp : Nat) : Statement (.getErrorRecovery stamp) := front _
theorem setNumberOfQueues (stamp : Nat) : Statement (.setNumberOfQueues stamp) := front _
theorem getNumberOfQueues (stamp : Nat) : Statement (.getNumberOfQueues stamp) := front _
theorem setInterruptCoalescing (stamp : Nat) : Statement (.setInterruptCoalescing stamp) := front _
theorem getInterruptCoalescing (stamp : Nat) : Statement (.getInterruptCoalescing stamp) := front _
theorem setInterruptVectorConfig (stamp : Nat) : Statement (.setInterruptVectorConfig stamp) := front _
theorem getInterruptVectorConfig (stamp : Nat) : Statement (.getInterruptVectorConfig stamp) := front _
theorem setWriteAtomicityNormal (stamp : Nat) : Statement (.setWriteAtomicityNormal stamp) := front _
theorem getWriteAtomicityNormal (stamp : Nat) : Statement (.getWriteAtomicityNormal stamp) := front _
theorem setAsyncEventConfig (stamp : Nat) : Statement (.setAsyncEventConfig stamp) := front _
theorem getAsyncEventConfig (stamp : Nat) : Statement (.getAsyncEventConfig stamp) := front _
theorem setTimestamp (stamp : Nat) (value : BitVec 48) : Statement (.setTimestamp stamp value) := front _
theorem getTimestamp (stamp : Nat) : Statement (.getTimestamp stamp) := front _
theorem setHctm (stamp : Nat) : Statement (.setHctm stamp) := front _
theorem getHctm (stamp : Nat) : Statement (.getHctm stamp) := front _
theorem setStreamFormat (stamp : Nat) (data : List Byte) : Statement (.setStreamFormat stamp data) := front _
theorem getStreamFormat (stamp : Nat) : Statement (.getStreamFormat stamp) := front _
theorem setProfileControl (stamp : Nat) (data : List Byte) : Statement (.setProfileControl stamp data) := front _
theorem getProfileControl (stamp : Nat) : Statement (.getProfileControl stamp) := front _
theorem setScheduledActivation (stamp : Nat) (data : List Byte) : Statement (.setScheduledActivation stamp data) := front _
theorem getScheduledActivation (stamp : Nat) : Statement (.getScheduledActivation stamp) := front _
theorem setRackSpindleControl (stamp : Nat) : Statement (.setRackSpindleControl stamp) := front _
theorem rackSpinUpAction (stamp : Nat) : Statement (.rackSpinUpAction stamp) := front _
theorem rackSpinDownAction (stamp : Nat) : Statement (.rackSpinDownAction stamp) := front _
theorem getRackSpindleControl (stamp : Nat) : Statement (.getRackSpindleControl stamp) := front _
theorem placementHintsAdd (stamp : Nat) (data : List Byte) : Statement (.placementHintsAdd stamp data) := front _
theorem placementHintsRemove (stamp : Nat) (data : List Byte) : Statement (.placementHintsRemove stamp data) := front _
theorem placementHintsRemoveAll (stamp : Nat) : Statement (.placementHintsRemoveAll stamp) := front _
theorem getPlacementHints (stamp : Nat) : Statement (.getPlacementHints stamp) := front _
theorem setCaptureWindowControl (stamp : Nat) : Statement (.setCaptureWindowControl stamp) := front _
theorem getCaptureWindowControl (stamp : Nat) : Statement (.getCaptureWindowControl stamp) := front _
theorem getLogSupportedPages (stamp : Nat) : Statement (.getLogSupportedPages stamp) := front _
theorem getLogErrorInformation (stamp : Nat) : Statement (.getLogErrorInformation stamp) := front _
theorem getLogSmartHealth (stamp : Nat) : Statement (.getLogSmartHealth stamp) := front _
theorem getLogFirmwareSlot (stamp : Nat) : Statement (.getLogFirmwareSlot stamp) := front _
theorem getLogChangedNamespaces (stamp : Nat) : Statement (.getLogChangedNamespaces stamp) := front _
theorem getLogCommandsEffects (stamp : Nat) : Statement (.getLogCommandsEffects stamp) := front _
theorem getLogDeviceSelfTest (stamp : Nat) : Statement (.getLogDeviceSelfTest stamp) := front _
theorem getLogSanitizeStatus (stamp : Nat) : Statement (.getLogSanitizeStatus stamp) := front _
theorem getLogPlacementReport (stamp : Nat) : Statement (.getLogPlacementReport stamp) := front _
theorem getLogEventRecorder (stamp : Nat) : Statement (.getLogEventRecorder stamp) := front _
theorem getLogDeferredError (stamp : Nat) : Statement (.getLogDeferredError stamp) := front _
theorem getLogFaultStatus (stamp : Nat) : Statement (.getLogFaultStatus stamp) := front _
theorem getLogHealthEarlyWarning (stamp : Nat) : Statement (.getLogHealthEarlyWarning stamp) := front _
theorem getLogAgeing (stamp : Nat) : Statement (.getLogAgeing stamp) := front _
theorem getLogMediaGeometry (stamp : Nat) : Statement (.getLogMediaGeometry stamp) := front _
theorem miReadDataStructure (tag dtyp port : Nat) : Statement (.miReadDataStructure tag dtyp port) := front _
theorem miSubsystemHealthPoll (tag : Nat) : Statement (.miSubsystemHealthPoll tag) := front _
theorem miControllerHealthPoll (tag first : Nat) : Statement (.miControllerHealthPoll tag first) := front _
theorem miConfigurationSet (tag cfg port v : Nat) : Statement (.miConfigurationSet tag cfg port v) := front _
theorem miConfigurationGet (tag cfg port : Nat) : Statement (.miConfigurationGet tag cfg port) := front _
theorem miTunnelledAdminCommand (tag : Nat) (sqe : Sqe) : Statement (.miTunnelledAdminCommand tag sqe) := front _
theorem rackSpinupTimeout : Statement (.rackSpinupTimeout) := front _
theorem spinupRetryWait : Statement (.spinupRetryWait) := front _
theorem rackStandbyTimeout : Statement (.rackStandbyTimeout) := front _
theorem spindleStopped : Statement (.spindleStopped) := front _
theorem stagingReadEnd (act : Nat) (good : Bool) (lost : Nat) : Statement (.stagingReadEnd act good lost) := front _
theorem bandWriteEnd (act : Nat) (good charge : Bool) : Statement (.bandWriteEnd act good charge) := front _
theorem lastTrackCheckEnd (act : Nat) (good charge : Bool) : Statement (.lastTrackCheckEnd act good charge) := front _
theorem parityBandReadbackEnd (act : Nat) (good charge : Bool) : Statement (.parityBandReadbackEnd act good charge) := front _
theorem stackSummaryWriteEnd (act copies : Nat) : Statement (.stackSummaryWriteEnd act copies) := front _
theorem stackIdleCloseTimeout (act : Nat) : Statement (.stackIdleCloseTimeout act) := front _
theorem rackSectorReadEnd (job : Nat) (good : Bool) (bits lost : Nat) : Statement (.rackSectorReadEnd job good bits lost) := front _
theorem rackKneadSelection (act : Nat) : Statement (.rackKneadSelection act) := front _
theorem rackScrubRead (act index bits : Nat) (ladder : Bool) (nsid lcn lost : Nat) (last : Bool) : Statement (.rackScrubRead act index bits ladder nsid lcn lost last) := front _
theorem rootCopyToRack : Statement (.rootCopyToRack) := front _
theorem wedgeRecord (act : Nat) (rec : BitVec 128) (write : Option (Nat × Bool)) : Statement (.wedgeRecord act rec write) := front _
theorem servoGo (act : Nat) (target : BitVec 32) (head : BitVec 4) (op : Nat) : Statement (.servoGo act target head op) := front _
theorem headSwitchSettle (act : Nat) : Statement (.headSwitchSettle act) := front _
theorem seekTimeLimit (act : Nat) : Statement (.seekTimeLimit act) := front _
theorem speedLoopUpdate (period at_ : Nat) (theta : Option Nat) : Statement (.speedLoopUpdate period at_ theta) := front _
theorem rotorSensingEnd (ambiguous : Bool) : Statement (.rotorSensingEnd ambiguous) := front _
theorem openLoopRampTimeout : Statement (.openLoopRampTimeout) := front _
theorem backEmfDetected : Statement (.backEmfDetected) := front _
theorem runUpSpeedReached : Statement (.runUpSpeedReached) := front _
theorem actuatorLoadEnd (act track : Nat) : Statement (.actuatorLoadEnd act track) := front _
theorem loadTimeout (act : Nat) : Statement (.loadTimeout act) := front _
theorem unloadEnd (act : Nat) : Statement (.unloadEnd act) := front _
theorem spindleSpeedErrorTimeout : Statement (.spindleSpeedErrorTimeout) := front _
theorem brakingSpeedReached : Statement (.brakingSpeedReached) := front _
theorem runoutQueueRefill (act : Nat) : Statement (.runoutQueueRefill act) := front _
theorem preampFault (act kind : Nat) (again : Bool) : Statement (.preampFault act kind again) := front _
theorem headCalibrationDue (act : Nat) : Statement (.headCalibrationDue act) := front _
theorem calibrationStepEnd (act : Nat) (again : Bool) (contact : Option Nat) (rates : List Nat) (rres : Nat) : Statement (.calibrationStepEnd act again contact rates rres) := front _
theorem sqFetchRetry : Statement (.sqFetchRetry) := front _
theorem tagReuseTimeout (tag : Nat) : Statement (.tagReuseTimeout tag) := front _
theorem refclkReturn : Statement (.refclkReturn) := front _
theorem activationStepTimeout : Statement (.activationStepTimeout) := front _
theorem timestampWaitExpiry : Statement (.timestampWaitExpiry) := front _
theorem preampFaultPersistence (act : Nat) : Statement (.preampFaultPersistence act) := front _
theorem vinOvervoltageCleared (mv : Nat) : Statement (.vinOvervoltageCleared mv) := front _

end Sys2Proof.Laws.Rows
end

