-- ==== Sys2Proof/Tests/Slice0.lean ====
section
/-!
SUPPORT. Witnesses of the hypotheses of the statements, the smoke test of well-formedness, and small tests of single commands.
-/
namespace Sys2Proof.Machine
open Sys2Proof

set_option Elab.async false

/-- An admin command of the admin queue with stamp 1: opcode and dwords from CDW10. -/
def adm (op : Nat) (dws : List Nat) : Ctx := { stamp := 1, origin := .sq 0 7, opcode := BitVec.ofNat 8 op, cdw := dws.map (BitVec.ofNat 32) }
/-- The state after reset with one context held. -/
def withCtx (c : Ctx) : State := State.reset.modHost fun h => { h with ctxs := [c] }
/-- The state after reset with one admin command held. -/
def held (op : Nat) (dws : List Nat) : State := withCtx (adm op dws)
/-- The same command for a namespace. -/
def Ctx.forNs (c : Ctx) (nsid : Nat) : Ctx := { c with nsid := nsid }
/-- One attached namespace, of identifier 1, with the LBA format of `flbas`. -/
def oneNs (flbas : Nat) (s : State) : State := s.modNvme fun n => { n with nss := [(1, { nsze := 4096, flbas := flbas, attached := true })] }
/-- A Stream Format record: layout 0, 8-bit samples, width 2, height 1, namespace 1, one chunk from LBA 0. -/
def fmtBytes : List Byte :=
  leBytes 4 (1 + 8 * 256) ++ leBytes 2 2 ++ leBytes 2 1 ++ leBytes 4 1 ++ leBytes 4 0 ++ leBytes 8 0 ++ leBytes 8 1 ++ leBytes 32 0
/-- One attached namespace, of identifier 1, and a held admin command. -/
def heldNs (op : Nat) (dws : List Nat) : State := oneNs 0 (withCtx ((adm op dws).forNs 1))
/-- The running set of components 1 to 5, of version 0 and without a COMPAT table. -/
def withSet (s : State) : State := s.modFw fun f => { f with running := (List.range 5).map fun i => (i + 1, {}), runSlot := 1 }
/-- The header of a wrapper of component 2 with an empty body, without its CRC. -/
def wrapHead : List Byte := leBytes 4 0x57464B59 ++ leBytes 4 (2 + 2 ^ 8 + 2 ^ 9 + 2 ^ 24) ++ leBytes 244 0
/-- The wrapper with a header CRC. -/
def wrapOf (x : Nat) : List Byte := wrapHead ++ leBytes 4 x ++ leBytes 96 0
/-- The wrapper. -/
def wrapBytes : List Byte := wrapOf (crc32c wrapHead).toNat
/-- A placement hint of eight LBAs of namespace 1, kind 1. -/
def hintBytes : List Byte := leBytes 8 0 ++ leBytes 4 8 ++ leBytes 4 1 ++ leBytes 4 1 ++ leBytes 12 0
/-- Power is up: VIN_MAIN at 12 V for long enough. -/
def mayBoot : State := { State.reset.modPwr (fun p => { p with aon := true, vinMain := 12000, mainSince := 0 }) with now := 10 * ms }
/-- An image without keys for which the Rack tier is present: 2 actuators with 3 heads each, one zone of 32 bands. -/
def rackImg : Tab (List Byte) := [(0x0401, leBytes 2 3 ++ leBytes 2 3), (0x0402, leBytes 4 32 ++ leBytes 4 64 ++ leBytes 2 400 ++ leBytes 2 100)]
/-- The Rack tier is present and spins at speed. -/
def onRack (s : State) : State := (s.modCfg fun c => { c with img := { c.img with common := rackImg } }).modRack fun r => { r with spin := .ready }
/-- A location in Bake span 2. -/
def baked : Loc := { tier := .bake, span := 2, crumbs := 4 }
/-- Chunk 5 of namespace 1 is mapped at a location. -/
def mappedAt (l : Loc) (s : State) : State := s.modMap fun m => { m with map := tput m.map (chunkKey 1 5) { state := .mapped, loc := l } }
/-- Bake span 2 is closed and due for a rebuild. -/
def closedSpan (s : State) : State := s.modFlash fun f => { f with spans := [(2, { tier := .bake, phase := .closed, rebuildDue := true })] }
/-- The die runs: AON powered and no core reset. -/
def awake (s : State) : State := s.modPwr fun p => { p with aon := true, crst := false }
/-- The endpoint answers, with BAR0 at 0x10000000, BAR2 at 0x20000000 and BAR4 at 0x30000000. -/
def reachable : State := State.reset.modPcie fun p => { p with linkUp := true, present := true, memEn := true, perstN := true, crs := none, bar0 := 0x10000000, bar2 := 0x20000000, bar4 := 0x30000000 }
/-- A start that has reached a stage. -/
def atStage (x : BootStage) : State := State.reset.modFw fun f => { f with stage := x }
/-- The endpoint answers: the link is up and BAR0 holds the NVMe registers. -/
def linked : State := State.reset.modPcie fun p => { p with linkUp := true, present := true, memEn := true }
/-- The endpoint answers and the controller is ready, with one queue of 4 entries, of which one waits. -/
def fetching (qid : Nat) : State := (reachable.modPcie fun p => { p with bmEn := true, outstanding := [{ kind := .sqFetch qid, arrived := true }] }).modNvme fun m =>
  { m with en := true, rdy := true, sqs := [(qid, { size := 4, tail := 1 })], cqs := [(qid, { size := 4 })] }

theorem witness_AStepRunsTheFrontCommand : (State.reset.setPending [.flush 1, .refclkReturn]).pending = [.flush 1, .refclkReturn] := by decide

theorem witness_AnEmptyQueueIdles : State.reset.pending = [] := by decide

theorem witness_NothingIsTakenBack : ∃ t, exec (.ospiLock) State.reset = .next t := ⟨_, rfl⟩

theorem witness_TheAgeingOffsetNeverFalls : (∃ t, exec (.ospiLock) State.reset = .next t) ∧ AgeingLegal State.reset.pwr.ageOffset State.reset.pwr.ceiling :=
  ⟨⟨_, rfl⟩, by unfold AgeingLegal; decide⟩

theorem witness_EveryStepKeepsTheInvariants : NvmCanonical (State.reset.setPending [.ospiLock]) ∧ AgeingLegal State.reset.pwr.ageOffset State.reset.pwr.ceiling ∧ StartPast (State.reset.setPending [.ospiLock]) ∧
    (∃ t, step (State.reset.setPending [.ospiLock]) = .next t) := by
  refine ⟨?_, ?_, ?_, _, rfl⟩
  · unfold NvmCanonical; decide
  · unfold AgeingLegal; decide
  · unfold StartPast; decide

theorem witness_AnAnsweredCommandIsGone : HeldIo (withCtx { stamp := 1, origin := .sq 1 7, opcode := 0, nsid := 1 }) 1 0 { stamp := 1, origin := .sq 1 7, opcode := 0, nsid := 1 } ∧
    HeldLog (held 2 [0x05]) 1 0x05 4096 (adm 2 [0x05]) := by
  and_intros <;> decide +kernel

theorem witness_BootNvmBytesOutsideAnOperationStay :
    ((State.reset.modOspi fun o => { o with busy := [some { addr := 8, bytes := [1, 2] }, none] }).ospi.busy.getD 0 none = some { addr := 8, bytes := [1, 2] }) ∧
    ((State.reset.modOspi fun o => { o with busy := [some { erase := true, addr := 65536 }, none] }).ospi.busy.getD 0 none = some { erase := true, addr := 65536 }) := by
  and_intros <;> decide

theorem witness_TheAssistLimitIsTheLower : State.reset.calRec 3 = none ∧
    (State.reset.modChan fun c => { c with heads := [(3, { cal := some { baseAssist := 7 } })] }).calRec 3 = some { baseAssist := 7 } ∧
    (State.reset.modChan fun c => { c with heads := [(3, { cal := some {} })] }).calRec 3 = some {} := by
  and_intros <;> decide

theorem witness_SetFeatureStoresValue :
    HeldSet (held 9 [0x01, 7]) 1 0x01 (adm 9 [0x01, 7]) ∧
    (HeldSet (held 9 [0x05, 0xFFFF]) 1 0x05 (adm 9 [0x05, 0xFFFF]) ∧ bitAt ((adm 9 [0x05, 0xFFFF]).dw 11) 16 = false) ∧
    HeldSet (held 9 [0x07, 0]) 1 0x07 (adm 9 [0x07, 0]) ∧ HeldSet (held 9 [0x08, 0xFFFF]) 1 0x08 (adm 9 [0x08, 0xFFFF]) ∧
    (HeldSet (held 9 [0x09, 1024]) 1 0x09 (adm 9 [0x09, 1024]) ∧ bits ((adm 9 [0x09, 1024]).dw 11) 0 16 ≤ 1024) ∧
    HeldSet (held 9 [0x0A, 1]) 1 0x0A (adm 9 [0x0A, 1]) ∧ HeldSet (held 9 [0x0B, 0x300]) 1 0x0B (adm 9 [0x0B, 0x300]) ∧
    (HeldSet (held 9 [0x10, 0x00010002]) 1 0x10 (adm 9 [0x10, 0x00010002]) ∧
      bits ((adm 9 [0x10, 0x00010002]).dw 11) 16 16 < bits ((adm 9 [0x10, 0x00010002]).dw 11) 0 16) := by
  and_intros <;> decide

theorem witness_GetFeatureAnswersValue :
    HeldGet (held 10 [0x101]) 1 0x01 1 (adm 10 [0x101]) ∧ HeldGet (held 10 [0x001]) 1 0x01 0 (adm 10 [0x001]) ∧
    (HeldGet (held 10 [0x04, 0x60000]) 1 0x04 0 (adm 10 [0x04, 0x60000]) ∧ bits ((adm 10 [0x04, 0x60000]).dw 11) 16 4 ≤ 6 ∧ bits ((adm 10 [0x04, 0x60000]).dw 11) 20 2 = 0) ∧
    (HeldGet (held 10 [0x04, 0x100000]) 1 0x04 0 (adm 10 [0x04, 0x100000]) ∧ bits ((adm 10 [0x04, 0x100000]).dw 11) 16 4 ≤ 6 ∧ bits ((adm 10 [0x04, 0x100000]).dw 11) 20 2 = 1) ∧
    HeldGet (held 10 [0x05]) 1 0x05 0 (adm 10 [0x05]) ∧ HeldGet (held 10 [0x07]) 1 0x07 0 (adm 10 [0x07]) ∧ HeldGet (held 10 [0x08]) 1 0x08 0 (adm 10 [0x08]) ∧
    (HeldGet (held 10 [0x09, 1024]) 1 0x09 0 (adm 10 [0x09, 1024]) ∧ bits ((adm 10 [0x09, 1024]).dw 11) 0 16 ≤ 1024) ∧
    HeldGet (held 10 [0x0A]) 1 0x0A 0 (adm 10 [0x0A]) ∧ HeldGet (held 10 [0x0B]) 1 0x0B 0 (adm 10 [0x0B]) ∧ HeldGet (held 10 [0x10]) 1 0x10 0 (adm 10 [0x10]) ∧
    HeldGet (held 10 [0xC3]) 1 0xC3 0 (adm 10 [0xC3]) ∧ HeldGet (held 10 [0xC5]) 1 0xC5 0 (adm 10 [0xC5]) := by
  and_intros <;> decide

theorem witness_FeatureRefusals :
    (Held (held 9 [0x80000001]) 1 0x09 (adm 9 [0x80000001]) ∧ bits ((adm 9 [0x80000001]).dw 10) 0 8 = 0x01 ∧ bitAt ((adm 9 [0x80000001]).dw 10) 31 = true) ∧
    (Held (held 10 [0x305]) 1 0x0A (adm 10 [0x305]) ∧ bits ((adm 10 [0x305]).dw 10) 0 8 = 0x05 ∧ bits ((adm 10 [0x305]).dw 10) 8 3 = 3) ∧
    (HeldSet (held 9 [0x05, 0x10000]) 1 0x05 (adm 9 [0x05, 0x10000]) ∧ bitAt ((adm 9 [0x05, 0x10000]).dw 11) 16 = true) ∧
    (HeldSet (held 9 [0x09, 1025]) 1 0x09 (adm 9 [0x09, 1025]) ∧ 1024 < bits ((adm 9 [0x09, 1025]).dw 11) 0 16) ∧
    (HeldGet (held 10 [0x09, 1025]) 1 0x09 0 (adm 10 [0x09, 1025]) ∧ 1024 < bits ((adm 10 [0x09, 1025]).dw 11) 0 16) ∧
    (HeldSet (held 9 [0x10, 0x00020002]) 1 0x10 (adm 9 [0x10, 0x00020002]) ∧ bits ((adm 9 [0x10, 0x00020002]).dw 11) 0 16 ≠ 0 ∧
      bits ((adm 9 [0x10, 0x00020002]).dw 11) 0 16 ≤ bits ((adm 9 [0x10, 0x00020002]).dw 11) 16 16) ∧
    (HeldSet (held 9 [0x04, 0x70000]) 1 0x04 (adm 9 [0x04, 0x70000]) ∧ 6 < bits ((adm 9 [0x04, 0x70000]).dw 11) 16 4 ∧ bits ((adm 9 [0x04, 0x70000]).dw 11) 16 4 ≠ 15) ∧
    (HeldGet (held 10 [0x04, 0x200000]) 1 0x04 0 (adm 10 [0x04, 0x200000]) ∧ 1 < bits ((adm 10 [0x04, 0x200000]).dw 11) 20 2) := by
  and_intros <;> decide

theorem witness_TemperatureThresholdAndTimestamp :
    (HeldSet (held 9 [0x04, 0x60000]) 1 0x04 (adm 9 [0x04, 0x60000]) ∧ bits ((adm 9 [0x04, 0x60000]).dw 11) 16 4 ≤ 6 ∧ bits ((adm 9 [0x04, 0x60000]).dw 11) 20 2 = 0) ∧
    (HeldSet (held 9 [0x04, 0x100000]) 1 0x04 (adm 9 [0x04, 0x100000]) ∧ bits ((adm 9 [0x04, 0x100000]).dw 11) 16 4 ≤ 6 ∧ bits ((adm 9 [0x04, 0x100000]).dw 11) 20 2 = 1) ∧
    (HeldSet (held 9 [0x04, 0xF0000]) 1 0x04 (adm 9 [0x04, 0xF0000]) ∧ bits ((adm 9 [0x04, 0xF0000]).dw 11) 16 4 = 15 ∧ bits ((adm 9 [0x04, 0xF0000]).dw 11) 20 2 = 0) ∧
    HeldSet (held 9 [0x0E]) 1 0x0E (adm 9 [0x0E]) ∧ HeldGet (held 10 [0x10E]) 1 0x0E 1 (adm 10 [0x10E]) ∧
    (State.reset.modNvme fun n => { n with readyAt := some 5 }).nvme.readyAt = some 5 := by
  and_intros <;> decide

/-- A Get Log Page of one dword. -/
def heldLog (lid : Nat) (off : Nat) : State := held 2 [lid, 0, off]
theorem witness_LogPagesAnswerTheirContents :
    HeldLog (heldLog 0x00 1020) 1 0x00 1024 (adm 2 [0x00, 0, 1020]) ∧ HeldLog (heldLog 0x01 0) 1 0x01 4096 (adm 2 [0x01, 0, 0]) ∧
    HeldLog (heldLog 0x05 4092) 1 0x05 4096 (adm 2 [0x05, 0, 4092]) ∧ HeldLog (heldLog 0x06 560) 1 0x06 564 (adm 2 [0x06, 0, 560]) ∧
    HeldLog (heldLog 0x81 0) 1 0x81 512 (adm 2 [0x81, 0, 0]) ∧ HeldLog (heldLog 0xC0 508) 1 0xC0 512 (adm 2 [0xC0, 0, 508]) ∧
    HeldLog (heldLog 0xC1 4096) 1 0xC1 ringEnd (adm 2 [0xC1, 0, 4096]) ∧ HeldLog (heldLog 0xC5 0) 1 0xC5 512 (adm 2 [0xC5, 0, 0]) ∧
    HeldLog (heldLog 0xC6 0) 1 0xC6 4096 (adm 2 [0xC6, 0, 0]) := by
  and_intros <;> decide

theorem witness_LogPagesThatClearWhatTheyShow :
    HeldLog (heldLog 0x02 508) 1 0x02 512 (adm 2 [0x02, 0, 508]) ∧ HeldLog (heldLog 0x03 0) 1 0x03 512 (adm 2 [0x03, 0, 0]) ∧
    HeldLog (heldLog 0x04 0) 1 0x04 4096 (adm 2 [0x04, 0, 0]) ∧
    (Held (oneNs 0 (withCtx ((adm 2 [0xC2, 0, 0]).forNs 1))) 1 0x02 ((adm 2 [0xC2, 0, 0]).forNs 1) ∧
      (oneNs 0 (withCtx ((adm 2 [0xC2, 0, 0]).forNs 1))).nsActive 1 = true) ∧
    (Held (heldLog 0xC2 0) 1 0x02 (adm 2 [0xC2, 0, 0]) ∧ (heldLog 0xC2 0).nsActive 0 = false) ∧
    HeldLog (heldLog 0xC3 16444) 1 0xC3 16448 (adm 2 [0xC3, 0, 16444]) ∧ HeldLog (heldLog 0xC4 0) 1 0xC4 4096 (adm 2 [0xC4, 0, 0]) := by
  and_intros <;> decide

theorem witness_VendorFeaturesTakeEffect :
    (HeldSet (heldNs 9 [0xC0, 3]) 1 0xC0 ((adm 9 [0xC0, 3]).forNs 1) ∧ (heldNs 9 [0xC0, 3]).barrierClear ((adm 9 [0xC0, 3]).forNs 1) = true ∧
      (formatOfBytes fmtBytes).valid = true ∧ formatReserved fmtBytes = false ∧ (heldNs 9 [0xC0, 3]).formatOk 3 (formatOfBytes fmtBytes) false = true) ∧
    (HeldSet (held 9 [0xC0, 3]) 1 0xC0 (adm 9 [0xC0, 3]) ∧ (held 9 [0xC0, 3]).barrierClear (adm 9 [0xC0, 3]) = true ∧
      (held 9 [0xC0, 3]).formatOk 3 (formatOfBytes fmtBytes) false = false) ∧
    HeldGet (held 10 [0xC0, 255]) 1 0xC0 0 (adm 10 [0xC0, 255]) ∧
    (HeldSet (held 9 [0xC3, 0xA01]) 1 0xC3 (adm 9 [0xC3, 0xA01]) ∧ bits 0xA01 1 2 = 0 ∧ bits 0xA01 4 4 = 0 ∧ bits 0xA01 8 24 = 10) ∧
    (HeldSet (held 9 [0xC3, 0x00B]) 1 0xC3 (adm 9 [0xC3, 0x00B]) ∧ bits 0x00B 1 2 = 1 ∧ bitAt 0x00B 3 = true ∧ bitAt 0x00B 0 = true) ∧
    ((held 9 [0xC3, 0x00B]).modRack fun r => { r with spin := .stopped }).rack.spin = .stopped ∧
    ((held 9 [0xC3, 0x00B]).modRack fun r => { r with spin := .lowv }).rack.spin = .lowv ∧
    (HeldSet (held 9 [0xC3, 0x00C]) 1 0xC3 (adm 9 [0xC3, 0x00C]) ∧ bits 0x00C 1 2 = 2 ∧ bitAt 0x00C 3 = true) ∧
    (HeldSet (heldNs 9 [0xC4, 1]) 1 0xC4 ((adm 9 [0xC4, 1]).forNs 1) ∧
      ((heldNs 9 [0xC4, 1]).hintsOf true 0 [hintBytes]).1 = 0 ∧ bits 1 0 9 = 1 ∧ bits 1 9 2 = 0) ∧
    (HeldSet (heldNs 9 [0xC4, 0x201]) 1 0xC4 ((adm 9 [0xC4, 0x201]).forNs 1) ∧ bits 0x201 9 2 = 1 ∧
      (((heldNs 9 [0xC4, 0x201]).modPlace fun p => { p with hints := (p.hints ++ ((heldNs 9 [0xC4, 1]).hintsOf true 0 [hintBytes]).2) }).hintsOf false 1 [hintBytes]).1 = 0) ∧
    (HeldSet (held 9 [0xC4, 0x400]) 1 0xC4 (adm 9 [0xC4, 0x400]) ∧ bits 0x400 9 2 = 2) ∧ HeldGet (held 10 [0xC4]) 1 0xC4 0 (adm 10 [0xC4]) ∧
    (HeldSet (held 9 [0xC5, 2 + 10 * 16384]) 1 0xC5 (adm 9 [0xC5, 2 + 10 * 16384]) ∧ bits (2 + 10 * 16384) 14 14 = 10 ∧ (held 9 [0xC5, 0]).win.setQ = []) := by
  and_intros <;> decide

/-- The same state in test mode. -/
def tested (s : State) : State := s.modCfg fun c => { c with testMode := true }
/-- The same state with the ring started. -/
def ringOn (s : State) : State := s.modEvt fun e => { e with started := true }
theorem witness_FaultInjectAndEventClears :
    (Held (tested (held 0xC4 [0x10001])) 1 0xC4 (adm 0xC4 [0x10001]) ∧ (tested (held 0xC4 [0x10001])).cfg.testMode = true ∧
      bitAt ((adm 0xC4 [0x10001]).dw 10) 17 = false ∧ defaultClass (bits ((adm 0xC4 [0x10001]).dw 10) 0 10) ≠ 0) ∧
    (Held (held 0xC4 [1]) 1 0xC4 (adm 0xC4 [1]) ∧ (held 0xC4 [1]).cfg.testMode = false) ∧
    (Held (tested (held 0xC4 [0x20000])) 1 0xC4 (adm 0xC4 [0x20000]) ∧ bitAt ((adm 0xC4 [0x20000]).dw 10) 17 = true) ∧
    (Held (ringOn (held 0xC8 [7, 0])) 1 0xC8 (adm 0xC8 [7, 0]) ∧ (ringOn (held 0xC8 [7, 0])).evt.started = true ∧
      (ringOn (held 0xC8 [7, 0])).dram.selfRefresh = false ∧ (ringOn (held 0xC8 [7, 0])).evt.clears = []) ∧
    (Held (ringOn (held 0xC8 [0, 1])) 1 0xC8 (adm 0xC8 [0, 1]) ∧ (ringOn (held 0xC8 [0, 1])).evt.started = true) ∧
    (Held (held 0xC8 [0, 1]) 1 0xC8 (adm 0xC8 [0, 1]) ∧ (held 0xC8 [0, 1]).evt.started = false) := by
  and_intros <;> decide

/-- The state with the running set and one wrapper in the firmware buffer. -/
def withImage (s : State) : State := (withSet s).modFw fun f => { f with buf := wrapBytes }
theorem leBytes_length (w x : Nat) : (leBytes w x).length = w := by
  induction w generalizing x with
  | zero => rfl
  | succ n ih => simp [leBytes, ih]
theorem wrapHead_length : wrapHead.length = 252 := by simp [wrapHead, leBytes_length]
/-- A byte of the header stands in the wrapper, whatever its CRC. -/
theorem wrapOf_field (x off w : Nat) (h : off + w ≤ 252) : fieldAt (wrapOf x) off w = fieldAt wrapHead off w := by
  unfold fieldAt wrapOf
  rw [List.append_assoc, List.drop_append_of_le_length (by rw [wrapHead_length]; omega), List.take_append_of_le_length]
  rw [List.length_drop, wrapHead_length]; omega
theorem wrapOf_crc (x : Nat) (hx : x < 2 ^ 32) : fieldAt (wrapOf x) 252 4 = x := by
  unfold fieldAt wrapOf
  rw [List.append_assoc, List.drop_left' wrapHead_length, List.take_left' (leBytes_length 4 x)]
  simp [leBytes, leNat]; omega
theorem wrapOf_take (x : Nat) : (wrapOf x).take 252 = wrapHead := by
  unfold wrapOf; rw [List.append_assoc, List.take_left' wrapHead_length]
theorem wrapOf_zeros (x : Nat) : ((wrapOf x).drop 96).take 156 = (wrapHead.drop 96).take 156 := by
  unfold wrapOf
  rw [List.append_assoc, List.drop_append_of_le_length (by rw [wrapHead_length]; omega), List.take_append_of_le_length]
  rw [List.length_drop, wrapHead_length]
theorem wrapOf_length (x : Nat) : (wrapOf x).length = 352 := by simp [wrapOf, wrapHead_length, leBytes_length]
theorem wrapOf_len (x : Nat) : wrapLen (wrapOf x) = 352 := by
  unfold wrapLen; rw [wrapOf_field x 0xC 4 (by decide), wrapOf_field x 4 4 (by decide)]; decide +kernel
theorem wrapOf_comp (x : Nat) : wrapComp (wrapOf x) = 2 := by
  unfold wrapComp; rw [wrapOf_field x 4 1 (by decide)]; decide +kernel
theorem wrapOf_form (x : Nat) (h : (crc32c wrapHead).toNat = x) (hx : x < 2 ^ 32) : wrapForm (wrapOf x) = true := by
  have z : wrapBody (wrapOf x) = [] := by unfold wrapBody; rw [wrapOf_field x 0xC 4 (by decide)]; rfl
  unfold wrapForm
  simp only [wrapOf_comp, wrapOf_len, wrapOf_length, z, wrapOf_take, wrapOf_zeros, wrapOf_crc x hx, h, wrapOf_field x 0 4 (by decide), wrapOf_field x 4 4 (by decide),
    wrapOf_field x 0x12 2 (by decide), wrapOf_field x 0x14 4 (by decide), wrapOf_field x 0x5C 4 (by decide), wrapOf_field x 0x10 2 (by decide)]
  simp
  and_intros <;> decide +kernel
theorem witness_FirmwareDownloadAndCommit_wrapper : State.reset.wrapGood [] wrapBytes = true := by
  have h := wrapOf_form _ rfl (crc32c wrapHead).isLt
  unfold State.wrapGood wrapBytes
  rw [wrapOf_comp, h, wrapOf_field _ 0x10 2 (by decide)]
  decide +kernel
theorem witness_FirmwareDownloadAndCommit_package : packageOf wrapBytes = some [(2, wrapBytes)] := by
  have e : ∀ x, (wrapOf x).isEmpty = false := fun x => by
    rw [List.isEmpty_eq_false_iff]; intro h; have := wrapOf_length x; rw [h] at this; simp at this
  have c : cutPackage 5 wrapBytes = some [wrapBytes] := by
    unfold wrapBytes cutPackage
    simp [e, wrapOf_len, wrapOf_length, cutPackage]
  unfold packageOf
  rw [c]
  simp [wrapBytes, wrapOf_comp, tput]
theorem witness_FirmwareDownloadAndCommit :
    (Held (held 0x11 [0, 0]) 1 0x11 (adm 0x11 [0, 0]) ∧ (held 0x11 [0, 0]).fw.act = none) ∧
    (Held (withImage (held 0x11 [0, 88])) 1 0x11 (adm 0x11 [0, 88]) ∧ (withImage (held 0x11 [0, 88])).fw.buf.length = 4 * 88) ∧
    (Held (withImage (held 0x11 [0, 1])) 1 0x11 (adm 0x11 [0, 1]) ∧ (withImage (held 0x11 [0, 1])).fw.buf.length ≠ 4) ∧
    (Held (withImage (held 0x10 [0])) 1 0x10 (adm 0x10 [0]) ∧ Held (withImage (held 0x10 [8])) 1 0x10 (adm 0x10 [8]) ∧
      Held (withImage (held 0x10 [24])) 1 0x10 (adm 0x10 [24]) ∧ 3 - (withImage (held 0x10 [0])).fw.runSlot ≠ (withImage (held 0x10 [0])).fw.runSlot) ∧
    ((withImage (held 0x10 [0])).ospi.prot = [] ∧ compatible (tput (withImage (held 0x10 [0])).fw.running 2 (wrapInfo wrapBytes)) = true) ∧
    (Held (withSet (held 0x10 [17])) 1 0x10 (adm 0x10 [17]) ∧ (withSet (held 0x10 [17])).fw.running ≠ [] ∧ compatible (withSet (held 0x10 [17])).fw.running = true ∧
      bits ((adm 0x10 [17]).dw 10) 3 3 = 2 ∧ bits ((adm 0x10 [17]).dw 10) 0 3 = 1 ∧ ∀ e ∈ (withSet (held 0x10 [17])).fw.running, e.1 = 5 ∨ 0 ≤ e.2.svn) ∧
    (HeldSet ((held 9 [0xC2]).modNvme fun n => { n with tsBase := some (5, 0) }) 1 0xC2 (adm 9 [0xC2]) ∧ fieldAt (leBytes 8 1 ++ leBytes 8 9) 0 4 = 1 ∧
      fieldAt (leBytes 8 1 ++ leBytes 8 9) 6 2 = 0 ∧ fieldAt (leBytes 8 1 ++ leBytes 8 9) 8 8 = 9) ∧
    (HeldSet (held 9 [0xC2]) 1 0xC2 (adm 9 [0xC2]) ∧ fieldAt (leBytes 16 0) 0 4 = 0) ∧ HeldGet (held 10 [0xC2]) 1 0xC2 0 (adm 10 [0xC2]) := by
  and_intros <;> decide +kernel

/-- A pending swap to the drain profile. -/
def swapping (s : State) : State := s.modCfg fun c => { c with swap := some { drain := true, trig := .pin, trigAt := 0 } }
theorem witness_ProfileChangesAtItsTrigger :
    (Held (held 0xC0 [0]) 1 0xC0 (adm 0xC0 [0]) ∧ (held 0xC0 [0]).nvme.pp = false ∧ (held 0xC0 [0]).pwr.pl.running = false ∧ 1 ∉ (held 0xC0 [0]).cfg.waiters ∧
      (held 0xC0 [0]).cfg.swap = none ∧ (held 0xC0 [0]).cfg.pinEn = false ∧ (held 0xC0 [0]).cfg.drainActive = false) ∧
    (Held (held 0xC0 [1]) 1 0xC0 (adm 0xC0 [1]) ∧ bitAt ((adm 0xC0 [1]).dw 10) 0 = true) ∧
    (((held 0xC0 [1]).modCfg fun c => { c with pinEn := true, recordDeb := true }).cfg.pinEn = true ∧ pinDrain true = false) ∧
    (HeldSet ((held 9 [0xC1]).modNvme fun n => { n with tsBase := some (5, 0) }) 1 0xC1 (adm 9 [0xC1]) ∧ fieldAt (leBytes 8 2 ++ leBytes 8 9) 0 4 = 2 ∧
      ((held 9 [0xC1]).modNvme fun n => { n with tsBase := some (5, 0) }).stamp = 5 ∧ fieldAt (leBytes 8 2 ++ leBytes 8 9) 8 8 = 9) ∧
    HeldGet (held 10 [0xC1]) 1 0xC1 0 (adm 10 [0xC1]) ∧
    ((swapping State.reset).cfg.swap = some { drain := true, trig := .pin, trigAt := 0 } ∧ (swapping State.reset).safeState = false) ∧
    true ≠ State.reset.cfg.record ∧
    ((State.reset.modCfg fun c => { c with record := true }).modPwr fun p => { p with aon := true }).pwr.aon = true ∧
    (let s := (State.reset.modCfg fun c => { c with schedEn := true }).modNvme fun n => { n with tsBase := some (5, 0) }
     s.cfg.schedEn = true ∧ s.nvme.tsBase.isSome = true ∧ s.cfg.schedTime.toNat ≤ s.stamp ∧ s.swapOrder true = false) ∧
    (let s := (State.reset.modCfg fun c => { c with schedEn := true }).modNvme fun n => { n with tsBase := some (5, 0), cycle := [{ op := 0xC0, cdw := [1] }] }
     s.swapOrder (!s.cfg.schedDrain) = true) := by
  and_intros <;> decide

/-- An activation in progress. -/
def activating (a : Activation) : State := State.reset.modFw fun f => { f with act := some a }
theorem witness_ActivationReplacesTheSet :
    (let s := (activating { slot := 2, comps := [], scheduled := true }).modNvme fun n => { n with tsBase := some (5, 0) }
     s.fw.act = some { slot := 2, comps := [], scheduled := true } ∧ s.nvme.tsBase.isSome = true ∧ s.fw.actTime.toNat ≤ s.stamp ∧ s.pwr.pl.running = false) ∧
    (let s := activating { slot := 2, comps := [], trigger := some 0 }
     s.fw.act = some { slot := 2, comps := [], trigger := some 0 } ∧ s.mayActivate = true) ∧
    (activating { slot := 2, comps := [], trigger := some 0, step := .running }).fw.act.map (·.step) = some .running ∧
    ((activating { slot := 2, comps := [], trigger := some 0 }).modFlt fun t => { t with state := .safe }).safeState = true ∧
    (activating { slot := 2, comps := [], step := .coreWait }).fw.act.map (·.step) = some .coreWait := by
  and_intros <;> decide

/-- Bank 0 of the boot NVM is busy with an operation. -/
def nvmBusy (op : OspiOp) : State := State.reset.modOspi fun o => { o with busy := [some op, none] }
theorem witness_BootNvmOperations :
    (nvmBusy { erase := false, addr := 256, bytes := [1], start := 0 }).ospi.busy.getD 0 none = some { erase := false, addr := 256, bytes := [1], start := 0 } ∧
    (nvmBusy { erase := true, addr := 0, bytes := [], start := 0 }).ospi.busy.getD 0 none = some { erase := true, addr := 0, bytes := [], start := 0 } ∧
    ((nvmBusy { erase := true, addr := 0, bytes := [], start := 0, failed := true }).ospi.busy.getD 0 none).map (·.failed) = some true ∧
    ((nvmBusy { erase := true, addr := 0, bytes := [], start := 0 }).ospi.busy.getD ((nvmBusy { erase := true, addr := 0, bytes := [], start := 0 }).bankOf 5) none).isSome = true := by
  and_intros <;> decide

/-- The state with power on and the core out of reset. -/
def powered (s : State) : State := s.modPwr fun p => { p with crst := false, aon := true }
theorem witness_PowerStatesAndGovernor :
    HeldSet (held 9 [0x02, 4]) 1 0x02 (adm 9 [0x02, 4]) ∧ HeldSet (held 9 [0x02, 5]) 1 0x02 (adm 9 [0x02, 5]) ∧ HeldGet (held 10 [0x02]) 1 0x02 0 (adm 10 [0x02]) ∧
    ((powered State.reset).pwr.crst = false ∧ (powered State.reset).pwr.pl.running = false) ∧
    (13 ∉ (powered State.reset).pwr.gated ∧ gatable (powered State.reset).pwr.ps 13 = true ∧ (powered State.reset).domainIdle 13 = true) ∧
    gatable ((powered State.reset).modPwr fun p => { p with ps := 4 }).pwr.ps 4 = true ∧
    2 ∈ ((powered State.reset).modPwr fun p => { p with gated := [2] }).pwr.gated ∧
    (((powered State.reset).modPwr fun p => { p with op := 2, opTarget := some 2 }).pwr.opTarget = some 2 ∧ State.reset.pwr.opNext = none) := by
  and_intros <;> decide
/-- With activity weights that are not known the average of no activity is 0, which is not above any budget. -/
theorem witness_PowerStatesAndGovernor_average : ((([] : List Nat).zipIdx).foldl (fun n e => n + e.1 * Config.activityWeight e.2) 0) = 0 := rfl

/-- A source that has an unacknowledged fault, and one with a suppressed occurrence. -/
def faulty (id : Nat) : State := State.reset.modFlt fun t => { t with srcs := [(id, { pending := true, suppressed := 3 })] }
/-- One record waits for the mirror, and the map is mounted. -/
def mirroring (r : Rec) : State :=
  (State.reset.modEvt fun e => { e with pend := [r], started := true }).modMap fun m => { m with mounted := true }
theorem witness_FaultsRaiseAckEscalate :
    (((faulty 0x20).src 0x20).pending = true ∧ (faulty 0x20).safeState = false ∧ (faulty 0x20).flt.suspect = false) ∧
    ((State.reset.modFw fun f => { f with stage := .core }).monitorsPaused = false ∧ (State.reset.modFlt fun t => { t with collector := true }).flt.collector = true) ∧
    actuatorSource 0x201 = some 0 ∧
    (faulty 0x20).flt.srcs.filter (fun e => decide (e.2.suppressed ≠ 0)) = [(0x20, { pending := true, suppressed := 3 })] ∧
    ((mirroring { id := 1 }).evt.pend ≠ [] ∧ (∀ r ∈ (mirroring { id := 1 }).evt.pend, r.urgent = false) ∧
      (mirroring { id := 1 }).evt.pend.foldl (fun n r => n + r.len) 0 < 16384) ∧
    (∃ r ∈ (mirroring { id := 0x1401 }).evt.pend, r.urgent = true) := by
  and_intros <;> decide

/-- The collector in a state. -/
def inState (x : FltState) (done : Bool) : State := State.reset.modFlt fun t => { t with state := x, entryDone := done }
/-- A fabric transfer that was re-sent. -/
def resent (n : Nat) : State := State.reset.modFab fun f => { f with xfers := [{ src := portOf 0, dst := portOf 1, blk := 7, resends := n }] }
/-- Unit 2 of kind 0 is fenced. -/
def fenced02 : State := State.reset.modPlace fun p => { p with fenceCoder := 4 }
theorem witness_SafeStateEntryAndRecovery :
    ((inState .safe false).safeState = true ∧ (inState .safe false).flt.entryDone = false) ∧ (inState .safe true).flt.state = .safe ∧
    ((inState .recovering true).flt.state = .recovering ∧ (inState .recovering true).pwr.pl.running = false) ∧
    ((State.reset.fab.xfers.find? fun (x : FabXfer) => x.blk == 7).map (·.resends)).getD 0 = 0 ∧
    (((resent 3).fab.xfers.find? fun (x : FabXfer) => x.src == portOf 0 && x.dst == portOf 1 && x.blk == 7).map (·.resends)).getD 0 = 3 ∧
    (fenced02.isFenced 0 2 = true ∧ tgetD fenced02.place.unfences 2 0 < fenced02.key2 0x0231) ∧
    (let s := (State.reset.modServo fun v => { v with spindle := { v.spindle with state := .wedge }, acts := lmod v.acts 0 fun a => { a with mode := .loading } })
     s.servo.spindle.state = .wedge ∧ s.actFenced 0 = false ∧ (s.servo.acts.getD 0 {}).mode = .loading) := by
  and_intros <;> decide

theorem witness_SupplyMonitorsAct :
    3000 < State.reset.key2 0x0601 ∧ (State.reset.modPwr fun p => { p with pl := { p.pl with running := true } }).pwr.pl.running = true ∧
    (State.reset.modPwr fun p => { p with crst := false }).pwr.crst = false ∧
    ((State.reset.modPins fun p => { p with overvolt := true }).modPwr fun p => { p with crst := false }).pins.overvolt = true := by
  and_intros <;> decide

theorem witness_PowerUpAndHoldUpBank :
    (State.reset.pwr.crst = true ∧ State.reset.pwr.heldOff = false ∧ State.reset.pwr.rampAt = none) ∧
    ((State.reset.modPwr fun p => { p with rampAt := some 3, vinMain := 12000, aon := true }).pwr.rampAt = some 3 ∧
      4200 ≤ (State.reset.modPwr fun p => { p with rampAt := some 3, vinMain := 12000, aon := true }).pwr.vinMain) ∧
    (State.reset.modPins fun p => { p with sysrstN := false }).pins.sysrstN = false ∧
    (State.reset.modPwr fun p => { p with charger := .current }).pwr.charger = .current ∧
    ((State.reset.modPwr fun p => { p with crst := false, charger := .hold, vinMain := 12000 }).pwr.charger = .hold ∧
      State.reset.key2 0x0601 < 12000 ∧ State.reset.pwr.checked = false) ∧
    ((State.reset.modPwr fun p => { p with charger := .checking }).pwr.charger = .checking ∧
      1250 ≤ nearest (1000 * bankEnergy (bankC 100000 (min 50000 50000)) (bankEsr 20) (State.reset.key2 0x0602)) State.reset.eRequired ∧ State.reset.pwr.hold = none) ∧
    (State.reset.modPwr fun p => { p with hold := some 7 }).pwr.hold = some 7 := by
  and_intros <;> decide

theorem witness_TheYhStartsOnlyOnVinMain : mayBoot.mayStart = true ∧ mayBoot.pwr.crst = true ∧ State.reset.pwr.vinMain < State.reset.key2 0x0601 + 300 := by
  and_intros <;> decide

theorem witness_TemperaturesAreTaken :
    (State.reset.sampled 0 = true ∧ State.reset.sampled 19 = true ∧ (State.reset.modPwr fun p => { p with aon := true }).pwr.crst = true) ∧
    (State.reset.modPwr fun p => { p with aon := true, crst := false }).pwr.crst = false := by
  and_intros <;> decide

theorem witness_ResetsAndEnable :
    (linked.nvmeOpen = true ∧ linked.nvme.en = false ∧ bitAt (BitVec.toNat (1 : Dword)) 0 = true) ∧
    ((linked.modNvme fun n => { n with en := true }).nvmeOpen = true ∧ (linked.modNvme fun n => { n with en := true }).nvme.en = true) ∧
    (linked.pcie.present = true ∧ linked.pcie.linkUp = true) ∧ (linked.modPcie fun p => { p with perstN := false }).pcie.perstN = false ∧
    (linked.modPcie fun p => { p with linkUp := false }).pcie.linkUp = false := by
  and_intros <;> decide

/-- CORE runs with a base module, DRAM in service and channel 0 initialised, on media with a root. -/
def mountable : State :=
  ((((atStage .core).modSeqs fun x => { x with base := some {} }).modDram fun d => { d with inService := true }).modFlashIf fun f =>
    { f with chans := [(0, { inited := true })] }).modMedia fun m => { m with rootA := some {} }
/-- Enabled after a completed start. -/
def readyable : State := (State.reset.modNvme fun n => { n with en := true }).modFw fun f => { f with startDone := true }
/-- The CRC, each step evaluated before the next. -/
def crcF : List Byte → Nat → Nat
  | [], c => c
  | b :: t, c => if crcByte c b < 2 ^ 40 then crcF t (crcByte c b) else t.foldl crcByte (crcByte c b)
theorem crcF_eq (bs : List Byte) (c : Nat) : crcF bs c = bs.foldl crcByte c := by
  induction bs generalizing c with
  | nil => rfl
  | cons b t ih => unfold crcF; rw [ih]; simp
theorem crc32c_forced (bs : List Byte) : crc32c bs = BitVec.ofNat 32 (crcF bs 0xFFFFFFFF ^^^ 0xFFFFFFFF) := by
  rw [crcF_eq]; rfl
/-- A wrapper: component, body, header CRC and body CRC. -/
def wrap (comp : Nat) (body : List Byte) (hcrc bcrc : Nat) : List Byte :=
  leBytes 4 0x57464B59 ++ leBytes 4 (comp + (if compEncrypted comp then 2 ^ 8 else 0) + (if comp = 5 then 0 else 2 ^ 9) + 2 ^ 24) ++ leBytes 4 0 ++ leBytes 4 body.length ++
    leBytes 76 0 ++ leBytes 4 bcrc ++ leBytes 156 0 ++ leBytes 4 hcrc ++ body ++ (if comp = 5 then [] else leBytes 96 0)
/-- An unsigned image of a product without a Rack tier: key 0x0153 alone. -/
def garekBytes (crc : Nat) : List Byte :=
  leBytes 4 0x4B455247 ++ leBytes 4 0x00800001 ++ leBytes 4 136 ++ leBytes 4 0 ++ leBytes 4 0x7400 ++ leBytes 4 0x80 ++ leBytes 4 8 ++ leBytes 4 0x88 ++ leBytes 4 0 ++
    leBytes 4 0x88 ++ leBytes 4 0 ++ leBytes 80 0 ++ leBytes 4 crc ++ leBytes 2 0x0153 ++ leBytes 2 4 ++ leBytes 1 8 ++ leBytes 1 32 ++ leBytes 1 1 ++ leBytes 1 0

/-- The image of the package. -/
def gb : List Byte := garekBytes 99090847
/-- The package: components 1 to 5. -/
def pkgAll : List Byte := wrap 1 [] 3877840901 0 ++ (wrap 2 [] 4242620757 0 ++ (wrap 3 [] 2433681912 0 ++ (wrap 4 [] 1721049938 0 ++ wrap 5 gb 550501944 1869999678)))

/-- Its wrappers. -/
def wl : List (List Byte) := [wrap 1 [] 3877840901 0, wrap 2 [] 4242620757 0, wrap 3 [] 2433681912 0, wrap 4 [] 1721049938 0, wrap 5 gb 550501944 1869999678]
theorem wl_form : wl.all (fun w => wrapForm w) = true := by
  unfold wrapForm; simp only [crc32c_forced]; decide +kernel
/-- The recovery function holds the package. -/
def pkgState : State := (State.reset.modFw fun f => { f with stage := .recovery, recPkgLen := 1800, recStaging := mwriteN 0 [] 0 pkgAll })
theorem pkg_of : packageOf (mreadN 0 pkgState.fw.recStaging 0 (min pkgState.fw.recPkgLen.toNat 12582912)) = some ((wl.zipIdx 1).map fun e => (e.2, e.1)) := by
  have e : mreadN 0 (mwriteN 0 [] 0 pkgAll) 0 1800 = pkgAll := mreadN_mwriteN _ _ _ _ _ (by decide +kernel)
  have f : pkgState.fw.recStaging = mwriteN 0 [] 0 pkgAll := by unfold pkgState; rw [State.modFw_fw]
  have g : min pkgState.fw.recPkgLen.toNat 12582912 = 1800 := by decide +kernel
  rw [f, g, e]
  decide +kernel
theorem pkg_good : ∀ e ∈ (wl.zipIdx 1).map (fun e => (e.2, e.1)), pkgState.wrapGood [] e.2 = true := by
  have h : ∀ w ∈ wl, pkgState.wrapGood [] w = true := by
    intro w hw
    have hf : wrapForm w = true := List.all_eq_true.1 wl_form w hw
    unfold State.wrapGood
    rw [hf]
    revert w
    decide +kernel
  intro e he
  obtain ⟨x, hx, rfl⟩ := List.mem_map.1 he
  exact h _ (List.fst_mem_of_mem_zipIdx hx)
theorem pkg_compatible : compatible (((wl.zipIdx 1).map fun e => (e.2, e.1)).map fun e => (e.1, wrapInfo e.2)) = true := by decide +kernel
theorem pkg_whole : ∀ i < 5, thas ((wl.zipIdx 1).map fun e => (e.2, e.1)) (i + 1) = true := by decide +kernel
theorem witness_StartStepsRun :
    mayBoot.mayStart = true ∧
    (((atStage .rom).modOspi fun o => { o with busy := [some { erase := true, addr := 0, bytes := [], start := 0 }, none] }).ospi.busy.any (·.isSome) = true) ∧
    ((atStage .boot).dram.inService = false ∧ dramRates.filter (fun r => r ≤ (atStage .boot).key2 0x0151 && (atStage .boot).key2 0x0152 ≤ r) ≠ []) ∧
    (∃ m : McuModule, m.verifies = true) ∧
    ((atStage .recovery).fw.stage = .recovery ∧ (atStage .recovery).fw.recWinBase.toNat + 0x8000 + [(5 : Byte)].length ≤ 12582912) ∧
    packageOf (mreadN 0 (atStage .recovery).fw.recStaging 0 (min (atStage .recovery).fw.recPkgLen.toNat 12582912)) = none ∧
    (∃ p, packageOf (mreadN 0 pkgState.fw.recStaging 0 (min pkgState.fw.recPkgLen.toNat 12582912)) = some p ∧ (∀ e ∈ p, pkgState.wrapGood [] e.2 = true) ∧
      (∀ i < 5, thas p (i + 1) = true) ∧ compatible (p.map fun e => (e.1, wrapInfo e.2)) = true) ∧
    (mountable.fw.stage = .core ∧ mountable.seqs.base.isSome = true ∧ mountable.dram.inService = true ∧ mountable.flashIf.chans.any (·.2.inited) = true ∧
      mountable.flashRoot = some {}) ∧
    readyable.mayReady = true :=
  ⟨by decide, by decide, ⟨by decide, by decide⟩, ⟨{ (default : McuModule) with verifies := true }, rfl⟩, ⟨by decide, by decide⟩, by decide,
    ⟨_, pkg_of, pkg_good, pkg_whole, pkg_compatible⟩, ⟨by decide, by decide, by decide, by decide, by decide⟩, by decide⟩

theorem witness_TheDieLinkAndTheRetract :
    ((awake State.reset).pwr.crst = false ∧ (awake State.reset).link.silent = false ∧ (awake State.reset).link.dac.length = 2 ∧ (awake State.reset).link.madac.length = 2) ∧
    ((((awake State.reset).modLink fun l => { l with crcErrors := l.crcErrors + 1 }).fault 0x200 []).link.dacMiss.getD 1 0 + 1 < 2) ∧
    (2 ≤ ((((awake State.reset).modLink fun l => { l with dacMiss := [1, 1] }).modLink fun l => { l with crcErrors := l.crcErrors + 1 }).fault 0x200 []).link.dacMiss.getD 0 0 + 1) ∧
    (((awake State.reset).modLink fun l => { l with retractReport := true }).link.retractReport = true) ∧
    ((State.reset.pwr.vinMain < State.reset.key2 0x0601) ∧ State.reset.link.retract = false) ∧
    (((awake State.reset).modLink fun l => { l with silent := true }).safeState = false ∧ ((awake State.reset).modLink fun l => { l with silent := true }).rackWork = false) := by
  and_intros <;> decide

/-- The Rack tier spins at speed, at a temperature of its write window, with a key set that gives it one head to calibrate. -/
def calReady : State := onRack State.reset
theorem witness_PreampFaultsAndHeadCalibration :
    ((State.reset.modRw 1 fun w => { w with burst := true }).rw 1).burst = true ∧ (State.reset.rw 0).burst = false ∧
    ((State.reset.modRw 1 fun w => { w with faultSince := some 7 }).rw 1).faultSince = some 7 ∧
    ((State.reset.modRw 1 fun w => { w with calib := some { step := 2, assist := 40 } }).rw 1).calib = some { step := 2, assist := 40 } ∧
    (3 < 10 ^ (12 - State.reset.keyN 0x0417 4 2)) ∧
    (calReady.actRuns 0 = true ∧ calReady.rackWindow 0 = true ∧ (calReady.rw 0).burst = false ∧ (calReady.rw 0).calib = none ∧ calReady.calPick 0 = some 0) := by
  and_intros <;> decide

/-- One copy step of identifier 3 in a phase, of chunk 5 of namespace 1. -/
def inCopy (x : CopyPhase) : State :=
  (mappedAt baked State.reset).modPlace fun p => { p with copies := [{ id := 3, kind := .knead, nsid := 1, lcn := 5, phase := x, src := baked, dst := baked }] }
/-- Epoch `n` of the age of a chunk that was written in epoch 0. -/
def agedBy (n : Nat) : State := State.reset.modPlace fun p => { p with epoch := BitVec.ofNat 32 n }
/-- A chunk in a closed Bake span, and a drain hint over it. -/
def evacuable : State := (closedSpan (mappedAt baked State.reset)).modPlace fun p => { p with hints := [{ nsid := 1, slba := 0, nlb := 4096, kind := .drain }] }
/-- The chunk waits for the queue of actuator 1. -/
def waitsQueue : State := (mappedAt baked State.reset).modPlace fun p => { p with waitEvac := [(1, { nsid := 1, lcn := 5, crumbs := 4, src := baked })] }
theorem witness_CopiesAndRetentionRun :
    (State.reset.age (State.reset.decay (State.reset.desc 1 5)) < 16383 ∧ State.reset.decay (State.reset.desc 1 5) = State.reset.desc 1 5) ∧
    ((agedBy 300).age ((agedBy 300).decay ((agedBy 300).desc 1 5)) < 16383 ∧ (agedBy 300).decay ((agedBy 300).desc 1 5) ≠ (agedBy 300).desc 1 5) ∧
    16383 ≤ (agedBy 16383).age ((agedBy 16383).decay ((agedBy 16383).desc 1 5)) ∧
    (evacuable.evalEmergency.evalEvacuation.evalMigration.flowsPaused = false ∧ evacuable.evalEmergency.evalEvacuation.evalMigration.upForChoice 1 5 = true) ∧
    ((waitsQueue.place.waitEvac.find? fun w => w.1 == 1) = some (1, { nsid := 1, lcn := 5, crumbs := 4, src := baked }) ∧
      waitsQueue.names (waitsQueue.desc 1 5) baked = true ∧ waitsQueue.queueBytes 1 + 512 * 4 ≤ waitsQueue.queueLimit) ∧
    ((inCopy .reading).copy? 3 = some { id := 3, kind := .knead, nsid := 1, lcn := 5, phase := .reading, src := baked, dst := baked } ∧
      (inCopy .reading).flowsPaused = false ∧ (inCopy .reading).names ((inCopy .reading).desc 1 5) baked = true) ∧
    ((inCopy .verifying).copy? 3 = some { id := 3, kind := .knead, nsid := 1, lcn := 5, phase := .verifying, src := baked, dst := baked } ∧
      0 < (inCopy .verifying).key2 0x012E) ∧
    (State.reset.flagWear.kneadUpdate.flowsPaused = false ∧ State.reset.flagWear.kneadUpdate.kneadPick = none) ∧
    (evacuable.flagWear.kneadUpdate.flowsPaused = false ∧ evacuable.flagWear.kneadUpdate.kneadPick = some 2) ∧
    ((evacuable.span 2).phase = .closed ∧ evacuable.flowsPaused = false) ∧
    (tgetD (State.reset.modFlashIf fun f => { f with chans := [(4, { trainFence := some 9 })] }).flashIf.chans 4 {}).trainFence = some 9 := by
  and_intros <;> decide +kernel

/-- A mounted map that has changed. -/
def mounted : State := State.reset.modMap fun m => { m with mounted := true, dirty := true }
/-- A Rack tier, and one descriptor in it, with map spill enabled. -/
def spillable : State := ((mappedAt { baked with tier := .rack } (onRack State.reset)).modCfg fun c =>
  { c with img := { c.img with common := rackImg.foldr (fun e t => tput t e.1 e.2) [(0x0144, leBytes 2 1)] } })
theorem witness_TheJournalAndTheCheckpoint :
    (State.reset.modMap fun m => { m with jDelay := some 4 }).map.jDelay = some 4 ∧
    (mounted.map.ckActive = none ∧ mounted.map.mounted = true ∧ ¬ (mounted.replayWindow ≤ 2 * mounted.map.sinceHorizon ∧ 0 < mounted.map.sinceHorizon) ∧ mounted.nvme.shn = 0) ∧
    ((mounted.modMap fun m => { m with sinceHorizon := 512 }).replayWindow ≤ 2 * (mounted.modMap fun m => { m with sinceHorizon := 512 }).map.sinceHorizon) ∧
    (mounted.modMap fun m => { m with ckActive := some 7 }).map.ckActive = some 7 ∧
    (mounted.modMap fun m => { m with absent := [3, 5] }).map.absent.contains 5 = true ∧
    (spillable.key2 0x0144 = 1 ∧ spillable.rackOnline = true ∧ (spillable.map.map.filter fun e => e.1 / 256 == chunkKey 1 5 / 256) ≠ [] ∧
      (∀ e ∈ spillable.map.map.filter fun e => e.1 / 256 == chunkKey 1 5 / 256, e.2.split = false ∧ (e.2.state = .mapped → e.2.loc.tier = .rack)) ∧
      spillable.map.spilled.contains (chunkKey 1 5 / 256) = false ∧ spillable.map.absent.contains (chunkKey 1 5 / 256) = false) := by
  and_intros <;> decide +kernel

/-- DRAM is in service. -/
def dramOn : State := State.reset.modDram fun d => { d with inService := true }
theorem witness_DramRunsAndCorrects :
    (dramOn.dramRuns = true ∧ dramOn.dram.selfRefresh = false ∧ dramOn.dram.subs.length = 4 ∧ dramOn.pwr.ps < 3 ∧ dramOn.dram.panic.contains true = false) ∧
    ((dramOn.modHelper 3 fun h => { h with active := true }).sub 3).helper.active = true ∧
    (dramOn.modDram fun d => { d with panic := [true] }).dram.panic.contains true = true ∧
    (State.reset.modDram fun d => { d with selfRefresh := true }).dram.selfRefresh = true ∧
    2 ≤ ((dramOn.modSub 1 fun x => { x with replays := 2 }).sub 1).replays ∧
    ((dramOn.modSub 0 fun x => { x with reqs := [{ id := 1 }] }).nextReq ((dramOn.modSub 0 fun x => { x with reqs := [{ id := 1 }] }).sub 0) = some { id := 1 }) ∧
    (((dramOn.modSub 2 fun x => { x with inflight := [{ id := 9, again := true }] }).sub 2).inflight.find? fun r => r.id == 9) = some { id := 9, again := true } := by
  and_intros <;> decide

/-- The flash supply is up while CORE runs. -/
def flashUp : State := (State.reset.modPwr fun p => { p with rails := [6] }).modFw fun f => { f with stage := .core }
/-- Die 33 is usable and trained. -/
def trainedDie (x : DieSt) : State := State.reset.modFlashIf fun f => { f with dies := [(33, { x with usable := true, trained := true })] }
theorem witness_FlashChannelsAndDies :
    ((tgetD flashUp.flashIf.chans 31 {}).inited = false ∧ flashUp.pwr.rails.contains 6 = true ∧ flashUp.fw.stage = .core ∧ flashUp.pwr.pl.running = false ∧ flashUp.keyN 0x0104 (4 * 31) 4 = 0) ∧
    (((trainedDie {}).die 33).usable = true ∧ ((trainedDie {}).die 33).trained = true ∧ ((trainedDie {}).die 33).failed = false ∧ ((trainedDie {}).die 33).timeouts = 0 ∧
      ((trainedDie {}).die 33).again = false ∧ ((trainedDie {}).die 33).op = none) ∧
    1 ≤ ((trainedDie { timeouts := 1 }).die 33).timeouts ∧
    ((trainedDie { op := some .read }).die 33).op.isSome = true ∧
    ((((trainedDie {}).modFlash fun f => { f with jobs := [{ id := 8 }] }).fault (0x0C0 + 1) [33]).modDie 33 fun x => { x with timeouts := 1, again := true }).job? 8 = some { id := 8 } ∧
    (((trainedDie {}).reach (((trainedDie {}).die 33).lastTrain + (trainedDie {}).key2 0x0109 * sec)).pwr.gated.contains (5 + 33 / 128) = false) ∧
    ((trainedDie {}).reach 7).key2 0x010A ≤ 500 ∧ 0 < ((trainedDie {}).reach 7).key2 0x010A := by
  and_intros <;> decide +kernel

/-- One version of identifier 6. -/
def inVersion (x : VPhase) (fmt : Option Nat) : State := State.reset.modHost fun h => { h with versions := [{ id := 6, nsid := 1, lcn := 5, phase := x, fmt := fmt, joiners := [1] }] }
theorem witness_VersionsAreAssignedAndCoded :
    ((inVersion .opened none).version? 6 = some { id := 6, nsid := 1, lcn := 5, phase := .opened, joiners := [1] } ∧
      (inVersion .opened none).joinersFull { id := 6, nsid := 1, lcn := 5, phase := .opened, joiners := [1] } = true) ∧
    ((inVersion .ready none).version? 6 = some { id := 6, nsid := 1, lcn := 5, phase := .ready, joiners := [1] } ∧ (inVersion .ready none).map.windowFull = false ∧
      (inVersion .ready none).kneadPressed = false ∧ (inVersion .ready none).mediaStopped = false) ∧
    ((inVersion .ready none).evalDirect.reserveIn .proof ((inVersion .ready none).evalDirect.writeSlot { id := 6, nsid := 1, lcn := 5, phase := .ready, joiners := [1] }) 12).isNone = true := by
  and_intros <;> decide +kernel

/-- Span 2 with two members and one batch. -/
def spanWith (x : SpanSt) : State := State.reset.modFlash fun f => { f with spans := [(2, { x with tier := .bake, members := [(0, 3), (32, 3)] })] }
/-- A placed version waits in its open batch; the dies have one plane. -/
def withPlaced : State := ((spanWith { phase := .opened, batches := [{ used := 4 }] }).modFlashIf fun f => { f with geo := { f.geo with planes := 1 } }).modHost fun h =>
  { h with versions := [{ id := 6, phase := .placed, span := 2, crumbs := 4, placedAt := 5 }] }
theorem witness_PagesAreProgrammedAndErased :
    ((spanWith { phase := .opened, batches := [{ used := 40 }] }).openPending 2 = false ∧ ((spanWith { phase := .opened, batches := [{ used := 40 }] }).safeState = false) ∧
      (0 + 1) * (spanWith { phase := .opened, batches := [{ used := 40 }] }).groupCrumbs false ≤ (({ used := 40 } : Batch)).used) ∧
    (((spanWith { phase := .opened, batches := [{ used := 0, prog := [0] }] }).span 2).batches.getD 0 {}).dataDone 2 = true ∧
    (withPlaced.oldestPlaced 2 0 = some 5 ∧ (withPlaced.span 2).phase = .opened ∧ withPlaced.groupCrumbs false = 32) ∧
    ((spanWith { phase := .released }).span 2).phase = .released := by
  and_intros <;> decide +kernel

/-- One read job of identifier 4, of 4 crumbs in Bake. -/
def inJob (x : ReadPhase) (step : Nat) : State := State.reset.modFlash fun f => { f with jobs := [{ id := 4, nsid := 1, lcn := 5, loc := { tier := .bake, span := 2, crumbs := 4 }, phase := x, step := step }] }
theorem witness_ReadsReturnFromTheMedia :
    ((inJob .fetch 1).job? 4).isSome = true ∧
    (((inJob .fetch 1).countReads 2 ((inJob .fetch 1).blocksOf { tier := .bake, span := 2, crumbs := 4 })).queueHard 1).isSome = true ∧
    (((inJob .fetch 3).countReads 2 ((inJob .fetch 3).blocksOf { tier := .bake, span := 2, crumbs := 4 })).queueSoft 1).isSome = true ∧
    ((inJob .decode 1).queueCipher 2048).isSome = true ∧ 0 < (inJob .decode 1).key2 0x012E ∧ ((inJob .cipher 1).job? 4).isSome = true ∧ ((inJob .coder 1).job? 4).isSome = true ∧
    ((inJob .coder 1).copyAt { tier := .bake, span := 2, crumbs := 4 }).isNone = true ∧ ((inVersion .ciphering none).version? 6).isSome = true := by
  and_intros <;> decide +kernel

/-- Pool 5 with two free buffers, and buffer 3 allocated to owner 1. -/
def pooled (q : Pool) (b : Buf) : State := State.reset.modPool fun x => { x with pools := [(5, q)], bufs := [(3, b)] }
theorem witness_BuffersAreAllocatedAndFreed :
    (ownerValid 1 = true ∧ ownerValid 0x3B = true ∧ ownerValid 7 = false ∧ ownerCore 1 = false) ∧
    (((pooled { free := [7, 8] } {}).poolOf 5).free = [7, 8] ∧ ((pooled { free := [7, 8] } {}).poolOf 5).reserved ≤ 1 ∧ ((pooled { free := [7, 8] } {}).poolOf 5).paused = false) ∧
    ((pooled { free := [] } {}).poolOf 5).free.length ≤ ((pooled { free := [] } {}).poolOf 5).reserved ∧
    (((pooled {} { alloc := true, owners := [1, 0, 0, 0] }).buf 3).alloc = true ∧ (((pooled {} { alloc := true, owners := [1, 0, 0, 0] }).buf 3).owners.getD 0 0).toNat = 1 ∧
      (pooled {} { alloc := true, owners := [1, 0, 0, 0] }).soleOwner 1 3 = true) ∧
    ((pooled {} {}).buf 12288).pool = 0 ∧
    (let b := (pooled {} { alloc := true, shared := true, last := 1, held := 3, owners := [1, 2, 0, 0] }).buf 3;
      (b.owners.getD b.last.toNat 0).toNat = 2 ∧ b.othersHeld = true ∧ b.indexOf 1 = some 0 ∧ bitAt b.held.toNat 0 = true ∧ b.indexOf 2 = some b.last.toNat) ∧
    (({ alloc := true, shared := true, last := 1, held := 2, owners := [1, 2, 0, 0] } : Buf).othersHeld = false) ∧
    ([0x30, 1].all ownerValid = true ∧ ([0x30, 1] : List Nat).Nodup) ∧
    (((pooled { groups := [{ owner := 1, need := 2 }], free := [7, 8] } {}).poolOf 5).groups = [{ owner := 1, need := 2 }]) := by
  and_intros <;> decide
theorem witness_rebuild : ((pooled { paused := true } { pool := 5 }).poolOf 5).paused = true ∧ [3].mergeSort = (pooled { paused := true } { pool := 5 }).freeOf 5 :=
  ⟨by decide, by rw [List.mergeSort_singleton]; decide⟩

theorem witness_RequestsAndRegistersAreServed :
    (reachable.pcie.linkUp = true ∧ reachable.pcie.perstN = true ∧ reachable.pcie.present = true ∧ reachable.pcie.crs = none ∧ reachable.memOpen = true) ∧
    (reachable.pcie.bar 0x10000010 = some (0, 0x10) ∧ reachable.pcie.bar 0x20000010 = some (2, 0x10) ∧ reachable.pcie.bar 0x30000010 = some (4, 0x10)) ∧
    ((reachable.modPcie fun p => { p with crs := some 0 }).now < 0 + 100 * ms) ∧ (State.reset.memOpen && State.reset.pcie.present) = false ∧ reachable.pcie.recovery = false ∧
    bitAt 0x4000 14 = true := by
  and_intros <;> decide

/-- CORE runs, with a host order and a management order in the cycle. -/
def inCycle (a b : Nat) : State := ((awake State.reset).modFw fun f => { f with stage := .core }).modNvme fun n =>
  { n with cycle := [{ host := true, op := BitVec.ofNat 8 a, nsid := 0, cdw := [0], tag := 1 }, { host := false, op := BitVec.ofNat 8 b, nsid := 0, cdw := [1], tag := 2 }] }
/-- A tunnelled command. -/
def tunnel (op : Nat) (cdw : List Nat) : Sqe := { opcode := BitVec.ofNat 8 op, cid := 0, nsid := 0, prp := 0, cdw := cdw.map (BitVec.ofNat 32), sgl := [] }
theorem witness_ManagementCommandsAreAnswered :
    (inCycle 0x09 0x09).miOpen = true ∧ (inCycle 0x09 0x09).safeState = false ∧ (tunnelStatus (tunnel 0x0C []) ≠ 0) ∧
    (tunnelStatus (tunnel 0xC8 [1]) = 0 ∧ orders 0xC8 = true) ∧ (tunnelStatus (tunnel 0x02 [0x000000C1]) = 0 ∧ orders 0x02 = false) ∧
    (({ host := false, op := 0xC0, nsid := 0, cdw := [1], tag := 2 } : MgmtOrder).contradicts { host := true, op := 0xC0, nsid := 0, cdw := [0], tag := 1 } false = true) ∧
    (({ host := false, op := 0xC8, nsid := 0, cdw := [1], tag := 2 } : MgmtOrder).contradicts { host := true, op := 0x09, nsid := 0, cdw := [0], tag := 1 } false = false) := by
  and_intros <;> decide

/-- The link is ready to train. -/
def trainable : State := State.reset.modPcie fun p => { p with refclk := true, perstN := true, present := true }
/-- The link is up with one read outstanding under tag 5. -/
def oneRead (r : OutReq) : State := trainable.modPcie fun p => { p with linkUp := true, flit := true, l0pEn := true, aspmL1 := true, outstanding := [{ r with tag := 5 }] }
theorem witness_TheLinkAndItsCompletions :
    (trainable.pcie.linkUp = false ∧ trainable.linkFits 4 5 = true ∧ trainable.linkFits 1 1 = true) ∧
    ((oneRead {}).pcie.linkUp = true ∧ (oneRead { arrived := true }).pcie.aspmL1 = true ∧ (oneRead { arrived := true }).pcie.linkL1 = 0 ∧
      (∀ r ∈ (oneRead { arrived := true }).pcie.outstanding, r.arrived = true) ∧ (oneRead {}).pcie.waitReads = []) ∧
    ((oneRead { timeout := 50 }).reqOf 5 = some { tag := 5, timeout := 50 } ∧ (oneRead { timeout := 50 }).now ≤ 0 + 50 ∧ (oneRead {}).reqOf 6 = none) ∧
    (({ oneRead { timeout := 50 } with now := 51 } : State).reqOf 5 = some { tag := 5, timeout := 50 }) ∧
    ((oneRead {}).modPcie fun p => { p with fetchRetry := some (1, 9) }).pcie.fetchRetry = some (1, 9) ∧
    (tget (State.reset.modNvme fun n => { n with sqs := [(1, {})] }).nvme.sqs 1 = some {}) ∧
    ((State.reset.modPcie fun p => { p with deadTags := [{ tag := 3 }] }).pcie.deadTags.find? fun d => d.tag == 3) = some { tag := 3 } := by
  and_intros <;> decide

/-- The fetch of the admin queue takes its last entry. -/
def adminSqe (op : Nat) (cdw : List Nat) : Sqe := { opcode := BitVec.ofNat 8 op, cid := 7, nsid := 0, prp := 0, cdw := cdw.map (BitVec.ofNat 32), sgl := [] }
theorem witness_FetchingAndSignalling :
    ((State.reset.modPcie fun p => { p with bmEn := true }).pcie.bmEn = true ∧ reachable.pcie.present = true ∧ reachable.pcie.crs = none ∧ reachable.pcie.bmEn = false ∧
      reachable.pcie.dstate = .d0 ∧ (reachable.modPcie fun p => { p with dstate := .d3hot }).pcie.dstate = .d3hot) ∧
    ((atStage .core).fw.stage ≠ .off ∧ (atStage .core).cfg.testMode = false) ∧
    ((fetching 0).memOpen = true ∧ (fetching 0).nvme.en = true ∧ (fetching 0).pwr.pl.running = false ∧ tget (fetching 0).nvme.sqs 0 = some { size := 4, tail := 1 } ∧
      tget (fetching 0).nvme.cqs 0 = some { size := 4 }) ∧
    ((reachable.modNvme fun n => { n with cqs := [(3, { aggr := 9 })] }).nvme.cqs = [(3, { aggr := 9 })]) ∧
    ((reachable.modHost fun h => { h with stalled := some 1 }).host.stalled = some 1 ∧ 1 ≤ (reachable.modHost fun h => { h with stalled := some 1 }).trackerFree) ∧
    ((fetching 0).fetchBlocked = false ∧ 0 ≠ ingestQid ∧ ((fetching 0).arbitrate.map (·.1)) = some 0 ∧ ((0 + 1) % 4 = 1)) ∧
    ((fetching 1).fetchBlocked = false ∧ ((fetching 1).arbitrate.map (·.1)) = some 1 ∧ (fetching 1).ioReject { adminSqe 0 [] with nsid := 0xFFFFFFFF } [] = 0) ∧
    (adminStatus 6 [1] [] = 0 ∧ adminStatus 6 [4] [] ≠ 0) := by
  and_intros <;> decide +kernel

theorem witness_IdentifyAcceptsTenValues :
    (fetching 0).fetchBlocked = false ∧ ((fetching 0).arbitrate.map (·.1)) = some 0 ∧ tget (fetching 0).nvme.sqs 0 = some { size := 4, tail := 1 } ∧ (fetching 0).contexts.length < 65536 ∧
    ((fetching 0).newCtx (.sq 0 7) (adminSqe 6 [1]) [] ((fetching 0).setWindows (adminSqe 6 [1]) []) true).ents.length ≤ (fetching 0).trackerFree ∧ (0 + 1) % 4 = 1 := by
  and_intros <;> decide +kernel

/-- Peel channel 3 in a state of its own, on a ready controller. -/
def peeling (p : PeelCh) : State := ((reachable.modPcie fun q => { q with bmEn := true, outstanding := [{ kind := .peelDesc 3 p.cur.toNat }, { kind := .peelSrc 3 8 0, len := 2 }] }).modNvme fun m =>
  { m with en := true, rdy := true }).modWin fun w => { w with peel := [(3, p)] }
/-- A descriptor's bytes. -/
def descBytes (own len : Nat) : List Byte := leBytes 28 0 ++ leBytes 4 len ++ leBytes 4 1024 ++ leBytes 24 0 ++ leBytes 4 own
theorem witness_PeelChannelsRun :
    ((peeling {}).memOpen = true ∧ (peeling {}).winReady = true ∧ ((peeling {}).peelCh 3).state = .idle ∧ (linked.winReady = false)) ∧
    (((peeling { state := .halted, mode := true }).peelCh 3).state = .halted ∧ ((peeling { state := .halted, mode := true }).peelCh 3).mode = true) ∧
    ((peeling { state := .run }).pcie.outstanding.any fun r => decide (r.kind = .peelDesc 3 0)) = true ∧
    ((peelDescOf 0 (descBytes 0 8)).1.own = false ∧ (peelDescOf 0 (descBytes 1 8)).1.own = true ∧ (peelDescOf 0 (descBytes 1 8)).1.ok (peelDescOf 0 (descBytes 1 8)).2 = true ∧
      (peelDescOf 0 (descBytes 1 7)).1.ok (peelDescOf 0 (descBytes 1 7)).2 = false ∧ (descBytes 1 8).length = 64) ∧
    ((peeling { state := .poll }).peelCh 3).state = .poll ∧
    ((((peeling { state := .run, ready := some {} }).modHost fun h => { h with ingestQ := [.peel 3] }).ingestTurn (.peel 3)).isSome = true) ∧
    (((peeling {}).pcie.outstanding.find? fun r => decide (r.kind = .peelSrc 3 8 0)) = some { kind := .peelSrc 3 8 0, len := 2 }) ∧
    ((((peeling { jobs := [{ stamp := 8 }] }).dropReq (.peelSrc 3 8 0)).pumpReads.peelCh 3).jobs.find? fun j => j.stamp == 8) = some { stamp := 8 } ∧
    ((peeling { jobs := [{ stamp := 8, done := some 0 }] }).peelCh 3).jobs = [{ stamp := 8, done := some 0 }] := by
  and_intros <;> decide +kernel

/-- Push slot 2 in a state of its own, with push mode on, a free buffer and a lease of buffer 5. -/
def pushing (p : PushSlot) : State := (((fetching 0).modWin fun w => { w with pushEn := true, slots := [(2, p)], leases := [(5, {})] }).modPool fun x =>
  { x with pools := [(2, { free := [7, 8] })] }).modHost fun h => { h with ingestQ := [.push 2] }
theorem witness_PushSlotsRun :
    ((pushing {}).memOpen = true ∧ (pushing {}).winReady = true ∧ (pushing {}).win.pushEn = true ∧ ((pushing {}).slot 2).halted = false ∧ ((pushing {}).poolOf 2).paused = false ∧
      ((pushing {}).poolOf 2).free = [7, 8] ∧ ((pushing {}).poolOf 2).reserved ≤ 1) ∧ ((pushing { halted := true }).slot 2).halted = true ∧
    (tget (pushing {}).win.leases 6 = none ∧ tget (pushing {}).win.leases 5 = some {}) ∧
    (((pushing { queue := [{ count := 512 }] }).slot 2).queue = [{ count := 512 }] ∧
      (((pushing { queue := [{ count := 512 }] }).modNvme fun n => { n with shn := 1 }).ingestTurn (.push 2)).isSome = true ∧
      ((pushing {}).ingestCtx (.push 2 5) 1 0 512).ents.length ≤ (pushing {}).trackerFree) ∧
    (((pushing { active := [{ done := some 0 }] }).slot 2).active = [{ done := some 0 }] ∧ ((pushing { active := [{ done := some 0x181 }] }).slot 2).errHeld = false ∧
      ((pushing {}).slot 2).notifyEn = false) := by
  and_intros <;> decide +kernel

/-- Sequencer 3 in a state of its own. -/
def sequencing (q : SeqSt) : State := State.reset.modSeqs fun x => { x with seqs := [(3, q)] }
theorem witness_SequencersRun :
    ((leBytes 32 0).length = 32 ∧ ((sequencing { state := .mcheck }).seq 3).state = .mcheck) ∧
    (((sequencing { state := .idle, queue := [{}] }).seq 3).live = true ∧ (sequencing {}).pwr.gated.contains (5 + 3 / 4) = false ∧
      (((sequencing { state := .idle, queue := [{}] }).seq 3).queue.find? fun o => !((sequencing { state := .idle, queue := [{}] }).seq 3).dieBusy o.die.toNat) = some {} ∧
      ((sequencing { state := .idle, queue := [{}] }).seq 3).freeCtx = some 0 ∧ entValid (tgetD ((sequencing {}).seq 3).disp 0 0) = false ∧
      entValid (tgetD ((sequencing { disp := [(0, 0x1000)] }).seq 3).disp 0 0) = true) ∧
    (((sequencing { state := .ploss, ploss := true, queue := [{}] }).seq 3).queue.find? fun o => !o.pls) = some {} ∧
    (tget ((sequencing { ctxs := [(0, {})] }).seq 3).ctxs 0 = some {}) ∧
    (((sequencing { state := .run, ctxs := [(0, {})] }).seq 3).pick = some 0 ∧ ((sequencing { state := .run, ctxs := [(0, {})] }).seq 3).dueCause 0 = none ∧
      illegalWord fillWord false false = true ∧ illegalWord 0 false false = false) := by
  and_intros <;> decide +kernel

/-- Actuator 0 in a state of its own, with the Rack tier spinning up. -/
def acting (z : ServoAct) : State := ((onRack State.reset).modServo fun v => { v with acts := [z, {}], rro := [(0, [1, 2, 3])] }).modRack fun r => { r with spin := .spinup }
/-- What a wedge record without marks leaves before the sample. -/
def wedged (s : State) : State := (s.srvWedge 0 none).pushHist 1 0
theorem witness_ActuatorsTrackAndLoad :
    (bitAt (0 : BitVec 128).toNat 49 = false ∧ (((acting {}).srvWedge 0 none).sact 1).mode.servo = false) ∧
    (((wedged (acting { mode := .loading })).sact 0).mode = .loading ∧ ((wedged (acting { mode := .reacquire })).sact 0).mode = .reacquire ∧ ((wedged (acting {})).sact 0).mode = .parked ∧
      ((wedged (acting { mode := .follow, first := false })).sact 0).mode.servo = true ∧ ((wedged (acting { mode := .follow, first := false })).sact 0).first = false) ∧
    ((acting {}).rackHeads 0 = 3 ∧ bitAt ((acting {}).place.fenceHead.getD 0 0).toNat 2 = false ∧ ((acting {}).sact 0).head = 0) ∧
    (((acting { settling := true }).sact 0).settling = true ∧ ((acting { seekActive := true }).sact 0).seekActive = true) ∧
    ((acting {}).rroTable 0 = some [1, 2, 3] ∧ ((acting {}).sact 0).runout.length ≤ 32) ∧
    (((acting { mode := .loading, samRun := 4 }).sact 0).mode = .loading ∧ ((acting { mode := .unloading, loadTries := 1 }).sact 0).mode = .unloading ∧ (acting {}).rack.spin = .spinup ∧
      (acting {}).motorOn = true) ∧ (onRack State.reset).rack.spin ≠ .spinup := by
  and_intros <;> decide +kernel

/-- The spindle in a state of its own, with the Rack tier spinning up and VIN_MAIN at 12 V. -/
def spinning (p : SpindleSt) : State := ((mayBoot.modServo fun v => { v with spindle := p }).modRack fun r => { r with spin := .spinup })
theorem witness_TheSpindleRuns :
    ((spinning { state := .bemf }).servo.spindle.state = .bemf ∧ (spinning { state := .wedge }).servo.spindle.state = .wedge ∧ (spinning { errSince := some 5 }).servo.spindle.errSince = some 5) ∧
    ((spinning { state := .sense }).rack.spin = .spinup ∧ (spinning { state := .sense }).motorOn = true ∧ 10800 ≤ (spinning {}).pwr.vinMain ∧
      ((spinning {}).servo.acts.all fun a => decide (a.mode = .parked) || decide (a.mode = .fenced)) = true) ∧
    ((spinning { state := .openloop }).servo.spindle.state = .openloop ∧ (spinning { state := .braking }).rack.toReduced = false) := by
  and_intros <;> decide +kernel

/-- The Rack tier in a spin state, with the actuators locked as given. -/
def rackIn (x : Spin) (a b : Bool) : State := ((onRack State.reset).modServo fun v => { v with acts := [{ locked := a }, { locked := b }], spindle := { v.spindle with srvLock := true } }).modRack fun r =>
  { r with spin := x, retryWait := true, standby := some 60 }
theorem witness_TheRackSpinsUpAndDown :
    (([(true, true), (true, false), (false, true), (false, false)].all fun e => let s := (rackIn .spinup e.1 e.2).reach 5
      decide (s.rack.spin = .spinup) && decide ((s.servo.spindle.srvLock && (s.servo.acts.getD 0 {}).locked) = e.1) && decide ((s.servo.spindle.srvLock && (s.servo.acts.getD 1 {}).locked) = e.2)) = true) ∧
    ((rackIn .stopped false false).rack.retryWait = true ∧ (rackIn .stopped false false).rack.attempts = 0) ∧
    ((rackIn .ready false false).standby ≠ 0 ∧ (rackIn .ready false false).rack.spin = .ready ∧ (State.reset.modRack fun r => { r with spin := .ready, standby := some 60 }).rackWork = false ∧ (rackIn .spindown false false).rack.spin = .spindown) ∧
    (((onRack State.reset).modMedia fun m => { m with rootA := some { ckseq := 7 } }).flashRoot = some { ckseq := 7 } ∧ (onRack State.reset).rackOnline = true ∧ (onRack State.reset).rackWindow 0 = true ∧
      (onRack State.reset).rack.rootCopied < 7) := by
  and_intros <;> decide +kernel

/-- Chunk 5 of namespace 1 queued for actuator 0 of a running Rack. -/
def queuedItem : MigItem := { nsid := 1, lcn := 5, src := baked, knead := true }
/-- A running Rack without a due calibration, whose actuator 0 is in a state of its own, with one stack. -/
def stacking (x : ActSt) (p : StackPhase) : State := (((mappedAt baked (onRack State.reset)).modPlace fun y => { y with fenceHead := [0xFFF, 0xFFF], queues := [[queuedItem], []] }).modRack fun r =>
  { r with acts := [x, {}], stackTab := [(3, { phase := p, members := [0, 1, 2] })] })
/-- Its read job 1 waits for the Rack. -/
def rackReading : State := (stacking {} .closed).modFlash fun f => { f with jobs := [{ id := 1, phase := .rackWait, loc := { tier := .rack, span := 3, crumbs := 4 } }] }
theorem witness_StacksAreFilledAndClosed :
    ((stacking {} .opened).actRuns 0 = true ∧ (stacking {} .opened).rackWindow 0 = true ∧ (stacking {} .opened).calDueOn 0 = false ∧ (stacking {} .opened).nextItem 0 = some queuedItem ∧
      (stacking {} .opened).names ((stacking {} .opened).desc 1 5) baked = true) ∧
    (((stacking { openStack := some 3, step := .filling, used := 4096 } .opened).openOn 0 .filling).map fun e => decide (e.2 ≠ 0) && decide ((0 + 1) * e.2 ≤ 4096)) = some true ∧
    (((stacking { openStack := some 3, step := .lastTrack } .opened).openOn 0 .lastTrack).isSome = true ∧ 0 < (stacking {} .opened).stackData 3 3) ∧
    ((stacking { openStack := some 3, step := .parityWrite } .opened).openOn 0 .parityWrite).isSome = true ∧ ((stacking { openStack := some 3, step := .summary } .opened).openOn 0 .summary).isSome = true ∧
    ((rackReading.flash.jobs.find? fun y => y.id == 1) = some { id := 1, phase := .rackWait, loc := { tier := .rack, span := 3, crumbs := 4 } } ∧ rackReading.rackOnline = true ∧ rackReading.actFenced 0 = false ∧
      (rackReading.queueCipher 2048).isSome = true ∧ ((rackReading.modPlace fun p => { p with fenceCipher := 255 }).queueCipher 2048).isNone = true) ∧
    ((((stacking {} .closed).releaseRack 0).rackKneadUpdate 0).flowsPaused = false ∧ (((stacking {} .closed).releaseRack 0).rackKneadUpdate 0).rackWindow 0 = true ∧
      (((stacking {} .closed).releaseRack 0).rackKneadUpdate 0).calDueOn 0 = false ∧ ((((stacking {} .closed).releaseRack 0).rackKneadUpdate 0).act 0).rackKnead = none ∧
      (((stacking {} .opened).releaseRack 0).rackKneadUpdate 0).rackKneadPick 0 = none ∧
      (((((stacking {} .closed).modRack fun r => { r with stackTab := r.stackTab.map fun e => (e.1, { e.2 with refreshDue := true }) }).releaseRack 0).rackKneadUpdate 0).rackKneadPick 0) = some 3) ∧
    (((stacking {} .closed).stack (stackNo 0 3)).phase = .closed ∧ (stacking {} .closed).actFenced 0 = false) := by
  and_intros <;> decide +kernel

/-- One I/O submission queue and completion queue of number 1, and a held admin command. -/
def withQueue (op : Nat) (dws : List Nat) : State := (held op dws).modNvme fun n => { n with sqs := [(1, { size := 4, cqid := 2 })], cqs := [(2, { size := 4 }), (3, {})], iocqes := 4, iosqes := 6 }
theorem witness_IdentifyQueuesAndAborts :
    ([0, 1, 2, 3, 0x10, 0x11].all fun k => decide (Held (heldNs 0x06 [k]) 1 0x06 ((adm 0x06 [k]).forNs 1)) && decide (bits (((adm 0x06 [k]).forNs 1).dw 10) 0 8 = k)) = true ∧
    ((heldNs 0x06 [3]).nsActive 1 = true ∧ (heldNs 0x06 [3]).ns? 1 = some { nsze := 4096, flbas := 0, attached := true } ∧ (heldNs 0x06 [3]).ns? 64 = none ∧ (heldNs 0x06 [3]).nsActive 2 = false ∧
      Held (held 0x06 [3]) 1 0x06 (adm 0x06 [3]) ∧ (held 0x06 [3]).nsActive (adm 0x06 [3]).nsid = false ∧ (adm 0x06 [0]).nsid = 0) ∧
    (Held (withQueue 5 [0x30005, 0x4000003]) 1 0x05 (adm 5 [0x30005, 0x4000003]) ∧ queueStatus false 5 3 true = 0 ∧ thas (withQueue 5 []).nvme.cqs 5 = false ∧ bits ((adm 5 [0x30005, 0x4000003]).dw 11) 16 16 = 1024 ∧
      queueStatus true 2 3 true ≠ 0 ∧ bits ((adm 5 [0x30005, 0x4010003]).dw 11) 16 16 = 1025) ∧
    (Held (withQueue 1 [0x30005, 0x20003]) 1 0x01 (adm 1 [0x30005, 0x20003]) ∧ thas (withQueue 1 []).nvme.cqs 2 = true ∧ thas (withQueue 1 []).nvme.cqs 1 = false ∧ bitAt ((adm 1 [0x30005, 0x20003]).dw 11) 0 = true ∧ queueStatus false 5 3 (decide ((withQueue 1 []).nvme.iosqes = 6)) = 0) ∧
    (Held (withQueue 0 [1]) 1 0x00 (adm 0 [1]) ∧ tget (withQueue 0 [1]).nvme.sqs 1 = some { size := 4, cqid := 2 } ∧ tget (withQueue 0 [1]).nvme.sqs 7 = none) ∧
    (Held (withQueue 4 [2]) 1 0x04 (adm 4 [2]) ∧ ((withQueue 4 [2]).nvme.sqs.any fun e => e.2.cqid == 2) = true ∧ ((withQueue 4 [2]).nvme.sqs.any fun e => e.2.cqid == 3) = false) ∧
    (Held (held 8 [0x70000]) 1 0x08 (adm 8 [0x70000]) ∧ ((held 8 [0x70000]).host.ctxs.find? fun x => x.origin == Origin.sq 0 7) = some (adm 8 [0x70000]) ∧ ((held 8 [0]).host.ctxs.find? fun x => x.origin == Origin.sq 0 0) = none ∧
      (held 8 []).catches (adm 8 []) = false ∧ (held 8 []).catches { adm 8 [] with stamp := 2, opcode := 0x0C } = true) ∧
    (Held (held 0x0C []) 1 0x0C (adm 0x0C []) ∧ (held 0x0C []).nvme.aers.contains 1 = false ∧ (held 0x0C []).nvme.waitingEv = []) := by
  and_intros <;> decide +kernel

/-- One namespace that is not attached, and a held admin command. -/
def detached (op : Nat) (dws : List Nat) : State := (withCtx ((adm op dws).forNs 1)).modNvme fun n => { n with nss := [(1, { nsze := 4096 })] }
theorem witness_NamespacesFormatsAndSanitize :
    (Held (heldNs 0x0D [0]) 1 0x0D ((adm 0x0D [0]).forNs 1) ∧ ((adm 0x0D [0]).forNs 1).jwait = none ∧ ((List.range 64).find? fun i => !thas (heldNs 0x0D [0]).nvme.nss (i + 1)) = some 1 ∧
      (((List.range 64).find? fun i => !thas ((List.range 64).map fun i => (i + 1, ({} : NsEntry))) (i + 1)) = none)) ∧
    (Held (heldNs 0x0D [1]) 1 0x0D ((adm 0x0D [1]).forNs 1) ∧ (heldNs 0x0D [1]).barrierClear ((adm 0x0D [1]).forNs 1) = true ∧ thas (heldNs 0x0D [1]).nvme.nss 1 = true ∧ thas (heldNs 0x0D [1]).nvme.nss 2 = false) ∧
    (Held (detached 0x15 [0]) 1 0x15 ((adm 0x15 [0]).forNs 1) ∧ (detached 0x15 [0]).ns? 1 = some { nsze := 4096 } ∧ (detached 0x15 [0]).ns? 2 = none ∧ Held (detached 0x15 [1]) 1 0x15 ((adm 0x15 [1]).forNs 1) ∧
      (detached 0x15 [1]).barrierClear ((adm 0x15 [1]).forNs 1) = true ∧ Held (heldNs 0x15 [1]) 1 0x15 ((adm 0x15 [1]).forNs 1) ∧ (heldNs 0x15 [1]).ns? 1 = some { nsze := 4096, attached := true }) ∧
    ([0, 0x400, 2].all fun d => decide (Held (heldNs 0x80 [d]) 1 0x80 ((adm 0x80 [d]).forNs 1)) && (heldNs 0x80 [d]).barrierClear ((adm 0x80 [d]).forNs 1)) = true ∧
    (formatStatus 0 = 0 ∧ formatStatus 0x400 = 0 ∧ bits 0x400 9 3 = 2 ∧ formatStatus 2 ≠ 0) ∧
    ([1, 2, 4].all fun d => decide (Held (held 0x84 [d]) 1 0x84 (adm 0x84 [d])) && (held 0x84 [d]).barrierClear (adm 0x84 [d]) && decide (bits ((adm 0x84 [d]).dw 10) 0 3 = d)) = true := by
  and_intros <;> decide +kernel
theorem witness_namespace_fits : Held (onRack (held 0x0D [0])) 1 0x0D (adm 0x0D [0]) ∧ (onRack (held 0x0D [0])).nsTotal + 8 * lbaBytes 0 ≤ (onRack (held 0x0D [0])).nsCap ∧
    (onRack (held 0x0D [0])).nsCap < (onRack (held 0x0D [0])).nsTotal + 2 ^ 60 * lbaBytes 0 := by
  and_intros <;> decide +kernel

theorem witness_SelfTestsAndStreamsAnswer :
    ([1, 2, 15].all fun d => decide (Held (held 0x14 [d]) 1 0x14 (adm 0x14 [d])) && decide (bits ((adm 0x14 [d]).dw 10) 0 4 = d)) = true ∧
    ([0x103, 0x001, 0x101, 0x102].all fun d => decide (Held (heldNs 0x1A [0, d]) 1 0x1A ((adm 0x1A [0, d]).forNs 1)) && decide (((adm 0x1A [0, d]).forNs 1).dir = (d / 256, d % 256))) = true ∧
    ([0x001, 0x101, 0x102].all fun d => decide (Held (heldNs 0x19 [0, d]) 1 0x19 ((adm 0x19 [0, d]).forNs 1)) && decide (((adm 0x19 [0, d]).forNs 1).dir = (d / 256, d % 256))) = true ∧
    (heldNs 0x1A [0, 0x103]).nsActive 1 = true ∧ (heldNs 0x1A [0, 0x103]).nsActive 2 = false := by
  and_intros <;> decide +kernel

/-- An I/O command of queue 1 with stamp 1 for namespace 1, of a class, with the chunks it names. -/
def ioc (op : Nat) (cls : OrdClass) (dws : List Nat) (ents : List ChunkEnt) : Ctx :=
  { stamp := 1, origin := .sq 1 7, opcode := BitVec.ofNat 8 op, nsid := 1, cls := cls, cdw := dws.map (BitVec.ofNat 32), ents := ents }
theorem witness_IoCommandsTakeEffect :
    ([(1, OrdClass.write), (2, .read), (5, .read), (0x0C, .read), (0, .none), (8, .write), (0x86, .read), (0x8A, .read)].all fun e => decide (HeldIo (withCtx (ioc e.1 e.2 [] [])) 1 e.1 (ioc e.1 e.2 [] []))) = true ∧
    ((ioc 1 .write [] []).xferred = false ∧ (ioc 1 .write [] []).blockOrder.length = 0 ∧ (ioc 2 .read [] []).decided = true ∧ (ioc 2 .read [] []).outcome = 0 ∧
      (ioc 2 .read [] [{ res := .failed 0x281 }]).decided = true ∧ (ioc 2 .read [] [{ res := .failed 0x281 }]).outcome = 0x281 ∧ (ioc 2 .read [] [{}]).decided = false) ∧
    ([(0, OrdClass.write), (4, .write), (4, .barrier)].all fun e => decide (HeldIo (withCtx (ioc 9 e.2 [0, e.1] [])) 1 9 (ioc 9 e.2 [0, e.1] [])) && decide (bitAt ((ioc 9 e.2 [0, e.1] []).dw 11) 2 = decide (e.1 = 4))) = true ∧
    (withCtx (ioc 9 .barrier [0, 4] [])).barrierClear (ioc 9 .barrier [0, 4] []) = true ∧
    ((withCtx (ioc 0x8A .read [] [])).earlierWrite 1 1 5 = false ∧ (withCtx (ioc 0x8A .read [] [])).resident 1 5 = true) := by
  and_intros <;> decide +kernel

/-- Ill-formed commands are refused by the check, one for each check (part 1). -/
theorem test_ill_formed_1 : ([.powerUpSequence default default (some 16) default, .railRetryTimeout (some 16), .channelInitialisation 32 default default,
    .channelInitialisation default true [{ addr := 32 }], .railOutOfRegulation 16 default, .domainIdleTimeout 28, .domainWake 28, .temperatureSample 24 default,
    .cpmTrip 8, .dieLinkFrame default default (some 2), .unitRelease 6 default, .actuatorUnlockTimeout 2, .submissionQueueDoorbell 65536 default,
    .completionQueueDoorbell 65536 default, .registerWrite default 12 default default, .commandFetch 65536 default default default,
    .commandFetch default { cid := 65536 } default default, .commandFetch default { cdw := List.replicate 7 0 } default default,
    .commandFetch default { prp := 2 ^ 64 } default default, .interruptAggregationTimeout 65536, .statusPoll 1024 default default,
    .operationTimeout 1024 default default default default default, .retrainInterval 1024 default default, .sequencerSubmit 34 default default default].all fun i => !Instr.wf i) = true := by decide

/-- Ill-formed commands are refused by the check, one for each check (part 2). -/
theorem test_ill_formed_2 : ([.completionRecordRead 34 default, .sequencerHold 34, .sequencerHoldRelease 34, .machineCheckClear 34, .operationDispatch 34 default,
    .yieldDelayEnd 34 default, .yieldDelayEnd default 8, .watchdogTrap 34 default, .watchdogTrap default 8, .journalPageProgramComplete default 1024 default,
    .channelFenceRebuildTimeout 32, .peelStart 64, .peelStop 64, .peelResume 64, .peelDescriptorReadComplete 64 default, .peelDescriptorAccept 64,
    .peelPollInterval 64, .peelSourceReadComplete 64 default default default, .peelRetirement 64, .pushLease 16, .apertureWrite 12288 default default,
    .leaseExpiry 12288, .pushCommit 16 default default, .slotResume 16].all fun i => !Instr.wf i) = true := by decide

/-- Ill-formed commands are refused by the check, one for each check (part 3). -/
theorem test_ill_formed_3 : ([.slotReleaseAll 16, .commitRecordAccept 16, .commitRetirement 16, .ospiOperationEnd 2 default default, .hardwareFaultDetected 1024 default,
    .reactionTimerExpiry 1024, .faultAck 1024 default, .heartbeatWrite 12, .heartbeatMissed 12, .forceBitWrite 1024 default, .patternRunStart 4,
    .patternCompareClear 4, .patternRunEnd 4 default, .dqsTrackingInterval 4 default, .refreshInterval 4, .dramAlert 4 default,
    .dramRequestChoice 4 default default, .dramBurstReadEnd 4 default default, .bufferAlloc 64 default default default,
    .bufferAlloc default 16 default default, .bufferFree 64 default, .bufferFree default 65536, .bufferTransfer 64 default default,
    .bufferTransfer default 65536 default].all fun i => !Instr.wf i) = true := by decide

/-- Ill-formed commands are refused by the check, one for each check (part 4). -/
theorem test_ill_formed_4 : ([.bufferShare 64 default default default, .bufferShare default 65536 default default, .bufferRelease 64 default, .bufferRelease default 65536,
    .bufferGroupGrant 16, .freeListRebuild 16 default, .poolMinfreeClear 16, .readCompletionReceived 16384 default, .completionTimeout 16384,
    .unexpectedCompletion 16384, .miReadDataStructure default 256 default, .miTunnelledAdminCommand default { cid := 65536 },
    .miTunnelledAdminCommand default { cdw := List.replicate 7 0 }, .miTunnelledAdminCommand default { prp := 2 ^ 64 }, .stagingReadEnd 2 default default,
    .bandWriteEnd 2 default default, .lastTrackCheckEnd 2 default default, .parityBandReadbackEnd 2 default default, .stackSummaryWriteEnd 2 default,
    .stackIdleCloseTimeout 2, .rackKneadSelection 2, .rackScrubRead 2 default default default default default default default,
    .wedgeRecord 2 default default, .servoGo 2 default default default].all fun i => !Instr.wf i) = true := by decide

/-- Ill-formed commands are refused by the check, one for each check (part 5). -/
theorem test_ill_formed_5 : ([.headSwitchSettle 2, .seekTimeLimit 2, .actuatorLoadEnd 2 default, .actuatorLoadEnd default 16777216, .loadTimeout 2, .unloadEnd 2, .runoutQueueRefill 2,
    .preampFault 2 default default, .headCalibrationDue 2, .calibrationStepEnd 2 default default default default,
    .calibrationStepEnd default default default default 65536, .tagReuseTimeout 16384, .preampFaultPersistence 2].all fun i => !Instr.wf i) = true := by decide

/-- Commands at the upper end of their ranges are well formed (part 1). -/
theorem test_well_formed_1 : ([.powerUpSequence default default (some 15) default, .railRetryTimeout (some 15), .channelInitialisation 31 true [{ addr := 31 }],
    .railOutOfRegulation 15 default, .domainIdleTimeout 27, .domainWake 27, .temperatureSample 23 default, .cpmTrip 7,
    .dieLinkFrame default default (some 1), .unitRelease 5 default, .actuatorUnlockTimeout 1, .submissionQueueDoorbell 65535 default,
    .completionQueueDoorbell 65535 default, .registerWrite default 11 default default, .commandFetch 65535 default default default,
    .interruptAggregationTimeout 65535, .statusPoll 1023 default default, .operationTimeout 1023 default default default default default,
    .retrainInterval 1023 default default, .sequencerSubmit 33 default default default, .completionRecordRead 33 default, .sequencerHold 33,
    .sequencerHoldRelease 33, .machineCheckClear 33, .operationDispatch 33 default, .yieldDelayEnd 33 7, .watchdogTrap 33 7,
    .journalPageProgramComplete default 1023 default, .channelFenceRebuildTimeout 31, .peelStart 63, .peelStop 63, .peelResume 63,
    .peelDescriptorReadComplete 63 default, .peelDescriptorAccept 63, .peelPollInterval 63, .peelSourceReadComplete 63 default default default,
    .peelRetirement 63, .pushLease 15, .apertureWrite 12287 default default, .leaseExpiry 12287].all Instr.wf) = true := by decide

/-- Commands at the upper end of their ranges are well formed (part 2). -/
theorem test_well_formed_2 : ([.pushCommit 15 default default, .slotResume 15, .slotReleaseAll 15, .commitRecordAccept 15, .commitRetirement 15, .ospiOperationEnd 1 default default,
    .hardwareFaultDetected 1023 default, .reactionTimerExpiry 1023, .faultAck 1023 default, .heartbeatWrite 11, .heartbeatMissed 11,
    .forceBitWrite 1023 default, .patternRunStart 3, .patternCompareClear 3, .patternRunEnd 3 default, .dqsTrackingInterval 3 default, .refreshInterval 3,
    .dramAlert 3 default, .dramRequestChoice 3 default default, .dramBurstReadEnd 3 default default, .bufferAlloc 63 15 default default,
    .bufferFree 63 65535, .bufferTransfer 63 65535 default, .bufferShare 63 65535 default default, .bufferRelease 63 65535, .bufferGroupGrant 15,
    .freeListRebuild 15 default, .poolMinfreeClear 15, .readCompletionReceived 16383 default, .completionTimeout 16383, .unexpectedCompletion 16383,
    .miReadDataStructure default 255 default, .miTunnelledAdminCommand default default, .stagingReadEnd 1 default default, .bandWriteEnd 1 default default,
    .lastTrackCheckEnd 1 default default, .parityBandReadbackEnd 1 default default, .stackSummaryWriteEnd 1 default, .stackIdleCloseTimeout 1,
    .rackKneadSelection 1].all Instr.wf) = true := by decide

/-- Commands at the upper end of their ranges are well formed (part 3). -/
theorem test_well_formed_3 : ([.rackScrubRead 1 default default default default default default default, .wedgeRecord 1 default default, .servoGo 1 default default default,
    .headSwitchSettle 1, .seekTimeLimit 1, .actuatorLoadEnd 1 16777215, .loadTimeout 1, .unloadEnd 1, .runoutQueueRefill 1, .preampFault 1 default default,
    .headCalibrationDue 1, .calibrationStepEnd 1 default default default 65535, .tagReuseTimeout 16383, .preampFaultPersistence 1].all Instr.wf) = true := by decide

/-- No word spells a command: no row of the table has bits. -/
theorem test_no_word_spells_a_command : decodeTableWord 32 0x12345678 = none := by decide

/-- The queue is first in, first out. -/
theorem test_fifo : (match step (State.reset.setPending [.ospiLock, .flush 1]) with | .next t => t.pending | _ => []) = [.flush 1] := by decide

/-- R547: LOCK stays set. -/
theorem test_lock : (match exec .ospiLock State.reset with | .next t => t.ospi.lock | _ => false) = true := by decide

/-- CRC-32C of the nine digits 123456789 is 0xE3069283, the check value of that CRC (R195). -/
theorem test_crc32c : crc32c [0x31, 0x32, 0x33, 0x34, 0x35, 0x36, 0x37, 0x38, 0x39] = 0xE3069283 := by decide +kernel

/-- R600: sequence numbers compare modulo 2^32. -/
theorem test_seq_wraps : seqBefore 0xFFFFFFFF 0 = true ∧ seqBefore 0 0xFFFFFFFF = false ∧ seqBefore 5 5 = false := by decide

end Sys2Proof.Machine
end

section
/-!
What every command keeps: `Keeps` over `exec`, from the lemma of each row, and the statements that read it off.
-/
namespace Sys2Proof.Machine
open Sys2Proof

/-- Every command goes on and undoes nothing of `Keeps`: `exec` hands each command to the row of its own, and each row's lemma says so of it. -/
theorem exec_keeps {σ s : State} (i : Instr) (h : Keeps σ s) : NextKeeps σ (exec i s) := by
  cases i with
  | powerUpSequence => exact execPowerUpSequence_keeps h
  | railRetryTimeout => exact execRailRetryTimeout_keeps h
  | bootStart => exact execBootStart_keeps h
  | bootFetchFault => exact execBootFetchFault_keeps h
  | nvmWindowBusFault => exact execNvmWindowBusFault_keeps h
  | dramTrainingEnd => exact execDramTrainingEnd_keeps h
  | microcodeLoad => exact execMicrocodeLoad_keeps h
  | channelInitialisation => exact execChannelInitialisation_keeps h
  | mount => exact execMount_keeps h
  | controllerReady => exact execControllerReady_keeps h
  | vinMainUndervoltage => exact execVinMainUndervoltage_keeps h
  | powerLossSequenceEnd => exact execPowerLossSequenceEnd_keeps h
  | vinBkupBrownOut => exact execVinBkupBrownOut_keeps h
  | sysrstNLow => exact execSysrstNLow_keeps h
  | sysrstNRelease => exact execSysrstNRelease_keeps h
  | railOutOfRegulation => exact execRailOutOfRegulation_keeps h
  | crystalStopped => exact execCrystalStopped_keeps h
  | vinOvervoltage => exact execVinOvervoltage_keeps h
  | vinMainBelowRackMinimum => exact execVinMainBelowRackMinimum_keeps h
  | rackVoltageRestored => exact execRackVoltageRestored_keeps h
  | chargeVoltageReached => exact execChargeVoltageReached_keeps h
  | holdupCheckStart => exact execHoldupCheckStart_keeps h
  | holdupCheckEnd => exact execHoldupCheckEnd_keeps h
  | writeHoldLimit => exact execWriteHoldLimit_keeps h
  | budgetGovernorTick => exact execBudgetGovernorTick_keeps h
  | domainIdleTimeout => exact execDomainIdleTimeout_keeps h
  | domainWake => exact execDomainWake_keeps h
  | opTransitionEnd => exact execOpTransitionEnd_keeps h
  | temperatureSample => exact execTemperatureSample_keeps h
  | compositeTemperatureUpdate => exact execCompositeTemperatureUpdate_keeps h
  | rateOfRiseEvaluation => exact execRateOfRiseEvaluation_keeps h
  | cpmTrip => exact execCpmTrip_keeps h
  | dieLinkFrame => exact execDieLinkFrame_keeps h
  | linkFrameInterval => exact execLinkFrameInterval_keeps h
  | linkSilenceTimeout => exact execLinkSilenceTimeout_keeps h
  | powerDieRearm => exact execPowerDieRearm_keeps h
  | retractLineAssert => exact execRetractLineAssert_keeps h
  | powerDieRetractTimeout => exact execPowerDieRetractTimeout_keeps h
  | retractParked => exact execRetractParked_keeps h
  | fabricBlockReceive => exact execFabricBlockReceive_keeps h
  | unitRelease => exact execUnitRelease_keeps h
  | actuatorUnlockTimeout => exact execActuatorUnlockTimeout_keeps h
  | controllerEnable => exact execControllerEnable_keeps h
  | controllerReset => exact execControllerReset_keeps h
  | shutdownNotification => exact execShutdownNotification_keeps h
  | submissionQueueDoorbell => exact execSubmissionQueueDoorbell_keeps h
  | completionQueueDoorbell => exact execCompletionQueueDoorbell_keeps h
  | interruptMaskSet => exact execInterruptMaskSet_keeps h
  | interruptMaskClear => exact execInterruptMaskClear_keeps h
  | registerWrite => exact execRegisterWrite_keeps h
  | commandFetch => exact execCommandFetch_keeps h
  | fetchResume => exact execFetchResume_keeps h
  | versionIdleTimeout => exact execVersionIdleTimeout_keeps h
  | writeAssignment => exact execWriteAssignment_keeps h
  | encodeJobEnd => exact execEncodeJobEnd_keeps h
  | decodeJobEnd => exact execDecodeJobEnd_keeps h
  | cipherJobEnd => exact execCipherJobEnd_keeps h
  | batchCloseTimeout => exact execBatchCloseTimeout_keeps h
  | programComplete => exact execProgramComplete_keeps h
  | interruptAggregationTimeout => exact execInterruptAggregationTimeout_keeps h
  | flashReadComplete => exact execFlashReadComplete_keeps h
  | codewordDecodeEnd => exact execCodewordDecodeEnd_keeps h
  | eraseComplete => exact execEraseComplete_keeps h
  | statusPoll => exact execStatusPoll_keeps h
  | operationTimeout => exact execOperationTimeout_keeps h
  | retrainInterval => exact execRetrainInterval_keeps h
  | sequencerSubmit => exact execSequencerSubmit_keeps h
  | completionRecordRead => exact execCompletionRecordRead_keeps h
  | sequencerHold => exact execSequencerHold_keeps h
  | sequencerHoldRelease => exact execSequencerHoldRelease_keeps h
  | machineCheckClear => exact execMachineCheckClear_keeps h
  | operationDispatch => exact execOperationDispatch_keeps h
  | microwordExecute => exact execMicrowordExecute_keeps h
  | yieldDelayEnd => exact execYieldDelayEnd_keeps h
  | watchdogTrap => exact execWatchdogTrap_keeps h
  | mapPageLoadComplete => exact execMapPageLoadComplete_keeps h
  | mapPageSpill => exact execMapPageSpill_keeps h
  | journalPageProgramComplete => exact execJournalPageProgramComplete_keeps h
  | deallocationJournalDelay => exact execDeallocationJournalDelay_keeps h
  | checkpointRoundStart => exact execCheckpointRoundStart_keeps h
  | checkpointRootDurable => exact execCheckpointRootDurable_keeps h
  | epochAdvance => exact execEpochAdvance_keeps h
  | ageingSweepVisit => exact execAgeingSweepVisit_keeps h
  | evacuationChoice => exact execEvacuationChoice_keeps h
  | migrationQueueRoom => exact execMigrationQueueRoom_keeps h
  | copySourceReadEnd => exact execCopySourceReadEnd_keeps h
  | copyReadVerifyEnd => exact execCopyReadVerifyEnd_keeps h
  | kneadSpanSelection => exact execKneadSpanSelection_keeps h
  | retentionAgeUpdate => exact execRetentionAgeUpdate_keeps h
  | scrubRead => exact execScrubRead_keeps h
  | channelFenceRebuildTimeout => exact execChannelFenceRebuildTimeout_keeps h
  | peelStart => exact execPeelStart_keeps h
  | peelStop => exact execPeelStop_keeps h
  | peelResume => exact execPeelResume_keeps h
  | peelDescriptorReadComplete => exact execPeelDescriptorReadComplete_keeps h
  | peelDescriptorAccept => exact execPeelDescriptorAccept_keeps h
  | peelPollInterval => exact execPeelPollInterval_keeps h
  | peelSourceReadComplete => exact execPeelSourceReadComplete_keeps h
  | peelRetirement => exact execPeelRetirement_keeps h
  | pushLease => exact execPushLease_keeps h
  | apertureWrite => exact execApertureWrite_keeps h
  | leaseExpiry => exact execLeaseExpiry_keeps h
  | pushCommit => exact execPushCommit_keeps h
  | slotResume => exact execSlotResume_keeps h
  | slotReleaseAll => exact execSlotReleaseAll_keeps h
  | commitRecordAccept => exact execCommitRecordAccept_keeps h
  | commitRetirement => exact execCommitRetirement_keeps h
  | recordPinChange => exact execRecordPinChange_keeps h
  | recordDebounceComplete => exact execRecordDebounceComplete_keeps h
  | swapPoint => exact execSwapPoint_keeps h
  | swapFallbackTimeout => exact execSwapFallbackTimeout_keeps h
  | scheduledSwapCompare => exact execScheduledSwapCompare_keeps h
  | orderArbitrationCycle => exact execOrderArbitrationCycle_keeps h
  | ospiProgram => exact execOspiProgram_keeps h
  | ospiErase => exact execOspiErase_keeps h
  | ospiOperationEnd => exact execOspiOperationEnd_keeps h
  | ospiLock => exact execOspiLock_keeps h
  | activationCompare => exact execActivationCompare_keeps h
  | activationPoint => exact execActivationPoint_keeps h
  | activationCoreReady => exact execActivationCoreReady_keeps h
  | recoveryInstall => exact execRecoveryInstall_keeps h
  | recoveryRestart => exact execRecoveryRestart_keeps h
  | recoveryWindowWrite => exact execRecoveryWindowWrite_keeps h
  | hardwareFaultDetected => exact execHardwareFaultDetected_keeps h
  | correctedSuppressionSecond => exact execCorrectedSuppressionSecond_keeps h
  | reactionTimerExpiry => exact execReactionTimerExpiry_keeps h
  | faultAck => exact execFaultAck_keeps h
  | heartbeatWrite => exact execHeartbeatWrite_keeps h
  | heartbeatMissed => exact execHeartbeatMissed_keeps h
  | safeStateFlashDone => exact execSafeStateFlashDone_keeps h
  | quietPeriodExpiry => exact execQuietPeriodExpiry_keeps h
  | safeStateRecoveryEnd => exact execSafeStateRecoveryEnd_keeps h
  | forceBitWrite => exact execForceBitWrite_keeps h
  | mirrorPageProgram => exact execMirrorPageProgram_keeps h
  | patternRunStart => exact execPatternRunStart_keeps h
  | patternCompareClear => exact execPatternCompareClear_keeps h
  | patternRunEnd => exact execPatternRunEnd_keeps h
  | dqsTrackingInterval => exact execDqsTrackingInterval_keeps h
  | refreshRateCheck => exact execRefreshRateCheck_keeps h
  | refreshInterval => exact execRefreshInterval_keeps h
  | patrolScrubBurst => exact execPatrolScrubBurst_keeps h
  | selfRefreshExit => exact execSelfRefreshExit_keeps h
  | dramAlert => exact execDramAlert_keeps h
  | dramRequestChoice => exact execDramRequestChoice_keeps h
  | dramBurstReadEnd => exact execDramBurstReadEnd_keeps h
  | bufferAlloc => exact execBufferAlloc_keeps h
  | bufferFree => exact execBufferFree_keeps h
  | bufferTransfer => exact execBufferTransfer_keeps h
  | bufferShare => exact execBufferShare_keeps h
  | bufferRelease => exact execBufferRelease_keeps h
  | bufferGroupGrant => exact execBufferGroupGrant_keeps h
  | freeListRebuild => exact execFreeListRebuild_keeps h
  | poolMinfreeClear => exact execPoolMinfreeClear_keeps h
  | linkTrainingEnd => exact execLinkTrainingEnd_keeps h
  | partnerLinkChange => exact execPartnerLinkChange_keeps h
  | aspmL1IdleTimeout => exact execAspmL1IdleTimeout_keeps h
  | l0pWidthChange => exact execL0pWidthChange_keeps h
  | configurationRequest => exact execConfigurationRequest_keeps h
  | inboundMemoryRequest => exact execInboundMemoryRequest_keeps h
  | poisonedWriteReceived => exact execPoisonedWriteReceived_keeps h
  | readCompletionReceived => exact execReadCompletionReceived_keeps h
  | completionTimeout => exact execCompletionTimeout_keeps h
  | unexpectedCompletion => exact execUnexpectedCompletion_keeps h
  | busMasterEnableClear => exact execBusMasterEnableClear_keeps h
  | busMasterEnableSet => exact execBusMasterEnableSet_keeps h
  | msixVectorUnmask => exact execMsixVectorUnmask_keeps h
  | d3hotEntry => exact execD3hotEntry_keeps h
  | d0Return => exact execD0Return_keeps h
  | functionLevelReset => exact execFunctionLevelReset_keeps h
  | perstNAssert => exact execPerstNAssert_keeps h
  | perstNRelease => exact execPerstNRelease_keeps h
  | hotReset => exact execHotReset_keeps h
  | linkDown => exact execLinkDown_keeps h
  | refclkLoss => exact execRefclkLoss_keeps h
  | jtagInstruction => exact execJtagInstruction_keeps h
  | write => exact execWrite_keeps h
  | read => exact execRead_keeps h
  | compare => exact execCompare_keeps h
  | verify => exact execVerify_keeps h
  | flush => exact execFlush_keeps h
  | writeZeroes => exact execWriteZeroes_keeps h
  | deallocate => exact execDeallocate_keeps h
  | datasetManagementHint => exact execDatasetManagementHint_keeps h
  | rawThroughRead => exact execRawThroughRead_keeps h
  | placementQuery => exact execPlacementQuery_keeps h
  | createIoSubmissionQueue => exact execCreateIoSubmissionQueue_keeps h
  | deleteIoSubmissionQueue => exact execDeleteIoSubmissionQueue_keeps h
  | createIoCompletionQueue => exact execCreateIoCompletionQueue_keeps h
  | deleteIoCompletionQueue => exact execDeleteIoCompletionQueue_keeps h
  | identifyController => exact execIdentifyController_keeps h
  | identifyNamespace => exact execIdentifyNamespace_keeps h
  | identifyLists => exact execIdentifyLists_keeps h
  | abort => exact execAbort_keeps h
  | asynchronousEventRequest => exact execAsynchronousEventRequest_keeps h
  | namespaceCreate => exact execNamespaceCreate_keeps h
  | namespaceDelete => exact execNamespaceDelete_keeps h
  | namespaceAttach => exact execNamespaceAttach_keeps h
  | namespaceDetach => exact execNamespaceDetach_keeps h
  | firmwareImageDownload => exact execFirmwareImageDownload_keeps h
  | firmwareCommitReplace => exact execFirmwareCommitReplace_keeps h
  | firmwareCommitNextReset => exact execFirmwareCommitNextReset_keeps h
  | firmwareCommitActivateSlot => exact execFirmwareCommitActivateSlot_keeps h
  | firmwareCommitImmediate => exact execFirmwareCommitImmediate_keeps h
  | deviceSelfTestShort => exact execDeviceSelfTestShort_keeps h
  | deviceSelfTestExtended => exact execDeviceSelfTestExtended_keeps h
  | streamsAllocateResources => exact execStreamsAllocateResources_keeps h
  | streamsReleaseIdentifier => exact execStreamsReleaseIdentifier_keeps h
  | streamsReturnParameters => exact execStreamsReturnParameters_keeps h
  | formatNvm => exact execFormatNvm_keeps h
  | formatNvmCryptoErase => exact execFormatNvmCryptoErase_keeps h
  | sanitizeExitFailure => exact execSanitizeExitFailure_keeps h
  | sanitizeBlockErase => exact execSanitizeBlockErase_keeps h
  | sanitizeCryptoErase => exact execSanitizeCryptoErase_keeps h
  | profileSwap => exact execProfileSwap_keeps h
  | faultInjectForce => exact execFaultInjectForce_keeps h
  | faultInjectClearAll => exact execFaultInjectClearAll_keeps h
  | eventRecorderClearUpto => exact execEventRecorderClearUpto_keeps h
  | eventRecorderClearAll => exact execEventRecorderClearAll_keeps h
  | setArbitration => exact execSetArbitration_keeps h
  | getArbitration => exact execGetArbitration_keeps h
  | setPowerManagement => exact execSetPowerManagement_keeps h
  | getPowerManagement => exact execGetPowerManagement_keeps h
  | setTemperatureThreshold => exact execSetTemperatureThreshold_keeps h
  | getTemperatureThreshold => exact execGetTemperatureThreshold_keeps h
  | setErrorRecovery => exact execSetErrorRecovery_keeps h
  | getErrorRecovery => exact execGetErrorRecovery_keeps h
  | setNumberOfQueues => exact execSetNumberOfQueues_keeps h
  | getNumberOfQueues => exact execGetNumberOfQueues_keeps h
  | setInterruptCoalescing => exact execSetInterruptCoalescing_keeps h
  | getInterruptCoalescing => exact execGetInterruptCoalescing_keeps h
  | setInterruptVectorConfig => exact execSetInterruptVectorConfig_keeps h
  | getInterruptVectorConfig => exact execGetInterruptVectorConfig_keeps h
  | setWriteAtomicityNormal => exact execSetWriteAtomicityNormal_keeps h
  | getWriteAtomicityNormal => exact execGetWriteAtomicityNormal_keeps h
  | setAsyncEventConfig => exact execSetAsyncEventConfig_keeps h
  | getAsyncEventConfig => exact execGetAsyncEventConfig_keeps h
  | setTimestamp => exact execSetTimestamp_keeps h
  | getTimestamp => exact execGetTimestamp_keeps h
  | setHctm => exact execSetHctm_keeps h
  | getHctm => exact execGetHctm_keeps h
  | setStreamFormat => exact execSetStreamFormat_keeps h
  | getStreamFormat => exact execGetStreamFormat_keeps h
  | setProfileControl => exact execSetProfileControl_keeps h
  | getProfileControl => exact execGetProfileControl_keeps h
  | setScheduledActivation => exact execSetScheduledActivation_keeps h
  | getScheduledActivation => exact execGetScheduledActivation_keeps h
  | setRackSpindleControl => exact execSetRackSpindleControl_keeps h
  | rackSpinUpAction => exact execRackSpinUpAction_keeps h
  | rackSpinDownAction => exact execRackSpinDownAction_keeps h
  | getRackSpindleControl => exact execGetRackSpindleControl_keeps h
  | placementHintsAdd => exact execPlacementHintsAdd_keeps h
  | placementHintsRemove => exact execPlacementHintsRemove_keeps h
  | placementHintsRemoveAll => exact execPlacementHintsRemoveAll_keeps h
  | getPlacementHints => exact execGetPlacementHints_keeps h
  | setCaptureWindowControl => exact execSetCaptureWindowControl_keeps h
  | getCaptureWindowControl => exact execGetCaptureWindowControl_keeps h
  | getLogSupportedPages => exact execGetLogSupportedPages_keeps h
  | getLogErrorInformation => exact execGetLogErrorInformation_keeps h
  | getLogSmartHealth => exact execGetLogSmartHealth_keeps h
  | getLogFirmwareSlot => exact execGetLogFirmwareSlot_keeps h
  | getLogChangedNamespaces => exact execGetLogChangedNamespaces_keeps h
  | getLogCommandsEffects => exact execGetLogCommandsEffects_keeps h
  | getLogDeviceSelfTest => exact execGetLogDeviceSelfTest_keeps h
  | getLogSanitizeStatus => exact execGetLogSanitizeStatus_keeps h
  | getLogPlacementReport => exact execGetLogPlacementReport_keeps h
  | getLogEventRecorder => exact execGetLogEventRecorder_keeps h
  | getLogDeferredError => exact execGetLogDeferredError_keeps h
  | getLogFaultStatus => exact execGetLogFaultStatus_keeps h
  | getLogHealthEarlyWarning => exact execGetLogHealthEarlyWarning_keeps h
  | getLogAgeing => exact execGetLogAgeing_keeps h
  | getLogMediaGeometry => exact execGetLogMediaGeometry_keeps h
  | miReadDataStructure => exact execMiReadDataStructure_keeps h
  | miSubsystemHealthPoll => exact execMiSubsystemHealthPoll_keeps h
  | miControllerHealthPoll => exact execMiControllerHealthPoll_keeps h
  | miConfigurationSet => exact execMiConfigurationSet_keeps h
  | miConfigurationGet => exact execMiConfigurationGet_keeps h
  | miTunnelledAdminCommand => exact execMiTunnelledAdminCommand_keeps h
  | rackSpinupTimeout => exact execRackSpinupTimeout_keeps h
  | spinupRetryWait => exact execSpinupRetryWait_keeps h
  | rackStandbyTimeout => exact execRackStandbyTimeout_keeps h
  | spindleStopped => exact execSpindleStopped_keeps h
  | stagingReadEnd => exact execStagingReadEnd_keeps h
  | bandWriteEnd => exact execBandWriteEnd_keeps h
  | lastTrackCheckEnd => exact execLastTrackCheckEnd_keeps h
  | parityBandReadbackEnd => exact execParityBandReadbackEnd_keeps h
  | stackSummaryWriteEnd => exact execStackSummaryWriteEnd_keeps h
  | stackIdleCloseTimeout => exact execStackIdleCloseTimeout_keeps h
  | rackSectorReadEnd => exact execRackSectorReadEnd_keeps h
  | rackKneadSelection => exact execRackKneadSelection_keeps h
  | rackScrubRead => exact execRackScrubRead_keeps h
  | rootCopyToRack => exact execRootCopyToRack_keeps h
  | wedgeRecord => exact execWedgeRecord_keeps h
  | servoGo => exact execServoGo_keeps h
  | headSwitchSettle => exact execHeadSwitchSettle_keeps h
  | seekTimeLimit => exact execSeekTimeLimit_keeps h
  | speedLoopUpdate => exact execSpeedLoopUpdate_keeps h
  | rotorSensingEnd => exact execRotorSensingEnd_keeps h
  | openLoopRampTimeout => exact execOpenLoopRampTimeout_keeps h
  | backEmfDetected => exact execBackEmfDetected_keeps h
  | runUpSpeedReached => exact execRunUpSpeedReached_keeps h
  | actuatorLoadEnd => exact execActuatorLoadEnd_keeps h
  | loadTimeout => exact execLoadTimeout_keeps h
  | unloadEnd => exact execUnloadEnd_keeps h
  | spindleSpeedErrorTimeout => exact execSpindleSpeedErrorTimeout_keeps h
  | brakingSpeedReached => exact execBrakingSpeedReached_keeps h
  | runoutQueueRefill => exact execRunoutQueueRefill_keeps h
  | preampFault => exact execPreampFault_keeps h
  | headCalibrationDue => exact execHeadCalibrationDue_keeps h
  | calibrationStepEnd => exact execCalibrationStepEnd_keeps h
  | sqFetchRetry => exact execSqFetchRetry_keeps h
  | tagReuseTimeout => exact execTagReuseTimeout_keeps h
  | refclkReturn => exact execRefclkReturn_keeps h
  | activationStepTimeout => exact execActivationStepTimeout_keeps h
  | timestampWaitExpiry => exact execTimestampWaitExpiry_keeps h
  | preampFaultPersistence => exact execPreampFaultPersistence_keeps h
  | vinOvervoltageCleared => exact execVinOvervoltageCleared_keeps h

/-- Settles O51: the state that `exec_keeps` gives; where a row has nothing to act on (assumption logs 9 to 11), it is the state as it was. The queue is
the model's own (log 26), and `Keeps.pending` says that no row touches it. -/
theorem everyCommandGoesOn : Obligations.EveryCommandGoesOn := by
  intro c s
  obtain ⟨t, hnext, hkeeps⟩ := exec_keeps c (Keeps.refl s)
  exact ⟨t, hnext, hkeeps.pending⟩

end Sys2Proof.Machine
end

section
/-!
The I/O commands: what the row of each answers while its context is held, and O50, which is read off these equations.
-/
namespace Sys2Proof.Machine
open Sys2Proof

section Rows
variable {s : State} {st : Nat} {c : Ctx} {data : List Crumb}

/-! The row of a held command, as one equation -/

theorem exec_write_held (h : HeldIo s st 0x01 c) : exec (.write st data) s =
    .next (if c.xferred || data.length ≠ c.blockOrder.length then s else (s.takeData c data).settle) := onIo_held h

theorem exec_read_held (h : HeldIo s st 0x02 c) : exec (.read st) s =
    .next (if !c.decided then s else if c.outcome ≠ 0 then s.complete st c.outcome 0
      else ((s.hostWrite (.blocks st (s.firstBlock c) c.readData)).countRead c).complete st 0 0) := onIo_held h

theorem exec_compare_held (h : HeldIo s st 0x05 c) : exec (.compare st data) s =
    .next (if !c.decided || data.length ≠ c.blockOrder.length then s
      else (s.modNvme fun n => { n with cmdsRead := n.cmdsRead + 1 }).complete st (c.compareWith data) 0) := onIo_held h

theorem exec_verify_held (h : HeldIo s st 0x0C c) : exec (.verify st) s = .next (if c.decided then s.complete st c.outcome 0 else s) := onIo_held h

theorem exec_flush_held (h : HeldIo s st 0x00 c) : exec (.flush st) s = .next (s.complete st 0 0) := onIo_held h

theorem exec_writeZeroes_held (h : HeldIo s st 0x08 c) : exec (.writeZeroes st) s =
    .next (c.ents.foldl (fun s e => s.zeroChunk st e) (s.modCtx st fun c => { c with begun := true, phase := .media })).settle := onIo_held h

theorem exec_datasetManagementHint_held (h : HeldIo s st 0x09 c) : exec (.datasetManagementHint st) s =
    .next (if bitAt (c.dw 11) 2 then s else s.complete st 0 0) := onIo_held h

/-- A deallocation as a barrier: every chunk of its ranges in one step (R72). -/
theorem exec_deallocate_barrier (h : HeldIo s st 0x09 c) (had : bitAt (c.dw 11) 2 = true) (hcls : c.cls = .barrier) :
    exec (.deallocate st) s = .next (if s.barrierClear c then
      (((s.descs.filter fun e => keyNs e.1 == c.nsid).foldl (fun s e => s.deallocChunk c.nsid (keyLcn e.1) (rangeMask c.ranges (keyLcn e.1))) s).complete st 0 0).settle
      else s) := by
  have hrow : exec (.deallocate st) s = _ := onIo_held h
  simpa only [had, hcls, Bool.not_true, Bool.false_eq_true, if_false, if_true] using hrow

/-- A deallocation that is no barrier: each chunk that may change does, and the command completes with the last (R85, R140). -/
theorem exec_deallocate_chunks (h : HeldIo s st 0x09 c) (had : bitAt (c.dw 11) 2 = true) (hcls : c.cls ≠ .barrier) :
    let dealt := c.ents.foldl (fun s e =>
        if e.res = .pending && s.changeClear st e.nsid e.lcn then
          (s.deallocChunk e.nsid e.lcn e.blks).modEnt st e.nsid e.lcn fun y => { y with res := .effected }
        else s) (s.modCtx st fun c => { c with begun := true, phase := .media })
    exec (.deallocate st) s = .next (if c.ents = [] then dealt.complete st 0 0 else dealt).finishWrites.settle := by
  have hrow : exec (.deallocate st) s = _ := onIo_held h
  simpa only [had, hcls, Bool.not_true, Bool.false_eq_true, if_false, List.isEmpty_iff] using hrow

theorem exec_rawThroughRead_held (h : HeldIo s st 0x86 c) :
    let r := rawRecords (chunkBlocks / ((s.ns? c.nsid).getD {}).blocksPerLba) (c.dw 13) c.ents 0
    exec (.rawThroughRead st) s = .next (if !c.decided then s else if c.outcome ≠ 0 then s.complete st c.outcome 0
      else (s.hostWrite (.data st r.2.1 r.1)).complete st 0 (BitVec.ofNat 32 r.2.2)) := onIo_held h

theorem exec_placementQuery_held (h : HeldIo s st 0x8A c) :
    let k := chunkBlocks / ((s.ns? c.nsid).getD {}).blocksPerLba
    let fs := (c.ents.zipIdx).flatMap fun (e, i) => s.queryFields e.nsid e.lcn k (16 * i)
    exec (.placementQuery st) s = .next (if c.ents.any fun e => s.earlierWrite st e.nsid e.lcn || !s.resident e.nsid e.lcn then s
      else (((s.hostWrite (.data st (16 * c.ents.length) fs)).complete st 0 0).effectParked).settle) := onIo_held h

/-- A placement query answers once no chunk of it waits for an earlier write or for its map page (R60). -/
theorem exec_placementQuery_settled (h : HeldIo s st 0x8A c)
    (hclear : ∀ e ∈ c.ents, s.earlierWrite st e.nsid e.lcn = false ∧ s.resident e.nsid e.lcn = true) :
    let k := chunkBlocks / ((s.ns? c.nsid).getD {}).blocksPerLba
    let fs := (c.ents.zipIdx).flatMap fun (e, i) => s.queryFields e.nsid e.lcn k (16 * i)
    exec (.placementQuery st) s = .next (((s.hostWrite (.data st (16 * c.ents.length) fs)).complete st 0 0).effectParked).settle := by
  have hany : (c.ents.any fun e => s.earlierWrite st e.nsid e.lcn || !s.resident e.nsid e.lcn) = false := by
    simpa using hclear
  have hrow := exec_placementQuery_held h
  simpa only [hany, Bool.false_eq_true, if_false] using hrow

end Rows

/-- Settles O50, command by command from the row of each. That a command whose turn has not come leaves the state as it is, where it waits for its
data, a read, a barrier or an earlier command, is the model's choice (assumption logs 9 and 11). -/
theorem ioCommandsTakeEffect : Obligations.IoCommandsTakeEffect := by
  intro s st data c
  refine ⟨fun h => ⟨fun hx hlen => ?_, fun hx => ?_⟩, fun h => ⟨fun hd => ?_, fun hd ho => ?_, fun hd ho => ?_⟩, fun h hd hlen => ?_,
    fun h => ⟨fun hd => ?_, fun hd => ?_⟩, exec_flush_held, exec_writeZeroes_held,
    fun h => ⟨fun had => ?_, exec_deallocate_chunks h, fun had hcls hgo => ?_, fun had hcls hwait => ?_⟩,
    fun h hd => ⟨fun ho => ?_, fun ho => ?_⟩, exec_placementQuery_settled⟩
  · rw [exec_write_held h]; simp [hx, hlen]
  · rw [exec_write_held h]; simp [hx]
  · rw [exec_read_held h]; simp [hd]
  · rw [exec_read_held h]; simp [hd, ho]
  · rw [exec_read_held h]; simp [hd, ho]
  · rw [exec_compare_held h]; simp [hd, hlen]
  · rw [exec_verify_held h]; simp [hd]
  · rw [exec_verify_held h]; simp [hd]
  · rw [exec_datasetManagementHint_held h]; simp [had]
  · rw [exec_deallocate_barrier h had hcls]; simp [hgo]
  · rw [exec_deallocate_barrier h had hcls]; simp [hwait]
  · rw [exec_rawThroughRead_held h]; simp [hd, ho]
  · rw [exec_rawThroughRead_held h]; simp [hd, ho]

end Sys2Proof.Machine
end

section
/-!
The supply monitors: what the row of each monitor answers where its condition holds, and O19, which collects these equations.
-/
namespace Sys2Proof.Machine
open Sys2Proof

section Rows
variable {s : State}

theorem exec_vinMainUndervoltage_below {vin : Nat} (h : vin < s.key2 0x0601) : exec (.vinMainUndervoltage vin) s =
    .next (s.modPwr fun p => { p with vinMain := vin, onBkup := true }).powerFail := if_neg (Nat.not_le.mpr h)

/-- The sequence ends with all seven steps done, at its 40 ms at the latest (R613). -/
theorem exec_powerLossSequenceEnd_running {dur vend : Nat} (h : s.pwr.pl.running = true) : exec (.powerLossSequenceEnd dur vend) s =
    .next ((s.reach (s.pwr.pl.start + min dur 40000 * us)).controllerLost (min dur 40000) vend 0x7F false) := if_neg (by simp [h])

/-- A brown-out ends the sequence with the steps that were done by then (R614). -/
theorem exec_vinBkupBrownOut_running {dur vend : Nat} {steps : BitVec 6} (h : s.pwr.pl.running = true) (hlow : vend < 4500) :
    exec (.vinBkupBrownOut dur vend steps) s =
      .next ((s.reach (s.pwr.pl.start + min dur 40000 * us)).controllerLost (min dur 40000) vend (steps.zeroExtend 8) true) :=
  if_neg (by simp [h, hlow])

/-- A rail out of regulation raises its source at once, and for rails 0 to 12 and 15 the power-fail line after 20 µs (R669). -/
theorem exec_railOutOfRegulation_on {rail : Nat} {long : Bool} (hrail : rail < 16) (hon : s.pwr.crst = false) :
    let u := (s.modPins fun p => { p with railOut := tput p.railOut rail s.now }).fault (0x240 + rail) []
    exec (.railOutOfRegulation rail long) s =
      if long && (rail ≤ 12 || rail = 15) then .next (u.reach (u.now + 20 * us)).powerFail else .next u := if_neg (by simp [hrail, hon])

theorem exec_crystalStopped_on (hon : s.pwr.crst = false) : exec .crystalStopped s =
    .next (((s.modPwr fun p => { p with crystal := false }).fault 0x27B []).fatal 0x27B false) := if_neg (by simp [hon])

/-- An input above 18.5 V raises the source of its monitor; VIN_MAIN also takes the Rack tier to LOWV (R643, R669). -/
theorem exec_vinOvervoltage_on {bkup : Bool} {mv : Nat} (hmv : 18500 < mv) (hon : s.pwr.crst = false) : exec (.vinOvervoltage bkup mv) s =
    .next (if bkup then (s.modPwr fun p => { p with vinBkup := mv }).fault 0x273 []
      else (((s.modPwr fun p => { p with vinMain := mv }).modPins fun p => { p with overvolt := true }).fault 0x272 []).toLowv) := by
  change execVinOvervoltage bkup mv s = _
  cases bkup <;> simp [execVinOvervoltage, Nat.not_le.mpr hmv, hon]

theorem exec_vinOvervoltageCleared_on {mv : Nat} (hover : s.pins.overvolt = true) (hmv : mv < 18500) (hon : s.pwr.crst = false) :
    exec (.vinOvervoltageCleared mv) s =
      .next ((s.modPwr fun p => { p with vinMain := mv }).modPins fun p => { p with overvolt := false }).leaveLowv := by
  change execVinOvervoltageCleared mv s = _
  simp [execVinOvervoltageCleared, hover, Nat.not_le.mpr hmv, hon]

theorem exec_vinMainBelowRackMinimum_on {mv : Nat} (hmv : mv < 10800) (hon : s.pwr.crst = false) : exec (.vinMainBelowRackMinimum mv) s =
    .next (s.modPwr fun p => { p with vinMain := mv }).toLowv := by
  change execVinMainBelowRackMinimum mv s = _
  simp [execVinMainBelowRackMinimum, Nat.not_le.mpr hmv, hon]

theorem exec_rackVoltageRestored_on {mv : Nat} (hmv : 10800 ≤ mv) (hon : s.pwr.crst = false) : exec (.rackVoltageRestored mv) s =
    .next (s.modPwr fun p => { p with vinMain := mv }).leaveLowv := by
  change execRackVoltageRestored mv s = _
  simp [execRackVoltageRestored, Nat.not_lt.mpr hmv, hon]

end Rows

/-- Settles O19, monitor by monitor from the row of each. The clock moves to the end of a timer (assumption log 3); the steps done of a brown-out and its
time are operands (log 43), and what the loss of the controller die keeps is `State.controllerLost` (logs 44 and 45). -/
theorem supplyMonitorsAct : Obligations.SupplyMonitorsAct := by
  intro s vin dur vend rail mv steps
  refine ⟨exec_vinMainUndervoltage_below, exec_powerLossSequenceEnd_running, exec_vinBkupBrownOut_running, fun hrail hon => ?_, fun hrail hon => ?_,
    exec_crystalStopped_on, exec_vinOvervoltage_on (bkup := true), exec_vinOvervoltage_on (bkup := false), exec_vinOvervoltageCleared_on,
    exec_vinMainBelowRackMinimum_on, exec_rackVoltageRestored_on⟩
  · exact exec_railOutOfRegulation_on (long := false) hrail hon
  · refine ⟨_, ?_, _, rfl, rfl⟩
    rw [exec_railOutOfRegulation_on (by omega) hon]
    simp [hrail]

end Sys2Proof.Machine
end

section
/-!
The die-to-die link and the retract: what a frame does, what a retract leaves of both actuators, and O25, which collects them.
-/
namespace Sys2Proof.Machine
open Sys2Proof

section Rows
variable {s : State} {a : Nat}

/-! Frames (R8, R9) -/

/-- A frame with a bad CRC-8 is discarded and counted. -/
def State.countBadFrame (s : State) : State := (s.modLink fun l => { l with crcErrors := l.crcErrors + 1 }).fault 0x200 []

section BadFrame
variable (hon : s.pwr.crst = false)
include hon

/-- A bad frame from the power die, or one without DAC codes, is no lost DAC update. -/
theorem exec_dieLinkFrame_bad {toPower : Bool} {dac : Option Nat} (hdac : (if toPower then dac else none) = none) :
    exec (.dieLinkFrame toPower false dac) s = .next s.countBadFrame := by
  change execDieLinkFrame toPower false dac s = _
  simp [execDieLinkFrame, hon, hdac, State.countBadFrame]

variable (ha : a < 2)
include ha

theorem exec_dieLinkFrame_firstLost (hfirst : s.countBadFrame.link.dacMiss.getD a 0 + 1 < 2) : exec (.dieLinkFrame true false (some a)) s =
    .next (s.countBadFrame.modLink fun l => { l with dacMiss := lmod l.dacMiss a fun _ => s.countBadFrame.link.dacMiss.getD a 0 + 1 }) := by
  change execDieLinkFrame true false (some a) s = _
  simp only [State.countBadFrame] at hfirst ⊢
  simp only [execDieLinkFrame, hon, Bool.not_false, if_true, Bool.false_eq_true, if_false, if_neg (Nat.not_le.mpr ha), if_neg (Nat.not_le.mpr hfirst)]

/-- The second DAC update in a row that is lost raises the source of its actuator. -/
theorem exec_dieLinkFrame_secondLost (hsecond : 2 ≤ s.countBadFrame.link.dacMiss.getD a 0 + 1) : exec (.dieLinkFrame true false (some a)) s =
    .next ((s.countBadFrame.modLink fun l => { l with dacMiss := lmod l.dacMiss a fun _ => 0 }).fault (0x201 + a) []) := by
  change execDieLinkFrame true false (some a) s = _
  simp only [State.countBadFrame] at hsecond ⊢
  simp only [execDieLinkFrame, hon, Bool.not_false, if_true, Bool.false_eq_true, if_false, if_neg (Nat.not_le.mpr ha), if_pos hsecond]

end BadFrame

theorem exec_dieLinkFrame_good (hon : s.pwr.crst = false) : exec (.dieLinkFrame true true none) s = .next (s.modLink fun l => { l with lastGood := s.now }) := by
  change execDieLinkFrame true true none s = _
  simp [execDieLinkFrame, hon]

/-- Good DAC codes reach the motor outputs while the power die follows commands. -/
theorem exec_dieLinkFrame_codes (hon : s.pwr.crst = false) (ha : a < 2) (hfollows : s.link.silent = false) : exec (.dieLinkFrame true true (some a)) s =
    .next ((((s.modLink fun l => { l with lastGood := s.now }).modLink fun l => { l with dacMiss := lmod l.dacMiss a fun _ => 0 }).modLink fun l => { l with
      dac := lmod l.dac a fun _ => BitVec.ofInt 18 (s.sact a).dacV
      madac := lmod l.madac a fun _ => BitVec.ofInt 16 (s.sact a).dacM }).send (.motor a (s.sact a).dacV (s.sact a).dacM)) := by
  change execDieLinkFrame true true (some a) s = _
  simp [execDieLinkFrame, hon, Nat.not_le.mpr ha, hfollows, State.sact]

/-- The first frame from the power die after a retract of its own reports it. -/
theorem exec_dieLinkFrame_report (hon : s.pwr.crst = false) (hreport : s.link.retractReport = true) : exec (.dieLinkFrame false true none) s =
    .next ((s.modLink fun l => { l with retractReport := false }).fault 0x203 []) := by
  change execDieLinkFrame false true none s = _
  simp [execDieLinkFrame, hon, hreport]

theorem lmod_getElem?_self {α : Type} {l : List α} {i : Nat} (h : i < l.length) (x : α) : (lmod l i fun _ => x)[i]? = some x := by
  simp [lmod, h]

/-! The retract (R417, R418) -/

/-- After a retract every actuator is parked, fenced, or on its way to its ramp with its milliactuator at 0 (R417). -/
theorem State.retractBoth_acts (s : State) : ∀ x ∈ s.retractBoth.servo.acts,
    x.mode = .parked ∨ x.mode = .fenced ∨ (x.mode = .unloading ∧ x.dacM = 0 ∧ x.locked = false) := by
  intro x hx
  obtain ⟨y, -, rfl⟩ := List.mem_map.mp hx
  split
  next hstays =>
    obtain hparked | hfenced : y.mode = .parked ∨ y.mode = .fenced := by simpa using hstays
    · exact .inl hparked
    · exact .inr (.inl hfenced)
  next => exact .inr (.inr ⟨rfl, rfl, rfl⟩)

/-- When the retract line asserts: within 20 µs of the power-fail line where a power-loss sequence runs, and at once elsewhere (R10). -/
def State.retractTime (s : State) : Nat := if s.pwr.pl.running then max s.now (min (s.now + 20 * us) (s.pwr.pl.start + 20 * us)) else s.now

theorem State.retractTime_le (hpower : s.pwr.pl.running = true) : s.retractTime ≤ max s.now (s.pwr.pl.start + 20 * us) := by
  rw [State.retractTime, if_pos hpower]
  exact max_le_max_left _ (min_le_right _ _)

theorem State.retractTime_idle (hpower : s.pwr.pl.running = false) : s.retractTime = s.now := if_neg (ne_true_of_eq_false hpower)

theorem exec_retractLineAssert_on (hon : s.pwr.crst = false) : exec .retractLineAssert s =
    .next ((s.setNow s.retractTime).modLink fun l => { l with retract := true }).retractBoth := by
  change execRetractLineAssert s = _
  cases hrun : s.pwr.pl.running <;> simp only [execRetractLineAssert, State.retractTime, hon, hrun] <;> rfl

theorem exec_linkFrameInterval_on (hon : s.pwr.crst = false) : exec .linkFrameInterval s =
    .next (((s.reach (s.link.lastSent + 2 * us)).modLink fun l => { l with lastSent := max s.now (l.lastSent + 2 * us) }).send .frame) := if_neg (by simp [hon])

theorem exec_linkSilenceTimeout_on (hon : s.pwr.crst = false) (hfollows : s.link.silent = false) : exec .linkSilenceTimeout s =
    .next ((s.reach (s.link.lastGood + 50 * us)).retractBoth.modLink fun l => { l with retractReport := true }) := if_neg (by simp [hon, hfollows])

theorem exec_powerDieRetractTimeout_low (hlow : s.pwr.vinMain < s.key2 0x0601) (hline : s.link.retract = false) (hfollows : s.link.silent = false) :
    exec .powerDieRetractTimeout s =
      .next ((s.setNow (s.now + 100 * us)).retractBoth.modLink fun l => { l with retractReport := true }) := if_neg (by simp [hlow, hline, hfollows])

/-- A parked retract drives no actuator and leaves the spindle braked and stopped (R418). -/
theorem retractParked_drives_none (hretract : s.link.silent = true) : Does .retractParked s fun t =>
    t.servo.spindle.state = .retracted ∧ t.servo.spindle.cmd = 0 ∧
    (∀ x ∈ t.servo.acts, x.mode = .fenced ∨ (x.mode = .parked ∧ x.dacV = 0 ∧ x.dacM = 0)) ∧ (s.rack.spin = .ready → t.rack.spin = .stopped) := by
  refine ⟨_, if_neg (by simp [hretract]), rfl, rfl, fun x hx => ?_, fun hspin => by simp [hspin]⟩
  obtain ⟨y, -, rfl⟩ := List.mem_map.mp hx
  split
  next hfenced => exact .inl hfenced
  next => exact .inr ⟨rfl, rfl, rfl⟩

/-- Re-arming releases the retract line and lets the power die follow commands (R9, R418); without waiting Rack work nothing demands spin-up. -/
theorem exec_powerDieRearm_idle (hon : s.pwr.crst = false) (hpower : s.pwr.pl.running = false) (hsafe : s.safeState = false) (hidle : s.rackWork = false) :
    exec .powerDieRearm s = .next ((s.modLink fun l => { l with silent := false, retract := false, lastGood := s.now }).modServo fun v =>
      { v with spindle := { v.spindle with state := if v.spindle.state = .retracted then .stopped else v.spindle.state } }) :=
  (if_neg (by simp [hon, hpower, hsafe])).trans (congrArg Host.Outcome.next (if_neg (ne_true_of_eq_false hidle)))

end Rows

/-- Settles O25, event by event. The clock moves to the end of a timer (assumption log 3); that the power die ignores the engine until it is armed again,
and that arming releases the retract line, is the model's choice (log 58). -/
theorem theDieLinkAndTheRetract : Obligations.TheDieLinkAndTheRetract := by
  intro s a toPower
  refine ⟨fun hon => ⟨exec_dieLinkFrame_bad hon rfl, exec_dieLinkFrame_bad hon (ite_self none)⟩,
    fun hon ha => ⟨exec_dieLinkFrame_firstLost hon ha, exec_dieLinkFrame_secondLost hon ha⟩, exec_dieLinkFrame_good,
    fun hon ha hfollows hdac hmadac => ?_, exec_dieLinkFrame_report, fun hon => ?_, fun hon => ?_, fun hon hfollows => ?_,
    fun hlow hline hfollows => ?_, retractParked_drives_none, fun hon hpower hsafe hidle _ => ?_⟩
  · exact ⟨_, exec_dieLinkFrame_codes hon ha hfollows, rfl, lmod_getElem?_self (hdac ▸ ha) _, lmod_getElem?_self (hmadac ▸ ha) _, rfl⟩
  · exact ⟨_, exec_linkFrameInterval_on hon, rfl, rfl, rfl⟩
  · exact ⟨_, exec_retractLineAssert_on hon, rfl, rfl, State.retractTime_le, State.retractTime_idle, State.retractBoth_acts _⟩
  · exact ⟨_, exec_linkSilenceTimeout_on hon hfollows, rfl, rfl, rfl, State.retractBoth_acts _⟩
  · exact ⟨_, exec_powerDieRetractTimeout_low hlow hline hfollows, rfl, rfl, rfl, State.retractBoth_acts _⟩
  · exact ⟨_, exec_powerDieRearm_idle hon hpower hsafe hidle, rfl, rfl, rfl, rfl, fun hstate => if_pos hstate⟩

end Sys2Proof.Machine
end

section
/-!
The write path of a version up to its cipher job: what the rows of its timer, its assignment and its encode answer, and O31, which collects them.
-/
namespace Sys2Proof.Machine
open Sys2Proof

/-- Where nothing holds back assignments: the replay window has room, Knead does not need the space, and the media take programs (R45, R127, R296). -/
def State.assigns (s : State) : Prop := s.map.windowFull = false ∧ s.kneadPressed = false ∧ s.mediaStopped = false

/-- The tier of an assignment (R43). -/
def State.assignTier (s : State) : Tier := if s.place.directBake then .bake else .proof

/-- A version that has its reservation: it no longer stalls, and knows its tier, slot, span and batch (R40). -/
def State.assignedAt (x : State) (vid : Nat) (tier : Tier) (slot n b : Nat) : State :=
  (x.modFlash fun f => { f with stalled := f.stalled.filter (· != vid) }).modVersion vid fun w => { w with
    tier := tier, slot := slot, span := n, batch := b }

/-- What the coder makes of a version's data (R202). -/
def State.encodeOf (s : State) (v : Version) : EncOut :=
  let f := tgetD s.coder.formats (v.fmt.getD 0) {}
  let done := s.coderDone v.engine false
  (f.geo (f.firstChunk (lbaBytes ((done.ns? v.nsid).getD {}).flbas)) v.lcn).encode (done.codedLimit f) (v.fmt.getD 0) (s.versionData v)

/-- The outcome of an encode is counted in its format, and the version goes to the cipher with the stream or with its data (R202). -/
def State.endEncode (s : State) (vid ix : Nat) (data : List Crumb) : EncOut → State
  | .coded p => (s.countFormat ix fun c => { c with coded := satInc c.coded }).toCipher vid p true
  | .limit => (s.countFormat ix fun c => { c with rawLimit := satInc c.rawLimit }).toCipher vid data false
  | .range => (s.countFormat ix fun c => { c with rawRange := satInc c.rawRange }).toCipher vid data false

section Rows
variable {s x u : State} {vid n b e : Nat} {v : Version}

theorem exec_versionIdleTimeout_full (hv : s.version? vid = some v) (hopen : v.phase = .opened) (hfull : s.joinersFull v = true) :
    exec (.versionIdleTimeout vid) s = .next (((s.reach (v.lastJoin + 20 * us)).seal vid (v.joiners.getLastD 0)).settle) := by
  change execVersionIdleTimeout vid s = _
  simp [execVersionIdleTimeout, hv, hopen, hfull]

section Assignment
variable (hv : s.version? vid = some v) (hready : v.phase = .ready) (hfree : s.assigns)
include hv hready hfree

/-- Without an erased span to reserve in, the version waits (R40, R296). -/
theorem exec_writeAssignment_stalls (hres : s.evalDirect.reserveIn s.evalDirect.assignTier (s.evalDirect.writeSlot v) (2 * vid) = none) :
    exec (.writeAssignment vid) s =
      .next (s.evalDirect.modFlash fun f => { f with stalled := if f.stalled.contains vid then f.stalled else f.stalled ++ [vid] }) := by
  obtain ⟨hwindow, hknead, hmedia⟩ := hfree
  simp only [State.assignTier] at hres
  change execWriteAssignment vid s = _
  simp [execWriteAssignment, hv, hready, hwindow, hknead, hmedia, hres]

variable (hres : s.evalDirect.reserveIn s.evalDirect.assignTier (s.evalDirect.writeSlot v) (2 * vid) = some (n, b, x))
include hres

/-- A version with a format goes to the coder engine that takes it (R13, R14). -/
theorem exec_writeAssignment_codes (hfmt : v.fmt.isSome = true)
    (hq : (x.assignedAt vid s.evalDirect.assignTier (s.evalDirect.writeSlot v) n b).queueCoder = some (e, u)) :
    exec (.writeAssignment vid) s = .next (u.modVersion vid fun v => { v with phase := .encoding, engine := e }) := by
  obtain ⟨hwindow, hknead, hmedia⟩ := hfree
  obtain ⟨f, hf⟩ := Option.isSome_iff_exists.mp hfmt
  simp only [State.assignTier, State.assignedAt] at hres hq
  change execWriteAssignment vid s = _
  simp [execWriteAssignment, hv, hready, hwindow, hknead, hmedia, hres, hf, hq]

/-- A version without a format, or without an engine to code it, goes to the cipher as it is (R14, R55). -/
theorem exec_writeAssignment_storesRaw
    (hraw : v.fmt.isSome = false ∨ (x.assignedAt vid s.evalDirect.assignTier (s.evalDirect.writeSlot v) n b).queueCoder = none) :
    let assigned := x.assignedAt vid s.evalDirect.assignTier (s.evalDirect.writeSlot v) n b
    exec (.writeAssignment vid) s = .next (assigned.toCipher vid (assigned.versionData v) false) := by
  obtain ⟨hwindow, hknead, hmedia⟩ := hfree
  simp only [State.assignTier, State.assignedAt] at hres hraw ⊢
  change execWriteAssignment vid s = _
  cases hf : v.fmt with
  | none => simp [execWriteAssignment, hv, hready, hwindow, hknead, hmedia, hres, hf]
  | some f =>
    have hq := hraw.resolve_left (by simp [hf])
    simp [execWriteAssignment, hv, hready, hwindow, hknead, hmedia, hres, hf, hq]

end Assignment

section Encode
variable (hv : s.version? vid = some v) (henc : v.phase = .encoding)
include hv henc

/-- A parity error fails the chunk and raises the source of its engine (R13, R55). -/
theorem exec_encodeJobEnd_parity : exec (.encodeJobEnd vid true) s =
    .next (((s.coderDone v.engine false).failVersion v scInternal).fault (0x128 + v.engine) []) := by
  change execEncodeJobEnd vid true s = _
  simp [execEncodeJobEnd, hv, henc]

/-- An encode that ends without a parity error: its outcome is counted, and the version goes to the cipher coded or raw (R202). -/
theorem exec_encodeJobEnd_encodes : exec (.encodeJobEnd vid false) s =
    .next ((s.coderDone v.engine false).endEncode vid (v.fmt.getD 0) (s.versionData v) (s.encodeOf v)) := by
  change execEncodeJobEnd vid false s = _
  simp only [execEncodeJobEnd, hv, henc, ne_eq, not_true_eq_false, if_false, Bool.false_eq_true, State.encodeOf]
  split <;> next hout => rw [hout]; rfl

end Encode
end Rows

/-- Settles O31, from the rows of the idle timer, of the assignment and of the encode job. The idle timer moves the clock to its end (assumption log 3). -/
theorem versionsAreAssignedAndCoded : Obligations.VersionsAreAssignedAndCoded := by
  intro s vid n b v e x u
  refine ⟨exec_versionIdleTimeout_full, exec_writeAssignment_stalls, fun hv hready hfree hres =>
    ⟨exec_writeAssignment_codes hv hready hfree hres, exec_writeAssignment_storesRaw hv hready hfree hres⟩, fun hv henc =>
    ⟨exec_encodeJobEnd_parity hv henc, fun p hout => ?_, fun hout => ?_, fun hout => ?_⟩⟩ <;>
  · rw [exec_encodeJobEnd_encodes hv henc, show s.encodeOf v = _ from hout]
    rfl

end Sys2Proof.Machine
end

section
/-!
The read path: what the rows of the flash read, the codeword decode, the cipher job and the coder decode of a read answer, and O33, which collects them.
-/
namespace Sys2Proof.Machine
open Sys2Proof

/-- The codewords of a job leave their decoder, a soft one in step 3 of the ladder (R18, R310). -/
def State.codewordsDone (s : State) (j : ReadJob) : State :=
  s.modPlace fun p => if j.step = 3 then { p with softQ := p.softQ.pop j.engine j.loc.codewords } else { p with hardQ := p.hardQ.pop j.engine j.loc.codewords }

/-- The copy that a job reads is a well-formed stream of its chunk's format (R204). -/
def State.streamDecodes (s : State) (j : ReadJob) : Bool :=
  match s.copyAt j.loc with
  | some c => (yrcDecode (s.desc j.nsid j.lcn).format.toNat c.payload).isSome
  | none => false

section Rows
variable {s u : State} {id e bits entry lost : Nat} {j : ReadJob} {v : Version} {parity mismatch : Bool}

section FlashRead
variable (hj : s.job? id = some j) (hfetch : j.phase = .fetch) (hflash : j.loc.tier ≠ .rack)
include hj hfetch hflash

/-- Outside step 3 the codewords go to a hard-decision decoder (R18, R308). -/
theorem exec_flashReadComplete_hard (hstep : j.step ≠ 3) (hq : (s.countReads j.loc.span (s.blocksOf j.loc)).queueHard j.loc.codewords = some (e, u)) :
    exec (.flashReadComplete id) s = .next (u.modJob id fun x => { x with phase := .decode, engine := e }) := by
  change execFlashReadComplete id s = _
  simp [execFlashReadComplete, hj, hfetch, hflash, hstep, hq]

/-- In step 3 they go to a soft-decision decoder (R310). -/
theorem exec_flashReadComplete_soft (hstep : j.step = 3) (hq : (s.countReads j.loc.span (s.blocksOf j.loc)).queueSoft j.loc.codewords = some (e, u)) :
    exec (.flashReadComplete id) s = .next (u.modJob id fun x => { x with phase := .decode, engine := e }) := by
  change execFlashReadComplete id s = _
  simp [execFlashReadComplete, hj, hfetch, hflash, hstep, hq]

end FlashRead

section Decode
variable (hj : s.job? id = some j) (hdecode : j.phase = .decode)
include hj hdecode

/-- A decode that fails takes the job to the next step of its ladder (R309). -/
theorem exec_codewordDecodeEnd_fails : exec (.codewordDecodeEnd id false bits entry lost) s = .next ((s.codewordsDone j).ladder j lost) := by
  change execCodewordDecodeEnd id false bits entry lost s = _
  simp [execCodewordDecodeEnd, hj, hdecode, State.codewordsDone]

/-- A good decode in step 1 flags its span for a refresh where it corrected too many bits, and goes to the cipher (R18, R308). -/
theorem exec_codewordDecodeEnd_firstStep (hstep : j.step = 1)
    (hq : (if (s.codewordsDone j).key2 0x012E ≤ bits then (s.codewordsDone j).flagRefresh j.loc.span else s.codewordsDone j).queueCipher (512 * j.loc.crumbs)
      = some (e, u)) :
    exec (.codewordDecodeEnd id true bits entry lost) s = .next (u.modJob id fun x => { x with phase := .cipher, engine := e }) := by
  simp [State.codewordsDone, hstep] at hq
  change execCodewordDecodeEnd id true bits entry lost s = _
  simp [execCodewordDecodeEnd, hj, hdecode, hstep, hq]

end Decode

theorem exec_cipherJobEnd_version (hv : s.version? id = some v) (hphase : v.phase = .ciphering) :
    exec (.cipherJobEnd true id parity) s = .next (s.encrypted v parity) := by
  change execCipherJobEnd true id parity s = _
  simp [execCipherJobEnd, hv, hphase]

theorem exec_cipherJobEnd_read (hj : s.job? id = some j) (hphase : j.phase = .cipher) :
    exec (.cipherJobEnd false id parity) s = .next (s.decrypted j parity) := by
  change execCipherJobEnd false id parity s = _
  simp [execCipherJobEnd, hj, hphase]

/-- A coder decode is done again after a parity error, goes up the ladder where the bytes are not those stored, and else delivers (R13, R204, R205). -/
theorem exec_decodeJobEnd_coder (hj : s.job? id = some j) (hcoder : j.phase = .coder) :
    let k := s.coderDone j.engine true
    exec (.decodeJobEnd id parity mismatch) s = .next (if parity then (k.retryJob j).fault (0x128 + j.engine) []
      else if mismatch || !k.streamDecodes j then k.ladder j 0 else k.deliverJob j) := by
  change execDecodeJobEnd id parity mismatch s = _
  simp only [execDecodeJobEnd, hj, hcoder, ne_eq, not_true_eq_false, if_false, apply_ite Host.Outcome.next]
  rfl

end Rows

/-- Settles O33, from the row of each stage of a read. -/
theorem readsReturnFromTheMedia : Obligations.ReadsReturnFromTheMedia := by
  intro s id e bits entry lost parity j v u
  refine ⟨fun hj hfetch hflash => ⟨exec_flashReadComplete_hard hj hfetch hflash, exec_flashReadComplete_soft hj hfetch hflash⟩,
    fun hj hdecode => ⟨exec_codewordDecodeEnd_fails hj hdecode, fun hstep hbits e u hq => ?_, fun hstep hbits hq => ?_⟩,
    exec_cipherJobEnd_version, exec_cipherJobEnd_read, fun hj hcoder => ⟨exec_decodeJobEnd_coder hj hcoder, exec_decodeJobEnd_coder hj hcoder, ?_⟩⟩
  · exact exec_codewordDecodeEnd_firstStep hj hdecode hstep ((congrArg (State.queueCipher · _) (if_neg (Nat.not_le.mpr hbits))).trans hq)
  · exact exec_codewordDecodeEnd_firstStep hj hdecode hstep ((congrArg (State.queueCipher · _) (if_pos hbits)).trans hq)
  · rw [exec_decodeJobEnd_coder hj hcoder]
    change _ = Host.Outcome.next (if (s.coderDone j.engine true).streamDecodes j = true then _ else _)
    cases (s.coderDone j.engine true).streamDecodes j <;> rfl

end Sys2Proof.Machine
end

section
/-!
What the steps of a queue keep: `Keeps` over a step and over a run that drains the queue, and O52 and O58, which are read off it.
-/
namespace Sys2Proof.Machine
open Sys2Proof

/-- `Keeps` looks at the queue only to say that it stays: under another queue in both states it says the same. -/
theorem Keeps.setPending {s t : State} (h : Keeps s t) (q : List Instr) : Keeps (s.setPending q) (t.setPending q) :=
  ⟨rfl, h.out, h.clock, h.free, h.start, h.nvm, h.offset, h.ceiling, h.ageing⟩

/-- The command at the front of the queue goes on, and its step undoes nothing of the state with the queue's rest. -/
theorem step_front_keeps {s : State} {c : Instr} {rest : List Instr} (h : s.pending = c :: rest) :
    NextKeeps (s.setPending rest) (step s) := by
  have hstep : step s = exec c (s.setPending rest) := by simp only [step, h]
  exact hstep ▸ exec_keeps c (Keeps.refl _)

theorem State.after_succ {s t : State} (h : step s = .next t) (n : Nat) : s.after (n + 1) = t.after n := by
  simp only [State.after, h]

/-- A run of one step for each waiting command goes on to its end, where the queue is empty and nothing but the queue is undone. -/
theorem State.after_pending_keeps {queue : List Instr} {s : State} (h : s.pending = queue) :
    ∃ t, s.after queue.length = some t ∧ Keeps (s.setPending []) t := by
  induction queue generalizing s with
  | nil => exact ⟨s, rfl, (Keeps.refl _).same h rfl rfl rfl rfl rfl rfl rfl (·.1)⟩
  | cons c rest ih =>
    obtain ⟨u, hstep, hfront⟩ := step_front_keeps h
    obtain ⟨t, hrun, hrest⟩ := ih hfront.pending
    exact ⟨t, (State.after_succ hstep _).trans hrun, (hfront.setPending []).trans hrest⟩

/-- Settles O52: of what `exec_keeps` says of the state that a command goes on to, the list of what was sent, the AON counter and the counter of free
values (assumption logs 4 and 5); the clock moves only where a timer ends (log 3). -/
theorem nothingIsTakenBack : Obligations.NothingIsTakenBack := by
  intro c s t hnext
  obtain ⟨u, hgoes, hkeeps⟩ := exec_keeps c (Keeps.refl s)
  obtain rfl : u = t := Host.Outcome.next.inj (hgoes.symm.trans hnext)
  exact ⟨hkeeps.out, hkeeps.clock, hkeeps.free⟩

/-- Settles O58, by induction on the queue: each step is the front command on the state with the queue's rest. The queue is the model's own (assumption log
26), and so is the canonical form of the boot NVM (log 88). -/
theorem everyQueueDrainsInOrder : Obligations.EveryQueueDrainsInOrder := by
  intro s
  obtain ⟨t, hrun, hkeeps⟩ := State.after_pending_keeps (s := s) rfl
  exact ⟨t, hrun, hkeeps.pending, hkeeps.clock, hkeeps.out, hkeeps.nvm, hkeeps.ageing, hkeeps.start⟩

end Sys2Proof.Machine
end

section
/-!
Power states, the governor, domains, operating points and epochs: what the row of each answers, and O16, which collects these equations.
-/
namespace Sys2Proof.Machine
open Sys2Proof

section Rows
variable {s : State} {st dom n : Nat} {c : Ctx}

/-! Power states (R516, R623) -/

theorem exec_setPowerManagement_host (h : HeldSet s st 0x02 c) (hps : bits (c.dw 11) 0 5 ≤ 4) (hhost : c.isMgmt = false) :
    exec (.setPowerManagement st) s = .next ((s.setPs (bits (c.dw 11) 0 5) 1).complete st 0 0) := by
  have hrow : exec (.setPowerManagement st) s = _ := onSet_held h
  rw [hrow, if_neg (Nat.not_lt.mpr hps)]
  cases horigin : c.origin with
  | mgmt => simp [Ctx.isMgmt, horigin] at hhost
  | _ => rfl

theorem exec_setPowerManagement_above (h : HeldSet s st 0x02 c) (hps : 4 < bits (c.dw 11) 0 5) :
    exec (.setPowerManagement st) s = .next (s.complete st 0x02 0) :=
  (onSet_held h).trans (congrArg Host.Outcome.next (if_pos hps))

theorem exec_getPowerManagement_held {sel : Nat} (h : HeldGet s st 0x02 sel c) :
    exec (.getPowerManagement st) s = .next (s.complete st 0 (BitVec.ofNat 32 s.pwr.ps)) :=
  onGet_held (f := fun _ _ => s.complete st 0 (BitVec.ofNat 32 s.pwr.ps)) h

/-! The governor (R624) -/

/-- The estimate of one tick: each domain's activity count with its weight. -/
def powerEstimate (activity : List Nat) : Nat := (activity.zipIdx).foldl (fun n e => n + e.1 * Config.activityWeight e.2) 0

/-- The governor has taken a tick's estimate among its last 1,000, 10 µs after the tick before. -/
def State.ticked (s : State) (activity : List Nat) : State :=
  let r := s.reach (s.pwr.tickAt + 10 * us)
  r.modPwr fun p => { p with tickAt := r.now, ests := (p.ests ++ [powerEstimate activity]).drop (p.ests.length + 1 - 1000) }

/-- The sum of the estimates that are averaged. -/
def State.estSum (s : State) : Nat := s.pwr.ests.foldl (· + ·) 0

/-- The count of ticks below 90 per cent of the budget starts again. -/
def State.restartBelow (s : State) : State := s.modPwr fun p => { p with below := 0 }

section On
variable (hon : s.pwr.crst = false) (hpower : s.pwr.pl.running = false)
include hon hpower

/-- A tick while the controller die runs: a step down above the budget, a step up after 1,000 ticks below 90 per cent, and else none. -/
theorem exec_budgetGovernorTick_on (activity : List Nat) :
    let t := s.ticked activity
    let short := t.modPwr fun p => { p with below := p.below + 1 }
    exec (.budgetGovernorTick activity) s =
      if t.budget * t.pwr.ests.length < t.estSum then .next t.restartBelow.governDown
      else if 10 * t.estSum < 9 * t.budget * t.pwr.ests.length then
        if 1000 ≤ short.pwr.below then .next short.restartBelow.governUp else .next short
      else .next t.restartBelow := if_neg (by simp [hon, hpower])

/-! Domains (R433, R625, R626) -/

/-- An idle domain is gated. -/
def State.gateDomain (s : State) (dom : Nat) : State := s.modPwr fun p => { p with gated := p.gated ++ [dom], gatedAt := tput p.gatedAt dom s.now }

theorem exec_domainIdleTimeout_gates (hopen : dom ∉ s.pwr.gated) (hgates : gatable s.pwr.ps dom = true) (hidle : s.domainIdle dom = true) :
    exec (.domainIdleTimeout dom) s =
      .next (if dom = 4 then (s.gateDomain dom).modDram fun d => { d with selfRefresh := d.inService } else s.gateDomain dom) :=
  if_neg (by simp [hon, hpower, hopen, hgates, hidle])

end On

/-- Domains 0 to 3 have no flash channels to retrain and no self-refresh to leave. -/
theorem exec_domainWake_low (hgated : dom ∈ s.pwr.gated) (hdom : dom < 4) : exec (.domainWake dom) s =
    .next ((s.setNow (s.now + wakeNs dom)).modPwr fun p => { p with gated := p.gated.filter (· != dom), gatedAt := tdel p.gatedAt dom }) := by
  change execDomainWake dom s = _
  simp [execDomainWake, hgated, Nat.ne_of_lt hdom, show ¬ 5 ≤ dom by omega]

/-! Operating points and monitors (R628, R640) -/

/-- A transition ends at its target; a raise needs every monitor above its trip level. -/
theorem exec_opTransitionEnd_last {o : Nat} {ok : Bool} (htarget : s.pwr.opTarget = some o) (hlast : s.pwr.opNext = none)
    (hok : ok = true ∨ s.pwr.op ≤ o) : exec (.opTransitionEnd ok) s =
      .next (s.modPwr fun p => { p with op := o, opTarget := none, opNext := none }) := by
  have hends : ¬ (o < s.pwr.op && !ok) = true := by rcases hok with h | h <;> simp [h]
  change execOpTransitionEnd ok s = _
  simp only [execOpTransitionEnd, htarget, hlast, if_neg hends]

theorem exec_cpmTrip_on (hn : n < 8) (hon : s.pwr.crst = false) : exec (.cpmTrip n) s =
    .next ((s.modPwr fun p => { p with trips := satInc p.trips, stretched := some s.now }).fault (0x2A0 + n) []) :=
  if_neg (by simp [Nat.not_le.mpr hn, hon])

/-! Epochs (R32, R318, R640) -/

/-- The end of an epoch: key 0x0201 seconds of powered time after its start. -/
def State.epochEnd (s : State) : Nat := s.place.epochStart + s.key4 0x0201 * sec

/-- The next epoch begins at the end of this one, and the die counts of one epoch start again. -/
def State.nextEpoch (s : State) : State :=
  ((s.reach s.epochEnd).modPlace fun p => { p with epoch := p.epoch + 1, epochStart := max s.now s.epochEnd }).modFlashIf fun f =>
    { f with dies := f.dies.map fun e => (e.1, { e.2 with step4 := 0 }) }

theorem exec_epochAdvance_noEyes (hon : s.pwr.crst = false) (margins : List (List (List Int))) :
    exec (.epochAdvance margins []) s = .next (s.nextEpoch.replan margins) := if_neg (by simp [hon])

end Rows

/-- Settles O16, from the row of each command. The governor averages over the ticks it has (assumption log 36), Get answers the current state for
every SEL (log 77), and a tick, a wake or an epoch moves the clock (log 3). -/
theorem powerStatesAndGovernor : Obligations.PowerStatesAndGovernor := by
  intro s st sel c dom n o ok activity margins
  refine ⟨exec_setPowerManagement_host, exec_setPowerManagement_above, exec_getPowerManagement_held, fun ⟨hon, hpower⟩ habove => ?_,
    fun ⟨hon, hpower⟩ hwithin hnear => ?_, fun ⟨hon, hpower⟩ hopen hgates hidle hdom => ?_, fun ⟨hon, hpower⟩ hopen hgates => ?_,
    fun hgated hdom => ⟨_, exec_domainWake_low hgated hdom, rfl, ?_, fun d hd => ?_⟩, exec_opTransitionEnd_last, exec_cpmTrip_on,
    fun hon => ⟨_, exec_epochAdvance_noEyes hon margins, rfl⟩⟩
  · exact (exec_budgetGovernorTick_on hon hpower activity).trans (if_pos habove)
  · exact (exec_budgetGovernorTick_on hon hpower activity).trans
      ((if_neg (Nat.not_lt.mpr hwithin)).trans (if_neg (Nat.not_lt.mpr hnear)))
  · rw [exec_domainIdleTimeout_gates hon hpower hopen hgates hidle, if_neg hdom]; rfl
  · exact ⟨_, exec_domainIdleTimeout_gates hon hpower hopen hgates rfl, rfl, rfl⟩
  · simp
  · simp [hd]

end Sys2Proof.Machine
end

section
/-!
The fault collector: what the row of each of its commands answers, and O17, which collects these equations.
-/
namespace Sys2Proof.Machine
open Sys2Proof

section Rows
variable {s : State} {id core a : Nat} {detail : List Nat}

/-! Sources (R579, R580, R482, R588) -/

theorem exec_hardwareFaultDetected_plain (hid : 8 ≤ id) (hcor : id ≠ 0x1F1) (hunc : id ≠ 0x1F2) :
    exec (.hardwareFaultDetected id detail) s = .next (s.fault id detail) := by
  change execHardwareFaultDetected id detail s = _
  simp only [execHardwareFaultDetected, if_neg (Nat.not_lt.mpr hid), if_neg hcor, if_neg hunc]

/-- The sources below 8 are the collector's own parity: its registers become suspect first (R588). -/
theorem exec_hardwareFaultDetected_parity (hid : id < 8) :
    exec (.hardwareFaultDetected id detail) s = .next ((s.modFlt fun t => { t with suspect := true }).fault id detail) := by
  change execHardwareFaultDetected id detail s = _
  simp only [execHardwareFaultDetected, if_pos hid, if_neg (show id ≠ 0x1F1 by omega), if_neg (show id ≠ 0x1F2 by omega)]

/-- At the end of the second of the one source that suppressed occurrences, a summary record gives their number (R580). -/
theorem exec_correctedSuppressionSecond_one {x : Src} (hone : s.flt.srcs.filter (fun e => decide (e.2.suppressed ≠ 0)) = [(id, x)]) :
    exec .correctedSuppressionSecond s =
      .next (((s.reach ((x.secStart + 1) * sec)).note 0x1400 0 0 [id, x.suppressed]).modSrc id fun y => { y with suppressed := 0 }) := by
  change execCorrectedSuppressionSecond s = _
  have hended : (x.secStart + 1) * sec ≤ (s.reach ((x.secStart + 1) * sec)).now := le_max_right ..
  simp only [execCorrectedSuppressionSecond, hone, List.foldl_cons, List.foldl_nil, if_pos hended]

/-! Reaction times and acknowledgements (R55, R581) -/

theorem exec_reactionTimerExpiry_pending (hpending : (s.src id).pending = true) (hruns : s.monitorsPaused = false)
    (htrusted : s.flt.suspect = false) (hnormal : s.safeState = false) : exec (.reactionTimerExpiry id) s =
      .next (((s.reach ((s.src id).pendAt + s.flt.reactionMs.toNat * ms)).faultRecord id (s.faultClass id) true []).fatal id true) :=
  if_neg (by simp [hpending, hruns, htrusted, hnormal])

/-- An acknowledged source: PENDING is clear, and FAULT_N follows (R581, R583). -/
def State.acked (s : State) (id : Nat) : State := (s.modSrc id fun x => { x with pending := false }).driveFaultN

section Ack
variable (hpending : (s.src id).pending = true)
include hpending

theorem exec_faultAck_cleared : exec (.faultAck id true) s = .next (s.acked id) := by
  have hrow : exec (.faultAck id true) s = _ := if_neg (by simp [hpending])
  rw [hrow]
  cases actuatorSource id <;> rfl

theorem exec_faultAck_fences (hact : actuatorSource id = some a) :
    exec (.faultAck id false) s = .next ((s.acked id).fenceActuator a) := by
  have hrow : exec (.faultAck id false) s = _ := if_neg (by simp [hpending])
  rw [hrow, hact]
  rfl

end Ack

/-! Heartbeats (R579, R592) -/

theorem exec_heartbeatWrite_core (hcore : core < 12) :
    exec (.heartbeatWrite core) s = .next (s.modFlt fun t => { t with heart := tput t.heart core s.now }) := if_pos hcore

/-- The end of a core's 20 ms, counted from its last heartbeat or, before the first, from the start. -/
def State.heartEnd (s : State) (core : Nat) : Nat := tgetD s.flt.heart core s.fw.startAt + 20 * ms

theorem exec_heartbeatMissed_core (hcore : core < 12) (hruns : s.monitorsPaused = false) (hcollects : s.flt.collector = true)
    (hstarted : s.fw.stage = .core ∨ s.fw.stage = .mounted) : exec (.heartbeatMissed core) s =
      .next (((s.reach (s.heartEnd core)).modFlt fun t =>
        { t with heart := tput t.heart core (max s.now (s.heartEnd core)) }).fault (0x020 + core)) := by
  have hstage : s.fw.stage ≠ .core → s.fw.stage = .mounted := hstarted.resolve_left
  exact if_neg (by simpa [Nat.not_le.mpr hcore, hruns, hcollects] using hstage)

/-- FORCE can be written only while test mode is unlocked (R591). -/
theorem State.setForce_locked (hlocked : s.cfg.testMode = false) (id : Nat) (v : Bool) : s.setForce id v = s :=
  if_pos (by simp [hlocked])

/-! The recorder's mirror (R604) -/

/-- Pending records can be programmed: the recorder has started, the map is mounted, and no power-loss sequence runs. -/
def State.mirrors (s : State) : Prop := s.evt.pend ≠ [] ∧ s.evt.started = true ∧ s.pwr.pl.running = false ∧ s.map.mounted = true

/-- Pending records that do not wait for the 100 ms of the oldest: they fill a page, or one of them is urgent. -/
def State.mirrorsNow (s : State) : Bool := decide (16384 ≤ s.evt.pend.foldl (fun n r => n + r.len) 0) || s.evt.pend.any Rec.urgent

theorem exec_mirrorPageProgram_ready {good : Bool} (hready : s.mirrors) :
    let u := if s.mirrorsNow then s else s.reach (s.evt.pendSince + 100 * ms)
    exec (.mirrorPageProgram good) s = .next (if good then u.mirrorPage else u.fault 0x2C1) := by
  obtain ⟨hpend, hstarted, hpower, hmounted⟩ := hready
  exact if_neg (by simp [hpend, hstarted, hpower, hmounted])

end Rows

/-- Settles O17, from the row of each command of the collector. The clock moves to the end of a timer (assumption log 3). -/
theorem faultsRaiseAckEscalate : Obligations.FaultsRaiseAckEscalate := by
  intro s id core a detail v good
  refine ⟨exec_hardwareFaultDetected_plain, exec_hardwareFaultDetected_parity, rfl, rfl, exec_reactionTimerExpiry_pending, exec_faultAck_cleared,
    exec_faultAck_fences, exec_heartbeatWrite_core, fun hcore hruns hcollects hstarted => ?_, rfl, fun hlocked => ?_,
    fun _ => exec_correctedSuppressionSecond_one, fun hready hcalm hroom => ?_, fun hready hurgent => ?_⟩
  · exact ⟨_, exec_heartbeatMissed_core hcore hruns hcollects hstarted, rfl⟩
  · exact congrArg Host.Outcome.next (State.setForce_locked hlocked id v)
  · have hwaits : s.mirrorsNow = false := by simpa [State.mirrorsNow, hroom] using hcalm
    simpa [hwaits] using exec_mirrorPageProgram_ready (good := true) hready
  · have hnow : s.mirrorsNow = true := by simpa [State.mirrorsNow] using Or.inr hurgent
    simpa [hnow] using exec_mirrorPageProgram_ready (good := good) hready

end Sys2Proof.Machine
end

section
/-!
Log pages whose reading changes what they show: what a held Get Log Page of each answers, where its page holds an entry of a list, and O9, which
collects them.
-/
namespace Sys2Proof.Machine
open Sys2Proof

/-! Fields of the entries of a list, laid out by index -/

theorem getElem_mem_map_zipIdx {α β : Type} {l : List α} {f : α × Nat → β} {i : Nat} (h : i < l.length) : f (l[i], i) ∈ l.zipIdx.map f :=
  List.mem_map_of_mem (List.mk_mem_zipIdx_iff_getElem?.mpr (List.getElem?_eq_getElem h))

theorem mem_flatMap_zipIdx_of_mem_getElem {α β : Type} {l : List α} {f : α × Nat → List β} {i : Nat} (h : i < l.length) {x : β}
    (hx : x ∈ f (l[i], i)) : x ∈ l.zipIdx.flatMap f :=
  List.mem_flatMap_of_mem (List.mk_mem_zipIdx_iff_getElem?.mpr (List.getElem?_eq_getElem h)) hx

section Rows
variable {s : State} {st : Nat} {c : Ctx}

/-- The answer to a held Get Log Page: the slice of the page, what the read changes, and status 0 (R512). -/
def State.logAnswer (s : State) (st : Nat) (c : Ctx) (page : List (Nat × Nat × Nat)) (after : State → State) : Host.Outcome State Fault Refusal :=
  .next ((after (s.giveData c c.logLen (sliceFields page c.logOff c.logLen))).complete st 0 0)

/-- `onLog_held`, for a property of the page in place of the page itself. -/
theorem onLog_gives {lid size : Nat} {page : Ctx → List (Nat × Nat × Nat)} {after : Ctx → State → State} {p : List (Nat × Nat × Nat) → Prop}
    (h : HeldLog s st lid size c) (hp : p (page c)) : ∃ fs, s.onLog st lid size page after = s.logAnswer st c fs (after c) ∧ p fs :=
  ⟨_, onLog_held h, hp⟩

/-! Health, firmware slots, changed namespaces, faults and early warnings (R511, R514, R569, R593, R596) -/

theorem exec_getLogSmartHealth_held (h : HeldLog s st 0x02 512 c) : ∃ page,
    exec (.getLogSmartHealth st) s = s.logAnswer st c page (fun t => (clearUnlessRae 1 0x02 c t).drawn) ∧
    (0, 1, s.nvme.critWarn.toNat) ∈ page ∧ (1, 2, kelvin s.therm.composite) ∈ page ∧ (3, 1, s.availableSpare) ∈ page ∧
    (64, 16, s.nvme.cmdsRead) ∈ page ∧ (80, 16, s.nvme.cmdsWritten) ∈ page ∧ (160, 16, s.nvme.mediaErrs) ∈ page := by
  change ∃ page, execGetLogSmartHealth st s = _ ∧ _
  unfold execGetLogSmartHealth
  refine onLog_gives h ?_
  simp only [List.mem_append, List.mem_cons, true_or, or_true, and_self]

theorem exec_getLogFirmwareSlot_held (h : HeldLog s st 0x03 512 c) : ∃ page,
    exec (.getLogFirmwareSlot st) s = s.logAnswer st c page (clearUnlessRae 2 0 c) ∧ (0, 1, s.fw.runSlot + 16 * s.fw.nextSlot) ∈ page := by
  change ∃ page, execGetLogFirmwareSlot st s = _ ∧ _
  unfold execGetLogFirmwareSlot
  exact onLog_gives h List.mem_cons_self

theorem exec_getLogChangedNamespaces_held (h : HeldLog s st 0x04 4096 c) : ∃ page,
    exec (.getLogChangedNamespaces st) s = s.logAnswer st c page (fun t =>
      if c.rae then t else (t.modNvme fun n => { n with changedNs := [] }).clearEvent 2 0x04) ∧
    ∀ i (hi : i < s.nvme.changedNs.length), (4 * i, 4, s.nvme.changedNs[i]) ∈ page := by
  change ∃ page, execGetLogChangedNamespaces st s = _ ∧ _
  unfold execGetLogChangedNamespaces
  exact onLog_gives h fun i hi => getElem_mem_map_zipIdx hi

theorem exec_getLogFaultStatus_held (h : HeldLog s st 0xC3 16448 c) : ∃ page,
    exec (.getLogFaultStatus st) s = s.logAnswer st c page (clearUnlessRae 7 0xC3 c) ∧
    (∀ x ∈ s.faultHeader, x ∈ page) ∧ ∀ id < 1024, ∀ x ∈ s.srcFields id, x ∈ page := by
  change ∃ page, execGetLogFaultStatus st s = _ ∧ _
  unfold execGetLogFaultStatus
  exact onLog_gives h ⟨fun x hx => List.mem_append_left _ hx,
    fun id hid x hx => List.mem_append_right _ (List.mem_flatMap_of_mem (List.mem_range.mpr hid) hx)⟩

theorem exec_getLogHealthEarlyWarning_held (h : HeldLog s st 0xC4 4096 c) : ∃ page,
    exec (.getLogHealthEarlyWarning st) s = s.logAnswer st c page (fun t => if c.rae || c.logOff ≠ 0 then t
      else (t.modEvt fun e => { e with warns := (e.warns.zipIdx).map fun (w, i) =>
        if 0x40 + 0x20 * i < c.logLen then { w with seen := true } else w }).clearEvent 7 0xC4) ∧
    (8, 2, s.evt.warns.length) ∈ page ∧ ∀ i (hi : i < s.evt.warns.length), ∀ x ∈ (s.evt.warns[i]).fields (0x40 + 0x20 * i), x ∈ page := by
  change ∃ page, execGetLogHealthEarlyWarning st s = _ ∧ _
  unfold execGetLogHealthEarlyWarning
  refine onLog_gives h ⟨?_, fun i hi x hx => List.mem_append_right _ (mem_flatMap_zipIdx_of_mem_getElem hi hx)⟩
  simp only [List.mem_append, List.mem_cons, true_or, or_true]

/-! The Deferred Error log (R98), which serves one active namespace -/

section Deferred
variable (h : Held s st 0x02 c) (hlid : c.lid = 0xC2) (halign : c.logOff % 4 = 0) (hoff : c.logOff < 4096) (hone : c.nsid ≠ 0xFFFFFFFF)
include h hlid halign hoff hone

/-- With RAE 0 at offset 0 the entries that were read leave the log, and its event is cleared; it is raised again for what is left. -/
theorem exec_getLogDeferredError_active (hactive : s.nsActive c.nsid = true) :
    let d := tgetD s.host.deferred c.nsid {}
    let t := s.giveData c c.logLen (sliceFields (d.page c.nsid) c.logOff c.logLen)
    let left := (t.modHost fun h => { h with deferred := tput h.deferred c.nsid (d.afterRead c.logLen) }).clearEvent 7 0xC2
    exec (.getLogDeferredError st) s = .next ((if c.rae = true ∨ c.logOff ≠ 0 then t else left.announceDeferred).complete st 0 0) := by
  have hrow : exec (.getLogDeferredError st) s = _ := onAdmin_held h
  rw [hrow]
  simp [hlid, halign, Nat.not_le.mpr hoff, hone, hactive]

theorem exec_getLogDeferredError_inactive (hinactive : s.nsActive c.nsid = false) :
    exec (.getLogDeferredError st) s = .next (s.complete st 0x0B 0) := by
  have hrow : exec (.getLogDeferredError st) s = _ := onAdmin_held h
  rw [hrow]
  simp [hlid, halign, Nat.not_le.mpr hoff, hone, hinactive, scInvalidNs]

end Deferred
end Rows

/-- Settles O9, from the row of each page. The busy time of the health page is a free value (assumption logs 4 and 39), which its row draws. -/
theorem logPagesThatClearWhatTheyShow : Obligations.LogPagesThatClearWhatTheyShow := by
  intro s st c
  exact ⟨exec_getLogSmartHealth_held, exec_getLogFirmwareSlot_held, exec_getLogChangedNamespaces_held, exec_getLogDeferredError_active,
    exec_getLogDeferredError_inactive, exec_getLogFaultStatus_held, exec_getLogHealthEarlyWarning_held⟩

end Sys2Proof.Machine
end

section
/-!
Bus mastering, doorbells, masks and the fetch of a command: what the row of each answers, and O38, which collects these equations.
-/
namespace Sys2Proof.Machine
open Sys2Proof

section Rows
variable {s : State} {v qid n : Nat}

/-! Bus Master Enable and device states (R166, R469, R470, R477) -/

theorem exec_busMasterEnableClear_on (hon : s.pcie.bmEn = true) :
    exec .busMasterEnableClear s = .next (s.modPcie fun p => { p with bmEn := false }).peelBmClear := by
  change Host.Outcome.next (s.setBusMaster false) = _
  simp [State.setBusMaster, hon]

theorem exec_busMasterEnableSet_off (hpresent : s.pcie.present = true) (hready : s.pcie.crs = none) (hoff : s.pcie.bmEn = false) :
    exec .busMasterEnableSet s = .next (s.modPcie fun p => { p with bmEn := true }).resumeRequests := by
  change execBusMasterEnableSet s = _
  simp [execBusMasterEnableSet, State.setBusMaster, hpresent, hready, hoff]

theorem exec_d3hotEntry_d0 (hpresent : s.pcie.present = true) (hd0 : s.pcie.dstate = .d0) :
    exec .d3hotEntry s = .next ((s.sendLtr 3000).modPcie fun p => { p with dstate := .d3hot }).peelBmClear := by
  change execD3hotEntry s = _
  simp [execD3hotEntry, State.enterD3, hpresent, hd0]

theorem exec_d0Return_d3hot (hpresent : s.pcie.present = true) (hd3 : s.pcie.dstate = .d3hot) :
    exec .d0Return s = .next (s.modPcie fun p => { p with dstate := .d0 }).resumeRequests := by
  change execD0Return s = _
  simp [execD0Return, State.leaveD3, hpresent, hd3]

/-! Interrupt messages (R87, R463, R485, R492) -/

theorem exec_msixVectorUnmask_vector (hready : s.pcie.crs = none) (hv : v < 1025) : exec (.msixVectorUnmask (some v)) s =
    .next (s.modPcie fun p => { p with unmasked := if p.unmasked.contains v then p.unmasked else p.unmasked ++ [v] }).sendPending :=
  if_neg (by simp [hready, hv])

theorem exec_msixVectorUnmask_function (hready : s.pcie.crs = none) :
    exec (.msixVectorUnmask none) s = .next (s.modPcie fun p => { p with msixMask := false }).sendPending := if_neg (by simp [hready])

/-- An interrupt that INTMC lets go is a message: the controller's own registers change by the mask alone. -/
theorem State.clearIntMask_nvme (s : State) (mask : Dword) : (s.clearIntMask mask).nvme = { s.nvme with intms := s.nvme.intms &&& ~~~mask } := by
  simp only [State.clearIntMask]
  split <;> rfl

theorem exec_interruptAggregationTimeout_running {cq : CqSt} (hcq : tget s.nvme.cqs qid = some cq) (hruns : cq.aggr ≠ 0) :
    exec (.interruptAggregationTimeout qid) s =
      .next ((s.modNvme fun m => { m with cqs := tput m.cqs qid { cq with aggr := 0 } }).fireVector cq.vector) := by
  change execInterruptAggregationTimeout qid s = _
  simp only [execInterruptAggregationTimeout, hcq, if_neg hruns]

/-! Doorbells (R459) -/

section Doorbells
variable (hopen : s.memOpen = true) (hen : s.nvme.en = true) (hpower : s.pwr.pl.running = false)
include hopen hen hpower

/-- A fetch of a submission queue's entries is under way or waits, or fetching is dead. -/
def State.fetchBusy (s : State) (qid : Nat) : Bool :=
  s.pcie.outstanding.any (fun r => decide (r.kind = .sqFetch qid)) || s.pcie.waitReads.any (fun r => decide (r.1 = .sqFetch qid)) || s.pcie.fetchDead

theorem exec_submissionQueueDoorbell_moves {q : SqSt} (hq : tget s.nvme.sqs qid = some q) (hn : n < q.size) (hnew : n ≠ q.tail) :
    let t := s.modNvme fun m => { m with sqs := tput m.sqs qid { q with tail := n } }
    exec (.submissionQueueDoorbell qid n) s =
      .next (if s.fetchBusy qid = true then t else t.issueRead (.sqFetch qid) (q.base + 64 * q.head) 64) := by
  change Host.Outcome.next (s.ringSq qid n) = _
  have htakes : ¬ (!s.memOpen || !s.nvme.en || s.pwr.pl.running || n ≥ q.size || n = q.tail) = true := by
    simp [hopen, hen, hpower, hn, hnew]
  simp only [State.ringSq, hq, if_neg htakes]
  rfl

theorem exec_completionQueueDoorbell_moves {cq : CqSt} (hcq : tget s.nvme.cqs qid = some cq) (hn : n < cq.size) :
    exec (.completionQueueDoorbell qid n) s =
      .next (s.modNvme fun m => { m with cqs := tput m.cqs qid { cq with head := n } }).flushCqes.settle := by
  change Host.Outcome.next (s.ringCq qid n) = _
  have htakes : ¬ (!s.memOpen || !s.nvme.en || s.pwr.pl.running || n ≥ cq.size) = true := by
    simp [hopen, hen, hpower, hn]
  simp only [State.ringCq, hcq, if_neg htakes]

end Doorbells

/-! JTAG (R658) -/

theorem exec_jtagInstruction_boundary (hstarted : s.fw.stage ≠ .off) :
    exec (.jtagInstruction true) s = .next (s.modPins fun p => { p with jtag := .boundary }) := if_neg hstarted

theorem exec_jtagInstruction_refused (hstarted : s.fw.stage ≠ .off) (hlocked : s.cfg.testMode = false) :
    exec (.jtagInstruction false) s = .next (s.modPins fun p => { p with jtag := .refused }) := by
  change execJtagInstruction false s = _
  simp [execJtagInstruction, hstarted, hlocked]

/-! Fetching (R67, R68, R70) -/

theorem exec_fetchResume_free (hstall : s.host.stalled = some n) (hctx : s.contexts.length < 65536) (hents : n ≤ s.trackerFree) :
    exec .fetchResume s = .next (s.modHost fun h => { h with stalled := none }) := by
  change execFetchResume s = _
  simp [execFetchResume, hstall, hctx, hents]

/-- The context that a fetched command would get. -/
def State.fetchCtx (s : State) (qid : Nat) (sqe : Sqe) : Ctx := s.newCtx (.sq qid sqe.cid) sqe [] (s.setWindows sqe []) (decide (qid = 0))

/-- The entry at the head of a submission queue is taken. -/
def State.takeEntry (arb : State) (qid : Nat) (q : SqSt) : State :=
  (arb.dropReq (.sqFetch qid)).modNvme fun m => { m with sqs := tput m.sqs qid { q with head := (q.head + 1) % q.size } }

section Fetch
variable {sqe : Sqe} {arb : State}
variable (hopen : s.fetchBlocked = false) (hio : qid ≠ ingestQid) (hchosen : s.arbitrate = some (qid, arb))
include hopen hio hchosen

theorem exec_commandFetch_stalls (hfull : 65536 ≤ s.contexts.length ∨ s.trackerFree < (s.fetchCtx qid sqe).ents.length) :
    exec (.commandFetch qid sqe [] []) s = .next (s.modHost fun h => { h with stalled := some (s.fetchCtx qid sqe).ents.length }) := by
  have hruns : ¬ (s.fetchBlocked || decide (qid = ingestQid)) = true := by simp [hopen, hio]
  have hstalls : (decide (s.contexts.length ≥ 65536) || decide ((s.fetchCtx qid sqe).ents.length > s.trackerFree)) = true := by simpa using hfull
  change execCommandFetch qid sqe [] [] s = _
  unfold execCommandFetch
  rw [if_neg hruns, hchosen]
  exact (if_neg (not_not_intro rfl)).trans (if_pos hstalls)

/-- The last entry of a queue, with an identifier that no context has: its command is admitted, or turned away by its status. -/
theorem exec_commandFetch_last {q : SqSt} (hq : tget s.nvme.sqs qid = some q) (hctx : s.contexts.length < 65536)
    (hents : (s.fetchCtx qid sqe).ents.length ≤ s.trackerFree) (hlast : (q.head + 1) % q.size = q.tail)
    (hfresh : ((arb.takeEntry qid q).contexts.any fun x => x.origin == .sq qid sqe.cid) = false) :
    let c := s.fetchCtx qid sqe
    let t := arb.takeEntry qid q
    let stamped := t.modHost fun h => { h with lastStamp := c.stamp }
    let admin := adminStatus sqe.opcode.toNat sqe.cdw sqe.sgl
    let io := t.ioReject sqe []
    exec (.commandFetch qid sqe [] []) s =
      if decide (qid = 0) then if admin ≠ 0 then .next (stamped.answer c admin 0) else .next ((t.noteOrder c).letIn c)
      else if io ≠ 0 then .next ((if decide (io = vendor 0xC0) then stamped.reportDeferred sqe.nsid.toNat else stamped).answer c io 0)
      else .next ((t.wake.letIn c).startFetched c) := by
  have hruns : ¬ (s.fetchBlocked || decide (qid = ingestQid)) = true := by simp [hopen, hio]
  have hroom : ¬ (decide (s.contexts.length ≥ 65536) || decide ((s.fetchCtx qid sqe).ents.length > s.trackerFree)) = true := by
    simp [hctx, hents]
  have hget : tgetD s.nvme.sqs qid {} = q := by simp [tgetD, hq]
  change execCommandFetch qid sqe [] [] s = _
  unfold execCommandFetch
  rw [if_neg hruns, hchosen]
  refine (if_neg (not_not_intro rfl)).trans ((if_neg hroom).trans ?_)
  have hnone : ¬ (q.head + 1) % q.size ≠ q.tail := not_not_intro hlast
  simp only [hget, if_neg hnone]
  exact if_neg (ne_true_of_eq_false hfresh)

end Fetch
end Rows

/-- Settles O38, from the row of each command; the statement takes the fetch of the last entry of a queue, so that no further read of it is issued. -/
theorem fetchingAndSignalling : Obligations.FetchingAndSignalling := by
  intro s v qid n mask q cq sqe arb c advanced
  refine ⟨fun hon => ⟨_, exec_busMasterEnableClear_on hon, rfl⟩, exec_busMasterEnableSet_off, exec_msixVectorUnmask_vector,
    exec_msixVectorUnmask_function, exec_d3hotEntry_d0, exec_d0Return_d3hot,
    fun hstarted => ⟨exec_jtagInstruction_boundary hstarted, exec_jtagInstruction_refused hstarted⟩,
    fun hopen hen hpower => exec_submissionQueueDoorbell_moves hopen hen hpower, fun hopen hen hpower => exec_completionQueueDoorbell_moves hopen hen hpower,
    fun hopen => ⟨⟨_, if_pos hopen, rfl⟩, _, if_pos hopen, s.clearIntMask_nvme mask⟩, exec_interruptAggregationTimeout_running, exec_fetchResume_free,
    fun hopen hio hchosen hq => ⟨exec_commandFetch_stalls hopen hio hchosen, fun hctx hents hlast hfresh => ?_⟩⟩
  have hrow := exec_commandFetch_last (sqe := sqe) hopen hio hchosen hq hctx hents hlast hfresh
  refine ⟨fun hadmin hgood => ?_, fun hadmin hbad => ?_, fun hother hgood => ?_⟩
  · exact hrow.trans ((if_pos (decide_eq_true hadmin)).trans (if_neg (not_not_intro hgood)))
  · exact hrow.trans ((if_pos (decide_eq_true hadmin)).trans (if_pos hbad))
  · exact hrow.trans ((if_neg (by simp [hother])).trans (if_neg (not_not_intro hgood)))

end Sys2Proof.Machine
end

section
/-!
Identify, the I/O queues, Abort and Asynchronous Event Request: what the row of each answers while its command is held, and O47, which collects these
equations.
-/
namespace Sys2Proof.Machine
open Sys2Proof

section Rows
variable {s : State} {st : Nat} {c : Ctx}

/-! Identify (R488, R490, R491) -/

section Identify
variable (h : Held s st 0x06 c)
include h

theorem exec_identifyController_held (hcns : bits (c.dw 10) 0 8 = 0x01) :
    exec (.identifyController st) s = .next ((s.giveData c 4096 s.identifyCtrl).complete st 0 0) :=
  (onAdmin_held h).trans (congrArg Host.Outcome.next (if_pos hcns))

/-- The page of a namespace that an Identify names: its structure while it is active, or allocated where CNS 0x11 asks for it, and else zeros. -/
def State.nsPage (s : State) (c : Ctx) : List (Nat × Nat × Nat) :=
  match s.ns? c.nsid with
  | some n => if bits (c.dw 10) 0 8 = 0x11 ∨ n.attached = true then s.identifyNs c.nsid n else []
  | none => []

section Namespace
variable (hcns : bits (c.dw 10) 0 8 = 0x00 ∨ bits (c.dw 10) 0 8 = 0x11)
include hcns

/-- The namespace that an Identify of a namespace names is one of the 64 that can be. -/
theorem exec_identifyNamespace_held : exec (.identifyNamespace st) s =
    .next (if c.nsid = 0 ∨ 64 < c.nsid then s.complete st scInvalidNs 0 else (s.giveData c 4096 (s.nsPage c)).complete st 0 0) := by
  have hrow : exec (.identifyNamespace st) s = _ := onAdmin_held h
  have hserves : ¬ (bits (c.dw 10) 0 8 ≠ 0x00 && bits (c.dw 10) 0 8 ≠ 0x11) = true := by
    rcases hcns with h | h <;> simp [h]
  rw [hrow, if_neg hserves]
  simp only [Bool.or_eq_true, decide_eq_true_eq, gt_iff_lt]
  rfl

theorem exec_identifyNamespace_outside (hnsid : c.nsid = 0 ∨ 64 < c.nsid) :
    exec (.identifyNamespace st) s = .next (s.complete st scInvalidNs 0) := by
  rw [exec_identifyNamespace_held h hcns, if_pos hnsid]

variable (hlow : 1 ≤ c.nsid) (hhigh : c.nsid ≤ 64)
include hlow hhigh

theorem exec_identifyNamespace_absent (hns : s.ns? c.nsid = none) :
    exec (.identifyNamespace st) s = .next ((s.giveData c 4096 []).complete st 0 0) := by
  rw [exec_identifyNamespace_held h hcns, if_neg (by omega), State.nsPage, hns]

theorem exec_identifyNamespace_present {n : NsEntry} (hns : s.ns? c.nsid = some n) : exec (.identifyNamespace st) s =
    .next ((s.giveData c 4096 (if bits (c.dw 10) 0 8 = 0x11 ∨ n.attached = true then s.identifyNs c.nsid n else [])).complete st 0 0) := by
  rw [exec_identifyNamespace_held h hcns, if_neg (by omega), State.nsPage, hns]

end Namespace

theorem exec_identifyLists_active (hcns : bits (c.dw 10) 0 8 = 0x02) : exec (.identifyLists st) s =
    .next ((s.giveData c 4096 (nsList ((s.nvme.nss.filter (·.2.attached)).map (·.1)) c.nsid)).complete st 0 0) := by
  have hrow : exec (.identifyLists st) s = _ := onAdmin_held h
  rw [hrow]
  simp [hcns]

theorem exec_identifyLists_allocated (hcns : bits (c.dw 10) 0 8 = 0x10) : exec (.identifyLists st) s =
    .next ((s.giveData c 4096 (nsList (s.nvme.nss.map (·.1)) c.nsid)).complete st 0 0) := by
  have hrow : exec (.identifyLists st) s = _ := onAdmin_held h
  rw [hrow]
  simp [hcns]

/-- The descriptors of a namespace are those of an active one. -/
theorem exec_identifyLists_descriptors (hcns : bits (c.dw 10) 0 8 = 0x03) : exec (.identifyLists st) s =
    .next (if s.nsActive c.nsid then (s.giveData c 4096 [(0, 1, 2), (1, 1, 16), (4, 16, s.nguid c.nsid)]).complete st 0 0
      else s.complete st scInvalidNs 0) := by
  have hrow : exec (.identifyLists st) s = _ := onAdmin_held h
  rw [hrow]
  simp [hcns]

end Identify

/-! Creation of an I/O queue (R492) -/

theorem exec_createIoCompletionQueue_held (h : Held s st 0x05 c) :
    let qid := bits (c.dw 10) 0 16
    let n0 := bits (c.dw 10) 16 16
    let v := bits (c.dw 11) 16 16
    let status := queueStatus (thas s.nvme.cqs qid) qid n0 (decide (s.nvme.iocqes = 4))
    exec (.createIoCompletionQueue st) s = .next (if status ≠ 0 then s.complete st status 0
      else if 1024 < v then s.complete st 0x108 0
      else if !bitAt (c.dw 11) 0 then s.complete st scInvalidField 0
      else (s.modNvme fun n => { n with
        cqs := tput n.cqs qid { size := n0 + 1, vector := v, ien := bitAt (c.dw 11) 1, base := c.prp } }).complete st 0 0) := onAdmin_held h

theorem exec_createIoSubmissionQueue_held (h : Held s st 0x01 c) :
    let qid := bits (c.dw 10) 0 16
    let n0 := bits (c.dw 10) 16 16
    let cq := bits (c.dw 11) 16 16
    let status := queueStatus (thas s.nvme.sqs qid) qid n0 (decide (s.nvme.iosqes = 6))
    exec (.createIoSubmissionQueue st) s = .next (if status ≠ 0 then s.complete st status 0
      else if cq = 0 ∨ thas s.nvme.cqs cq = false then s.complete st 0x100 0
      else if !bitAt (c.dw 11) 0 then s.complete st scInvalidField 0
      else (s.modNvme fun n => { n with
        sqs := tput n.sqs qid { size := n0 + 1, cqid := cq, prio := bits (c.dw 11) 1 2, base := c.prp } }).complete st 0 0) := by
  have hrow : exec (.createIoSubmissionQueue st) s = _ := onAdmin_held h
  simpa only [Bool.or_eq_true, decide_eq_true_eq, Bool.not_eq_true'] using hrow

/-! Deletion of an I/O queue (R88, R492) -/

section DeleteSubmission
variable (h : Held s st 0x00 c)
include h

theorem exec_deleteIoSubmissionQueue_absent (hq : tget s.nvme.sqs (bits (c.dw 10) 0 16) = none ∨ bits (c.dw 10) 0 16 = 0) :
    exec (.deleteIoSubmissionQueue st) s = .next (s.complete st 0x101 0) := by
  have hrow : exec (.deleteIoSubmissionQueue st) s = _ := onAdmin_held h
  rw [hrow]
  cases hget : tget s.nvme.sqs (bits (c.dw 10) 0 16) with
  | none => simp only [hget]
  | some q => simp only [hget, if_pos (hq.resolve_left (by simp [hget]))]

/-- A submission queue that is marked for its delete, whose command has begun. -/
def State.beginDelete (s : State) (st qid : Nat) (q : SqSt) : State :=
  ((s.modNvme fun n => { n with sqs := tput n.sqs qid { q with deleting := some st } }).dropReq (.sqFetch qid)).modCtx st fun c => { c with begun := true }

/-- The contexts of a submission queue that an Abort would catch end with its delete. -/
def State.abortContextsOf (s : State) (qid : Nat) : State :=
  (s.host.ctxs.filter fun x => match x.origin with | .sq k _ => k == qid | _ => false).foldl
    (fun s x => if s.catches x then s.catchCmd x scAbortSqDeleted else s) s

theorem exec_deleteIoSubmissionQueue_present {q : SqSt} (hq : tget s.nvme.sqs (bits (c.dw 10) 0 16) = some q) (hio : bits (c.dw 10) 0 16 ≠ 0)
    (hfirst : q.deleting = none) : exec (.deleteIoSubmissionQueue st) s =
      .next ((s.beginDelete st (bits (c.dw 10) 0 16) q).abortContextsOf (bits (c.dw 10) 0 16)).finishDeletes.settle := by
  have hrow : exec (.deleteIoSubmissionQueue st) s = _ := onAdmin_held h
  rw [hrow]
  simp only [hq, hio, hfirst, if_false, Option.isSome_none, Bool.false_eq_true]
  rfl

end DeleteSubmission

theorem exec_deleteIoCompletionQueue_held (h : Held s st 0x04 c) : exec (.deleteIoCompletionQueue st) s =
    .next (if bits (c.dw 10) 0 16 = 0 ∨ thas s.nvme.cqs (bits (c.dw 10) 0 16) = false then s.complete st 0x101 0
      else if s.nvme.sqs.any fun e => e.2.cqid == bits (c.dw 10) 0 16 then s.complete st 0x10C 0
      else (s.modNvme fun n => { n with cqs := tdel n.cqs (bits (c.dw 10) 0 16) }).complete st 0 0) := by
  have hrow : exec (.deleteIoCompletionQueue st) s = _ := onAdmin_held h
  simpa only [Bool.or_eq_true, decide_eq_true_eq, Bool.not_eq_true'] using hrow

/-! Abort (R89 to R92) -/

/-- How many Aborts that were fetched before a stamp are outstanding. -/
def State.abortsBefore (s : State) (st : Nat) : Nat :=
  (s.contexts.filter fun x => x.isAdmin && decide (x.opcode.toNat = 0x08) && decide (x.stamp < st)).length

/-- The command that an Abort names. -/
def State.abortTarget (s : State) (c : Ctx) : Option Ctx :=
  s.host.ctxs.find? fun x => x.origin == Origin.sq (bits (c.dw 10) 0 16) (bits (c.dw 10) 16 16)

section Abort
variable (h : Held s st 0x08 c)
include h

theorem exec_abort_limit (hfull : 16 ≤ s.abortsBefore st) : exec (.abort st) s = .next (s.complete st 0x103 0) :=
  (onAdmin_held h).trans (congrArg Host.Outcome.next (if_pos hfull))

variable (hroom : s.abortsBefore st < 16)
include hroom

/-- The named command is caught or not; an Abort that names none answers at once that it caught nothing. -/
theorem exec_abort_room : exec (.abort st) s = .next (match s.abortTarget c with
    | some x => if s.catches x then ((s.catchCmd x scAbortRequested).complete st 0 0).settle else s.complete st 0 1
    | none => s.complete st 0 1) :=
  (onAdmin_held h).trans (congrArg Host.Outcome.next (if_neg (Nat.not_le.mpr hroom)))

end Abort

/-! Asynchronous Event Request (R515) -/

section EventRequest
variable (h : Held s st 0x0C c) (hnew : s.nvme.aers.contains st = false)
include h hnew

theorem exec_asynchronousEventRequest_limit (hfull : 16 ≤ s.nvme.aers.length) :
    exec (.asynchronousEventRequest st) s = .next (s.complete st 0x105 0) := by
  have hrow : exec (.asynchronousEventRequest st) s = _ := onAdmin_held h
  rw [hrow, if_neg (ne_true_of_eq_false hnew), if_pos hfull]

variable (hroom : s.nvme.aers.length < 16)
include hroom

theorem exec_asynchronousEventRequest_waits (hnone : s.nvme.waitingEv = []) :
    exec (.asynchronousEventRequest st) s = .next (s.modNvme fun n => { n with aers := n.aers ++ [st] }) := by
  have hrow : exec (.asynchronousEventRequest st) s = _ := onAdmin_held h
  rw [hrow, if_neg (ne_true_of_eq_false hnew), if_neg (Nat.not_le.mpr hroom)]
  simp only [State.modNvme_nvme, hnone]

theorem exec_asynchronousEventRequest_delivers {e : Nat × Nat × Nat} {rest : List (Nat × Nat × Nat)} (hwaits : s.nvme.waitingEv = e :: rest) :
    exec (.asynchronousEventRequest st) s =
      .next ((s.modNvme fun n => { n with aers := n.aers ++ [st], waitingEv := rest }).deliver e.1 e.2.1 e.2.2) := by
  have hrow : exec (.asynchronousEventRequest st) s = _ := onAdmin_held h
  rw [hrow, if_neg (ne_true_of_eq_false hnew), if_neg (Nat.not_le.mpr hroom)]
  simp only [State.modNvme_nvme, hwaits]
  rfl

end EventRequest
end Rows

/-- Settles O47, command by command from the row of each. The status values that NVMe names are presumed (assumption log 15), and an Abort that catches
nothing answers at once (log 19). -/
theorem identifyQueuesAndAborts : Obligations.IdentifyQueuesAndAborts := by
  intro s st c x q n e rest cns qid n0 v cqs sqs org aborts del
  refine ⟨fun h => ⟨exec_identifyController_held h, fun hcns => ⟨exec_identifyNamespace_outside h hcns, exec_identifyNamespace_absent h hcns,
      fun hlow hhigh => exec_identifyNamespace_present h hcns hlow hhigh⟩, exec_identifyLists_active h, exec_identifyLists_allocated h,
      fun hcns hactive => ?_, fun hcns hactive => ?_⟩,
    fun h => ⟨fun hbad => ?_, fun hgood hv => ?_, fun hgood hv hpc => ?_⟩, fun h => ⟨fun hbad => ?_, fun hgood hcq => ?_, fun hgood hv hcq hpc => ?_⟩,
    fun h => ⟨exec_deleteIoSubmissionQueue_absent h, exec_deleteIoSubmissionQueue_present h⟩,
    fun h => ⟨fun habsent => ?_, fun hio hcq hused => ?_, fun hio hcq hunused => ?_⟩,
    fun h => ⟨exec_abort_limit h, fun hroom hx hcaught => ?_, fun hroom hx hmissed => ?_, fun hroom hx => ?_⟩,
    fun h hnew => ⟨exec_asynchronousEventRequest_limit h hnew, exec_asynchronousEventRequest_waits h hnew,
      fun hroom => exec_asynchronousEventRequest_delivers h hnew hroom⟩⟩
  · rw [exec_identifyLists_descriptors h hcns, if_pos hactive]
  · rw [exec_identifyLists_descriptors h hcns, if_neg (ne_true_of_eq_false hactive)]
  · rw [exec_createIoCompletionQueue_held h, if_pos hbad]
  · rw [exec_createIoCompletionQueue_held h, if_neg (not_not_intro hgood), if_pos hv]
  · rw [exec_createIoCompletionQueue_held h, if_neg (not_not_intro hgood), if_neg (Nat.not_lt.mpr hv), if_neg (by simp [hpc])]
  · rw [exec_createIoSubmissionQueue_held h, if_pos hbad]
  · rw [exec_createIoSubmissionQueue_held h, if_neg (not_not_intro hgood), if_pos hcq]
  · rw [exec_createIoSubmissionQueue_held h, if_neg (not_not_intro hgood), if_neg (not_or.mpr ⟨hv, ne_false_of_eq_true hcq⟩), if_neg (by simp [hpc])]
  · rw [exec_deleteIoCompletionQueue_held h, if_pos habsent]
  · rw [exec_deleteIoCompletionQueue_held h, if_neg (not_or.mpr ⟨hio, ne_false_of_eq_true hcq⟩), if_pos hused]
  · rw [exec_deleteIoCompletionQueue_held h, if_neg (not_or.mpr ⟨hio, ne_false_of_eq_true hcq⟩), if_neg (ne_true_of_eq_false hunused)]
  · rw [exec_abort_room h hroom, show s.abortTarget c = some x from hx]; exact congrArg Host.Outcome.next (if_pos hcaught)
  · rw [exec_abort_room h hroom, show s.abortTarget c = some x from hx]; exact congrArg Host.Outcome.next (if_neg (ne_true_of_eq_false hmissed))
  · rw [exec_abort_room h hroom, show s.abortTarget c = none from hx]

end Sys2Proof.Machine
end

section
/-!
The steps of a start: what the row of each answers where its turn has come, and O24, which collects these rows.
-/
namespace Sys2Proof.Machine
open Sys2Proof

section Rows
variable {s : State}

/-! Boot start and fetch faults (R552, R562, R611, R657) -/

/-- The earliest boot start: VIN_MAIN has met R611 for 10 ms and SYSRST_N has been high for 1 ms. -/
def State.startClock (s : State) : Nat := max (s.pwr.mainSince + 10 * ms) (s.pins.sysrstAt + ms)

theorem State.reach_reach (s : State) (t : Nat) : (s.reach t).reach t = s.reach t :=
  congrArg s.setNow (max_eq_left (le_max_right s.now t))

/-- Boot start waits for its instant first: a state that has waited already starts in the same way. -/
theorem exec_bootStart_reach (h : s.mayStart = true) (bankSize : Nat) (bad : List (Nat × Nat)) (otpBad : Bool) (margins : List (List (List Int))) :
    exec (.bootStart bankSize bad otpBad margins) (s.reach s.startClock) = exec (.bootStart bankSize bad otpBad margins) s := by
  have hreached : (s.reach s.startClock).mayStart = true := h
  have hwait : (s.reach s.startClock).reach (s.reach s.startClock).startClock = s.reach s.startClock := s.reach_reach s.startClock
  change execBootStart bankSize bad otpBad margins (s.reach s.startClock) = execBootStart bankSize bad otpBad margins s
  unfold State.startClock at *
  simp only [execBootStart, hreached, h, hwait, Bool.not_true, Bool.false_eq_true, if_false]

/-- So a boot start undoes nothing of the state at that instant, the AON counter among it. -/
theorem exec_bootStart_keeps_reached (h : s.mayStart = true) (bankSize : Nat) (bad : List (Nat × Nat)) (otpBad : Bool)
    (margins : List (List (List Int))) : NextKeeps (s.reach s.startClock) (exec (.bootStart bankSize bad otpBad margins) s) :=
  exec_bootStart_reach h bankSize bad otpBad margins ▸ exec_keeps (.bootStart bankSize bad otpBad margins) (Keeps.refl (s.reach s.startClock))

theorem exec_bootFetchFault_busy (hstage : s.fw.stage = .rom ∨ s.fw.stage = .boot) (hbusy : s.ospi.busy.any (·.isSome) = true)
    (bad : List (Nat × Nat)) : exec (.bootFetchFault bad) s =
      .next (((s.modOspi fun o => { o with busy := [none, none], fetchFaults := satInc o.fetchFaults }).modFw fun f => { f with stage := .rom }).romStart bad
        (decide (3 ≤ (satInc s.ospi.fetchFaults).toNat))) :=
  if_neg (by rcases hstage with hs | hs <;> simp [hs, hbusy])

/-! DRAM training and the sequencer loader (R267, R426) -/

theorem find?_zip_failed (rates : List Nat) : (rates.zip (rates.map fun _ => false)).find? (·.2) = none := by
  induction rates with
  | nil => rfl
  | cons r rates ih => simpa using ih

section Boot
variable (hstage : s.fw.stage = .boot)
include hstage

/-- The rates that a start may train at, from key 0x0151 down to the floor of key 0x0152. -/
def State.trainingRates (s : State) : List Nat := dramRates.filter fun r => r ≤ s.key2 0x0151 && s.key2 0x0152 ≤ r

/-- DRAM in service at a rate, with the margins that its training measured. -/
def State.serveDram (s : State) (rate : Nat) (eyes : List (Nat × Nat × Nat × Nat)) : State :=
  s.modDram fun d => { d with
    inService := true, rate := rate
    subs := (d.subs.zipIdx).map fun (x, i) => x.measured (eyes.getD i (0, 0, 0, 0)) }

theorem exec_dramTrainingEnd_first (hdram : s.dram.inService = false) (eyes : List (Nat × Nat × Nat × Nat)) {rate : Nat} {rest : List Nat}
    (hrates : s.trainingRates = rate :: rest) :
    exec (.dramTrainingEnd [true] eyes) s = .next ((s.serveDram rate eyes).modFw fun f => { f with stage := .core }) := by
  unfold State.trainingRates at hrates
  change execDramTrainingEnd [true] eyes s = _
  simp [execDramTrainingEnd, hdram, hstage, hrates, State.serveDram]

theorem exec_dramTrainingEnd_failed (hdram : s.dram.inService = false) (eyes : List (Nat × Nat × Nat × Nat)) :
    exec (.dramTrainingEnd (s.trainingRates.map fun _ => false) eyes) s = .next ((s.modFw fun f => { f with stage := .dram }).fault 0x1C8 []) := by
  have hnone := find?_zip_failed s.trainingRates
  unfold State.trainingRates at *
  change execDramTrainingEnd _ eyes s = _
  simp only [execDramTrainingEnd, hdram, hstage, hnone, List.length_map, le_refl, if_true]
  simp

theorem exec_microcodeLoad_start {base : McuModule} (hbase : base.verifies = true) (patches : List McuModule) (custom : Option McuModule)
    (failed : List Nat) (bad : List (Nat × Nat)) : exec (.microcodeLoad base patches custom failed bad) s =
      .next (((s.takeModules base patches (if s.cfg.img.present 0x0110 then custom else none)).loadSeqs (List.range 34) failed).takeOverrides) := by
  change execMicrocodeLoad base patches custom failed bad s = _
  simp [execMicrocodeLoad, hstage, hbase]

end Boot

/-! The recovery function (R567, R568) -/

section Recovery
variable (hstage : s.fw.stage = .recovery)
include hstage

/-- A write that ends within the 12 MiB of the staging area is stored whole. -/
theorem exec_recoveryWindowWrite_stored {k : Nat} {data : List Byte} (hlow : 0x8000 ≤ k) (hhigh : k + data.length ≤ 0x10000)
    (hfits : s.fw.recWinBase.toNat + k - 0x8000 + data.length ≤ 12582912) : exec (.recoveryWindowWrite k data) s =
      .next (s.modFw fun f => { f with recStaging := mwriteN 0 f.recStaging (s.fw.recWinBase.toNat + k - 0x8000) data }) := by
  have hwhole : data.take (12582912 - (s.fw.recWinBase.toNat + k - 0x8000)) = data := List.take_of_length_le (by omega)
  have hturn : ¬ (decide (s.fw.stage ≠ .recovery) || decide (k < 0x8000) || decide (0x10000 < k + data.length)) = true := by
    simp [hstage, hlow, hhigh]
  refine (if_neg hturn).trans ?_
  simp only [State.modFw, hwhole]

/-- The PKG_LEN bytes that are staged. -/
def State.stagedPackage (s : State) : Option (Tab (List Byte)) := packageOf (mreadN 0 s.fw.recStaging 0 (min s.fw.recPkgLen.toNat 12582912))

theorem exec_recoveryInstall_noPackage (hnone : s.stagedPackage = none) (bad : List Nat) (fails : Bool) :
    exec (.recoveryInstall bad fails) s = .next (s.installFails 1) := by
  unfold State.stagedPackage at hnone
  refine (if_neg (not_not_intro hstage)).trans ?_
  simp only [hnone]

/-- The components of a package written to slot set A, and the directory of a boot block that names them (R568). -/
def State.install (s : State) (p : Tab (List Byte)) : State :=
  let set : Tab FwComp := p.map fun e => (e.1, wrapInfo e.2)
  let images : Tab (List Byte) := p.map fun e => (e.1, storedBytes e.1 e.2)
  let b := s.candidate false && !s.candidate true
  let seqs := [false, true].filterMap fun x => if fieldAt (s.swapRec x) 0x3C 4 = recCrc (s.swapRec x) then some (s.blockSeq x) else none
  let w := s.writeSlotSet 1 images
  (w.prepareTwin b (seqs.foldl max 0 + 1) (w.slotDirectory b 1 set images) (tgetD images 1 [])).completeTwin b

/-- A package of five good, compatible components is installed. -/
theorem exec_recoveryInstall_good {p : Tab (List Byte)} {bad : List Nat} (hp : s.stagedPackage = some p) (hgood : ∀ e ∈ p, s.wrapGood bad e.2 = true)
    (hall : ∀ i < 5, thas p (i + 1) = true) (hcompat : compatible (p.map fun e => (e.1, wrapInfo e.2)) = true) :
    exec (.recoveryInstall bad false) s = .next ((s.install p).modFw fun f => { f with recState := 2, recResult := 0 }) := by
  have hgoods : (p.all fun e => s.wrapGood bad e.2) = true := List.all_eq_true.mpr hgood
  have hfive : ((List.range 5).all fun i => thas p (i + 1)) = true := by simpa using hall
  unfold State.stagedPackage at hp
  refine (if_neg (not_not_intro hstage)).trans ?_
  simp only [hp, hgoods, hfive, hcompat, Bool.not_true, Bool.false_eq_true, if_false, State.install]

/-- What RESTART starts from: what a start finds (assumption log 27), with the link as it stands. -/
def State.restarted (s : State) : State :=
  let q := s.atBoot.modPcie fun q => { q with
    linkUp := s.pcie.linkUp, width := s.pcie.width, speed := s.pcie.speed, flit := s.pcie.flit, bar0 := s.pcie.bar0, memEn := s.pcie.memEn, bmEn := s.pcie.bmEn }
  let q := q.modPwr fun p => { p with crst := false }
  q.modFw fun f => { f with startAt := q.now }

theorem exec_recoveryRestart_presented (bad : List (Nat × Nat)) : exec (.recoveryRestart bad) s = .next (s.restarted.romStart bad false) :=
  if_neg (not_not_intro hstage)

end Recovery

/-! Mount (R132, R605) -/

@[simp] theorem State.demandSpin_map (s : State) : s.demandSpin.map = s.map := by
  unfold State.demandSpin; (repeat' split) <;> rfl

@[simp] theorem State.demandSpin_fw (s : State) : s.demandSpin.fw = s.fw := by
  unfold State.demandSpin; (repeat' split) <;> rfl

/-- The state that a mount from a root leaves before what waited goes on. -/
def State.mountedFrom (s : State) (r : Root) (lost : List (Nat × Nat)) : State :=
  let m := ((s.mountFrom r lost).startRing.afterMount.copyStaged).modMap fun m => { m with mounted := true }
  let m := m.modFw fun f => { f with stage := .mounted, coreReady := true, startDone := true }
  (if m.key2 0x0404 = 1 then m.demandSpin else m).modMedia fun m => { m with lastSpans := [] }

theorem State.mountedFrom_map (s : State) (r : Root) (lost : List (Nat × Nat)) : (s.mountedFrom r lost).map.mounted = true := by
  simp only [State.mountedFrom, State.modMedia_map]
  split <;> simp

theorem State.mountedFrom_fw (s : State) (r : Root) (lost : List (Nat × Nat)) :
    (s.mountedFrom r lost).fw.stage = .mounted ∧ (s.mountedFrom r lost).fw.startDone = true := by
  simp only [State.mountedFrom, State.modMedia_fw]
  split <;> simp

theorem exec_mount_root {r : Root} (hstage : s.fw.stage = .core) (hseqs : s.seqs.base.isSome = true) (hdram : s.dram.inService = true)
    (hchans : s.flashIf.chans.any (·.2.inited) = true) (hroot : s.flashRoot = some r) (lost : List (Nat × Nat)) :
    exec (.mount lost) s = .next (s.mountedFrom r lost).settle := by
  have hbase : s.seqs.base.isNone = false := by simpa [Option.isNone_eq_false_iff] using hseqs
  change execMount lost s = _
  simp only [execMount, hstage, hbase, hdram, hchans, hroot]
  rfl

end Rows

/-- Settles O24, from the row of each step of a start. Boot start moves the clock to the end of its waits (assumption log 3). -/
theorem startStepsRun : Obligations.StartStepsRun := by
  intro s bankSize k bad otpBad margins eyes base patches custom failed badComps data lost r
  refine ⟨fun hstart => ?_, fun hstage hbusy => exec_bootFetchFault_busy hstage hbusy bad, fun hstage hdram rate rest hrates => ?_,
    fun hstage hdram => exec_dramTrainingEnd_failed hstage hdram eyes,
    fun hstage hbase => exec_microcodeLoad_start hstage hbase patches custom failed bad,
    fun hstage hlow hhigh hfits => exec_recoveryWindowWrite_stored hstage hlow hhigh (by omega),
    fun hstage hnone => exec_recoveryInstall_noPackage hstage hnone badComps false,
    fun hstage p hp hgood hall hcompat => ⟨_, exec_recoveryInstall_good hstage hp hgood hall hcompat, rfl, rfl⟩,
    fun hstage => ⟨_, exec_recoveryRestart_presented hstage bad, s.restarted, rfl, rfl, rfl, rfl⟩,
    fun hstage hseqs hdram hchans hroot => ?_, fun hready => congrArg Host.Outcome.next (if_pos hready)⟩
  · obtain ⟨t, hexec, hkeeps⟩ := exec_bootStart_keeps_reached hstart bankSize bad otpBad margins
    have hclock : s.startClock ≤ t.now := (le_max_right s.now s.startClock).trans hkeeps.clock
    exact ⟨t, hexec, max_le_iff.mp hclock⟩
  · exact ⟨_, exec_dramTrainingEnd_first hstage hdram eyes hrates, rfl, rfl, rfl⟩
  · obtain ⟨hmounted, hdone⟩ := s.mountedFrom_fw r lost
    exact ⟨_, exec_mount_root hstage hseqs hdram hchans hroot lost, s.mountedFrom r lost, rfl, s.mountedFrom_map r lost, hmounted, hdone, rfl⟩
end Sys2Proof.Machine
end

section
/-!
The vendor features with a state beyond one dword: what the row of each answers to a held Set or Get, and O10, which collects these equations.
-/
namespace Sys2Proof.Machine
open Sys2Proof

section Rows
variable {s : State} {st sel : Nat} {c : Ctx} {data : List Byte}

/-! Stream Format (R187, R188, R502, R670) -/

/-- A record of a stream format index is stored, and a SIDE entry of the journal keeps it (R187). -/
def State.setFormat (s : State) (ix : Nat) (r : FormatRec) : State :=
  (s.modCoder fun k => { k with formats := tput k.formats ix r }).journal 1 0 (.side (.format ix r))

/-- A valid record, once the windows are clear: it is stored where the index may take it, and is else answered with 0x7C3. -/
theorem exec_setStreamFormat_valid (h : HeldSet s st 0xC0 c) (hclear : s.barrierClear c = true) (hnew : c.jwait = none)
    (hindex : bits (c.dw 11) 8 24 = 0) (hvalid : (formatOfBytes data).valid = true) (hreserved : formatReserved data = false) :
    exec (.setStreamFormat st data) s = .next (if s.formatOk (bits (c.dw 11) 0 8) (formatOfBytes data) false
      then ((s.setFormat (bits (c.dw 11) 0 8) (formatOfBytes data)).awaitJournal st 0).settle else (s.complete st 0x7C3 0).settle) := by
  have hturn : ¬ (!s.barrierClear c || c.jwait.isSome) = true := by simp [hclear, hnew]
  have hvalues : ¬ (bits (c.dw 11) 8 24 ≠ 0 || ((formatOfBytes data).valid && formatReserved data)) = true := by simp [hindex, hreserved]
  refine (onSet_held h).trans (congrArg Host.Outcome.next ((if_neg hturn).trans ((if_neg hvalues).trans ?_)))
  simp only [hvalid, Bool.true_and, if_true]
  cases s.formatOk (bits (c.dw 11) 0 8) (formatOfBytes data) false
  · rfl
  · rfl

theorem exec_getStreamFormat_held (h : HeldGet s st 0xC0 sel c) (hindex : bits (c.dw 11) 8 24 = 0) :
    let ix := bits (c.dw 11) 0 8
    exec (.getStreamFormat st) s =
      .next ((s.giveData c 64 ((tgetD s.coder.formats ix {}).fields (tgetD s.coder.counts ix {}))).complete st 0 0) := by
  change execGetStreamFormat st s = _
  unfold execGetStreamFormat
  exact (onGet_held h).trans (congrArg Host.Outcome.next (if_neg (not_not_intro hindex)))

/-! Rack Spindle Control (R353, R354, R505) -/

/-- The standby times that a Set admits: the one in effect, 0 for no timer, or 10 s to 86,400 s; and the reserved bits beside it are clear. -/
def StandbyAdmitted (w : Nat) : Prop :=
  bits w 4 4 = 0 ∧ (bitAt w 3 = true ∨ bits w 8 24 = 0 ∨ 10 ≤ bits w 8 24 ∧ bits w 8 24 ≤ 86400)

/-- What a Set of Rack Spindle Control stores, whatever its action asks. -/
def State.storeSpindle (s : State) (w action : Nat) : State := s.modRack fun r =>
  { r with spinAllowed := bitAt w 0, standby := if bitAt w 3 then r.standby else some (BitVec.ofNat 32 (bits w 8 24))
           demandHeld := r.demandHeld || decide (action = 2) }

theorem StandbyAdmitted.inRange {w : Nat} (hstandby : StandbyAdmitted w) :
    (!bitAt w 3 && ((decide (1 ≤ bits w 8 24) && decide (bits w 8 24 ≤ 9)) || decide (bits w 8 24 > 86400))) = false := by
  obtain ⟨-, hkeep | hnone | hbetween⟩ := hstandby
  · simp [hkeep]
  · simp [hnone]
  · simp; omega

/-- A Set with its own action and an admitted standby time: only action 1 has further checks, and an action acts after the values are stored. -/
theorem setSpindle_admitted {action : Nat} (h : HeldSet s st 0xC3 c) (haction : bits (c.dw 11) 1 2 = action) (hdefined : action ≠ 3)
    (hstandby : StandbyAdmitted (c.dw 11)) :
    let t := s.storeSpindle (c.dw 11) action
    s.setSpindle st action = .next (
      if action = 1 && (!bitAt (c.dw 11) 0 || s.rack.spin = .absent) then s.complete st scInvalidField 0
      else if action = 1 && (s.rack.spin = .failed || s.rack.spin = .lowv) then s.complete st 0x7C1 0
      else (if action = 1 then t.demandSpin else if action = 2 then t.spinDown false false else t).complete st 0 0) := by
  have hserves : ¬ (bits (c.dw 11) 1 2 ≠ action && !(bits (c.dw 11) 1 2 = 3 && action = 0)) = true := by simp [haction]
  have hrange := hstandby.inRange
  have hvalues : ¬ (bits (c.dw 11) 1 2 = 3 || bits (c.dw 11) 4 4 ≠ 0 ||
      (!bitAt (c.dw 11) 3 && ((1 ≤ bits (c.dw 11) 8 24 && bits (c.dw 11) 8 24 ≤ 9) || bits (c.dw 11) 8 24 > 86400))) = true := by
    rw [hrange]; simp [haction, hdefined, hstandby.1]
  refine (onSet_held h).trans (congrArg Host.Outcome.next ((if_neg hserves).trans ((if_neg hvalues).trans ?_)))
  subst haction
  rfl

theorem exec_setRackSpindleControl_held (h : HeldSet s st 0xC3 c) (haction : bits (c.dw 11) 1 2 = 0) (hstandby : StandbyAdmitted (c.dw 11)) :
    exec (.setRackSpindleControl st) s = .next ((s.storeSpindle (c.dw 11) 0).complete st 0 0) :=
  setSpindle_admitted h haction (by decide) hstandby

section SpinUp
variable (h : HeldSet s st 0xC3 c) (haction : bits (c.dw 11) 1 2 = 1) (hstandby : StandbyAdmitted (c.dw 11)) (hallowed : bitAt (c.dw 11) 0 = true)
include h haction hstandby hallowed

theorem exec_rackSpinUpAction_demands (hpresent : s.rack.spin ≠ .absent) (hsound : s.rack.spin ≠ .failed) (hpower : s.rack.spin ≠ .lowv) :
    exec (.rackSpinUpAction st) s = .next ((s.storeSpindle (c.dw 11) 1).demandSpin.complete st 0 0) :=
  (setSpindle_admitted h haction (by decide) hstandby).trans (congrArg Host.Outcome.next
    ((if_neg (by simp [hallowed, hpresent])).trans (if_neg (by simp [hsound, hpower]))))

/-- A spindle that cannot start: nothing of the Set is stored. -/
theorem exec_rackSpinUpAction_refused (hstuck : s.rack.spin = .failed ∨ s.rack.spin = .lowv) :
    exec (.rackSpinUpAction st) s = .next (s.complete st 0x7C1 0) := by
  have hpresent : s.rack.spin ≠ .absent := by rcases hstuck with hspin | hspin <;> simp [hspin]
  exact (setSpindle_admitted h haction (by decide) hstandby).trans (congrArg Host.Outcome.next
    ((if_neg (by simp [hallowed, hpresent])).trans (if_pos (by simpa using hstuck))))

end SpinUp

theorem exec_rackSpinDownAction_held (h : HeldSet s st 0xC3 c) (haction : bits (c.dw 11) 1 2 = 2) (hstandby : StandbyAdmitted (c.dw 11)) :
    exec (.rackSpinDownAction st) s = .next (((s.storeSpindle (c.dw 11) 2).spinDown false false).complete st 0 0) :=
  setSpindle_admitted h haction (by decide) hstandby

/-! Placement Hints (R57, R506) -/

/-- The 32-byte entries of a transfer. -/
def hintEntries (data : List Byte) (n : Nat) : List (List Byte) := (List.range n).map fun i => (data.drop (32 * i)).take 32

/-- A Set with its own operation, add or remove, and a count of 1 to 256 entries, each of which passes its checks. -/
theorem hintsSet_listed {op : Nat} {hs : List Hint} (h : HeldSet s st 0xC4 c) (hop : bits (c.dw 11) 9 2 = op) (hlisted : op = 0 ∨ op = 1)
    (hreserved : bits (c.dw 11) 11 21 = 0) (hlow : 1 ≤ bits (c.dw 11) 0 9) (hhigh : bits (c.dw 11) 0 9 ≤ 256)
    (hpass : s.hintsOf (op = 0) s.place.hints.length (hintEntries data (bits (c.dw 11) 0 9)) = (0, hs)) :
    s.hintsSet st op data = .next (if op = 0 then (s.setHints (s.place.hints ++ hs)).complete st 0 0
      else (s.setHints (s.place.hints.filter fun x => !hs.contains x)).complete st 0 0) := by
  have hserves : ¬ (bits (c.dw 11) 9 2 ≠ op && !(bits (c.dw 11) 9 2 = 3 && op = 0)) = true := by simp [hop]
  have hvalues : ¬ (bits (c.dw 11) 11 21 ≠ 0 || bits (c.dw 11) 9 2 = 3 ||
      (bits (c.dw 11) 9 2 ≠ 2 && (bits (c.dw 11) 0 9 = 0 || bits (c.dw 11) 0 9 > 256))) = true := by
    simp [hreserved]; omega
  have hlist : bits (c.dw 11) 9 2 ≠ 2 := by omega
  refine (onSet_held h).trans (congrArg Host.Outcome.next ((if_neg hserves).trans ((if_neg hvalues).trans ((if_neg hlist).trans ?_))))
  subst hop
  unfold hintEntries at hpass
  simp only [hpass]
  exact if_neg (not_not_intro rfl)

theorem exec_placementHintsRemoveAll_held (h : HeldSet s st 0xC4 c) (hop : bits (c.dw 11) 9 2 = 2) (hreserved : bits (c.dw 11) 11 21 = 0) :
    exec (.placementHintsRemoveAll st) s = .next ((s.setHints []).complete st 0 0) := by
  have hrow : exec (.placementHintsRemoveAll st) s = _ := onSet_held h
  rw [hrow]
  simp [hop, hreserved]

theorem exec_getPlacementHints_held (h : HeldGet s st 0xC4 sel c) : ∃ page,
    exec (.getPlacementHints st) s = .next ((s.giveData c 8192 page).complete st 0 (BitVec.ofNat 32 s.place.hints.length)) ∧
    ∀ i (hi : i < s.place.hints.length), ∀ x ∈ (s.place.hints[i]).fields (32 * i), x ∈ page := by
  change ∃ page, execGetPlacementHints st s = _ ∧ _
  unfold execGetPlacementHints
  exact ⟨_, onGet_held h, fun i hi x hx => mem_flatMap_zipIdx_of_mem_getElem hi hx⟩

/-! Capture Window Control (R149, R507) -/

/-- A change of the window that is not queued yet joins the queue, and its command has begun. -/
theorem exec_setCaptureWindowControl_queues (h : HeldSet s st 0xC5 c) (hnew : ∀ e ∈ s.win.setQ, e.1 ≠ st) (hreserved : bits (c.dw 11) 28 4 = 0)
    (hsize : bits (c.dw 11) 1 13 ≤ 4096) (hlow : 10 ≤ bits (c.dw 11) 14 14) (hhigh : bits (c.dw 11) 14 14 ≤ 10000) :
    exec (.setCaptureWindowControl st) s = .next ((s.modCtx st fun x => { x with begun := true }).queueSet
      (st, bits (c.dw 11) 0 1, bits (c.dw 11) 1 13, 100 * bits (c.dw 11) 14 14)) := by
  have hqueued : ¬ (s.win.setQ.any (·.1 == st)) = true := by
    simpa only [List.any_eq_true, beq_iff_eq, not_exists, not_and] using hnew
  have hvalues : ¬ (bits (c.dw 11) 28 4 ≠ 0 || bits (c.dw 11) 1 13 > 4096 || bits (c.dw 11) 14 14 < 10 || bits (c.dw 11) 14 14 > 10000) = true := by
    simp [hreserved, hsize, hlow, hhigh]
  exact (onSet_held h).trans (congrArg Host.Outcome.next ((if_neg hqueued).trans (if_neg hvalues)))

end Rows

/-- Settles O10, from the row of each feature. That a Set whose action 1 fails its checks stores nothing is a deduced reading (assumption log 82). -/
theorem vendorFeaturesTakeEffect : Obligations.VendorFeaturesTakeEffect := by
  intro s st sel c data w spin standbyOk
  refine ⟨fun h hclear hnew hindex hvalid hreserved hok => ?_, fun h hclear hnew hindex hvalid hreserved hbad => ?_, exec_getStreamFormat_held,
    exec_setRackSpindleControl_held, exec_rackSpinUpAction_demands, exec_rackSpinUpAction_refused, exec_rackSpinDownAction_held,
    fun h hop hreserved hlow hhigh hs hpass => hintsSet_listed h hop (.inl rfl) hreserved hlow hhigh hpass,
    fun h hop hreserved hlow hhigh hs hpass => hintsSet_listed h hop (.inr rfl) hreserved hlow hhigh hpass,
    exec_placementHintsRemoveAll_held, exec_getPlacementHints_held, exec_setCaptureWindowControl_queues⟩
  · exact (exec_setStreamFormat_valid h hclear hnew hindex hvalid hreserved).trans (congrArg Host.Outcome.next (if_pos hok))
  · exact (exec_setStreamFormat_valid h hclear hnew hindex hvalid hreserved).trans
      (congrArg Host.Outcome.next (if_neg (ne_true_of_eq_false hbad)))

end Sys2Proof.Machine
end

section
/-!
Peel channels: what the row of each of their commands answers, and O40, which collects these equations.
-/
namespace Sys2Proof.Machine
open Sys2Proof

section Rows
variable {s : State} {ch : Nat}

/-! Actions (R159, R160, R163) -/

section Actions
variable (hopen : s.memOpen = true) (hch : ch < 64)
include hopen hch

theorem exec_peelStart_open : exec (.peelStart ch) s = .next (s.peelStart ch) := if_pos (by simp [hopen, hch])

theorem exec_peelStart_accepted (hready : s.winReady = true) (hstate : (s.peelCh ch).state = .idle ∨ (s.peelCh ch).state = .halted) :
    exec (.peelStart ch) s = .next (s.runPeel ch (s.peelCh ch).chain) :=
  (exec_peelStart_open hopen hch).trans (congrArg Host.Outcome.next (if_pos (by simpa [hready] using hstate)))

theorem exec_peelStart_ignored (hrefuses : s.winReady = false ∨ ((s.peelCh ch).state ≠ .idle ∧ (s.peelCh ch).state ≠ .halted)) :
    exec (.peelStart ch) s = .next (s.startIgnored ch) :=
  (exec_peelStart_open hopen hch).trans (congrArg Host.Outcome.next (if_neg (by rcases hrefuses with h | h <;> simp [h])))

theorem exec_peelStop_open : exec (.peelStop ch) s = .next (s.stopPeel ch 1) := if_pos (by simp [hopen, hch])

theorem exec_peelResume_open : exec (.peelResume ch) s = .next (s.peelResume ch) := if_pos (by simp [hopen, hch])

theorem exec_peelResume_accepted (hready : s.winReady = true) (hmode : (s.peelCh ch).mode = true) (hstate : (s.peelCh ch).state = .halted) :
    exec (.peelResume ch) s = .next (s.runPeel ch (s.peelCh ch).cur) :=
  (exec_peelResume_open hopen hch).trans (congrArg Host.Outcome.next (if_pos (by simp [hready, hmode, hstate])))

theorem exec_peelResume_ignored (hstate : (s.peelCh ch).state ≠ .halted) : exec (.peelResume ch) s = .next (s.startIgnored ch) :=
  (exec_peelResume_open hopen hch).trans (congrArg Host.Outcome.next (if_neg (by simp [hstate])))

end Actions

/-! Descriptors (R152, R153, R158) -/

/-- The read of the descriptor at CUR completes for a channel that needs one: without OWN the channel polls; else it runs, and the checks of the descriptor
decide between its offer and a stop. -/
theorem exec_peelDescriptorReadComplete_needed {data : List Byte} {d : PeelDesc} {rsv : Bool}
    (hread : (s.pcie.outstanding.any fun r => decide (r.kind = .peelDesc ch (s.peelCh ch).cur.toNat)) = true) (hlen : data.length = 64)
    (hstate : (s.peelCh ch).state = .run ∨ (s.peelCh ch).state = .poll) (hdesc : peelDescOf (s.peelCh ch).cur.toNat data = (d, rsv)) :
    let got := (s.dropReq (.peelDesc ch (s.peelCh ch).cur.toNat)).pumpReads
    let running := got.modPeel ch fun p => { p with state := .run }
    exec (.peelDescriptorReadComplete ch data) s = .next (
      if d.own = false then got.modPeel ch fun p => { p with state := .poll }
      else if d.ok rsv = true then (running.modPeel ch fun p => { p with ready := some d }).offerPeel ch
      else running.stopPeel ch 7) := by
  have hwhole : ¬ (!(s.pcie.outstanding.any fun r => decide (r.kind = .peelDesc ch (s.peelCh ch).cur.toNat)) || data.length ≠ 64) = true := by
    simp [hread, hlen]
  have hneeds : ¬ ((s.peelCh ch).state ≠ .run && (s.peelCh ch).state ≠ .poll) = true := by
    rcases hstate with h | h <;> simp [h]
  refine (if_neg hwhole).trans ((if_neg hneeds).trans ?_)
  simp only [hdesc]
  cases d.own
  · rfl
  · cases d.ok rsv
    · rfl
    · rfl

theorem exec_peelPollInterval_poll (hstate : (s.peelCh ch).state = .poll) : exec (.peelPollInterval ch) s = .next (s.fetchDesc ch) := if_pos hstate

/-! Acceptance (R67, R155) -/

/-- The number of tracker entries that the write of a descriptor takes. -/
def State.descEnts (s : State) (ch : Nat) (d : PeelDesc) : Nat :=
  (s.ingestCtx (.peel ch d.addr) d.nsid.toNat d.slba.toNat d.len.toNat).ents.length

section Acceptance
variable {d : PeelDesc} {arb : State} (hready : (s.peelCh ch).ready = some d) (hturn : s.ingestTurn (.peel ch) = some arb)
  (hstate : (s.peelCh ch).state = .run) (hroom : (s.peelCh ch).jobs.length ≤ (s.peelCh ch).inflight.toNat)
include hready hturn hstate hroom

/-- A channel at its turn: its descriptor is accepted, or stalls all ingest for want of a context or of tracker entries. -/
theorem exec_peelDescriptorAccept_turn : exec (.peelDescriptorAccept ch) s = .next (
    if 65536 ≤ s.contexts.length ∨ s.trackerFree < s.descEnts ch d then s.modHost fun h => { h with stalled := some (s.descEnts ch d) }
    else arb.acceptPeel ch d) := by
  have haccepts : ¬ ((s.peelCh ch).state ≠ .run || (s.peelCh ch).jobs.length > (s.peelCh ch).inflight.toNat) = true := by
    simp [hstate, hroom]
  change execPeelDescriptorAccept ch s = _
  simp only [execPeelDescriptorAccept, hready, hturn, if_neg haccepts, apply_ite Host.Outcome.next]
  simp only [Bool.or_eq_true, decide_eq_true_eq, ge_iff_le, gt_iff_lt]
  rfl

theorem exec_peelDescriptorAccept_accepted (hctx : s.contexts.length < 65536) (hents : s.descEnts ch d ≤ s.trackerFree) :
    exec (.peelDescriptorAccept ch) s = .next (arb.acceptPeel ch d) := by
  rw [exec_peelDescriptorAccept_turn hready hturn hstate hroom, if_neg (by omega)]

theorem exec_peelDescriptorAccept_stalls (hfull : 65536 ≤ s.contexts.length ∨ s.trackerFree < s.descEnts ch d) :
    exec (.peelDescriptorAccept ch) s = .next (s.modHost fun h => { h with stalled := some (s.descEnts ch d) }) := by
  rw [exec_peelDescriptorAccept_turn hready hturn hstate hroom, if_pos hfull]

end Acceptance

/-! Source reads (R162, R164, R170) -/

/-- A job with the bytes of one more source read: those that now follow in source order are unpacked, the others wait. -/
def PeelJob.take (j : PeelJob) (off : Nat) (data : List Byte) : PeelJob :=
  let arrived := inOrder (j.ooo.length + 1) j.got (j.ooo ++ [(off, data)])
  { j with ooo := arrived.2 }.feed arrived.1

section SourceReads
variable {stamp off : Nat} {data : List Byte} {r : OutReq}
  (hread : (s.pcie.outstanding.find? fun r => decide (r.kind = .peelSrc ch stamp off)) = some r) (hlen : data.length = r.len)
include hread hlen

/-- The read of a descriptor that is gone frees its tag and no more. -/
theorem exec_peelSourceReadComplete_gone
    (hjob : (((s.dropReq (.peelSrc ch stamp off)).pumpReads.peelCh ch).jobs.find? fun j => j.stamp == stamp) = none) :
    exec (.peelSourceReadComplete ch stamp off data) s = .next (s.dropReq (.peelSrc ch stamp off)).pumpReads := by
  change execPeelSourceReadComplete ch stamp off data s = _
  simp only [execPeelSourceReadComplete, hread, if_neg (not_not_intro hlen), hjob]

theorem exec_peelSourceReadComplete_taken {j : PeelJob}
    (hjob : (((s.dropReq (.peelSrc ch stamp off)).pumpReads.peelCh ch).jobs.find? fun j => j.stamp == stamp) = some j) :
    let src := (s.dropReq (.peelSrc ch stamp off)).pumpReads
    exec (.peelSourceReadComplete ch stamp off data) s = .next ((((src.modPeel ch fun p => { p with
      jobs := p.jobs.map fun x => if x.stamp = stamp then j.take off data else x }).placeBlocks ch (j.take off data)).settle).pumpPeel ch) := by
  change execPeelSourceReadComplete ch stamp off data s = _
  simp only [execPeelSourceReadComplete, hread, if_neg (not_not_intro hlen), hjob]
  rfl

end SourceReads

/-! Retirement (R156, R157, R161) -/

/-- The oldest job leaves its channel with a status, and its context is released; SC and SCT keep the first error of a COMMAND_ERROR halt. -/
def State.retireJob (s : State) (ch : Nat) (j : PeelJob) (js : List PeelJob) (st : Nat) : State :=
  let keep := (s.peelCh ch).mode && (st = 0 || (s.peelCh ch).cause = 8)
  (s.modPeel ch fun p => { p with
    jobs := js, retired := p.retired + 1
    sc := if keep then p.sc else BitVec.ofNat 8 st, sct := if keep then p.sct else BitVec.ofNat 3 (st / 256) }).retireCtx j.stamp

/-- In chain mode the status of a retired descriptor is written, and then its OWN (R156). -/
def State.writeRetired (s : State) (chain : Bool) (j : PeelJob) (st : Nat) : State :=
  if chain then (s.hostWrite (.bytes (j.d.addr + 0x30) (retireBytes st j.stamp))).hostWrite (.bytes (j.d.addr + 0x3C) (leBytes 4 0)) else s

theorem exec_peelRetirement_done {j : PeelJob} {js : List PeelJob} {st : Nat} (hjobs : (s.peelCh ch).jobs = j :: js) (hdone : j.done = some st) :
    let p := s.peelCh ch
    let wrote := (s.retireJob ch j js st).writeRetired p.mode j st
    exec (.peelRetirement ch) s = .next (((if j.d.notify then wrote.hostWrite (.bytes p.notifyAddr.toNat (leBytes 4 p.notifyData.toNat))
      else wrote).afterRetire ch st j.d.last).pumpPeel ch) := by
  change execPeelRetirement ch s = _
  simp only [execPeelRetirement, hjobs, hdone]
  rfl

end Rows

/-- Settles O40, from the row of each command of a channel. That a STOP in POLL with accepted descriptors goes through STOPPING, and that a descriptor which
meets both the loop test and the limit halts with DESC_LOOP, are readings of the ingest rules (assumption log 31). -/
theorem peelChannelsRun : Obligations.PeelChannelsRun := by
  intro s ch stamp off st data d rsv arb r j js p got src n keep retired wrote
  refine ⟨fun hopen hch => ⟨exec_peelStart_accepted hopen hch, exec_peelStart_ignored hopen hch, exec_peelStop_open hopen hch,
      exec_peelResume_accepted hopen hch, exec_peelResume_ignored hopen hch⟩, fun hread hlen hstate hdesc => ?_, exec_peelPollInterval_poll,
    fun hready hturn hstate hroom => ⟨exec_peelDescriptorAccept_accepted hready hturn hstate hroom,
      exec_peelDescriptorAccept_stalls hready hturn hstate hroom⟩,
    fun hread hlen => ⟨exec_peelSourceReadComplete_gone hread hlen,
      fun hjob => ⟨_, exec_peelSourceReadComplete_taken hread hlen hjob, _, rfl, rfl⟩⟩, exec_peelRetirement_done⟩
  have hrow := exec_peelDescriptorReadComplete_needed hread hlen hstate hdesc
  refine ⟨fun hnone => ?_, fun hown hok => ?_, fun hown hbad => ?_⟩
  · rw [hrow, if_pos hnone]
  · rw [hrow, if_neg (by simp [hown]), if_pos hok]
  · rw [hrow, if_neg (by simp [hown]), if_neg (by simp [hbad])]

end Sys2Proof.Machine
end

section
/-!
Flash channels and dies: what the row of each event of the flash interface answers, and O30, which collects these equations.
-/
namespace Sys2Proof.Machine
open Sys2Proof

theorem tgetD_tmod_self {α : Type} (t : Tab α) (k : Nat) (d : α) (f : α → α) : tgetD (tmod t k d f) k d = f (tgetD t k d) :=
  congrArg (·.getD d) (tget_tput t k _)

@[simp] theorem State.modChannel_self (s : State) (ch : Nat) (f : ChanSt → ChanSt) :
    tgetD (s.modChannel ch f).flashIf.chans ch {} = f (tgetD s.flashIf.chans ch {}) := tgetD_tmod_self ..

@[simp] theorem State.modChannel_safeState (s : State) (ch : Nat) (f : ChanSt → ChanSt) : (s.modChannel ch f).safeState = s.safeState := rfl

section Rows
variable {s : State}

/-! Initialisation (R220, R228, R229, R652) -/

/-- The dies of a channel as they answer against key 0x0104, and its group trained with them: a listed die that does not answer is failed, a good one is taken
up, and one that is not listed is only recorded. -/
def State.findDies (s : State) (ch : Nat) (dies : List DieReport) : State :=
  let pop := s.keyN 0x0104 (4 * ch) 4
  let missed := (maskList 32 pop).foldl (fun s a =>
    if dies.any (·.addr == a) then s else (s.note 0x4001 3 (32 * ch + a) [2]).dieFailed (32 * ch + a)) s
  let found := dies.foldl (fun s r =>
    if r.addr ≥ 32 then s else if pop == 0 || bitAt pop r.addr then s.findDie ch r
    else (s.modDie (32 * ch + r.addr) fun x => { x with present := true }).note 0x4001 3 (32 * ch + r.addr) [3]) missed
  (if dies.isEmpty then found.note 0x4001 2 ch [5] else found).trainGroup (ch / 4)

/-- The channel goes into service; its write-protect pin rises unless the safe state holds it (R218). -/
def State.raiseChannel (s : State) (ch : Nat) : State := s.modChannel ch fun c => { c with inited := true, fitted := true, wp := !s.safeState }

/-- A channel without a die that passed training is fenced (R229). -/
def State.fenceUntrained (s : State) (ch : Nat) : State :=
  if (s.flashIf.dies.any fun e => e.1 / 32 == ch && e.2.trained && !e.2.failed) = true then s
  else (s.modChannel ch fun c => { c with trainFence := some s.now, wp := false }).fault (0x060 + ch)

theorem State.raiseChannel_inited (s : State) (ch : Nat) : (tgetD (s.raiseChannel ch).flashIf.chans ch {}).inited = true := by
  simp [State.raiseChannel]

theorem State.raiseChannel_wp (s : State) (ch : Nat) : (tgetD (s.raiseChannel ch).flashIf.chans ch {}).wp = !(s.raiseChannel ch).safeState := by
  simp [State.raiseChannel]

section Initialisation
variable {ch : Nat} {rb : Bool} {dies : List DieReport} (hch : ch < 32) (hnew : (tgetD s.flashIf.chans ch {}).inited = false)
  (hrail : s.pwr.rails.contains 6 = true) (hstage : s.fw.stage = .dram ∨ s.fw.stage = .core) (hpower : s.pwr.pl.running = false)
include hch hnew hrail hstage hpower

theorem channel_starts : ¬ (ch ≥ 32 || (tgetD s.flashIf.chans ch {}).inited || !s.pwr.rails.contains 6 ||
    (s.fw.stage ≠ .dram && s.fw.stage ≠ .core) || s.pwr.pl.running) = true := by
  rcases hstage with h | h <;> simp [hch, hnew, hpower, h, List.contains_iff_mem.mp hrail]

/-- A channel whose ready line stays low and for which no die is listed is not fitted. -/
theorem exec_channelInitialisation_unfitted (hlow : rb = false) (hnone : s.keyN 0x0104 (4 * ch) 4 = 0) : exec (.channelInitialisation ch rb dies) s =
    .next ((s.note 0x4001 2 ch [5]).modChannel ch fun c => { c with inited := true }) :=
  (if_neg (channel_starts hch hnew hrail hstage hpower)).trans (if_pos (by simp [hlow, hnone]))

theorem exec_channelInitialisation_fitted (hfit : rb = true ∨ s.keyN 0x0104 (4 * ch) 4 ≠ 0) : exec (.channelInitialisation ch rb dies) s =
    .next (((s.findDies ch (if rb then dies else [])).raiseChannel ch).fenceUntrained ch) :=
  (if_neg (channel_starts hch hnew hrail hstage hpower)).trans (if_neg (by rcases hfit with h | h <;> simp [h]))

end Initialisation

/-! Polls and timeouts (R225, R226, R318) -/

/-- A timeout is recorded against the die, which has no operation any more; the first timeout of a read lets it be issued once more. -/
def State.timedOut (s : State) (die op : Nat) : State :=
  (s.fault (0x0C0 + die / 32) [die]).modDie die fun x => { x with op := none, polls := 0, timeouts := x.timeouts + 1, again := op == 0 && !x.again }

section InUse
variable {die op a : Nat} (huse : (s.die die).usable = true) (hfail : (s.die die).failed = false)
include huse hfail

theorem die_serves : ¬ (!(s.die die).usable || (s.die die).failed) = true := by simp [huse, hfail]

theorem exec_statusPoll_ready : exec (.statusPoll die op true) s =
    .next (s.modDie die fun d => { d with op := none, polls := 0, timeouts := 0, again := false }) := if_neg (die_serves huse hfail)

theorem exec_statusPoll_busy : exec (.statusPoll die op false) s =
    .next (s.modDie die fun d => { d with op := some (dieOpOf op), polls := d.polls + 1 }) := if_neg (die_serves huse hfail)

/-- Of a timeout outside reads and programs nothing is left to do; the second in a row, or a Reset LUN without an answer, fails the die. -/
theorem exec_operationTimeout_other {resetOk : Bool} (hop : 2 ≤ op) : exec (.operationTimeout die op a 0 0 resetOk) s =
    .next (if resetOk = false ∨ 2 ≤ (s.die die).timeouts + 1 then (s.timedOut die op).dieFailed die else s.timedOut die op) := by
  refine (if_neg (die_serves huse hfail)).trans ((if_neg (by omega)).trans ((if_neg (by omega)).trans ?_))
  simp only [Bool.or_eq_true, Bool.not_eq_true', decide_eq_true_eq]
  rfl

theorem exec_operationTimeout_first (hfirst : (s.die die).timeouts = 0) (hop : 2 ≤ op) :
    exec (.operationTimeout die op a 0 0 true) s = .next (s.timedOut die op) :=
  (exec_operationTimeout_other huse hfail hop).trans (congrArg Host.Outcome.next (if_neg (by simp [hfirst])))

theorem exec_operationTimeout_second (hsecond : 1 ≤ (s.die die).timeouts) (hop : 2 ≤ op) :
    exec (.operationTimeout die op a 0 0 true) s = .next ((s.timedOut die op).dieFailed die) :=
  (exec_operationTimeout_other huse hfail hop).trans (congrArg Host.Outcome.next (if_pos (.inr (Nat.succ_le_succ hsecond))))

theorem exec_operationTimeout_resetFails (hop : 2 ≤ op) : exec (.operationTimeout die op a 0 0 false) s = .next ((s.timedOut die op).dieFailed die) :=
  (exec_operationTimeout_other huse hfail hop).trans (congrArg Host.Outcome.next (if_pos (.inl rfl)))

/-- The first timeout of a read leaves its job, if there is one, to the second issue: the ladder is not entered. -/
theorem exec_operationTimeout_read (hfirst : (s.die die).timeouts = 0) (hagain : (s.die die).again = false) :
    exec (.operationTimeout die 0 a 0 0 true) s = .next (s.timedOut die 0) := by
  have hholds : ¬ (!true || decide ((s.die die).timeouts + 1 ≥ 2)) = true := by simp [hfirst]
  change execOperationTimeout die 0 a 0 0 true s = _
  simp only [execOperationTimeout, if_neg (die_serves huse hfail), if_neg hholds, if_true, hagain, Bool.false_and, Bool.false_eq_true, if_false]
  split <;> rfl

end InUse

/-! Retraining (R230, R318) -/

/-- The time of a retrain: at once where it is due, else at the end of the interval of key 0x0109. -/
def State.atRetrain (s : State) (die : Nat) : State :=
  if (s.die die).retrainDue then s else s.reach ((s.die die).lastTrain + s.key2 0x0109 * sec)

/-- New training values with their narrowest eye. -/
def State.takeEye (s : State) (die eye : Nat) : State :=
  s.modDie die fun d => { d with retrainDue := false, lastTrain := s.now, eye := eye, retrainFails := 0 }

section Retrain
variable {die eye full : Nat} (htrained : (s.die die).trained = true) (hfail : (s.die die).failed = false) (hpower : s.pwr.pl.running = false)
include htrained hfail hpower

theorem die_retrains : ¬ (!(s.die die).trained || (s.die die).failed || s.pwr.pl.running) = true := by simp [htrained, hfail, hpower]

theorem exec_retrainInterval_postponed (hbusy : (s.die die).op.isSome = true ∨ (s.atRetrain die).pwr.gated.contains (5 + die / 128) = true) :
    exec (.retrainInterval die eye full) s = .next ((s.atRetrain die).modDie die fun d => { d with retrainDue := true }) :=
  (if_neg (die_retrains htrained hfail hpower)).trans (if_pos ((Bool.or_eq_true _ _).mpr hbusy))

section Idle
variable (hidle : (s.die die).op = none) (hungated : (s.atRetrain die).pwr.gated.contains (5 + die / 128) = false)
include hidle hungated

/-- An idle die takes the eye of the retrain, that of a full training where the first is too narrow, or fails. -/
theorem exec_retrainInterval_idle : exec (.retrainInterval die eye full) s = .next (
    if (s.atRetrain die).key2 0x010A ≤ eye then (s.atRetrain die).takeEye die eye
    else if (s.atRetrain die).key2 0x010A ≤ full then (s.atRetrain die).takeEye die full
    else ((s.atRetrain die).modDie die fun d => { d with retrainDue := false, lastTrain := (s.atRetrain die).now, retrainFails := 2 }).dieFailed die) := by
  have hruns : ¬ ((s.die die).op.isSome || (s.atRetrain die).pwr.gated.contains (5 + die / 128)) = true := by rw [hidle, hungated]; decide
  refine (if_neg (die_retrains htrained hfail hpower)).trans ((if_neg hruns).trans ?_)
  simp only [apply_ite Host.Outcome.next]
  rfl

theorem exec_retrainInterval_passes (heye : (s.atRetrain die).key2 0x010A ≤ eye) :
    exec (.retrainInterval die eye full) s = .next ((s.atRetrain die).takeEye die eye) :=
  (exec_retrainInterval_idle htrained hfail hpower hidle hungated).trans (congrArg Host.Outcome.next (if_pos heye))

variable (hnarrow : eye < (s.atRetrain die).key2 0x010A)
include hnarrow

theorem exec_retrainInterval_full (hfull : (s.atRetrain die).key2 0x010A ≤ full) :
    exec (.retrainInterval die eye full) s = .next ((s.atRetrain die).takeEye die full) :=
  (exec_retrainInterval_idle htrained hfail hpower hidle hungated).trans (congrArg Host.Outcome.next
    ((if_neg (Nat.not_le.mpr hnarrow)).trans (if_pos hfull)))

theorem exec_retrainInterval_fails (hfull : full < (s.atRetrain die).key2 0x010A) : exec (.retrainInterval die eye full) s =
    .next (((s.atRetrain die).modDie die fun d => { d with retrainDue := false, lastTrain := (s.atRetrain die).now, retrainFails := 2 }).dieFailed die) :=
  (exec_retrainInterval_idle htrained hfail hpower hidle hungated).trans (congrArg Host.Outcome.next
    ((if_neg (Nat.not_le.mpr hnarrow)).trans (if_neg (Nat.not_le.mpr hfull))))

end Idle
end Retrain
end Rows

/-- Settles O30, event by event. That a ready line that stays low counts as no die, with the one event of row 5, is the model's reading (assumption log 85);
a retrain that is not yet due moves the clock to the end of its interval (log 3). -/
theorem flashChannelsAndDies : Obligations.FlashChannelsAndDies := by
  intro s ch die op a eye full rb dies j d hit r
  exact ⟨fun hch hnew hrail hstage hpower => ⟨exec_channelInitialisation_unfitted hch hnew hrail hstage hpower, fun hfit =>
      ⟨_, exec_channelInitialisation_fitted hch hnew hrail hstage hpower hfit, _, State.raiseChannel_inited _ _, State.raiseChannel_wp _ _, rfl⟩⟩,
    fun huse hfail => ⟨exec_statusPoll_ready huse hfail, exec_statusPoll_busy huse hfail⟩, exec_operationTimeout_first, exec_operationTimeout_second,
    exec_operationTimeout_resetFails, fun huse hfail hfirst hagain _ hop => hop ▸ exec_operationTimeout_read huse hfail hfirst hagain,
    exec_retrainInterval_postponed,
    fun htrained hfail hpower hidle hungated => ⟨exec_retrainInterval_passes htrained hfail hpower hidle hungated,
      exec_retrainInterval_full htrained hfail hpower hidle hungated, exec_retrainInterval_fails htrained hfail hpower hidle hungated⟩⟩

end Sys2Proof.Machine
end

section
/-!
Channel sequencers: what the row of each of their commands answers, and O42, which collects these equations.
-/
namespace Sys2Proof.Machine
open Sys2Proof

section Rows
variable {s : State} {n i : Nat}

/-! Submission and completion records (R250, R253, R270) -/

/-- A write of all of SUBMIT leaves nothing of the bytes that stood there. -/
theorem submitBytes_whole {data : List Byte} (hlen : data.length = 32) (old : List Byte) :
    ((List.range 32).map fun i => if 0 ≤ i && i < 0 + data.length then data.getD (i - 0) 0 else old.getD i 0) = data := by
  refine List.ext_getElem (by simp [hlen]) fun k _ hk => ?_
  have hbyte : k < 32 := hlen ▸ hk
  simp [hlen, hbyte]

/-- A write of a whole record includes byte 0x11F, so the record is queued, or dropped where 64 wait. -/
theorem exec_sequencerSubmit_whole {data : List Byte} {handles : List Nat} (hn : n < 34) (hlen : data.length = 32) :
    exec (.sequencerSubmit n 0 data handles) s = .next (s.modSeq n fun q =>
      if q.queue.length ≥ 64 then { q with submit := data, drop := true }
      else { q with
        submit := data, queue := q.queue ++ [opOfBytes data], blists := tput q.blists (opOfBytes data).blist.toNat (handles.take 64) }) := by
  have hfits : ¬ (n ≥ 34 || 0 + data.length > 32) = true := by simp [hlen, hn]
  have hlast : ¬ (0 + data.length < 32 || data.isEmpty) = true := by
    simp [hlen, List.ne_nil_of_length_eq_add_one hlen]
  refine (if_neg hfits).trans ?_
  simp only [submitBytes_whole hlen, if_neg hlast]

theorem exec_completionRecordRead_empty {last : Bool} (hcq : (s.seq n).cq = []) :
    exec (.completionRecordRead n last) s = .next (s.send (.answer 0)) := by
  change execCompletionRecordRead n last s = _
  simp only [execCompletionRecordRead, hcq]

theorem exec_completionRecordRead_oldest {r : CplRec} {rs : List CplRec} (hcq : (s.seq n).cq = r :: rs) :
    exec (.completionRecordRead n true) s = .next ((s.modSeq n fun q => { q with cq := rs }).send (.answer r.value)) := by
  change execCompletionRecordRead n true s = _
  simp only [execCompletionRecordRead, hcq, if_true]

/-! HOLD and MCLR (R269, R270) -/

theorem exec_sequencerHold_set (hn : n < 34) :
    exec (.sequencerHold n) s = .next (s.modSeq n fun q => ({ q with hold := true }).restate) := if_neg (Nat.not_le.mpr hn)

theorem exec_sequencerHoldRelease_cleared (hn : n < 34) :
    exec (.sequencerHoldRelease n) s = .next (s.modSeq n fun q => ({ q with hold := false }).restate) := if_neg (Nat.not_le.mpr hn)

theorem exec_machineCheckClear_mcheck (hstate : (s.seq n).state = .mcheck) : exec (.machineCheckClear n) s =
    .next (s.modSeq n fun q => { q with state := .loading, maddr := 0, mkind := 0, mgroup := 0 }) := if_pos hstate

/-! Dispatch (R239, R251, R260, R261) -/

section Dispatch
variable {o : OpRec} (hlive : (s.seq n).live = true) (hclocked : (decide (n < 32) && s.pwr.gated.contains (5 + n / 4)) = false)
include hlive hclocked

/-- A loaded sequencer whose clock runs dispatches where HOLD is 0 or it is in power-loss mode. -/
theorem seq_dispatches (hgo : (s.seq n).hold = false ∨ (s.seq n).ploss = true) :
    ¬ (!(s.seq n).live || ((s.seq n).hold && !(s.seq n).ploss) || (decide (n < 32) && s.pwr.gated.contains (5 + n / 4))) = true := by
  rw [hlive, hclocked]
  rcases hgo with h | h <;> simp [h]

theorem exec_operationDispatch_abandons {parity : Bool} (hploss : (s.seq n).ploss = true) (hop : ((s.seq n).queue.find? fun o => !o.pls) = some o) :
    exec (.operationDispatch n parity) s =
      .next (s.modSeq n fun q => { q with queue := q.queue.erase o, cq := q.cq ++ [o.ended .abandoned] }) := by
  refine (if_neg (seq_dispatches hlive hclocked (.inr hploss))).trans ?_
  simp only [hploss, if_true, hop]

section Loads
variable (hhold : (s.seq n).hold = false) (hploss : (s.seq n).ploss = false)
  (hop : ((s.seq n).queue.find? fun o => !(s.seq n).dieBusy o.die.toNat) = some o) (hctx : (s.seq n).freeCtx = some i)
include hhold hploss hop hctx

/-- The oldest operation of an idle die leaves the queue for a free context, or ends where its entry is not valid; a parity error of the entry is a
machine check. -/
theorem exec_operationDispatch_oldest {parity : Bool} :
    let e := tgetD (s.seq n).disp o.opcode.toNat 0
    exec (.operationDispatch n parity) s = .next (
      if parity then s.machineCheck n o.opcode.toNat 1 0
      else s.modSeq n fun q =>
        if entValid e then { q with queue := q.queue.erase o, ctxs := tput q.ctxs i (MCtx.load o e s.now) }.restate
        else { q with queue := q.queue.erase o, cq := q.cq ++ [o.ended .unsupported] }) := by
  refine (if_neg (seq_dispatches hlive hclocked (.inl hhold))).trans ?_
  simp only [hploss, Bool.false_eq_true, if_false, hop, hctx, apply_ite Host.Outcome.next]

theorem exec_operationDispatch_parity : exec (.operationDispatch n true) s = .next (s.machineCheck n o.opcode.toNat 1 0) :=
  exec_operationDispatch_oldest hlive hclocked hhold hploss hop hctx

theorem exec_operationDispatch_loads (hvalid : entValid (tgetD (s.seq n).disp o.opcode.toNat 0) = true) :
    exec (.operationDispatch n false) s = .next (s.modSeq n fun q =>
      { q with queue := q.queue.erase o, ctxs := tput q.ctxs i (MCtx.load o (tgetD (s.seq n).disp o.opcode.toNat 0) s.now) }.restate) := by
  rw [exec_operationDispatch_oldest hlive hclocked hhold hploss hop hctx]
  simp only [hvalid, Bool.false_eq_true, if_false, if_true]

theorem exec_operationDispatch_unsupported (hinvalid : entValid (tgetD (s.seq n).disp o.opcode.toNat 0) = false) :
    exec (.operationDispatch n false) s =
      .next (s.modSeq n fun q => { q with queue := q.queue.erase o, cq := q.cq ++ [o.ended .unsupported] }) := by
  rw [exec_operationDispatch_oldest hlive hclocked hhold hploss hop hctx]
  simp only [hinvalid, Bool.false_eq_true, if_false]

end Loads
end Dispatch

/-! Timers of a context (R244, R245, R257) -/

theorem exec_watchdogTrap_active {c : MCtx} (hctx : tget (s.seq n).ctxs i = some c) :
    exec (.watchdogTrap n i) s = .next ((s.reach (c.wdStart + s.opLimit c.cls.toNat)).modSeq n fun q => { q with
      pend := q.pend.filter (· != (.watchdog, i)) ++ [(.watchdog, i)], ctxs := tupd q.ctxs i fun c => { c with parked := false } }) := by
  change execWatchdogTrap n i s = _
  simp only [execWatchdogTrap, hctx]

/-! Words (R242 to R244, R257, R260) -/

/-- The word that a context fetches: the fill word where the loader wrote no other (R242). -/
def SeqSt.fetched (q : SeqSt) (i : Nat) : BitVec 96 := tgetD q.store (tgetD q.ctxs i {}).upc.toNat fillWord

/-- That word stands in the customer area, which a disk formatter's sequencer does not have (R238, R241). -/
def SeqSt.custWord (q : SeqSt) (n i : Nat) : Bool := decide (n < 32) && decide (0xC00 ≤ (tgetD q.ctxs i {}).upc.toNat)

section Words
variable {par : Nat} {status cwfail maxbits : Byte} {strobe lost : Bool} (hlive : (s.seq n).live = true) (hpick : (s.seq n).pick = some i)
  (hframe : (s.seq n).frame = none) (hdue : (s.seq n).dueCause i = none)
include hlive hpick hframe hdue

/-- Outside a handler and with no cause pending, the picked context runs its word, unless its fetch is a machine check or a check of the word
before its effect is a trap. -/
theorem exec_microwordExecute_fetches :
    let c := tgetD (s.seq n).ctxs i {}
    let w := (s.seq n).fetched i
    let cust := (s.seq n).custWord n i
    let on := s.modSeq n fun q => { q with cur := some i }
    exec (.microwordExecute n par status strobe lost cwfail maxbits) s = .next (
      if par ≠ 0 then on.machineCheck n c.upc.toNat 0 par
      else if illegalWord w cust false then on.takeTrap n i .illegal c.upc.toNat 0
      else if cust && privWord w c.cls.toNat c.upc.toNat then on.takeTrap n i .priv c.upc.toNat 0
      else if (mwSeq w = 4 && c.stack.length ≥ 4) || (mwSeq w = 5 && c.stack.isEmpty) then on.takeTrap n i .stack c.upc.toNat 0
      else on.runWord n i w { status := status, strobe := strobe, lost := lost, cwfail := cwfail, maxbits := maxbits }) := by
  refine (if_neg (by simp [hlive])).trans ?_
  simp only [hpick, hframe, hdue, apply_ite Host.Outcome.next]
  rfl

theorem exec_microwordExecute_parity (hpar : par ≠ 0) : exec (.microwordExecute n par status strobe lost cwfail maxbits) s =
    .next ((s.modSeq n fun q => { q with cur := some i }).machineCheck n (tgetD (s.seq n).ctxs i {}).upc.toNat 0 par) :=
  (exec_microwordExecute_fetches hlive hpick hframe hdue).trans (congrArg Host.Outcome.next (if_pos hpar))

theorem exec_microwordExecute_illegal (hillegal : illegalWord ((s.seq n).fetched i) ((s.seq n).custWord n i) false = true) :
    exec (.microwordExecute n 0 status strobe lost cwfail maxbits) s =
      .next ((s.modSeq n fun q => { q with cur := some i }).takeTrap n i .illegal (tgetD (s.seq n).ctxs i {}).upc.toNat 0) :=
  (exec_microwordExecute_fetches hlive hpick hframe hdue).trans (congrArg Host.Outcome.next (if_pos hillegal))

theorem exec_microwordExecute_runs (hlegal : illegalWord ((s.seq n).fetched i) ((s.seq n).custWord n i) false = false)
    (hpriv : ((s.seq n).custWord n i &&
      privWord ((s.seq n).fetched i) (tgetD (s.seq n).ctxs i {}).cls.toNat (tgetD (s.seq n).ctxs i {}).upc.toNat) = false)
    (hstack : ((mwSeq ((s.seq n).fetched i) = 4 && (tgetD (s.seq n).ctxs i {}).stack.length ≥ 4) ||
      (mwSeq ((s.seq n).fetched i) = 5 && (tgetD (s.seq n).ctxs i {}).stack.isEmpty)) = false) :
    exec (.microwordExecute n 0 status strobe lost cwfail maxbits) s = .next ((s.modSeq n fun q => { q with cur := some i }).runWord n i
      ((s.seq n).fetched i) { status := status, strobe := strobe, lost := lost, cwfail := cwfail, maxbits := maxbits }) := by
  rw [exec_microwordExecute_fetches hlive hpick hframe hdue]
  simp only [hlegal, hpriv, hstack, ne_eq, not_true_eq_false, Bool.false_eq_true, if_false]

end Words
end Rows

/-- Settles O42, from the row of each command of a sequencer. A watchdog moves the clock to the limit of its operation (assumption log 3). That
a customer word at 0xFFF which goes on to the next word raises PRIV, and so is not legal, is the model's reading (log 81). -/
theorem sequencersRun : Obligations.SequencersRun := by
  intro s n i par data handles o c status cwfail maxbits strobe lost q e w on x cust legal
  refine ⟨exec_sequencerSubmit_whole, ?_, fun hn => ⟨exec_sequencerHold_set hn, exec_sequencerHoldRelease_cleared hn⟩,
    exec_machineCheckClear_mcheck, fun hlive hhold hclocked hploss hop hctx => ?_,
    fun hlive hploss hclocked hop => exec_operationDispatch_abandons hlive hclocked hploss hop, exec_watchdogTrap_active, rfl,
    fun hlive hpick hframe hdue => ⟨exec_microwordExecute_parity hlive hpick hframe hdue, exec_microwordExecute_illegal hlive hpick hframe hdue,
      fun ⟨hlegal, hpriv, hstack⟩ => exec_microwordExecute_runs hlive hpick hframe hdue hlegal hpriv hstack⟩⟩
  · split
    next hcq => exact exec_completionRecordRead_empty hcq
    next hcq => exact exec_completionRecordRead_oldest hcq
  · exact ⟨exec_operationDispatch_parity hlive hclocked hhold hploss hop hctx,
      exec_operationDispatch_loads hlive hclocked hhold hploss hop hctx,
      exec_operationDispatch_unsupported hlive hclocked hhold hploss hop hctx⟩

end Sys2Proof.Machine
end

section
/-!
Namespaces, Format NVM and Sanitize: what the row of each answers while its command is held and its turn has come, and O48, which collects these
equations.
-/
namespace Sys2Proof.Machine
open Sys2Proof

section Rows
variable {s : State} {st : Nat} {c : Ctx}

/-! Namespace Management (R313, R496) -/

/-- The lowest free namespace identifier, less 1. -/
def State.freeNs (s : State) : Option Nat := (List.range 64).find? fun i => !thas s.nvme.nss (i + 1)

/-- The entry of a created namespace: not attached, with the key that comes next. -/
def State.newNs (s : State) (nsze flbas i : Nat) : NsEntry := { nsze := nsze, flbas := flbas, keyGen := (s.newKey (i + 1)).1 }

/-- The namespace `i + 1` with its new key, journalled with NS_RESET. -/
def State.createNs (s : State) (nsze flbas i : Nat) : State :=
  let e := s.newNs nsze flbas i
  let made := (s.newKey (i + 1)).2.modNvme fun n => { n with nss := tput n.nss (i + 1) e }
  (made.journal (i + 1) 0 (.side (.ns (some e)))).journal (i + 1) 0 .nsReset

section Create
variable {nsze ncap flbas : Nat} (h : Held s st 0x0D c) (hsel : bits (c.dw 10) 0 4 = 0) (hnew : c.jwait = none)
include h hsel hnew

/-- A create that has not acted yet: its fields are judged first, then the identifiers, then the capacity. -/
theorem exec_namespaceCreate_held : exec (.namespaceCreate st nsze ncap flbas) s = .next (
    if 1 < flbas ∨ nsze ≠ ncap ∨ nsze = 0 then s.complete st scInvalidField 0
    else s.freeNs.elim (s.complete st 0x116 0) fun i =>
      if s.nsCap < s.nsTotal + nsze * lbaBytes flbas then s.complete st 0x115 0
      else (s.createNs nsze flbas i).awaitJournal st (BitVec.ofNat 32 (i + 1))) := by
  have hturn : ¬ (bits (c.dw 10) 0 4 ≠ 0 || c.jwait.isSome) = true := by simp [hsel, hnew]
  refine (onAdmin_held h).trans (congrArg Host.Outcome.next ((if_neg hturn).trans ?_))
  simp only [Bool.or_eq_true, decide_eq_true_eq, gt_iff_lt, or_assoc]
  rw [← State.freeNs]
  cases s.freeNs
  · rfl
  · rfl

theorem exec_namespaceCreate_badFields (hbad : 1 < flbas ∨ nsze ≠ ncap ∨ nsze = 0) :
    exec (.namespaceCreate st nsze ncap flbas) s = .next (s.complete st scInvalidField 0) := by
  rw [exec_namespaceCreate_held h hsel hnew, if_pos hbad]

section GoodFields
variable (hflbas : flbas ≤ 1) (hsize : nsze = ncap) (hnonzero : nsze ≠ 0)
include hflbas hsize hnonzero

theorem exec_namespaceCreate_goodFields : exec (.namespaceCreate st nsze ncap flbas) s = .next (
    s.freeNs.elim (s.complete st 0x116 0) fun i =>
      if s.nsCap < s.nsTotal + nsze * lbaBytes flbas then s.complete st 0x115 0
      else (s.createNs nsze flbas i).awaitJournal st (BitVec.ofNat 32 (i + 1))) := by
  rw [exec_namespaceCreate_held h hsel hnew, if_neg (by omega)]

theorem exec_namespaceCreate_allInUse (hnone : s.freeNs = none) :
    exec (.namespaceCreate st nsze ncap flbas) s = .next (s.complete st 0x116 0) := by
  rw [exec_namespaceCreate_goodFields h hsel hnew hflbas hsize hnonzero, hnone, Option.elim_none]

theorem exec_namespaceCreate_tooLarge {i : Nat} (hfree : s.freeNs = some i) (hcap : s.nsCap < s.nsTotal + nsze * lbaBytes flbas) :
    exec (.namespaceCreate st nsze ncap flbas) s = .next (s.complete st 0x115 0) := by
  rw [exec_namespaceCreate_goodFields h hsel hnew hflbas hsize hnonzero, hfree, Option.elim_some, if_pos hcap]

theorem exec_namespaceCreate_created {i : Nat} (hfree : s.freeNs = some i) (hcap : s.nsTotal + nsze * lbaBytes flbas ≤ s.nsCap) :
    exec (.namespaceCreate st nsze ncap flbas) s = .next ((s.createNs nsze flbas i).awaitJournal st (BitVec.ofNat 32 (i + 1))) := by
  rw [exec_namespaceCreate_goodFields h hsel hnew hflbas hsize hnonzero, hfree, Option.elim_some, if_neg (Nat.not_lt.mpr hcap)]

end GoodFields
end Create

/-- The stream formats bound to a namespace become empty written records, each journalled (R189). -/
def State.dropFormats (s : State) (nsid : Nat) : State :=
  let cleared := s.modCoder fun k => { k with
    formats := k.formats.map fun e => if e.2.valid && e.2.nsid.toNat = nsid then (e.1, { written := true }) else e }
  (s.coder.formats.filter fun e => e.2.valid && e.2.nsid.toNat == nsid).foldl (fun s e => s.journal 1 0 (.side (.format e.1 { written := true }))) cleared

/-- The placement hints on a namespace go, and the list that is left is journalled (R57). -/
def State.dropHints (s : State) (nsid : Nat) : State :=
  let kept := s.modPlace fun p => { p with hints := p.hints.filter fun h => h.nsid != nsid }
  kept.journal 1 0 (.side (.hints kept.place.hints))

/-- A namespace is gone: its contents, its entry, its keys, its stream formats and its hints (R496). -/
def State.deleteNs (s : State) (nsid : Nat) : State :=
  let gone := ((s.resetNs nsid).modNvme fun n => { n with nss := tdel n.nss nsid }).modFlash fun f => { f with keys := tdel f.keys (nsid - 1) }
  (((gone.dropFormats nsid).dropHints nsid).journal nsid 0 (.side (.ns none))).nsChanged nsid

/-- A delete whose turn has come: it acts on the one namespace that NSID names. -/
theorem exec_namespaceDelete_turn (h : Held s st 0x0D c) (hsel : bits (c.dw 10) 0 4 = 1) (hclear : s.barrierClear c = true)
    (hnew : c.jwait = none) : exec (.namespaceDelete st) s = .next (
    if thas s.nvme.nss c.nsid = false then s.complete st scInvalidNs 0 else (s.deleteNs c.nsid).awaitJournal st 0) := by
  have hturn : ¬ (bits (c.dw 10) 0 4 ≠ 1 || !s.barrierClear c || c.jwait.isSome) = true := by simp [hsel, hclear, hnew]
  refine (onAdmin_held h).trans (congrArg Host.Outcome.next ((if_neg hturn).trans ?_))
  simp only [Bool.not_eq_true']
  rfl

/-! Namespace Attachment (R496) -/

/-- The entry of a namespace with its attachment set, journalled, and the change reported (R515). -/
def State.setAttached (s : State) (nsid : Nat) (n : NsEntry) (a : Bool) : State :=
  ((s.modNvme fun x => { x with nss := tput x.nss nsid { n with attached := a } }).journal nsid 0
    (.side (.ns (some { n with attached := a })))).nsChanged nsid

section Attach
variable {ctrls : List Nat} {n : NsEntry} (h : Held s st 0x15 c) (hsel : bits (c.dw 10) 0 4 = 0)
include h hsel

theorem exec_namespaceAttach_absent (hns : s.ns? c.nsid = none) : exec (.namespaceAttach st ctrls) s = .next (s.complete st scInvalidNs 0) := by
  refine (onAdmin_held h).trans (congrArg Host.Outcome.next ((if_neg (not_not_intro hsel)).trans ?_))
  rw [hns]

theorem exec_namespaceAttach_present (hns : s.ns? c.nsid = some n) : exec (.namespaceAttach st ctrls) s = .next (
    if ctrls ≠ [0] then s.complete st 0x11C 0
    else if n.attached = true then s.complete st 0x118 0
    else (s.setAttached c.nsid n true).complete st 0 0) := by
  refine (onAdmin_held h).trans (congrArg Host.Outcome.next ((if_neg (not_not_intro hsel)).trans ?_))
  rw [hns]
  rfl

end Attach

theorem exec_namespaceDetach_present {ctrls : List Nat} {n : NsEntry} (h : Held s st 0x15 c) (hsel : bits (c.dw 10) 0 4 = 1)
    (hclear : s.barrierClear c = true) (hns : s.ns? c.nsid = some n) : exec (.namespaceDetach st ctrls) s = .next (
      if ctrls ≠ [0] then s.complete st 0x11C 0
      else if n.attached = false then s.complete st 0x11A 0
      else ((s.setAttached c.nsid n false).complete st 0 0).settle) := by
  have hturn : ¬ (bits (c.dw 10) 0 4 ≠ 1 || !s.barrierClear c) = true := by simp [hsel, hclear]
  refine (onAdmin_held h).trans (congrArg Host.Outcome.next ((if_neg hturn).trans ?_))
  simp only [hns, Bool.not_eq_true']
  rfl

/-! Format NVM (R315, R497) -/

section Format
variable {n : NsEntry} (hclear : s.barrierClear c = true) (hnew : c.jwait = none) (hses : bits (c.dw 10) 9 3 ≠ 2)
include hclear hnew hses

theorem formatNvm_turn : ¬ (bits (c.dw 10) 9 3 = 2 || !s.barrierClear c || c.jwait.isSome) = true := by simp [hses, hclear, hnew]

variable (h : Held s st 0x80 c)
include h

theorem exec_formatNvm_refused (hbad : formatStatus (c.dw 10) ≠ 0) :
    exec (.formatNvm st) s = .next (s.complete st (formatStatus (c.dw 10)) 0) :=
  (onAdmin_held h).trans (congrArg Host.Outcome.next ((if_neg (formatNvm_turn hclear hnew hses)).trans (if_pos hbad)))

theorem exec_formatNvm_formats (hgood : formatStatus (c.dw 10) = 0) (hns : s.ns? c.nsid = some n) :
    exec (.formatNvm st) s = .next ((s.formatNs c.nsid n (bits (c.dw 10) 0 4)).awaitJournal st 0) := by
  refine (onAdmin_held h).trans (congrArg Host.Outcome.next
    ((if_neg (formatNvm_turn hclear hnew hses)).trans ((if_neg (not_not_intro hgood)).trans ?_)))
  rw [hns]

end Format

/-- With setting 2 the namespace gets a new key, and all that holds the old one is gone before the command completes. -/
theorem exec_formatNvmCryptoErase_formats {n : NsEntry} (h : Held s st 0x80 c) (hclear : s.barrierClear c = true)
    (hses : bits (c.dw 10) 9 3 = 2) (hgood : formatStatus (c.dw 10) = 0) (hns : s.ns? c.nsid = some n) :
    exec (.formatNvmCryptoErase st) s =
      .next ((((s.formatNs c.nsid n (bits (c.dw 10) 0 4)).drainJournal.cryptoErase c.nsid).complete st 0 0).settle) := by
  have hturn : ¬ (bits (c.dw 10) 9 3 ≠ 2 || !s.barrierClear c) = true := by simp [hses, hclear]
  refine (onAdmin_held h).trans (congrArg Host.Outcome.next ((if_neg hturn).trans ((if_neg (not_not_intro hgood)).trans ?_)))
  rw [hns]

/-! Sanitize (R315, R316, R356, R498) -/

/-- A block erase has started: its command is completed, every namespace is reset, and no stack of the Rack tier is open. -/
def State.startBlockErase (s : State) (st : Nat) : State :=
  [0, 1].foldl (fun s a => if (s.act a).openStack.isSome then s.dropOpenStack a 0 else s)
    ((s.modNvme fun n => { n with sanitize := 2, sanAction := 2 }).complete st 0 0).resetAll.drainJournal

/-- Every span that holds data is released for its erase, and nothing fills, kneads, evacuates or copies any more. -/
def State.releaseSpans (s : State) : State :=
  (s.modFlash fun f => { f with
    openSpan := [], kneading := [], kneadSpans := []
    spans := f.spans.map fun e =>
      if e.2.phase = .opened || e.2.phase = .closed || e.2.phase = .releasing then (e.1, { e.2 with phase := .released, batches := [] }) else e }).modPlace
  fun p => { p with evacuating := [], copies := [] }

section Sanitize

/-- A sanitize action acts when it is the one named and its barrier is clear. -/
theorem sanitize_turn {act : Nat} (hact : bits (c.dw 10) 0 3 = act) (hclear : s.barrierClear c = true) :
    ¬ (bits (c.dw 10) 0 3 ≠ act || !s.barrierClear c) = true := by simp [hact, hclear]

variable (h : Held s st 0x84 c) (hclear : s.barrierClear c = true)
include h hclear

theorem exec_sanitizeExitFailure_turn (hact : bits (c.dw 10) 0 3 = 1) :
    exec (.sanitizeExitFailure st) s = .next (((s.modNvme fun n => { n with sanFailed := false }).complete st 0 0).settle) :=
  (onAdmin_held h).trans (congrArg Host.Outcome.next (if_neg (sanitize_turn hact hclear)))

theorem exec_sanitizeBlockErase_turn (hact : bits (c.dw 10) 0 3 = 2) :
    exec (.sanitizeBlockErase st) s = .next ((s.startBlockErase st).releaseSpans.drainJournal.sanitizeCheck.settle) :=
  (onAdmin_held h).trans (congrArg Host.Outcome.next (if_neg (sanitize_turn hact hclear)))

theorem exec_sanitizeCryptoErase_turn (hact : bits (c.dw 10) 0 3 = 4) :
    let done := s.complete st 0 0
    exec (.sanitizeCryptoErase st) s = .next ((((done.nvme.nss.map (·.1)).foldl (fun s n => s.cryptoErase n) done.resetAll.drainJournal).modNvme fun n =>
      { n with sanitize := 1, sanAction := 4, sanFailed := false }).raiseEvent 2 3 0x81).settle :=
  (onAdmin_held h).trans (congrArg Host.Outcome.next (if_neg (sanitize_turn hact hclear)))

end Sanitize
end Rows

/-- Settles O48, command by command from the row of each. The checks of a create are taken in the order of R496, so 0x116 precedes 0x115 (assumption log
30); a delete acts on one namespace only (log 16); 0x11C is a presumed value (log 15); a crypto erase runs within its command (log 20). -/
theorem namespacesFormatsAndSanitize : Obligations.NamespacesFormatsAndSanitize := by
  intro s u st nsze ncap flbas i g ctrls c n free e made sel ses act put gone coded noted hinted sane dropped
  refine ⟨fun h hsel hnew => ⟨exec_namespaceCreate_badFields h hsel hnew, fun hflbas hsize hnonzero =>
      ⟨exec_namespaceCreate_allInUse h hsel hnew hflbas hsize hnonzero, exec_namespaceCreate_tooLarge h hsel hnew hflbas hsize hnonzero,
        fun hfree hcap hkey => ?_⟩⟩,
    fun h hsel hclear hnew => ⟨fun habsent => ?_, fun hpresent => ?_⟩,
    fun h => ⟨fun hsel => ⟨exec_namespaceAttach_absent h hsel, fun hns hother => ?_, fun hns hattached => ?_, fun hns hdetached => ?_⟩,
      fun hsel hclear => ⟨fun hns hdetached => ?_, fun hns hattached => ?_⟩⟩,
    fun h hclear hnew => ⟨fun hses => exec_formatNvm_refused hclear hnew hses h, fun hses => exec_formatNvm_formats hclear hnew hses h,
      exec_formatNvmCryptoErase_formats h hclear⟩,
    fun h hclear => ⟨exec_sanitizeExitFailure_turn h hclear, exec_sanitizeBlockErase_turn h hclear, exec_sanitizeCryptoErase_turn h hclear⟩⟩
  · obtain ⟨rfl, rfl⟩ := Prod.mk.inj hkey
    exact exec_namespaceCreate_created h hsel hnew hflbas hsize hnonzero hfree hcap
  · rw [exec_namespaceDelete_turn h hsel hclear hnew, if_pos habsent]
  · rw [exec_namespaceDelete_turn h hsel hclear hnew, if_neg (ne_false_of_eq_true hpresent)]; rfl
  · rw [exec_namespaceAttach_present h hsel hns, if_pos hother]
  · rw [exec_namespaceAttach_present h hsel hns, if_neg (not_not_intro rfl), if_pos hattached]
  · rw [exec_namespaceAttach_present h hsel hns, if_neg (not_not_intro rfl), if_neg (ne_true_of_eq_false hdetached)]; rfl
  · rw [exec_namespaceDetach_present h hsel hclear hns, if_neg (not_not_intro rfl), if_pos hdetached]
  · rw [exec_namespaceDetach_present h hsel hclear hns, if_neg (not_not_intro rfl), if_neg (ne_false_of_eq_true hattached)]; rfl

end Sys2Proof.Machine
end

section
/-!
Device Self-test and the Streams directive: what the row of each answers while its command is held, and O49, which collects these equations.
-/
namespace Sys2Proof.Machine
open Sys2Proof

section Rows
variable {s : State} {st : Nat} {c : Ctx}

/-! Device Self-test (R307, R346, R493) -/

section SelfTest
variable (h : Held s st 0x14 c) (result : Nat)
include h

theorem exec_deviceSelfTestShort_aborts (hstc : bits (c.dw 10) 0 4 = 0xF) : exec (.deviceSelfTestShort st result) s = .next (s.complete st 0 0) :=
  (onAdmin_held h).trans (congrArg Host.Outcome.next (if_pos hstc))

theorem exec_deviceSelfTestShort_tests (hstc : bits (c.dw 10) 0 4 = 1) :
    exec (.deviceSelfTestShort st result) s = .next ((s.complete st 0 0).testDone 1 (result % 16)) := by
  have hrow : exec (.deviceSelfTestShort st result) s = _ := onAdmin_held h
  rw [hrow, if_neg (by omega), if_pos hstc]

end SelfTest

/-- A scrub pass over the Proof and Bake spans: every closed span is stamped with the clock, and none is due early (R307). -/
def State.scrubSpans (s : State) : State := s.modFlash fun f => { f with
  spans := f.spans.map fun e => if e.2.phase = .closed then (e.1, { e.2 with scrubbed := s.now, scrubSoon := false }) else e }

/-- A scrub pass over the Rack stacks: every closed stack is stamped with the clock while the spindle turns (R346). -/
def State.scrubStacks (s : State) : State := s.modRack fun r => { r with
  stackTab := r.stackTab.map fun e => if e.2.phase = .closed && r.spin = .ready then (e.1, { e.2 with scrubbed := s.now }) else e }

/-- The units that a scrub pass could not recover, of chunks that are still mapped, enter the deferred-error flow with cause 7. -/
def State.loseScrubbed (s : State) (lost : List (Nat × Nat × Nat)) : State := lost.foldl (fun s x =>
  if (s.desc x.1 x.2.1).state = .mapped then s.loseSource x.1 x.2.1 x.2.2 7 (s.payloadLoc (s.desc x.1 x.2.1)) else s) s

theorem exec_deviceSelfTestExtended_held (h : Held s st 0x14 c) (result : Nat) (lost : List (Nat × Nat × Nat)) (hstc : bits (c.dw 10) 0 4 = 2) :
    exec (.deviceSelfTestExtended st result lost) s =
      .next (((s.complete st 0 0).testDone 2 (result % 16)).scrubSpans.scrubStacks.loseScrubbed lost) :=
  (onAdmin_held h).trans (congrArg Host.Outcome.next (if_neg (not_not_intro hstc)))

/-! Directive Receive (R499) -/

/-- The identifiers that a namespace has open. -/
def State.openIds (s : State) (nsid : Nat) : List Nat :=
  s.place.streams.filterMap fun e => match e.2.bind with | some (k, i) => if k = nsid then some i else none | none => none

/-- The parameters of the Streams directive for a namespace. -/
def State.streamParams (s : State) (nsid : Nat) : List (Nat × Nat × Nat) :=
  [(0, 2, 4096), (2, 2, 4096), (4, 2, 0), (16, 4, if ((s.ns? nsid).getD {}).flbas = 1 then 256 else 32), (20, 2, 1),
    (22, 2, tgetD s.place.granted nsid 0), (24, 2, (s.openIds nsid).length)]

/-- The status page of the Streams directive: how many identifiers are open, and then each. -/
def statusPage (ids : List Nat) : List (Nat × Nat × Nat) := (0, 2, ids.length) :: ids.zipIdx.map fun (x, i) => (2 + 2 * i, 2, x)

section Receive
variable (h : Held s st 0x1A c)
include h

section Allocate
variable (hdir : c.dir = (1, 3))
include hdir

theorem exec_streamsAllocateResources_inactive (hns : s.nsActive c.nsid = false) :
    exec (.streamsAllocateResources st) s = .next (s.complete st scInvalidNs 0) :=
  (onAdmin_held h).trans (congrArg Host.Outcome.next ((if_neg (not_not_intro hdir)).trans (if_pos (by simp [hns]))))

theorem exec_streamsAllocateResources_grants (hns : s.nsActive c.nsid = true) :
    let granted := min (bits (c.dw 12) 0 16) (s.freeStreams c.nsid)
    exec (.streamsAllocateResources st) s =
      .next ((s.modPlace fun p => { p with granted := tput p.granted c.nsid granted }).complete st 0 (BitVec.ofNat 32 granted)) :=
  (onAdmin_held h).trans (congrArg Host.Outcome.next ((if_neg (not_not_intro hdir)).trans (if_neg (by simp [hns]))))

end Allocate

/-- A Directive Receive that is no allocation: the Identify directive answers for every namespace, the Streams directive for an active one. -/
theorem exec_streamsReturnParameters_held (hdir : c.dir ≠ (1, 3)) : exec (.streamsReturnParameters st) s = .next (
    if c.dir = (0, 1) then (s.giveData c 4096 [(0, 1, 3), (32, 1, 3)]).complete st 0 0
    else if s.nsActive c.nsid = false then s.complete st scInvalidNs 0
    else if c.dir = (1, 2) then (s.giveData c (2 + 2 * (s.openIds c.nsid).length) (statusPage (s.openIds c.nsid))).complete st 0 0
    else (s.giveData c 32 (s.streamParams c.nsid)).complete st 0 0) := by
  refine (onAdmin_held h).trans (congrArg Host.Outcome.next ((if_neg hdir).trans ?_))
  simp only [Bool.not_eq_true']
  rfl

theorem exec_streamsReturnParameters_identify (hdir : c.dir = (0, 1)) :
    exec (.streamsReturnParameters st) s = .next ((s.giveData c 4096 [(0, 1, 3), (32, 1, 3)]).complete st 0 0) := by
  rw [exec_streamsReturnParameters_held h (by simp [hdir]), if_pos hdir]

section Active
variable (hns : s.nsActive c.nsid = true)
include hns

theorem exec_streamsReturnParameters_parameters (hdir : c.dir = (1, 1)) :
    exec (.streamsReturnParameters st) s = .next ((s.giveData c 32 (s.streamParams c.nsid)).complete st 0 0) := by
  rw [exec_streamsReturnParameters_held h (by simp [hdir]), if_neg (by simp [hdir]), if_neg (ne_false_of_eq_true hns), if_neg (by simp [hdir])]

theorem exec_streamsReturnParameters_status (hdir : c.dir = (1, 2)) : exec (.streamsReturnParameters st) s =
    .next ((s.giveData c (2 + 2 * (s.openIds c.nsid).length) (statusPage (s.openIds c.nsid))).complete st 0 0) := by
  rw [exec_streamsReturnParameters_held h (by simp [hdir]), if_neg (by simp [hdir]), if_neg (ne_false_of_eq_true hns), if_pos hdir]

end Active
end Receive

/-! Directive Send (R499) -/

/-- A stream identifier of a namespace is bound to no record any more. -/
def State.closeStream (s : State) (nsid id : Nat) : State :=
  s.modPlace fun p => { p with streams := p.streams.filter fun e => e.2.bind != some (nsid, id) }

section Send
variable (h : Held s st 0x19 c)
include h

/-- A Directive Send: Enable of the Identify directive has no effect, and the Streams directive serves an active namespace. -/
theorem exec_streamsReleaseIdentifier_held : exec (.streamsReleaseIdentifier st) s = .next (
    if c.dir = (0, 1) then s.complete st 0 0
    else if s.nsActive c.nsid = false then s.complete st scInvalidNs 0
    else if c.dir = (1, 2) then (s.modPlace fun p => { p with granted := tdel p.granted c.nsid }).complete st 0 0
    else (s.closeStream c.nsid (bits (c.dw 11) 16 16)).complete st 0 0) := by
  refine (onAdmin_held h).trans (congrArg Host.Outcome.next ?_)
  simp only [Bool.not_eq_true']
  rfl

theorem exec_streamsReleaseIdentifier_enable (hdir : c.dir = (0, 1)) : exec (.streamsReleaseIdentifier st) s = .next (s.complete st 0 0) := by
  rw [exec_streamsReleaseIdentifier_held h, if_pos hdir]

theorem exec_streamsReleaseIdentifier_inactive (hdir : c.dir ≠ (0, 1)) (hns : s.nsActive c.nsid = false) :
    exec (.streamsReleaseIdentifier st) s = .next (s.complete st scInvalidNs 0) := by
  rw [exec_streamsReleaseIdentifier_held h, if_neg hdir, if_pos hns]

theorem exec_streamsReleaseIdentifier_closes (hdir : c.dir = (1, 1)) (hns : s.nsActive c.nsid = true) :
    exec (.streamsReleaseIdentifier st) s = .next ((s.closeStream c.nsid (bits (c.dw 11) 16 16)).complete st 0 0) := by
  rw [exec_streamsReleaseIdentifier_held h, if_neg (by simp [hdir]), if_neg (ne_false_of_eq_true hns), if_neg (by simp [hdir])]

theorem exec_streamsReleaseIdentifier_resources (hdir : c.dir = (1, 2)) (hns : s.nsActive c.nsid = true) :
    exec (.streamsReleaseIdentifier st) s = .next ((s.modPlace fun p => { p with granted := tdel p.granted c.nsid }).complete st 0 0) := by
  rw [exec_streamsReleaseIdentifier_held h, if_neg (by simp [hdir]), if_neg (ne_false_of_eq_true hns), if_pos hdir]

end Send
end Rows

/-- Settles O49, command by command from the row of each. A self-test runs within its command, so that an abort finds none (assumption log 22), and Enable of
the Identify directive has no effect (log 18). -/
theorem selfTestsAndStreamsAnswer : Obligations.SelfTestsAndStreamsAnswer := by
  intro s st result c stc free id ids tested scrub
  exact ⟨fun h => ⟨exec_deviceSelfTestShort_aborts h result, exec_deviceSelfTestShort_tests h result,
      fun hstc => ⟨_, exec_deviceSelfTestExtended_held h result [] hstc, rfl⟩⟩,
    fun h => ⟨exec_streamsAllocateResources_inactive h, exec_streamsAllocateResources_grants h, exec_streamsReturnParameters_identify h,
      fun hdir hns => exec_streamsReturnParameters_parameters h hns hdir, fun hdir hns => exec_streamsReturnParameters_status h hns hdir⟩,
    fun h => ⟨exec_streamsReleaseIdentifier_enable h, exec_streamsReleaseIdentifier_inactive h, exec_streamsReleaseIdentifier_closes h,
      exec_streamsReleaseIdentifier_resources h⟩⟩

end Sys2Proof.Machine
end

section
/-!
Spin states and root copies of the Rack tier: what the row of each answers, and O45, which collects these equations.
-/
namespace Sys2Proof.Machine
open Sys2Proof

section Rows
variable {s : State}

/-! Spin-up (R351, R352) -/

/-- The 15 s of a spin-up are over. -/
def State.spinupEnd (s : State) : State := s.reach (s.rack.spinupAt + 15 * sec)

/-- The loop of the spindle and that of an actuator have locked. -/
def State.loopLocked (s : State) (a : Nat) : Bool := s.servo.spindle.srvLock && (s.servo.acts.getD a {}).locked

/-- A spin-up in which no actuator locked: it is counted and noted, and the spindle goes down to wait for the next attempt. -/
def State.spinupFailed (s : State) : State :=
  ((s.modRack fun r => { r with attempts := r.attempts + 1, retryWait := true }).note 0x5003 0 0 [s.rack.attempts + 1]).spinDown false false

section Spinup
variable (hspin : s.rack.spin = .spinup)
include hspin

theorem exec_rackSpinupTimeout_bothLocked (h0 : s.spinupEnd.loopLocked 0 = true) (h1 : s.spinupEnd.loopLocked 1 = true) :
    exec .rackSpinupTimeout s = .next s.spinupEnd.rackReady :=
  (if_neg (not_not_intro hspin)).trans (if_pos (Bool.and_eq_true_iff.mpr ⟨h0, h1⟩))

theorem exec_rackSpinupTimeout_firstLocked (h0 : s.spinupEnd.loopLocked 0 = true) (h1 : s.spinupEnd.loopLocked 1 = false) :
    exec .rackSpinupTimeout s = .next (s.spinupEnd.rackReady.fenceActuator 1) :=
  (if_neg (not_not_intro hspin)).trans ((if_neg fun h => ne_true_of_eq_false h1 (Bool.and_eq_true_iff.mp h).2).trans (if_pos h0))

theorem exec_rackSpinupTimeout_secondLocked (h0 : s.spinupEnd.loopLocked 0 = false) (h1 : s.spinupEnd.loopLocked 1 = true) :
    exec .rackSpinupTimeout s = .next (s.spinupEnd.rackReady.fenceActuator 0) :=
  (if_neg (not_not_intro hspin)).trans ((if_neg fun h => ne_true_of_eq_false h0 (Bool.and_eq_true_iff.mp h).1).trans
    ((if_neg (ne_true_of_eq_false h0)).trans (if_pos h1)))

theorem exec_rackSpinupTimeout_noneLocked (h0 : s.spinupEnd.loopLocked 0 = false) (h1 : s.spinupEnd.loopLocked 1 = false) :
    exec .rackSpinupTimeout s = .next s.spinupEnd.spinupFailed :=
  (if_neg (not_not_intro hspin)).trans ((if_neg fun h => ne_true_of_eq_false h0 (Bool.and_eq_true_iff.mp h).1).trans
    ((if_neg (ne_true_of_eq_false h0)).trans (if_neg (ne_true_of_eq_false h1))))

end Spinup

/-- The 10 s wait that follows a failed spin-up is over. -/
def State.retryWaitEnd (s : State) : State := (s.reach (s.rack.spinupAt + 10 * sec)).modRack fun r => { r with retryWait := false }

section RetryWait
variable (hspin : s.rack.spin = .stopped) (hwait : s.rack.retryWait = true)
include hspin hwait

theorem spindle_retries : ¬ (s.rack.spin ≠ .stopped || !s.rack.retryWait) = true := by simp [hspin, hwait]

/-- With the attempts of key 0x0406 used up the tier has failed, and the reads that wait for it are refused. -/
theorem exec_spinupRetryWait_gives_up (hused : s.retryWaitEnd.key2 0x0406 ≤ s.retryWaitEnd.rack.attempts) : exec .spinupRetryWait s =
    .next (((s.retryWaitEnd.modRack fun r => { r with spin := .failed }).refuseRackJobs (fun _ => true) true).sanitizeCheck) :=
  (if_neg (spindle_retries hspin hwait)).trans (if_pos hused)

theorem exec_spinupRetryWait_retries (hleft : s.retryWaitEnd.rack.attempts < s.retryWaitEnd.key2 0x0406) :
    exec .spinupRetryWait s = .next s.retryWaitEnd.demandSpin :=
  (if_neg (spindle_retries hspin hwait)).trans (if_neg (Nat.not_le.mpr hleft))

end RetryWait

/-! Spin-down (R351, R353, R354) -/

theorem exec_rackStandbyTimeout_idle (hturns : s.rack.spin = .ready ∨ s.rack.spin = .spinup) (htime : s.standby ≠ 0) (hidle : s.rackWork = false) :
    exec .rackStandbyTimeout s = .next ((s.reach (s.rack.lastWork + s.standby * sec)).spinDown false false) :=
  if_pos (by simp [hturns, htime, hidle])

/-- The spin state that a spindle comes to rest in. -/
def State.restSpin (s : State) : Spin := if s.rack.lowv then .lowv else if s.rack.toReduced then .reduced else .stopped

/-- The spindle has come to rest: no spin-down goes on, and every actuator that is not fenced is parked. -/
def State.spindleRests (s : State) : State :=
  (s.modRack fun r => { r with spin := s.restSpin, lowv := false, toReduced := false, demand := false, spinupAt := s.now }).modServo fun v =>
    { v with
      acts := v.acts.map fun a => if a.mode = .fenced then a else { a with mode := .parked, locked := false }
      spindle := { v.spindle with state := if s.restSpin = .reduced then .reduced else .stopped, srvLock := false } }

theorem exec_spindleStopped_spindown (hspin : s.rack.spin = .spindown) : exec .spindleStopped s =
    .next ((if s.rack.demand && s.restSpin ≠ .lowv then s.spindleRests.demandSpin else s.spindleRests).sanitizeCheck) :=
  if_neg (not_not_intro hspin)

/-! Root copies (R348) -/

/-- A root is copied to the slot of the Rack that its checkpoint number names. -/
def State.copyRoot (s : State) (r : Root) : State :=
  (s.modMedia fun m => { m with rackRoot := (m.rackRoot.filter fun e => e.1 != r.ckseq % 2) ++ [(r.ckseq % 2, r)] }).modRack fun x =>
    { x with rootCopied := r.ckseq }

theorem exec_rootCopyToRack_newer {r : Root} (hroot : s.flashRoot = some r) (hready : s.rackOnline = true) (htemp : s.rackWindow 0 = true)
    (hnewer : s.rack.rootCopied < r.ckseq) : exec .rootCopyToRack s = .next (s.copyRoot r) := by
  change execRootCopyToRack s = _
  simp only [execRootCopyToRack, hroot]
  exact if_neg (by simp [hready, htemp, hnewer])

end Rows

/-- Settles O45, from the row of each spin state and of the root copy. The clock is moved to the end of each timer (assumption log 3). -/
theorem theRackSpinsUpAndDown : Obligations.TheRackSpinsUpAndDown := by
  intro s r u l w spin d
  exact ⟨fun hspin => ⟨exec_rackSpinupTimeout_bothLocked hspin, exec_rackSpinupTimeout_firstLocked hspin,
      exec_rackSpinupTimeout_secondLocked hspin, exec_rackSpinupTimeout_noneLocked hspin⟩,
    fun hspin hwait => ⟨exec_spinupRetryWait_gives_up hspin hwait, exec_spinupRetryWait_retries hspin hwait⟩,
    exec_rackStandbyTimeout_idle, exec_spindleStopped_spindown,
    fun hroot hready htemp hnewer => ⟨s.copyRoot r, exec_rootCopyToRack_newer hroot hready htemp hnewer, rfl, rfl⟩⟩

end Sys2Proof.Machine
end

section
/-!
Stacks of the Rack tier: staging, bands, parity, summaries, reads, Knead and scrub, each from its row, and O46, which collects these equations.
-/
namespace Sys2Proof.Machine
open Sys2Proof

/-- A change of an actuator is what it makes of that actuator's state. -/
theorem State.modAct_congr {s : State} {a : Nat} {f g : ActSt → ActSt} (h : f (s.act a) = g (s.act a)) : s.modAct a f = s.modAct a g := by
  have hacts : lmod s.rack.acts a f = lmod s.rack.acts a g := by
    refine List.ext_getElem? fun i => ?_
    simp only [lmod, List.getElem?_modify]
    split
    · subst i
      cases hact : s.rack.acts[a]? with
      | none => rfl
      | some x => simpa [State.act, List.getD_eq_getElem?_getD, hact] using h
    · rfl
  simp only [State.modAct, State.modRack, hacts]

section Rows
variable {s : State} {act b band : Nat}

/-! Staging (R332, R96) -/

/-- The next chunk of an actuator leaves its queue, and the tier has worked. -/
def State.takeItem (s : State) (act : Nat) (m : MigItem) : State :=
  (s.modPlace fun p => { p with queues := lmod p.queues act fun q => q.erase m }).modRack fun r => { r with lastWork := s.now }

/-- A chunk is read from flash into staging, where its read counts against its blocks. -/
def State.stage (s : State) (act : Nat) (m : MigItem) : State :=
  (s.countReads m.src.span (s.blocksOf m.src)).modAct act fun x => { x with staging := [m] }

/-- An actuator with an empty staging area reads the next chunk of its queue, whose descriptor still names its source in flash. -/
theorem exec_stagingReadEnd_names {lost : Nat} {m : MigItem} (hact : act ≤ 1) (hruns : s.actRuns act = true) (htemp : s.rackWindow 0 = true)
    (hcal : s.calDueOn act = false) (hempty : (s.act act).staging = []) (hopen : (s.act act).closing = false) (hnext : s.nextItem act = some m)
    (hnames : (s.takeItem act m).names ((s.takeItem act m).desc m.nsid m.lcn) m.src = true) (hflash : m.src.tier ≠ .rack) (good : Bool) :
    exec (.stagingReadEnd act good lost) s = .next (
      if good then ((s.takeItem act m).stage act m).placeStaged act
      else (s.takeItem act m).loseSource m.nsid m.lcn lost (if m.knead then 3 else 4) m.src) := by
  have hserves : ¬ (act > 1 || !s.actRuns act || !s.rackWindow 0 || s.calDueOn act || !(s.act act).staging.isEmpty || (s.act act).closing) = true := by
    simp [hact, hruns, htemp, hcal, hempty, hopen]
  have hnamed : ¬ (!(s.takeItem act m).names ((s.takeItem act m).desc m.nsid m.lcn) m.src) = true := by simp [hnames]
  refine (if_neg hserves).trans ?_
  rw [hnext]
  refine (if_neg hnamed).trans ?_
  cases good with
  | false => simp [hflash, State.takeItem]
  | true => simp [hflash, State.takeItem, State.stage]

/-! Data bands (R332 to R335) -/

section Filling
variable (hopen : s.openOn act .filling = some (b, band))
include hopen

theorem exec_bandWriteEnd_fails (charge : Bool) : exec (.bandWriteEnd act false charge) s =
    .next ((s.modRw act fun w => { w with squeezeCheck := false }).writeFault act 1
      (if charge then some (s.bandHead act b (s.stack (stackNo act b)).bands) else none)) := by
  change execBandWriteEnd act false charge s = _
  simp only [execBandWriteEnd, hopen]
  rfl

/-- A band whose crumbs are all placed is counted and goes to its check. -/
theorem exec_bandWriteEnd_filled (charge : Bool) (hband : band ≠ 0) (hfilled : ((s.stack (stackNo act b)).bands + 1) * band ≤ (s.act act).used) :
    exec (.bandWriteEnd act true charge) s =
    .next (((s.modRw act fun w => { w with squeezeCheck := false }).unclean.modStack (stackNo act b) fun x =>
      { x with bands := (s.stack (stackNo act b)).bands + 1, wptr := band / 8 }).modAct act fun x => { x with step := .lastTrack }) := by
  change execBandWriteEnd act true charge s = _
  simp only [execBandWriteEnd, hopen]
  exact (if_neg Bool.false_ne_true).trans (if_neg (by simp [hfilled, hband]))

theorem exec_stackIdleCloseTimeout_closes (hmig : s.migAllowed = true) : exec (.stackIdleCloseTimeout act) s = .next (
    (s.reach ((s.act act).lastPlace + s.key2 0x0409 * sec)).modAct act fun x => { x with closing := true, step := .parityWrite }) := by
  change execStackIdleCloseTimeout act s = _
  simp only [execStackIdleCloseTimeout, hopen]
  exact if_neg (by simp [hmig])

end Filling

section LastTrack
variable (hopen : s.openOn act .lastTrack = some (b, band)) (charge : Bool)
include hopen

theorem exec_lastTrackCheckEnd_fails : exec (.lastTrackCheckEnd act false charge) s =
    .next (s.writeFault act 2 (if charge then some (s.bandHead act b (s.act act).checked) else none)) := by
  change execLastTrackCheckEnd act false charge s = _
  simp only [execLastTrackCheckEnd, hopen]
  rfl

/-- A band that passed its check is counted; the parity band follows the last one, and data every other one. -/
theorem exec_lastTrackCheckEnd_passes : exec (.lastTrackCheckEnd act true charge) s = .next (s.modAct act fun x => { x with
    checked := (s.act act).checked + 1
    step := if (x.closing || s.stackData b (s.stack (stackNo act b)).members.length ≤ x.used) && x.used ≤ ((s.act act).checked + 1) * band then
      .parityWrite else .filling }) := by
  change execLastTrackCheckEnd act true charge s = _
  simp only [execLastTrackCheckEnd, hopen]
  rfl

theorem exec_lastTrackCheckEnd_fills (hgoes : (s.act act).closing = false)
    (hroom : (s.act act).used < s.stackData b (s.stack (stackNo act b)).members.length) : exec (.lastTrackCheckEnd act true charge) s =
    .next (s.modAct act fun x => { x with checked := (s.act act).checked + 1, step := .filling }) := by
  rw [exec_lastTrackCheckEnd_passes hopen]
  exact congrArg Host.Outcome.next (State.modAct_congr (by simp [hgoes, hroom]))

theorem exec_lastTrackCheckEnd_closes (hcloses : (s.act act).closing = true) (hlast : (s.act act).used ≤ ((s.act act).checked + 1) * band) :
    exec (.lastTrackCheckEnd act true charge) s =
    .next (s.modAct act fun x => { x with checked := (s.act act).checked + 1, step := .parityWrite }) := by
  rw [exec_lastTrackCheckEnd_passes hopen]
  exact congrArg Host.Outcome.next (State.modAct_congr (by simp [hcloses, hlast]))

end LastTrack

/-! Parity band and summary (R332 to R334) -/

section Parity
variable (hopen : s.openOn act .parityWrite = some (b, band))
include hopen

theorem exec_parityBandReadbackEnd_good (charge : Bool) : exec (.parityBandReadbackEnd act true charge) s =
    .next ((s.modStack (stackNo act b) fun x => { x with parity := true }).modAct act fun x => { x with step := .summary }) := by
  change execParityBandReadbackEnd act true charge s = _
  simp only [execParityBandReadbackEnd, hopen]
  rfl

/-! A parity band that failed for the first time is written again, and a fault that counts is charged to its head. -/

theorem exec_parityBandReadbackEnd_again_uncharged (hfirst : (s.act act).parityTries = 0) : exec (.parityBandReadbackEnd act false false) s =
    .next (s.modAct act fun x => { x with parityTries := 1 }) := by
  change execParityBandReadbackEnd act false false s = _
  simp only [execParityBandReadbackEnd, hopen, hfirst, Bool.false_eq_true, if_false, if_true]

theorem exec_parityBandReadbackEnd_again_charged (hfirst : (s.act act).parityTries = 0) : exec (.parityBandReadbackEnd act false true) s =
    .next ((s.modAct act fun x => { x with parityTries := 1 }).chargeHead (12 * act + s.parityHead act b)) := by
  change execParityBandReadbackEnd act false true s = _
  simp only [execParityBandReadbackEnd, hopen, hfirst, Bool.false_eq_true, if_false, if_true]

theorem exec_parityBandReadbackEnd_fails (hsecond : (s.act act).parityTries ≠ 0) (charge : Bool) : exec (.parityBandReadbackEnd act false charge) s =
    .next (s.writeFault act 3 (if charge then some (s.parityHead act b) else none)) := by
  change execParityBandReadbackEnd act false charge s = _
  simp only [execParityBandReadbackEnd, hopen]
  exact (if_neg Bool.false_ne_true).trans (if_neg hsecond)

end Parity

/-- A summary with a good copy on two surfaces or more, whose entries fit, is complete, and the close of its stack is journalled. -/
theorem exec_stackSummaryWriteEnd_complete {copies : Nat} (hopen : s.openOn act .summary = some (b, band)) (hcopies : 2 ≤ copies)
    (hfits : (s.act act).placed.length ≤ 65535) : exec (.stackSummaryWriteEnd act copies) s =
    .next (((s.modStack (stackNo act b) fun x => { x with phase := .closing, sumIncomplete := false }).modAct act fun x =>
      { x with step := .close, sumBad := 2 - copies }).journal 1 0 (.stackClose act b)) := by
  have hwhole : (decide (copies = 0) || decide (65535 < (s.act act).placed.length)) = false := by
    simp [hfits, Nat.ne_of_gt (Nat.lt_of_lt_of_le Nat.two_pos hcopies)]
  change execStackSummaryWriteEnd act copies s = _
  simp only [execStackSummaryWriteEnd, hopen, if_neg (Nat.not_lt.mpr hcopies), hwhole]

/-! Reads (R339, R340) -/

/-- On the Rack ladder every step before the last is followed by another. -/
theorem State.rackNextStep_le {j : ReadJob} (hstep : j.step < 4) : s.rackNextStep j ≤ 4 := by
  unfold State.rackNextStep
  split
  · exact Nat.le_refl 4
  · exact hstep

theorem State.ladder_rack {j : ReadJob} (htier : j.loc.tier = .rack) (hstep : j.step < 4) (lost : Nat) :
    s.ladder j lost = s.modJob j.id fun x => { x with step := s.rackNextStep j, phase := .rackWait } := by
  simp only [State.ladder, htier, decide_true, if_true, if_pos (State.rackNextStep_le hstep)]

/-- The decoders have done a step of a Rack read, and the tier has worked. -/
def State.rackStepped (s : State) (j : ReadJob) : State := (s.modRack fun r => { r with lastWork := s.now }).rackDecoded j

/-- The sectors of a Rack read decoded: its stack becomes refresh-due after a late step, many corrected bits or a lost head (R339, R340). -/
def State.rackReadGood (s : State) (j : ReadJob) (bits : Nat) : State :=
  if j.step ≥ 3 || bits ≥ s.key2 0x040A || s.onLostHead j.loc then s.modStack j.loc.span fun x => { x with refreshDue := true } else s

section Reads
variable {job bits lost e : Nat} {j : ReadJob} {u : State} (hwait : j.phase = .rackWait) (htier : j.loc.tier = .rack) (hready : s.rackOnline = true)
  (hsound : s.actFenced (rackAct j.loc.span) = false)
include hwait htier hready hsound

theorem rackRead_serves : ¬ (j.phase ≠ .rackWait || j.loc.tier ≠ .rack || !s.rackOnline || s.actFenced (rackAct j.loc.span)) = true := by
  simp [hwait, htier, hready, hsound]

variable (hjob : s.job? job = some j)
include hjob

theorem exec_rackSectorReadEnd_fails (hstep : j.step < 4) : exec (.rackSectorReadEnd job false bits lost) s =
    .next ((s.rackStepped j).modJob job fun x => { x with step := (s.rackStepped j).rackNextStep j, phase := .rackWait }) := by
  obtain rfl : j.id = job := by simpa using List.find?_some hjob
  rw [← State.ladder_rack htier hstep lost]
  change execRackSectorReadEnd j.id false bits lost s = _
  simp only [execRackSectorReadEnd, show (s.flash.jobs.find? fun y => y.id == j.id) = some j from hjob]
  exact (if_neg (rackRead_serves hwait htier hready hsound)).trans (if_neg Bool.false_ne_true)

/-- What decoded goes to the cipher queue of an engine, where one takes it. -/
theorem exec_rackSectorReadEnd_decodes : exec (.rackSectorReadEnd job true bits lost) s =
    .next ((((s.rackStepped j).rackReadGood j bits).queueCipher (512 * j.loc.crumbs)).elim
      (((s.rackStepped j).rackReadGood j bits).modJob job fun x => { x with phase := .cipher })
      fun q => q.2.modJob job fun x => { x with phase := .cipher, engine := q.1 }) := by
  change execRackSectorReadEnd job true bits lost s = _
  simp only [execRackSectorReadEnd, show (s.flash.jobs.find? fun y => y.id == job) = some j from hjob]
  refine (if_neg (rackRead_serves hwait htier hready hsound)).trans ((if_pos trivial).trans ?_)
  change (match ((s.rackStepped j).rackReadGood j bits).queueCipher (512 * j.loc.crumbs) with | some (e, u) => _ | none => _) = _
  cases ((s.rackStepped j).rackReadGood j bits).queueCipher (512 * j.loc.crumbs) with
  | none => rfl
  | some q => rfl

theorem exec_rackSectorReadEnd_queued (hqueue : ((s.rackStepped j).rackReadGood j bits).queueCipher (512 * j.loc.crumbs) = some (e, u)) :
    exec (.rackSectorReadEnd job true bits lost) s = .next (u.modJob job fun x => { x with phase := .cipher, engine := e }) := by
  rw [exec_rackSectorReadEnd_decodes hwait htier hready hsound hjob, hqueue, Option.elim_some]

theorem exec_rackSectorReadEnd_unqueued (hqueue : ((s.rackStepped j).rackReadGood j bits).queueCipher (512 * j.loc.crumbs) = none) :
    exec (.rackSectorReadEnd job true bits lost) s =
      .next (((s.rackStepped j).rackReadGood j bits).modJob job fun x => { x with phase := .cipher }) := by
  rw [exec_rackSectorReadEnd_decodes hwait htier hready hsound hjob, hqueue, Option.elim_none]

end Reads

/-! Knead and scrub (R342, R344, R346) -/

/-- What Rack Knead does before it picks: a stack with no valid chunk is discarded, and the free stacks decide whether Knead runs. -/
def State.kneadReady (s : State) (act : Nat) : State := (s.releaseRack act).rackKneadUpdate act

/-- Rack Knead takes a stack: the chunks in it that no queue holds yet are queued for its actuator. -/
def State.kneadStack (s : State) (act n : Nat) : State :=
  let t := s.flowDemand.modAct act fun x => { x with rackKnead := some (n % 2 ^ 23) }
  (t.modPlace fun p => { p with queues := lmod p.queues act fun q => q ++
    (((t.chunksIn .rack n).filter fun c => !t.queued c.1 c.2).map fun c => t.migItem c.1 c.2 (t.desc c.1 c.2) true) }).releaseRack act

section Knead
variable (hact : act ≤ 1) (hnone : ((s.kneadReady act).act act).rackKnead = none) (hflows : (s.kneadReady act).flowsPaused = false)
  (htemp : (s.kneadReady act).rackWindow 0 = true) (hcal : (s.kneadReady act).calDueOn act = false)
include hact hnone hflows htemp hcal

/-- With no stack under Knead one is picked, and taken if there is one. -/
theorem exec_rackKneadSelection_picks : exec (.rackKneadSelection act) s =
    .next (((s.kneadReady act).rackKneadPick act).elim (s.kneadReady act) ((s.kneadReady act).kneadStack act)) := by
  have hserves : ¬ (((s.kneadReady act).act act).rackKnead.isSome || (s.kneadReady act).flowsPaused || !(s.kneadReady act).rackWindow 0 ||
      (s.kneadReady act).calDueOn act) = true := by simp [hnone, hflows, htemp, hcal]
  refine (if_neg (Nat.not_lt.mpr hact)).trans ((if_neg hserves).trans ?_)
  change (match (s.kneadReady act).rackKneadPick act with | none => _ | some n => _) = _
  cases (s.kneadReady act).rackKneadPick act with
  | none => rfl
  | some n => rfl

theorem exec_rackKneadSelection_none (hpick : (s.kneadReady act).rackKneadPick act = none) :
    exec (.rackKneadSelection act) s = .next (s.kneadReady act) := by
  rw [exec_rackKneadSelection_picks hact hnone hflows htemp hcal, hpick, Option.elim_none]

theorem exec_rackKneadSelection_some {n : Nat} (hpick : (s.kneadReady act).rackKneadPick act = some n) :
    exec (.rackKneadSelection act) s = .next ((s.kneadReady act).kneadStack act n) := by
  rw [exec_rackKneadSelection_picks hact hnone hflows htemp hcal, hpick, Option.elim_some]

end Knead

/-- A scrub read of a stack: a use of the ladder or many corrected bits make the stack refresh-due. -/
def State.scrubSeen (s : State) (n bits : Nat) (ladder : Bool) : State :=
  if ladder || bits ≥ s.key2 0x040A then s.modStack n fun x => { x with refreshDue := true } else s

/-- A scrub read of a closed stack that loses no unit; the last one ends the pass, which is stamped with the clock. -/
theorem exec_rackScrubRead_closed {index bits nsid lcn : Nat} {ladder : Bool} (hclosed : (s.stack (stackNo act index)).phase = .closed)
    (hready : s.rackOnline = true) (hsound : s.actFenced act = false) (last : Bool) :
    let seen := s.scrubSeen (stackNo act index) bits ladder
    exec (.rackScrubRead act index bits ladder nsid lcn 0 last) s =
      .next (if last then seen.modStack (stackNo act index) fun x => { x with scrubbed := seen.now } else seen) := by
  have hserves : ¬ ((s.stack (stackNo act index)).phase ≠ .closed || !s.rackOnline || s.actFenced act) = true := by
    simp [hclosed, hready, hsound]
  refine (if_neg hserves).trans ?_
  simp only [ne_eq, not_true_eq_false, decide_false, Bool.false_and, Bool.false_eq_true, if_false]
  rfl

end Rows

/-- Settles O46, from the row of each stage of a stack. One decoder serves a whole step of the Rack ladder, a squeezed track that failed is reported at the end
of its band (assumption log 59), and the clock is moved to the end of the idle time (log 3). -/
theorem stacksAreFilledAndClosed : Obligations.StacksAreFilledAndClosed := by
  intro s act job bits lost lossUnits copies index nsid lcn b band n e charge ladder m j u x q k head phead last one seen written busy step near rel dem
  exact ⟨fun hact hruns htemp hcal hempty hopen hnext hnames hflash =>
      have staged := exec_stagingReadEnd_names hact hruns htemp hcal hempty hopen hnext hnames hflash
      ⟨staged true, staged false⟩,
    fun hopen => ⟨exec_bandWriteEnd_fails hopen charge, exec_bandWriteEnd_filled hopen charge, exec_stackIdleCloseTimeout_closes hopen⟩,
    fun hopen => ⟨exec_lastTrackCheckEnd_fails hopen charge, fun hgoes hroom => ⟨_, exec_lastTrackCheckEnd_fills hopen charge hgoes hroom, rfl⟩,
      fun hcloses hlast => ⟨_, exec_lastTrackCheckEnd_closes hopen charge hcloses hlast, rfl⟩⟩,
    fun hopen => ⟨exec_parityBandReadbackEnd_good hopen charge,
      fun hfirst => ⟨exec_parityBandReadbackEnd_again_uncharged hopen hfirst, exec_parityBandReadbackEnd_again_charged hopen hfirst⟩,
      fun hsecond => exec_parityBandReadbackEnd_fails hopen hsecond charge⟩,
    exec_stackSummaryWriteEnd_complete,
    fun hjob hwait htier hready hsound => ⟨exec_rackSectorReadEnd_queued hwait htier hready hsound hjob,
      exec_rackSectorReadEnd_unqueued hwait htier hready hsound hjob, exec_rackSectorReadEnd_fails hwait htier hready hsound hjob⟩,
    fun hact hnone hflows htemp hcal => ⟨exec_rackKneadSelection_none hact hnone hflows htemp hcal,
      exec_rackKneadSelection_some hact hnone hflows htemp hcal⟩,
    fun hclosed hready hsound => ⟨exec_rackScrubRead_closed hclosed hready hsound false, exec_rackScrubRead_closed hclosed hready hsound true⟩⟩

end Sys2Proof.Machine
end

section
/-!
The assist limit of a head (R383) and the actuators (R365 to R372, R400, R401, R407, R415, R416, R419): what each answers, and O56 and O43, which
collect these equations.
-/
namespace Sys2Proof.Machine
open Sys2Proof

section Rows
variable {s : State}

/-! The assist limit (R383) -/

section Assist
variable {surface : Nat} {r : CalRec}

/-- A head without a calibration record is limited by the full scale. -/
theorem State.assistLimit_unrecorded (hnone : s.calRec surface = none) : s.assistLimit surface = s.assistScale := by
  simp only [State.assistLimit, hnone]

/-- A record without a base value belongs to a head whose calibrations have all failed so far. -/
theorem State.assistLimit_unbased (hrec : s.calRec surface = some r) (hbase : r.baseAssist = 0) : s.assistLimit surface = s.assistScale := by
  simp only [State.assistLimit, hrec, if_pos hbase]

theorem State.assistLimit_based (hrec : s.calRec surface = some r) (hbase : r.baseAssist ≠ 0) :
    s.assistLimit surface = min (r.baseAssist.toNat * s.key2 0x0419 / 100) s.assistScale := by
  simp only [State.assistLimit, hrec, if_neg hbase]

theorem State.assistLimit_le_scale (s : State) (surface : Nat) : s.assistLimit surface ≤ s.assistScale := by
  cases hrec : s.calRec surface with
  | none => exact (State.assistLimit_unrecorded hrec).le
  | some r =>
    by_cases hbase : r.baseAssist = 0
    · exact (State.assistLimit_unbased hrec hbase).le
    · exact (State.assistLimit_based hrec hbase).trans_le (Nat.min_le_right _ _)

end Assist

/-- A row of an actuator serves the two that exist, unless a condition of its own holds it back. -/
theorem actuator_serves {act : Nat} (hact : act < 2) {held : Bool} (hfree : held = false) : ¬ (decide (2 ≤ act) || held) = true := by
  simp [hact, hfree]

/-! Wedges (R365, R366, R370, R386 to R409) -/

/-- The lock and loss counts have seen a wedge record. -/
def State.wedgeCounted (s : State) (act : Nat) (rec : BitVec 128) : State :=
  s.srvWedge act (if bitAt rec.toNat 49 then some (signed 12 (bits rec.toNat 64 12)) else none)

/-- An actuator whose loop is open adds a zero to the history that the other one's feed-forward reads. -/
def State.wedgeSeen (s : State) (act : Nat) (rec : BitVec 128) : State :=
  let t := s.wedgeCounted act rec
  if (t.sact (1 - act)).mode.servo || (t.sact (1 - act)).mode = .reacquire then t else t.pushHist (1 - act) 0

/-- A wedge whose mark, address and fields are good counts under a lock. -/
def State.wedgeOk (s : State) (act : Nat) (rec : BitVec 128) : Bool :=
  (bitAt rec.toNat 49 && bitAt rec.toNat 50 && bitAt rec.toNat 51) && (s.wedgeCounted act rec).servo.spindle.srvLock

/-- What a wedge record does to the loop of its actuator, by its mode. -/
def State.wedgeTracked (u : State) (act : Nat) (rec : BitVec 128) (ok : Bool) : State :=
  match (u.sact act).mode with
  | .loading => u.modSact act fun z => { z with samRun := if bitAt rec.toNat 49 then z.samRun + 1 else 0 }
  | .reacquire => u.reacquireSample act ok (bits rec.toNat 16 24) (signed 16 (bits rec.toNat 0 16))
  | .parked | .unloading | .fenced => u
  | _ =>
    if (u.sact act).first && !u.servo.spindle.srvLock then u
    else u.servoSample act (bits rec.toNat 40 9 % 480) ok (bits rec.toNat 16 24) (signed 16 (bits rec.toNat 0 16))

section Wedge
variable {act : Nat} {rec : BitVec 128} {u : State} {ok : Bool}

theorem State.wedgeTracked_loading (hmode : (u.sact act).mode = .loading) :
    u.wedgeTracked act rec ok = u.modSact act fun z => { z with samRun := if bitAt rec.toNat 49 then z.samRun + 1 else 0 } := by
  simp only [State.wedgeTracked, hmode]

theorem State.wedgeTracked_reacquire (hmode : (u.sact act).mode = .reacquire) :
    u.wedgeTracked act rec ok = u.reacquireSample act ok (bits rec.toNat 16 24) (signed 16 (bits rec.toNat 0 16)) := by
  simp only [State.wedgeTracked, hmode]

theorem State.wedgeTracked_off (hmode : (u.sact act).mode = .parked ∨ (u.sact act).mode = .unloading ∨ (u.sact act).mode = .fenced) :
    u.wedgeTracked act rec ok = u := by
  obtain hmode | hmode | hmode := hmode <;> simp only [State.wedgeTracked, hmode]

/-- The first sample after a head change waits for the lock. -/
theorem State.wedgeTracked_servo (hservo : (u.sact act).mode.servo = true) (hruns : (u.sact act).first = false ∨ u.servo.spindle.srvLock = true) :
    u.wedgeTracked act rec ok = u.servoSample act (bits rec.toNat 40 9 % 480) ok (bits rec.toNat 16 24) (signed 16 (bits rec.toNat 0 16)) := by
  have hsamples : ¬ ((u.sact act).first && !u.servo.spindle.srvLock) = true := by
    obtain hfirst | hlock := hruns
    · simp [hfirst]
    · simp [hlock]
  cases hmode : (u.sact act).mode with
  | seek | settle | follow => simp only [State.wedgeTracked, hmode, if_neg hsamples]
  | parked | loading | reacquire | unloading | fenced => simp [hmode, ServoMode.servo] at hservo

variable {write : Option (Nat × Bool)}

/-- The row of a wedge record: the lock, the loop and then the write gate. -/
theorem exec_wedgeRecord_tracks (hact : act < 2) : exec (.wedgeRecord act rec write) s =
    .next (((s.wedgeSeen act rec).wedgeTracked act rec (s.wedgeOk act rec)).gate act (s.wedgeOk act rec) (signed 16 (bits rec.toNat 0 16)) write) :=
  if_neg (Nat.not_le.mpr hact)

end Wedge

/-! Targets and head changes (R372, R400, R401, R419) -/

/-- GO applies the TARGET and HEAD_SEL registers. -/
def State.goApplied (s : State) (act : Nat) (target : BitVec 32) (head : BitVec 4) : State :=
  s.modSact act fun z => { z with target := target, headSel := head }

/-- An actuator takes a target and a head, at a time; a change of head empties the runout queue and begins the settle time. -/
def ServoAct.go (z : ServoAct) (target : BitVec 32) (head : BitVec 4) (op now : Nat) (change : Bool) : ServoAct :=
  { z with
    curTarget := signed 32 target.toNat, newTarget := true, seekAt := now, seekOp := op
    head := head, runout := if change then [] else z.runout, first := z.first || change, settling := z.settling || change
    settleAt := if change then now else z.settleAt }

section Go
variable {act op : Nat} {target : BitVec 32} {head : BitVec 4}

theorem ServoAct.go_same (z : ServoAct) (now : Nat) : z.go target head op now false =
    { z with curTarget := signed 32 target.toNat, newTarget := true, seekAt := now, seekOp := op, head := head } := by
  simp [ServoAct.go]

theorem ServoAct.go_change (z : ServoAct) (now : Nat) : z.go target head op now true =
    { z with curTarget := signed 32 target.toNat, newTarget := true, seekAt := now, seekOp := op
             head := head, runout := [], first := true, settling := true, settleAt := now } := by
  simp [ServoAct.go]

variable (hact : act < 2)
include hact

theorem exec_servoGo_refused (hlost : (s.goApplied act target head).rackHeads act ≤ head.toNat ∨
    bitAt ((s.goApplied act target head).place.fenceHead.getD act 0).toNat head.toNat = true) :
    exec (.servoGo act target head op) s = .next (s.goApplied act target head) :=
  (if_neg (Nat.not_le.mpr hact)).trans (if_pos ((Bool.or_eq_true _ _).mpr (hlost.imp_left decide_eq_true)))

variable (hpresent : head.toNat < (s.goApplied act target head).rackHeads act)
  (hsound : bitAt ((s.goApplied act target head).place.fenceHead.getD act 0).toNat head.toNat = false)
include hpresent hsound

theorem exec_servoGo_takes : exec (.servoGo act target head op) s = .next ((s.goApplied act target head).modSact act fun z =>
    z.go target head op s.now (decide (head ≠ ((s.goApplied act target head).sact act).head))) :=
  (if_neg (Nat.not_le.mpr hact)).trans (if_neg fun h => ((Bool.or_eq_true _ _).mp h).elim
    (fun habsent => Nat.not_le.mpr hpresent (of_decide_eq_true habsent)) (ne_true_of_eq_false hsound))

theorem exec_servoGo_same (hsame : head = ((s.goApplied act target head).sact act).head) :
    exec (.servoGo act target head op) s = .next ((s.goApplied act target head).modSact act fun z =>
      { z with curTarget := signed 32 target.toNat, newTarget := true, seekAt := s.now, seekOp := op, head := head }) := by
  rw [exec_servoGo_takes hact hpresent hsound, decide_eq_false (not_not_intro hsame)]
  simp only [ServoAct.go_same]

theorem exec_servoGo_change (hchange : head ≠ ((s.goApplied act target head).sact act).head) :
    exec (.servoGo act target head op) s = .next ((s.goApplied act target head).modSact act fun z =>
      { z with curTarget := signed 32 target.toNat, newTarget := true, seekAt := s.now, seekOp := op
               head := head, runout := [], first := true, settling := true, settleAt := s.now }) := by
  rw [exec_servoGo_takes hact hpresent hsound, decide_eq_true hchange]
  simp only [ServoAct.go_change]

end Go

section Actuator
variable {act : Nat} (hact : act < 2)
include hact

/-! Settle time and seek limit (R372, R401) -/

theorem exec_headSwitchSettle_settling (hsettling : (s.sact act).settling = true) : exec (.headSwitchSettle act) s =
    .next (((s.reach ((s.sact act).settleAt + s.keyN 0x0415 4 2 * us)).modSact act fun z => { z with settling := false }).loadSet act) :=
  if_neg (actuator_serves hact (by rw [hsettling]; rfl))

theorem exec_seekTimeLimit_seeking (hseek : (s.sact act).seekActive = true) : exec (.seekTimeLimit act) s =
    .next ((s.reach ((s.sact act).seekAt + s.keyN 0x0509 22 2 * ms)).retrySeek act) :=
  if_neg (actuator_serves hact (by rw [hseek]; rfl))

/-! Runout entries (R407) -/

/-- A queue that has taken a block of 32 is far from running dry, so the panic signal is off. -/
theorem exec_runoutQueueRefill_block {table : List (BitVec 16)} (htable : s.rroTable act = some table) (hroom : (s.sact act).runout.length ≤ 32) :
    exec (.runoutQueueRefill act) s = .next (s.modSact act fun y => { y with
      runout := (s.sact act).runout ++ (List.range 32).map fun i => table.getD (((s.sact act).rroAt + (s.sact act).runout.length + i) % 480) 0
      panic := false }) := by
  have hfilled : ∀ f : Nat → BitVec 16, decide (((s.sact act).runout ++ (List.range 32).map f).length < 16) = false := fun f => by
    rw [List.length_append, List.length_map, List.length_range]
    exact decide_eq_false (by omega)
  change execRunoutQueueRefill act s = _
  simp only [execRunoutQueueRefill, htable, hfilled]
  exact if_neg (actuator_serves hact (decide_eq_false (Nat.not_lt.mpr hroom)))

/-! Loading (R415) -/

theorem exec_actuatorLoadEnd_marked (track : Nat) (hmode : (s.sact act).mode = .loading) (hmarks : 4 ≤ (s.sact act).samRun) :
    exec (.actuatorLoadEnd act track) s = .next ((s.modSact act fun z => { z.cleared with
      mode := .seek, bank := 0, x := track * 16384, v := 0, region := s.regionOf act track
      curTarget := if z.curTarget = 0 then signed 32 (s.boundary act 1 / 2 * 256) else z.curTarget
      newTarget := true, seekActive := true, seekTries := 0, seekAt := s.now, seekOp := 0, runout := [], first := true, followCnt := 0 }).loadSet act) :=
  if_neg (by simp [hact, hmode, hmarks])

theorem exec_loadTimeout_loading (hmode : (s.sact act).mode = .loading) : exec (.loadTimeout act) s =
    .next ((s.reach ((s.sact act).loadAt + s.keyN 0x050C 8 2 * ms)).modSact act fun z => { z with mode := .unloading, uM := 0 }) :=
  if_neg (actuator_serves hact (decide_eq_false (not_not_intro hmode)))

/-! Parking (R372, R415, R416) -/

/-- An actuator is parked after the hold of 5 ms, its heaters off. -/
def State.parkedAfterHold (s : State) (act : Nat) : State :=
  ((s.setNow (s.now + 5 * ms)).modSact act fun z =>
    { z with mode := .parked, locked := false, dacV := 0, dacM := 0, uM := 0, seekActive := false }).heatersOff act

variable (hmode : (s.sact act).mode = .unloading)
include hmode

theorem exec_unloadEnd_parks (hspin : (s.parkedAfterHold act).rack.spin ≠ .spinup) :
    exec (.unloadEnd act) s = .next (s.parkedAfterHold act).brakeWhenParked :=
  (if_neg (actuator_serves hact (decide_eq_false (not_not_intro hmode)))).trans (if_neg fun h =>
    hspin (of_decide_eq_true (Bool.and_eq_true_iff.mp (Bool.and_eq_true_iff.mp h).1).1))

/-- A first load that failed in a spin-up is tried once more. -/
theorem exec_unloadEnd_loads (hspin : (s.parkedAfterHold act).rack.spin = .spinup) (hfirst : (s.sact act).loadTries = 1)
    (hmotor : (s.parkedAfterHold act).motorOn = true) : exec (.unloadEnd act) s =
    .next ((s.parkedAfterHold act).modSact act fun z => z.load (s.parkedAfterHold act).now) :=
  (if_neg (actuator_serves hact (decide_eq_false (not_not_intro hmode)))).trans (if_pos
    (Bool.and_eq_true_iff.mpr ⟨Bool.and_eq_true_iff.mpr ⟨decide_eq_true hspin, decide_eq_true hfirst⟩, hmotor⟩))

end Actuator
end Rows

/-- Settles O56, from the limit of a head without a record, without a base value and with one. Where key 0x0411 holds the full scale is the model's reading
(assumption log 41). -/
theorem theAssistLimitIsTheLower : Obligations.TheAssistLimitIsTheLower := fun s surface _ =>
  ⟨s.assistLimit_le_scale surface, State.assistLimit_unrecorded, State.assistLimit_unbased, State.assistLimit_based⟩

/-- Settles O43, from the row of each command of an actuator. A current target of 0 stands for no target at the end of a load (assumption log 56), a servo
sample is read as in log 52, and the clock is moved to the end of each timer (log 3). -/
theorem actuatorsTrackAndLoad : Obligations.ActuatorsTrackAndLoad := by
  intro s act track op rec write target head table z r ok s1 u pes g
  have wedge {v : State} (hact : act < 2) (htracked : u.wedgeTracked act rec ok = v) :
      exec (.wedgeRecord act rec write) s = .next (v.gate act ok pes write) := htracked ▸ exec_wedgeRecord_tracks hact
  exact ⟨fun hact => ⟨fun hmode => wedge hact (State.wedgeTracked_loading hmode), fun hmode => wedge hact (State.wedgeTracked_reacquire hmode),
      fun hmode => wedge hact (State.wedgeTracked_off hmode), fun hservo hruns => wedge hact (State.wedgeTracked_servo hservo hruns)⟩,
    fun hact => ⟨exec_servoGo_refused hact,
      fun hpresent hsound => ⟨exec_servoGo_same hact hpresent hsound, exec_servoGo_change hact hpresent hsound⟩⟩,
    exec_headSwitchSettle_settling, exec_seekTimeLimit_seeking, fun hact => exec_runoutQueueRefill_block hact,
    fun hact hmode hmarks => ⟨_, exec_actuatorLoadEnd_marked hact track hmode hmarks, rfl⟩,
    exec_loadTimeout_loading,
    fun hact hmode => ⟨exec_unloadEnd_parks hact hmode, exec_unloadEnd_loads hact hmode⟩⟩

end Sys2Proof.Machine
end

section
/-!
A step of the block: what `Keeps` says of it, whether a command waits or not, and O57, O53, O1, O2 and O3.
-/
namespace Sys2Proof.Machine
open Sys2Proof

theorem step_of_pending_cons {s : State} {c : Instr} {rest : List Instr} (h : s.pending = c :: rest) : step s = exec c (s.setPending rest) := by
  simp only [step, h]

theorem step_of_pending_nil {s : State} (h : s.pending = []) : step s = .next (s.setNow (s.now + 40)) := by
  simp only [step, h]

/-- A step takes the front of the queue and undoes nothing of the state with the queue's rest. -/
theorem step_keeps (s : State) : NextKeeps (s.setPending s.pending.tail) (step s) := by
  cases hqueue : s.pending with
  | nil =>
    rw [step_of_pending_nil hqueue]
    exact .next (State.setNow_keeps ((Keeps.refl _).same hqueue rfl rfl rfl rfl rfl rfl rfl (·.1)) (Nat.le_add_right _ _))
  | cons c rest => exact step_front_keeps hqueue

/-- Settles O57, from what `Keeps` says of a step. The canonical form of the boot NVM and the queue are the model's own (assumption logs 88 and 26), and
so is the clock that the start stays behind (log 3). -/
theorem everyStepKeepsTheInvariants : Obligations.EveryStepKeepsTheInvariants := by
  intro s t hnvm hageing hstart hstep
  obtain ⟨u, hgoes, hkeeps⟩ := step_keeps s
  obtain rfl : u = t := Host.Outcome.next.inj (hgoes.symm.trans hstep)
  exact ⟨hkeeps.nvm hnvm, hkeeps.ageing hageing, hkeeps.start hstart, hkeeps.pending⟩

/-- Settles O53: of what `exec_keeps` says of the state that a command goes on to, the ageing that the recorder partition keeps. -/
theorem theAgeingOffsetNeverFalls : Obligations.TheAgeingOffsetNeverFalls := by
  intro c s t hnext
  obtain ⟨u, hgoes, hkeeps⟩ := exec_keeps c (Keeps.refl s)
  obtain rfl : u = t := Host.Outcome.next.inj (hgoes.symm.trans hnext)
  exact ⟨hkeeps.offset, hkeeps.ceiling, hkeeps.ageing⟩

/-- Settles O1. The queue is the model's own (assumption logs 1 and 26). -/
theorem aStepRunsTheFrontCommand : Obligations.AStepRunsTheFrontCommand := fun _ _ _ => step_of_pending_cons

/-- Settles O2. That an idle step is one cycle of the AON clock is the model's choice (assumption log 3). -/
theorem anEmptyQueueIdles : Obligations.AnEmptyQueueIdles := fun _ hidle => ⟨_, step_of_pending_nil hidle, rfl, rfl⟩

theorem ageingLegal_zero : AgeingLegal 0 0 := ⟨by decide, by decide, by decide⟩

/-- Settles O3: after reset the boot NVM is erased, the ageing is 0 and the queue is empty (assumption logs 1, 26 and 88). -/
theorem resetHoldsTheInvariants : Obligations.ResetHoldsTheInvariants :=
  ⟨rfl, ⟨ageingLegal_zero, ageingLegal_zero⟩, le_refl _, rfl, rfl⟩

end Sys2Proof.Machine
end

section
/-!
The end of a boot NVM operation: what a byte reads after it, and O55.
-/
namespace Sys2Proof.Machine
open Sys2Proof

/-- A cleared range reads as unlisted; every other address reads as before. -/
theorem mread_mclear (d : Byte) (m : List Host.Cell) (a n j : Nat) :
    mread d (mclear m a n) j = if a ≤ j ∧ j < a + n then d else mread d m j := by
  unfold mread mclear tgetD tget
  rw [List.find?_filter]
  split
  · next hin =>
    have hnone : m.find? (fun c => decide ((!(decide (a ≤ c.1) && decide (c.1 < a + n))) = true ∧ (c.1 == j) = true)) = none := by
      rw [List.find?_eq_none]
      intro c _
      simp only [decide_eq_true_eq, beq_iff_eq, not_and]
      rintro hout rfl
      simp [hin] at hout
    rw [hnone]; rfl
  · next hout =>
    congr 3
    funext c
    by_cases hc : c.1 = j
    · subst hc
      simp only [hout, beq_self_eq_true, and_true, decide_eq_true_eq, Bool.not_eq_true', ← Bool.decide_and, decide_false]
    · simp [hc]

/-- The boot NVM after an operation has ended well. -/
def OspiOp.effect (op : OspiOp) (m : List Host.Cell) : List Host.Cell :=
  if op.erase then mclear m op.addr 65536 else mwriteN nvmFill m op.addr op.bytes

theorem exec_ospiOperationEnd_ok {s : State} {bank : Nat} {op : OspiOp} (ready : Bool) (hbusy : s.ospi.busy.getD bank none = some op)
    (hgood : op.failed = false) : exec (.ospiOperationEnd bank 0 ready) s =
      .next (s.modOspi fun o => { o with nvm := op.effect o.nvm, done := true, result := 0, busy := o.busy.set bank none }) := by
  change execOspiOperationEnd bank 0 ready s = _
  simp only [execOspiOperationEnd, hbusy, hgood]
  rfl

/-- Settles O55, from the one state that an operation with the outcome OK leaves. That an unlisted byte reads 0xFF as an erased one does is the model's
form of the boot NVM (assumption log 88). -/
theorem bootNvmBytesOutsideAnOperationStay : Obligations.BootNvmBytesOutsideAnOperationStay := by
  intro s bank a ready op byte hbusy hgood
  have hbyte : Does (.ospiOperationEnd bank 0 ready) s fun t => byte t a = mread nvmFill (op.effect s.ospi.nvm) a :=
    ⟨_, exec_ospiOperationEnd_ok ready hbusy hgood, rfl⟩
  refine ⟨fun hprogram => ?_, fun herase => ?_⟩
  · simpa only [OspiOp.effect, hprogram, Bool.false_eq_true, if_false, mread_mwriteN] using hbyte
  · simpa only [OspiOp.effect, herase, if_true, mread_mclear] using hbyte

end Sys2Proof.Machine
end

section
/-!
The fetch of an Identify command, and O39.
-/
namespace Sys2Proof.Machine
open Sys2Proof

/-- The CNS values that Identify accepts (R491). -/
def identifyValues : List Nat := [0x00, 0x01, 0x02, 0x03, 0x05, 0x06, 0x10, 0x11, 0x12, 0x13]

/-- Of the checks of an admin command at its fetch, an Identify without an SGL meets the one of its CNS value alone. -/
theorem adminStatus_identify (cdw : List Dword) :
    adminStatus 0x06 cdw [] = if (cdw.getD 0 0).toNat % 256 ∈ identifyValues then 0 else 0x02 := by
  simp only [adminStatus]
  generalize (cdw.getD 0 0).toNat = d10
  have hknown : adminSupported 0x06 = true := by decide
  have hcns : [0x00, 0x01, 0x02, 0x03, 0x05, 0x06, 0x10, 0x11, 0x12, 0x13].contains (bits d10 0 8) = decide (d10 % 256 ∈ identifyValues) := by
    rw [List.contains_eq_mem]; simp [bits, identifyValues]
  rw [hcns]
  by_cases haccepted : d10 % 256 ∈ identifyValues
  · simp [hknown, haccepted]
  · simp [hknown, haccepted, scInvalidField]

/-- A command that orders nothing of a named object leaves the arbitration cycle as it is. -/
theorem State.noteOrder_of_not_orders {s : State} {c : Ctx} (h : orders c.opcode.toNat = false) : s.noteOrder c = s :=
  if_neg (ne_true_of_eq_false h)

/-- Settles O39, from the fetch of the last entry of a queue and the status that the checks give an Identify. -/
theorem identifyAcceptsTenValues : Obligations.IdentifyAcceptsTenValues := by
  intro s arb sqe q c advanced cns hop hsgl hopen hchosen hq hctx hents hlast hfresh
  have hrow := exec_commandFetch_last hopen (by decide) hchosen hq hctx hents hlast hfresh
  have hstatus : adminStatus sqe.opcode.toNat sqe.cdw sqe.sgl = if cns ∈ identifyValues then 0 else 0x02 := by
    rw [hop, hsgl]; exact adminStatus_identify sqe.cdw
  refine ⟨fun haccepted => ?_, fun hrefused => ?_⟩
  · have hquiet : advanced.noteOrder c = advanced :=
      State.noteOrder_of_not_orders (show orders sqe.opcode.toNat = false by rw [hop]; decide)
    refine hrow.trans ((if_pos rfl).trans ((if_neg (not_not_intro (hstatus.trans (if_pos haccepted)))).trans ?_))
    exact congrArg (fun t : State => Host.Outcome.next (t.letIn c)) hquiet
  · have hbad := hstatus.trans (if_neg hrefused)
    refine hrow.trans ((if_pos rfl).trans ((if_pos (by rw [hbad]; decide)).trans ?_))
    rw [hbad]; rfl

end Sys2Proof.Machine
end

section
/-!
The features whose value is a dword: what the row of each answers to a Set, to a Get, and to what it turns away, and O4, O5 and O6.
-/
namespace Sys2Proof.Machine
open Sys2Proof

section Rows
variable {s : State} {st sel : Nat} {c : Ctx}

/-! Set Features (R492, R500, R515, R637) -/

theorem exec_setErrorRecovery_held (h : HeldSet s st 0x05 c) : exec (.setErrorRecovery st) s =
    .next (if bitAt (c.dw 11) 16 then s.complete st 0x02 0
      else (s.modNvme fun n => { n with errRec := BitVec.ofNat 32 (c.dw 11) }).complete st 0 0) := onSet_held h

/-- The vectors without coalescing after a Set for one vector. -/
def coalescingOff (off : List Nat) (v : Nat) (disable : Bool) : List Nat := off.filter (· != v) ++ (if disable then [v] else [])

theorem mem_coalescingOff {off : List Nat} {v : Nat} {disable : Bool} {x : Nat} :
    x ∈ coalescingOff off v disable ↔ if x = v then disable = true else x ∈ off := by
  unfold coalescingOff
  by_cases hx : x = v
  · cases disable <;> simp [hx]
  · cases disable <;> simp [hx]

theorem exec_setInterruptVectorConfig_held (h : HeldSet s st 0x09 c) : exec (.setInterruptVectorConfig st) s =
    .next (if 1024 < bits (c.dw 11) 0 16 then s.complete st 0x02 0
      else (s.modNvme fun n => { n with coalDis := coalescingOff n.coalDis (bits (c.dw 11) 0 16) (bitAt (c.dw 11) 16) }).complete st 0 0) :=
  onSet_held h

/-- TMT1 and TMT2 that are both in use, TMT1 not below TMT2 (R637). -/
def hctmCrossed (w : Nat) : Bool := bits w 16 16 ≠ 0 && bits w 0 16 ≠ 0 && bits w 16 16 ≥ bits w 0 16

theorem hctmCrossed_eq_false {w : Nat} (h : bits w 16 16 = 0 ∨ bits w 0 16 = 0 ∨ bits w 16 16 < bits w 0 16) : hctmCrossed w = false := by
  unfold hctmCrossed
  rcases h with h | h | h
  · simp [h]
  · simp [h]
  · simp [Nat.not_le.mpr h]

theorem hctmCrossed_eq_true {w : Nat} (hused : bits w 0 16 ≠ 0) (hcross : bits w 0 16 ≤ bits w 16 16) : hctmCrossed w = true := by
  have hused1 : bits w 16 16 ≠ 0 := by omega
  simp [hctmCrossed, hused, hused1, hcross]

theorem exec_setHctm_held (h : HeldSet s st 0x10 c) : exec (.setHctm st) s =
    .next (if hctmCrossed (c.dw 11) then s.complete st 0x02 0
      else (s.modNvme fun n => { n with hctm := BitVec.ofNat 32 (c.dw 11) }).complete st 0 0) := onSet_held h

/-- A temperature input or a threshold type that no rule names is turned away (R635). -/
theorem exec_setTemperatureThreshold_refused (h : HeldSet s st 0x04 c)
    (hbad : 6 < bits (c.dw 11) 16 4 ∧ bits (c.dw 11) 16 4 ≠ 15 ∨ 1 < bits (c.dw 11) 20 2) :
    exec (.setTemperatureThreshold st) s = .next (s.complete st 0x02 0) :=
  (onSet_held h).trans (congrArg Host.Outcome.next (if_pos (by simpa using hbad)))

/-! Get Features (R492, R500, R505, R507, R515, R635, R637) -/

theorem exec_getTemperatureThreshold_refused (h : HeldGet s st 0x04 sel c) (hbad : 6 < bits (c.dw 11) 16 4 ∨ 1 < bits (c.dw 11) 20 2) :
    exec (.getTemperatureThreshold st) s = .next (s.complete st 0x02 0) :=
  (show execGetTemperatureThreshold st s = _ from onGet_held h).trans (congrArg Host.Outcome.next (if_pos (by simpa using hbad)))

theorem exec_getTemperatureThreshold_held (h : HeldGet s st 0x04 sel c) (hinput : bits (c.dw 11) 16 4 ≤ 6) (htype : bits (c.dw 11) 20 2 ≤ 1) :
    let p := s.threshold (bits (c.dw 11) 16 4)
    exec (.getTemperatureThreshold st) s =
      .next (if bits (c.dw 11) 20 2 = 0 then s.getValue st sel p.1 (s.key2 0x0701) else s.getValue st sel p.2 0) := by
  refine (show execGetTemperatureThreshold st s = _ from onGet_held h).trans (congrArg Host.Outcome.next ((if_neg ?_).trans ?_))
  · simp [hinput, htype]
  · split
    · rfl
    · rfl

theorem exec_getInterruptVectorConfig_held (h : HeldGet s st 0x09 sel c) :
    let v := bits (c.dw 11) 0 16
    exec (.getInterruptVectorConfig st) s = .next (if 1024 < v then s.complete st 0x02 0
      else s.getValue st sel (v + 65536 * b2n (s.nvme.coalDis.contains v)) v) :=
  show execGetInterruptVectorConfig st s = _ from onGet_held h

theorem b2n_eq_ite (p : Prop) [Decidable p] : b2n (decide p) = if p then 1 else 0 := by
  by_cases hp : p <;> simp [b2n, hp]

/-- Rack Spindle Control: in either case the state of the spindle; the permission and the standby time as they are, or as their keys give them. -/
theorem exec_getRackSpindleControl_held (h : HeldGet s st 0xC3 sel c) : exec (.getRackSpindleControl st) s =
    .next (s.getValue st sel ((if s.rack.spinAllowed then 1 else 0) + 2 * s.rack.spin.code + 256 * s.standbyTime)
      ((if s.key2 0x0404 = 1 then 1 else 0) + 2 * s.rack.spin.code + 256 * s.keyN 0x0405 0 4)) := by
  refine (show execGetRackSpindleControl st s = _ from onGet_held h).trans ?_
  by_cases hreset : sel = 1
  · simp only [hreset, State.getValue, if_true, b2n_eq_ite, Nat.reducePow]
  · simp only [hreset, State.getValue, if_false, b2n, Nat.reducePow]

end Rows

/-- A Set whose row has the operand form of a feature is turned away if it asks to save (R501). -/
theorem exec_save_of_onSet {s : State} {i : Instr} {st fid : Nat} {c : Ctx} (hform : ∃ f, exec i s = s.onSet st fid f) (h : Held s st 0x09 c)
    (hfid : bits (c.dw 10) 0 8 = fid) (hsave : bitAt (c.dw 10) 31 = true) : exec i s = .next (s.complete st 0x0D 0) :=
  let ⟨_, hrow⟩ := hform
  hrow.trans (onSet_save h hfid hsave)

/-- A Get whose row has the operand form of a feature answers the capabilities for SEL 3 (R501). -/
theorem exec_caps_of_onGet {s : State} {i : Instr} {st fid : Nat} {c : Ctx} (hform : ∃ f, exec i s = s.onGet st fid f) (h : Held s st 0x0A c)
    (hfid : bits (c.dw 10) 0 8 = fid) (hsel : bits (c.dw 10) 8 3 = 3) : exec i s = .next (s.complete st 0 4) :=
  let ⟨_, hrow⟩ := hform
  hrow.trans (onGet_caps h hfid hsel)

/-- Settles O4, from the row of each feature. -/
theorem setFeatureStoresValue : Obligations.SetFeatureStoresValue := by
  intro s st c
  refine ⟨fun h => onSet_held h, fun h hdulbe => ?_, fun h => onSet_held h, fun h => onSet_held h, fun h hvector => ?_, fun h => onSet_held h,
    fun h => onSet_held h, fun h hvalues => ?_⟩
  · simp [exec_setErrorRecovery_held h, hdulbe]
  · exact ⟨_, (exec_setInterruptVectorConfig_held h).trans (congrArg Host.Outcome.next (if_neg (Nat.not_lt.mpr hvector))),
      fun v => mem_coalescingOff, rfl⟩
  · simp [exec_setHctm_held h, hctmCrossed_eq_false hvalues]

/-- Settles O5, from the row of each feature. -/
theorem getFeatureAnswersValue : Obligations.GetFeatureAnswersValue := by
  intro s st sel c answers
  refine ⟨fun h => (onGet_held h : execGetArbitration st s = _), fun h hinput hover => ?_, fun h hinput hunder => ?_,
    fun h => (onGet_held h : execGetErrorRecovery st s = _), fun h => ?_, fun h => (onGet_held h : execGetInterruptCoalescing st s = _),
    fun h hvector => ?_, fun h => (onGet_held h : execGetWriteAtomicityNormal st s = _), fun h => (onGet_held h : execGetAsyncEventConfig st s = _),
    fun h => (onGet_held h : execGetHctm st s = _), exec_getRackSpindleControl_held, fun h => (onGet_held h : execGetCaptureWindowControl st s = _)⟩
  · exact (exec_getTemperatureThreshold_held h hinput (by omega)).trans (congrArg Host.Outcome.next (if_pos hover))
  · exact (exec_getTemperatureThreshold_held h hinput (by omega)).trans (congrArg Host.Outcome.next (if_neg (by omega)))
  · exact (show execGetNumberOfQueues st s = _ from onGet_held h).trans (by rw [ite_self]; rfl)
  · refine ((exec_getInterruptVectorConfig_held h).trans (congrArg Host.Outcome.next (if_neg (Nat.not_lt.mpr hvector)))).trans ?_
    simp only [State.getValue, List.contains_eq_mem, b2n_eq_ite, mul_ite, Nat.mul_one, Nat.mul_zero]

/-- Settles O6: the operand forms turn away what R501 names, and the row of each feature the values that its own rule refuses. -/
theorem featureRefusals : Obligations.FeatureRefusals := by
  intro s st sel c
  refine ⟨fun i hi => exec_save_of_onSet ?_, fun i hi => exec_caps_of_onGet ?_, fun h hdulbe => ?_, fun h hvector => ?_, fun h hvector => ?_,
    fun h hused hcross => ?_, exec_setTemperatureThreshold_refused, exec_getTemperatureThreshold_refused⟩
  · revert i
    simp only [List.forall_mem_cons]
    exact ⟨⟨_, rfl⟩, ⟨_, rfl⟩, ⟨_, rfl⟩, ⟨_, rfl⟩, ⟨_, rfl⟩, ⟨_, rfl⟩, ⟨_, rfl⟩, ⟨_, rfl⟩, ⟨_, rfl⟩, ⟨_, rfl⟩, ⟨_, rfl⟩, ⟨_, rfl⟩,
      List.forall_mem_nil _⟩
  · revert i
    simp only [List.forall_mem_cons]
    exact ⟨⟨_, (rfl : execGetArbitration st s = _)⟩, ⟨_, (rfl : execGetPowerManagement st s = _)⟩, ⟨_, (rfl : execGetTemperatureThreshold st s = _)⟩,
      ⟨_, (rfl : execGetErrorRecovery st s = _)⟩, ⟨_, (rfl : execGetNumberOfQueues st s = _)⟩, ⟨_, (rfl : execGetInterruptCoalescing st s = _)⟩,
      ⟨_, (rfl : execGetInterruptVectorConfig st s = _)⟩, ⟨_, (rfl : execGetWriteAtomicityNormal st s = _)⟩,
      ⟨_, (rfl : execGetAsyncEventConfig st s = _)⟩,
      ⟨_, (rfl : execGetTimestamp st s = _)⟩, ⟨_, (rfl : execGetHctm st s = _)⟩, ⟨_, (rfl : execGetStreamFormat st s = _)⟩,
      ⟨_, (rfl : execGetRackSpindleControl st s = _)⟩, ⟨_, (rfl : execGetPlacementHints st s = _)⟩, ⟨_, (rfl : execGetCaptureWindowControl st s = _)⟩,
      List.forall_mem_nil _⟩
  · simp [exec_setErrorRecovery_held h, hdulbe]
  · exact (exec_setInterruptVectorConfig_held h).trans (congrArg Host.Outcome.next (if_pos hvector))
  · exact (exec_getInterruptVectorConfig_held h).trans (congrArg Host.Outcome.next (if_pos hvector))
  · simp [exec_setHctm_held h, hctmCrossed_eq_true hused hcross]

end Sys2Proof.Machine
end

section
/-!
Log pages that show what the block holds: what a held Get Log Page of each answers, and O8, which collects them.
-/
namespace Sys2Proof.Machine
open Sys2Proof

section Rows
variable {s : State} {st : Nat} {c : Ctx}

theorem mem_map_range {α : Type} {n i : Nat} {f : Nat → α} (h : i < n) : f i ∈ (List.range n).map f :=
  List.mem_map_of_mem (List.mem_range.mpr h)

theorem exec_getLogSupportedPages_held (h : HeldLog s st 0x00 1024 c) : ∃ page, exec (.getLogSupportedPages st) s = s.logAnswer st c page id ∧
    ∀ l, (4 * l, 4, 1) ∈ page ↔ l ∈ logPages := by
  change ∃ page, execGetLogSupportedPages st s = _ ∧ _
  unfold execGetLogSupportedPages
  refine onLog_gives h fun l => ?_
  simp only [List.mem_map, Prod.mk.injEq, and_true, Nat.mul_right_inj (show 4 ≠ 0 by decide), exists_eq_right]

theorem exec_getLogErrorInformation_held (h : HeldLog s st 0x01 4096 c) : ∃ page,
    exec (.getLogErrorInformation st) s = s.logAnswer st c page id ∧
    ∀ i (h : i < s.nvme.errLog.length), (64 * i, 8, s.nvme.errCount - i) ∈ page ∧ (64 * i + 8, 2, s.nvme.errLog[i].1) ∈ page ∧
      (64 * i + 10, 2, s.nvme.errLog[i].2.1) ∈ page ∧ (64 * i + 12, 2, 2 * s.nvme.errLog[i].2.2) ∈ page := by
  change ∃ page, execGetLogErrorInformation st s = _ ∧ _
  unfold execGetLogErrorInformation
  refine onLog_gives h fun i hi => ⟨?_, ?_, ?_, ?_⟩
  all_goals
    refine mem_flatMap_zipIdx_of_mem_getElem hi ?_
    simp only [List.mem_cons, true_or, or_true]

theorem exec_getLogCommandsEffects_held (h : HeldLog s st 0x05 4096 c) : ∃ page, exec (.getLogCommandsEffects st) s = s.logAnswer st c page id ∧
    ∀ op < 256, (4 * op, 4, adminEffects op) ∈ page ∧ (1024 + 4 * op, 4, ioEffects op) ∈ page := by
  change ∃ page, execGetLogCommandsEffects st s = _ ∧ _
  unfold execGetLogCommandsEffects
  exact onLog_gives h fun op hop => ⟨List.mem_append_left _ (mem_map_range hop), List.mem_append_right _ (mem_map_range hop)⟩

/-- The byte of a self-test result: kind and result, or 0x0F where there is none (R511). -/
def selfTestByte : Option (Nat × Nat) → Nat
  | some r => 16 * r.1 + r.2
  | none => 0x0F

theorem exec_getLogDeviceSelfTest_held (h : HeldLog s st 0x06 564 c) : ∃ page, exec (.getLogDeviceSelfTest st) s = s.logAnswer st c page id ∧
    (0, 1, 0) ∈ page ∧ ∀ i < 20, (4 + 28 * i, 1, selfTestByte s.nvme.selfTest.results[i]?) ∈ page := by
  change ∃ page, execGetLogDeviceSelfTest st s = _ ∧ _
  unfold execGetLogDeviceSelfTest
  exact onLog_gives h ⟨List.mem_cons_self, fun i hi => List.mem_cons_of_mem _
    (mem_map_range (f := fun i => (4 + 28 * i, 1, selfTestByte s.nvme.selfTest.results[i]?)) hi)⟩

/-- The records of the ring stand in the page at their own places (R597, R602). -/
theorem exec_getLogEventRecorder_held (h : HeldLog s st 0xC1 ringEnd c) : ∃ page, exec (.getLogEventRecorder st) s = s.logAnswer st c page id ∧
    (∀ x ∈ s.ringHeader, x ∈ page) ∧ ∀ e ∈ s.evt.recs, ∀ x ∈ e.2.fields e.1, x ∈ page := by
  change ∃ page, execGetLogEventRecorder st s = _ ∧ _
  unfold execGetLogEventRecorder
  exact onLog_gives h ⟨fun x hx => List.mem_append_left _ hx, fun e he x hx => List.mem_append_right _ (List.mem_flatMap_of_mem he hx)⟩

theorem exec_getLogAgeing_held (h : HeldLog s st 0xC5 512 c) : ∃ page,
    exec (.getLogAgeing st) s = s.logAnswer st c page (clearUnlessRae 7 0xC5 c) ∧
    (0, 4, 1 + 2 ^ 8 * s.pwr.ceiling + 2 ^ 16 * s.pwr.ageOffset) ∈ page ∧ (0x40, 4, s.pwr.bank.eUsable) ∈ page ∧ (0x44, 4, s.eRequired) ∈ page ∧
    (∀ ch < 32, (0x80 + 4 * ch, 4, s.ageFlash ch) ∈ page) ∧ ∀ f < 24, (0x100 + 8 * f, 8, s.ageHead f) ∈ page := by
  change ∃ page, execGetLogAgeing st s = _ ∧ _
  unfold execGetLogAgeing
  refine onLog_gives h ⟨?_, ?_, ?_, fun ch hch => ?_, fun f hf => ?_⟩
  · simp only [List.mem_append, List.mem_cons, true_or]
  · simp only [List.mem_append, List.mem_cons, true_or, or_true]
  · simp only [List.mem_append, List.mem_cons, true_or, or_true]
  · exact List.mem_append_left _ (List.mem_append_right _ (mem_map_range hch))
  · exact List.mem_append_right _ (mem_map_range hf)

end Rows

/-- Settles O8, from the row of each page. A self-test runs within its command, so that its page shows none in progress (assumption log 22). -/
theorem logPagesAnswerTheirContents : Obligations.LogPagesAnswerTheirContents := by
  intro s st c gives cleared
  refine ⟨exec_getLogSupportedPages_held, exec_getLogErrorInformation_held, exec_getLogCommandsEffects_held, exec_getLogDeviceSelfTest_held,
    fun h => (onLog_held h : execGetLogSanitizeStatus st s = _), fun h => (onLog_held h : execGetLogPlacementReport st s = _),
    exec_getLogEventRecorder_held, exec_getLogAgeing_held, fun h => (onLog_held h : execGetLogMediaGeometry st s = _)⟩

end Sys2Proof.Machine
end

section
/-!
Fault Inject and Event Recorder Clear: what the row of each answers to a held command, and O11, which collects these equations.
-/
namespace Sys2Proof.Machine
open Sys2Proof

section Rows
variable {s : State} {st : Nat} {c : Ctx}

/-! Fault Inject (R509, R591) -/

/-- The sources with every force bit clear. -/
def forcesCleared (srcs : Tab Src) : Tab Src := srcs.map fun e => (e.1, { e.2 with force := false })

theorem force_of_mem_forcesCleared {srcs : Tab Src} {e : Nat × Src} (he : e ∈ forcesCleared srcs) : e.2.force = false := by
  obtain ⟨_, -, rfl⟩ := List.mem_map.mp he
  rfl

section Inject
variable (h : Held s st 0xC4 c) (hlow : bits (c.dw 10) 10 6 = 0) (hhigh : bits (c.dw 10) 18 14 = 0)
include h hlow hhigh

theorem exec_faultInjectForce_source (hone : bitAt (c.dw 10) 17 = false) (htest : s.cfg.testMode = true)
    (hsource : defaultClass (bits (c.dw 10) 0 10) ≠ 0) : exec (.faultInjectForce st) s =
      .next ((s.complete st 0 0).setForce (bits (c.dw 10) 0 10) (bitAt (c.dw 10) 16)) := by
  have hrow : exec (.faultInjectForce st) s = _ := onAdmin_held h
  rw [hrow]
  simp [hlow, hhigh, hone, htest, hsource]

theorem exec_faultInjectForce_locked (hlocked : s.cfg.testMode = false) : exec (.faultInjectForce st) s = .next (s.complete st 0x7C7 0) := by
  have hrow : exec (.faultInjectForce st) s = _ := onAdmin_held h
  rw [hrow]
  simp [hlow, hhigh, hlocked, vendor]

theorem exec_faultInjectClearAll_test (hall : bitAt (c.dw 10) 17 = true) (htest : s.cfg.testMode = true) : exec (.faultInjectClearAll st) s =
    .next ((s.complete st 0 0).modFlt fun t => { t with srcs := forcesCleared t.srcs }) := by
  have hrow : exec (.faultInjectClearAll st) s = _ := onAdmin_held h
  rw [hrow]
  simp [hlow, hhigh, hall, htest, forcesCleared]

end Inject

/-! Event Recorder Clear (R510, R603) -/

/-- Who clears the ring: the host, or the management endpoint. -/
def Ctx.clearer (c : Ctx) : Nat := if c.isMgmt = true then 2 else 1

theorem clearOrder_ready {upto : Option (BitVec 32)} (hstamp : c.stamp = st) (hstarted : s.evt.started = true) (hawake : s.dram.selfRefresh = false) :
    s.clearOrder c upto = (s.clearRecords c.clearer upto).2.complete st 0 (BitVec.ofNat 32 (s.clearRecords c.clearer upto).1) := by
  unfold State.clearOrder
  rw [if_neg (by simp [hstarted, hawake]), hstamp]
  rfl

theorem clearOrder_waits {upto : Option (BitVec 32)} (hstamp : c.stamp = st) (hearly : s.evt.started = false) :
    s.clearOrder c upto = (s.modEvt fun e => { e with clears := e.clears ++ [(c.clearer, upto, some st)] }).modCtx st fun x => { x with begun := true } := by
  unfold State.clearOrder
  rw [if_pos (by simp [hearly]), hstamp]
  rfl

theorem clear_not_waiting (hnew : ∀ e ∈ s.evt.clears, e.2.2 ≠ some st) : (s.evt.clears.any fun e => e.2.2 == some st) = false := by
  simpa using hnew

section Clear
variable (h : Held s st 0xC8 c) (hnew : ∀ e ∈ s.evt.clears, e.2.2 ≠ some st)
include h hnew

theorem exec_eventRecorderClearUpto_new (hupto : c.dw 11 = 0) : exec (.eventRecorderClearUpto st) s =
    .next (s.clearOrder c (some (BitVec.ofNat 32 (c.dw 10)))) := by
  have hrow : exec (.eventRecorderClearUpto st) s = _ := onAdmin_held h
  rw [hrow, clear_not_waiting hnew, hupto]
  rfl

theorem exec_eventRecorderClearAll_new (hall : c.dw 11 = 1) : exec (.eventRecorderClearAll st) s = .next (s.clearOrder c none) := by
  have hrow : exec (.eventRecorderClearAll st) s = _ := onAdmin_held h
  rw [hrow, clear_not_waiting hnew, hall]
  rfl

end Clear
end Rows

/-- Settles O11, from the row of each command. -/
theorem faultInjectAndEventClears : Obligations.FaultInjectAndEventClears := by
  intro s st c w who
  refine ⟨fun h hone hlow hhigh => exec_faultInjectForce_source h hlow hhigh hone, exec_faultInjectForce_locked,
    fun h hall hlow hhigh htest => ⟨_, exec_faultInjectClearAll_test h hlow hhigh hall htest, rfl, fun e he => force_of_mem_forcesCleared he⟩,
    fun h hupto hnew hstamp hstarted hawake => ?_, fun h hall hnew hstamp hstarted hawake => ?_, fun h hall hnew hstamp hearly => ?_⟩
  · exact (exec_eventRecorderClearUpto_new h hnew hupto).trans (congrArg Host.Outcome.next (clearOrder_ready hstamp hstarted hawake))
  · exact ⟨_, (exec_eventRecorderClearAll_new h hnew hall).trans (congrArg Host.Outcome.next (clearOrder_ready hstamp hstarted hawake)), rfl⟩
  · exact (exec_eventRecorderClearAll_new h hnew hall).trans (congrArg Host.Outcome.next (clearOrder_waits hstamp hearly))

end Sys2Proof.Machine
end

section
/-!
Firmware Image Download, Firmware Commit and Scheduled Activation: what the row of each answers to a held command, and O12, which collects these
equations.
-/
namespace Sys2Proof.Machine
open Sys2Proof

section Rows
variable {s : State} {st sel ca : Nat} {c : Ctx} {data : List Byte} {bad : List Nat}

/-! Download (R570) -/

/-- The bytes of a download that moves `NUMD + 1` dwords. -/
def Ctx.downloadLen (c : Ctx) : Nat := 4 * (c.dw 10 + 1)

section Download
variable (h : Held s st 0x11 c) (hidle : s.fw.act = none) (hfits : 4 * c.dw 11 + c.downloadLen ≤ 12582912)
include h hidle hfits

/-- A download that fits starts the buffer, extends it at its end, and is else out of order. -/
theorem exec_firmwareImageDownload_fits : exec (.firmwareImageDownload st data) s = .next (
    if 4 * c.dw 11 = 0 then (s.modFw fun f => { f with buf := data.take c.downloadLen }).complete st 0 0
    else if 4 * c.dw 11 ≠ s.fw.buf.length then s.complete st 0x114 0
    else (s.modFw fun f => { f with buf := f.buf ++ data.take c.downloadLen }).complete st 0 0) :=
  (onAdmin_held h).trans (congrArg Host.Outcome.next ((if_neg (by simp [hidle])).trans (if_neg (Nat.not_lt.mpr hfits))))

end Download

/-! Commit (R571, R572) -/

/-- The slot that a commit names: its own, or with 0 the slot that does not run. -/
def State.namedSlot (s : State) (c : Ctx) : Nat := if bits (c.dw 10) 0 3 = 0 then 3 - s.fw.runSlot else bits (c.dw 10) 0 3

/-- The set that a commit starts from: the one that runs, or, to activate a slot, the one that the slot holds. -/
def State.baseSet (s : State) (ca slot : Nat) : Tab FwComp := if ca = 2 && slot ≠ s.fw.runSlot then s.fw.other else s.fw.running

theorem State.baseSet_two (s : State) (slot : Nat) : s.baseSet 2 slot = if slot = s.fw.runSlot then s.fw.running else s.fw.other := by
  by_cases hruns : slot = s.fw.runSlot
  · simp [State.baseSet, hruns]
  · simp [State.baseSet, hruns]

/-- The stored images of that set. -/
def State.baseImages (s : State) (ca slot : Nat) : Tab (List Byte) :=
  if ca = 2 then (s.baseSet ca slot).map fun e => (e.1, s.nvmBytes e.2.addr e.2.len) else s.runningImages

theorem State.baseSet_of_ne_two (s : State) (slot : Nat) (hca : ca ≠ 2) : s.baseSet ca slot = s.fw.running := by simp [State.baseSet, hca]

theorem State.baseImages_of_ne_two (s : State) (slot : Nat) (hca : ca ≠ 2) : s.baseImages ca slot = s.runningImages := if_neg hca

/-- A package over a set, and its images over the set's. -/
def overSet (p : Tab (List Byte)) (set : Tab FwComp) : Tab FwComp := p.foldl (fun t e => tput t e.1 (wrapInfo e.2)) set
def overImages (p : Tab (List Byte)) (images : Tab (List Byte)) : Tab (List Byte) := p.foldl (fun t e => tput t e.1 (storedBytes e.1 e.2)) images

/-- The boot block that a commit prepares; action 0 prepares none. -/
def State.commitTwin (s : State) (ca : Nat) : Option Bool := if ca = 0 then none else some (!s.fw.bootB)

/-- A held commit that passes the checks of R571 with the package that it stores, which for action 2 is empty. -/
structure CommitPasses (s : State) (st ca : Nat) (c : Ctx) (bad : List Nat) (p : Tab (List Byte)) : Prop where
  held : Held s st 0x10 c
  action : bits (c.dw 10) 3 3 = ca
  defined : ca ≤ 3
  reserved : bitAt (c.dw 10) 31 = false
  exists_ : bits (c.dw 10) 0 3 ≤ 2
  idle : s.fw.act = none
  other : ca = 2 ∨ s.namedSlot c ≠ s.fw.runSlot
  package : (if ca = 2 then some [] else packageOf s.fw.buf) = some p
  good : ∀ e ∈ p, s.wrapGood bad e.2 = true
  stored : ca = 2 → s.baseSet ca (s.namedSlot c) ≠ [] ∧ ∀ k ∈ bad, thas (s.baseSet ca (s.namedSlot c)) k = false
  current : ca = 2 → ∀ e ∈ s.baseSet ca (s.namedSlot c), e.1 = 5 ∨ s.fw.svnFloor ≤ e.2.svn
  accepts : compatible (overSet p (s.baseSet ca (s.namedSlot c))) = true
  unprotected : ∀ n ∈ s.commitSectors (s.namedSlot c) (if ca = 2 then [] else overImages p (s.baseImages ca (s.namedSlot c))) (s.commitTwin ca),
    n ∉ s.ospi.prot

theorem commit_passes {p : Tab (List Byte)} (h : CommitPasses s st ca c bad p) : s.commit st ca bad false =
    .next (s.doCommit st ca (s.namedSlot c) (overSet p (s.baseSet ca (s.namedSlot c))) (overImages p (s.baseImages ca (s.namedSlot c)))) := by
  obtain ⟨hheld, haction, hdefined, hreserved, hexists, hidle, hother, hpackage, hgood, hstored, hcurrent, haccepts, hunprotected⟩ := h
  have hfree : ¬ (decide (ca ≠ 2) && decide (s.namedSlot c = s.fw.runSlot)) = true := by simpa using hother.resolve_left
  have hverified : ¬ (!(p.all fun e => s.wrapGood bad e.2) || (decide (ca = 2) &&
      ((s.baseSet ca (s.namedSlot c)).isEmpty || bad.any fun k => thas (s.baseSet ca (s.namedSlot c)) k))) = true := by
    simpa using ⟨fun a b => hgood (a, b), hstored⟩
  have hnew : ¬ (decide (ca = 2) && (s.baseSet ca (s.namedSlot c)).any fun e => decide (e.1 ≠ 5) && decide (e.2.svn < s.fw.svnFloor)) = true := by
    simpa [or_iff_not_imp_left] using hcurrent
  have hset : ¬ (!compatible (overSet p (s.baseSet ca (s.namedSlot c)))) = true := by simpa using haccepts
  have hopen : ¬ ((s.commitSectors (s.namedSlot c) (if ca = 2 then [] else overImages p (s.baseImages ca (s.namedSlot c))) (s.commitTwin ca)).any
      fun n => s.ospi.prot.contains n) = true := by simpa using hunprotected
  refine (onAdmin_held hheld).trans (congrArg Host.Outcome.next ((if_neg ?_).trans ((if_neg ?_).trans ((if_neg ?_).trans ((if_neg ?_).trans
    ((if_neg ?_).trans ((if_neg hfree).trans ?_)))))))
  · simp [hidle]
  · simp [haction]
  · simp [haction, hreserved]; omega
  · omega
  · simp [hidle]
  · simp only [hpackage]
    exact (if_neg hverified).trans ((if_neg hnew).trans ((if_neg hset).trans (if_neg hopen)))

/-! Scheduled Activation (R504, R576) -/

section Schedule
variable (h : HeldSet s st 0xC2 c) (hreserved : fieldAt data 6 2 = 0) (htime : fieldAt data 8 8 < 2 ^ 48)
include h hreserved htime

/-- A Set of one of the two arming values, with a time of 48 bits. -/
theorem exec_setScheduledActivation_admitted {w : Nat} (hvalue : fieldAt data 0 4 = w) (hbits : bits w 1 7 = 0 ∧ bits w 9 23 = 0)
    (hclock : bitAt w 0 = true → s.nvme.tsBase.isSome = true) :
    let t := s.modFw fun f => { f with armed := bitAt w 0, actTime := BitVec.ofNat 64 (fieldAt data 8 8) }
    exec (.setScheduledActivation st data) s = .next ((if bitAt w 0 then t else t.cancelScheduled).complete st 0 0) := by
  have htop : bits (fieldAt data 8 8) 48 16 = 0 := by unfold bits; rw [Nat.div_eq_of_lt htime, Nat.zero_mod]
  subst hvalue
  refine (onSet_held h).trans (congrArg Host.Outcome.next ((if_neg ?_).trans (if_neg ?_)))
  · simp [hbits, hreserved, htop]
  · simpa using fun harms => Option.isSome_iff_ne_none.mp (hclock harms)

end Schedule

theorem exec_getScheduledActivation_held (h : HeldGet s st 0xC2 sel c) (hsel : sel ≠ 1) : exec (.getScheduledActivation st) s =
    .next ((s.giveData c 16 [(0, 4, (if s.fw.armed then 1 else 0) + (if s.actPending then 256 else 0)), (4, 2, 500), (8, 6, s.fw.actTime.toNat)]).complete
      st 0 0) := by
  have hpending : 2 ^ 8 * b2n s.actPending = if s.actPending then 256 else 0 := by unfold b2n; split <;> rfl
  refine (show execGetScheduledActivation st s = _ from onGet_held h).trans ?_
  simp only [hsel, if_false, hpending]
  rfl

end Rows

/-- Settles O12, from the row of each command and the one lemma of what a commit does once its checks pass. That action 2 may name the slot that runs, and
that BOOT lies at 0x1_0000 of its boot block in a commit of action 0, are the model's readings (assumption logs 72 and 73). -/
theorem firmwareDownloadAndCommit : Obligations.FirmwareDownloadAndCommit := by
  intro s st sel c data bad p w len slot images set passes fits slotSet
  have hstores {ca : Nat} (hca : ca ≤ 3 ∧ ca ≠ 2) (h : passes ca) (hfits : fits (s.commitTwin ca)) :
      s.commit st ca bad false = .next (s.doCommit st ca slot set images) := by
    obtain ⟨hheld, haction, hreserved, hexists, hidle⟩ := h
    obtain ⟨hother, hpackage, hgood, haccepts, hopen⟩ := hfits
    have hset := s.baseSet_of_ne_two (s.namedSlot c) hca.2
    have himages := s.baseImages_of_ne_two (s.namedSlot c) hca.2
    have hrow := commit_passes (p := p) ⟨hheld, haction, hca.1, hreserved, hexists, hidle, .inr hother, (if_neg hca.2).trans hpackage, hgood,
      (absurd · hca.2), (absurd · hca.2), hset ▸ haccepts, by rw [if_neg hca.2, himages]; exact hopen⟩
    rw [hset, himages] at hrow
    exact hrow
  refine ⟨fun h hidle hfits hoff => ?_, fun h hidle hfits hoff hend => ?_, fun h hidle hfits hoff hgap => ?_,
    hstores (by decide), hstores (by decide), fun h hholds hverified hcurrent haccepts hopen => ?_, hstores (by decide),
    fun h hvalue hreserved htime hclock => ?_, fun h hvalue hreserved htime => ?_, exec_getScheduledActivation_held⟩
  · exact (exec_firmwareImageDownload_fits h hidle (by rwa [hoff, Nat.mul_zero, Nat.zero_add])).trans (congrArg Host.Outcome.next (if_pos (by omega)))
  · exact (exec_firmwareImageDownload_fits h hidle hfits).trans (congrArg Host.Outcome.next ((if_neg (by omega)).trans (if_neg (by omega))))
  · exact (exec_firmwareImageDownload_fits h hidle hfits).trans (congrArg Host.Outcome.next ((if_neg (by omega)).trans (if_pos (by omega))))
  · obtain ⟨hheld, haction, hreserved, hexists, hidle⟩ := h
    have hset : s.baseSet 2 (s.namedSlot c) = slotSet := s.baseSet_two (s.namedSlot c)
    have hrow := commit_passes (p := []) ⟨hheld, haction, by decide, hreserved, hexists, hidle, .inl rfl, rfl, by simp,
      fun _ => by rw [hset]; exact ⟨hholds, hverified⟩, fun _ => by rw [hset]; exact hcurrent, by rw [hset]; exact haccepts, hopen⟩
    unfold State.baseImages at hrow
    rw [hset] at hrow
    exact hrow
  · exact exec_setScheduledActivation_admitted h hreserved htime hvalue (by decide) fun _ => hclock
  · exact exec_setScheduledActivation_admitted h hreserved htime hvalue (by decide) nofun

end Sys2Proof.Machine
end

section
/-!
The management endpoint: what the row of each NVMe-MI command answers while the endpoint is open, the end of an arbitration cycle, and O36, which
collects these equations.
-/
namespace Sys2Proof.Machine
open Sys2Proof

theorem State.send_send_out (s : State) (a b : Out) : ((s.send a).send b).out = s.out ++ [a, b] := List.append_assoc s.out [a] [b]

section Rows
variable {s : State} {tag dtyp port v first cfg : Nat}

/-! Configuration values and orders -/

/-- A configuration that a port has: port 1 a bus frequency, both ports a transmission unit. -/
def MiSettable (cfg port : Nat) : Prop := cfg = 1 ∧ port = 1 ∨ cfg = 3 ∧ port ≤ 1

/-- A value that a configuration takes: one of three bus frequencies, a transmission unit of 64 bytes or more. -/
def MiAdmitted (cfg v : Nat) : Prop := cfg = 1 ∧ 1 ≤ v ∧ v ≤ 3 ∨ cfg = 3 ∧ 64 ≤ v ∧ v < 65536

/-- A configuration value is stored. -/
def State.setMi (s : State) (cfg port v : Nat) : State := s.modNvme fun n => { n with miCfg := tput n.miCfg (256 * cfg + port) v }

theorem State.miValue_setMi (s : State) (cfg port v : Nat) : (s.setMi cfg port v).miValue cfg port = v := by
  simp [State.miValue, State.setMi, tgetD, tget_tput]

/-- The status that turns a tunnelled command away, 0 for none. -/
def State.tunnelTurned (s : State) (sqe : Sqe) : Nat := if s.safeState && !safeServed sqe then scInternal else tunnelStatus sqe

/-- A tunnelled command as an order of the management endpoint. -/
def mgmtOrder (tag : Nat) (sqe : Sqe) : MgmtOrder := { host := false, op := sqe.opcode, nsid := sqe.nsid.toNat, cdw := sqe.cdw, tag := tag }

section Open
variable (hopen : s.miOpen = true)
include hopen

/-- The endpoint is open: a row does not stop at its first test. -/
theorem mi_serves : ¬ (!s.miOpen) = true := by simp [hopen]

/-! Data structures and health polls (R519) -/

/-- The subsystem, the controllers, a controller and the optional commands are each answered with data. -/
theorem exec_miReadDataStructure_listed (hlisted : dtyp ∈ [0, 2, 3, 4]) :
    ∃ (u : State) (len : Nat) (fields : List (Nat × Nat × Nat)) (dw0 : Nat), u.out = s.out ∧ exec (.miReadDataStructure tag dtyp port) s =
      .next ((u.send (.miData tag len fields)).send (.mi tag 0 (BitVec.ofNat 32 dw0))) := by
  have hserves := mi_serves hopen
  simp only [List.mem_cons, List.not_mem_nil, or_false] at hlisted
  rcases hlisted with rfl | rfl | rfl | rfl
  · exact ⟨s.drawn, _, _, _, rfl, if_neg hserves⟩
  · exact ⟨s, _, _, _, rfl, if_neg hserves⟩
  · exact ⟨s, _, _, _, rfl, if_neg hserves⟩
  · exact ⟨s, _, _, _, rfl, if_neg hserves⟩

theorem exec_miReadDataStructure_port (hport : port ≤ 1) : ∃ fields, exec (.miReadDataStructure tag 1 port) s =
    .next ((s.send (.miData tag 32 fields)).send (.mi tag 0 32)) := by
  have hserves := mi_serves hopen
  obtain rfl | rfl : port = 0 ∨ port = 1 := by omega
  · exact ⟨_, if_neg hserves⟩
  · exact ⟨_, if_neg hserves⟩

theorem exec_miReadDataStructure_unknown (hunknown : 4 < dtyp) :
    exec (.miReadDataStructure tag dtyp port) s = .next (s.send (.mi tag miInvalid 0)) := by
  obtain ⟨k, rfl⟩ : ∃ k, dtyp = k + 5 := ⟨dtyp - 5, by omega⟩
  exact if_neg (mi_serves hopen)

theorem exec_miSubsystemHealthPoll_open : exec (.miSubsystemHealthPoll tag) s = .next ((s.send (.miData tag 8
    [(0, 1, 32 * b2n (!s.safeState) + 16 + 8 * b2n s.pcie.linkUp), (1, 1, 255 - s.nvme.critWarn.toNat), (2, 1, pattern 8 (s.therm.composite / 8)),
     (3, 1, min 255 s.percentUsed), (4, 2, s.miCsts)])).send (.mi tag 0 0)) := if_neg (mi_serves hopen)

theorem exec_miControllerHealthPoll_first : exec (.miControllerHealthPoll tag 0) s = .next ((s.send (.miData tag 16
    [(2, 2, s.miCsts), (4, 2, kelvin s.therm.composite), (6, 1, min 255 s.percentUsed), (7, 1, s.availableSpare),
     (8, 1, s.nvme.critWarn.toNat)])).send (.mi tag 0 1)) := if_neg (mi_serves hopen)

theorem exec_miControllerHealthPoll_beyond (hfirst : 0 < first) : exec (.miControllerHealthPoll tag first) s = .next (s.send (.mi tag 0 0)) :=
  (if_neg (mi_serves hopen)).trans (if_pos hfirst)

/-! Configuration values (R518, R519) -/

theorem exec_miConfigurationSet_admitted (hcfg : MiSettable cfg port) (hv : MiAdmitted cfg v) :
    exec (.miConfigurationSet tag cfg port v) s = .next ((s.setMi cfg port v).send (.mi tag 0 0)) := by
  unfold MiSettable MiAdmitted at *
  exact (if_neg (mi_serves hopen)).trans ((if_neg (by omega)).trans (if_pos (by simp; omega)))

theorem exec_miConfigurationGet_settable (hcfg : MiSettable cfg port) :
    exec (.miConfigurationGet tag cfg port) s = .next (s.send (.mi tag 0 (BitVec.ofNat 32 (s.miValue cfg port)))) := by
  unfold MiSettable at hcfg
  exact (if_neg (mi_serves hopen)).trans ((if_neg (by omega)).trans (if_pos (by simp; omega)))

/-- A Get after a Set answers what was stored. -/
theorem exec_miConfiguration_get_set (hcfg : MiSettable cfg port) (hv : MiAdmitted cfg v) :
    Does (.miConfigurationSet tag cfg port v) s fun t => t.miValue cfg port = v ∧ t.out = s.out ++ [.mi tag 0 0] ∧
      exec (.miConfigurationGet tag cfg port) t = .next (t.send (.mi tag 0 (BitVec.ofNat 32 v))) := by
  have hvalue : ((s.setMi cfg port v).send (.mi tag 0 0)).miValue cfg port = v := s.miValue_setMi cfg port v
  have hget := exec_miConfigurationGet_settable (s := (s.setMi cfg port v).send (.mi tag 0 0)) (tag := tag) hopen hcfg
  rw [hvalue] at hget
  exact ⟨_, exec_miConfigurationSet_admitted hopen hcfg hv, hvalue, rfl, hget⟩

/-! Tunnelled commands (R519, R520, R586) -/

theorem exec_miTunnelledAdminCommand_open (sqe : Sqe) : exec (.miTunnelledAdminCommand tag sqe) s =
    if s.tunnelTurned sqe ≠ 0 then .next (s.send (.mi tag (s.tunnelTurned sqe) 0))
    else if orders sqe.opcode.toNat then .next (s.modNvme fun n => { n with cycle := n.cycle ++ [mgmtOrder tag sqe] })
    else .next (s.admitMgmt (mgmtOrder tag sqe)) := if_neg (mi_serves hopen)

end Open

/-! The arbitration cycle (R520, R540) -/

/-- The cycle has ended after 1 µs, and its orders are taken off. -/
def State.cycleEnded (s : State) : State := (s.setNow (s.now + us)).modNvme fun n => { n with cycle := [] }

/-- A cycle of one host order and one management order: the management order is refused if it contradicts the host's, and admitted if not. -/
theorem exec_orderArbitrationCycle_pair {h o : MgmtOrder} {sameData : List Nat} (hcycle : s.nvme.cycle = [h, o]) (hhost : h.host = true)
    (hmgmt : o.host = false) : exec (.orderArbitrationCycle sameData) s = .next (
      if o.contradicts h (sameData.contains o.tag) then s.cycleEnded.send (.mi o.tag 0xE0 0)
      else if s.cycleEnded.safeState && o.op.toNat != 0xC8 then s.cycleEnded.send (.mi o.tag scInternal 0)
      else s.cycleEnded.admitMgmt o) := by
  change execOrderArbitrationCycle sameData s = _
  simp only [execOrderArbitrationCycle, hcycle, List.filter_cons, List.filter_nil, hhost, hmgmt, if_true, Bool.not_true, Bool.not_false, Bool.false_eq_true,
    if_false, List.foldl_cons, List.foldl_nil, List.any_cons, List.any_nil, Bool.or_false]
  rfl

end Rows

/-- Settles O36, from the row of each command. Layouts, statuses and the least transmission unit are presumed from NVMe-MI (assumption log 42); that the
cycle ends by its command alone, and what contradicts a host order, is the model's choice (log 60). -/
theorem managementCommandsAreAnswered : Obligations.ManagementCommandsAreAnswered := by
  intro s tag dtyp port v first sqe o h sameData turned order ended hopen
  refine ⟨fun d hd => ?_, fun hport => ?_, exec_miReadDataStructure_unknown hopen, ⟨_, exec_miSubsystemHealthPoll_open hopen, s.send_send_out _ _, rfl⟩,
    ⟨_, exec_miControllerHealthPoll_first hopen, s.send_send_out _ _, rfl⟩, exec_miControllerHealthPoll_beyond hopen,
    fun hport hlow hhigh => exec_miConfiguration_get_set hopen (.inr ⟨rfl, hport⟩) (.inr ⟨rfl, hlow, hhigh⟩), fun hlow hhigh => ?_,
    ⟨if_neg (mi_serves hopen), if_neg (mi_serves hopen)⟩, fun hturned => ?_, fun hadmitted horders => ?_, fun hadmitted hother => ?_,
    fun hcycle hhost hmgmt => ⟨fun hcontra => ?_, fun hagree hrunning => ?_⟩⟩
  · obtain ⟨u, len, fields, dw0, hout, hrow⟩ := exec_miReadDataStructure_listed (tag := tag) (port := port) hopen hd
    exact ⟨_, hrow, len, fields, _, hout ▸ u.send_send_out _ _⟩
  · obtain ⟨fields, hrow⟩ := exec_miReadDataStructure_port (tag := tag) hopen hport
    exact ⟨_, hrow, fields, s.send_send_out _ _⟩
  · obtain ⟨t, hset, hvalue, -, hget⟩ := exec_miConfiguration_get_set (tag := tag) hopen (.inl ⟨rfl, rfl⟩) (.inl ⟨rfl, hlow, hhigh⟩)
    exact ⟨t, hset, hvalue, hget⟩
  · exact (exec_miTunnelledAdminCommand_open hopen sqe).trans (if_pos hturned)
  · exact (exec_miTunnelledAdminCommand_open hopen sqe).trans ((if_neg (not_not_intro hadmitted)).trans (if_pos horders))
  · exact (exec_miTunnelledAdminCommand_open hopen sqe).trans ((if_neg (not_not_intro hadmitted)).trans (if_neg (ne_true_of_eq_false hother)))
  · exact (exec_orderArbitrationCycle_pair hcycle hhost hmgmt).trans (congrArg Host.Outcome.next (if_pos hcontra))
  · exact (exec_orderArbitrationCycle_pair hcycle hhost hmgmt).trans (congrArg Host.Outcome.next
      ((if_neg (ne_true_of_eq_false hagree)).trans (if_neg (by rw [show s.cycleEnded.safeState = false from hrunning]; simp))))

end Sys2Proof.Machine
end

section
/-!
When the power die releases the controller die, and O21.
-/
namespace Sys2Proof.Machine
open Sys2Proof

section Rows
variable {s : State} {bankSize : Nat} {bad : List (Nat × Nat)} {otpBad : Bool} {margins : List (List (List Int))}

/-- A release needs VIN_MAIN above its threshold and nothing that holds the controller die off (R611). -/
theorem State.mayStart_conditions (h : s.mayStart = true) :
    s.key2 0x0601 + 300 ≤ s.pwr.vinMain ∧ s.therm.shutHold = false ∧ s.pwr.heldOff = false := by
  unfold State.mayStart at h
  simp only [Bool.and_eq_true, Bool.not_eq_true', decide_eq_true_eq] at h
  obtain ⟨⟨⟨⟨⟨⟨-, -⟩, hheld⟩, hshut⟩, -⟩, -⟩, hvin⟩ := h
  exact ⟨hvin, hshut, hheld⟩

theorem exec_bootStart_early (h : s.mayStart = false) : exec (.bootStart bankSize bad otpBad margins) s = .next s := if_pos (by simp [h])

/-- A boot start that happens happens no earlier than 10 ms after VIN_MAIN came to its level. -/
theorem exec_bootStart_clock {t : State} (h : s.mayStart = true) (hnext : exec (.bootStart bankSize bad otpBad margins) s = .next t) :
    s.pwr.mainSince + 10 * ms ≤ t.now := by
  obtain ⟨u, hgoes, hkeeps⟩ := exec_bootStart_keeps_reached h bankSize bad otpBad margins
  obtain rfl : u = t := Host.Outcome.next.inj (hgoes.symm.trans hnext)
  calc s.pwr.mainSince + 10 * ms
    _ ≤ s.startClock := le_max_left _ _
    _ ≤ (s.reach s.startClock).now := le_max_right _ _
    _ ≤ u.now := hkeeps.clock

end Rows

/-- Settles O21: a boot start goes on only where the power die may release the controller die, which no level of VIN_BKUP enters, and it waits for its
10 ms by moving the clock (assumption log 3). -/
theorem theYhStartsOnlyOnVinMain : Obligations.TheYhStartsOnlyOnVinMain := by
  intro s bankSize bad otpBad margins
  refine ⟨fun t hnext hreset hreleased => ?_, fun hlow vb => exec_bootStart_early ?_⟩
  · cases hmay : s.mayStart with
    | false =>
      obtain rfl : s = t := Host.Outcome.next.inj ((exec_bootStart_early hmay).symm.trans hnext)
      exact absurd hreset (by simp [hreleased])
    | true =>
      obtain ⟨hvin, hshut, hheld⟩ := s.mayStart_conditions hmay
      exact ⟨hvin, exec_bootStart_clock hmay hnext, hshut, hheld⟩
  · refine Bool.eq_false_iff.mpr fun hmay => ?_
    obtain ⟨hvin, -, -⟩ := State.mayStart_conditions hmay
    exact absurd hvin (Nat.not_le.mpr hlow)

end Sys2Proof.Machine
end

section
/-!
Temperatures: a sample and what it leads to, the composite, the rate of rise, and O22, which collects them.
-/
namespace Sys2Proof.Machine
open Sys2Proof

section Rows
variable {s : State} {input : Nat} {reading : Option Int} {ref : Int}

/-! A sample (R629, R633, R636) -/

theorem State.sensor_modSensor (s : State) (i : Nat) (f : Sensor → Sensor) : (s.modSensor i f).sensor i = f (s.sensor i) := by
  simp [State.sensor, State.modSensor, tmod, tgetD, tget_tput]

/-- The instant of an input's next sample. -/
def State.sampleInstant (s : State) (input : Nat) : State := s.reach ((s.sensor input).sampledAt + samplePeriod input)

/-- An input that is sampled takes its reading; with the controller die in reset only the hold of a shutdown may end, and else the reading is judged. -/
theorem exec_temperatureSample_sampled (hsampled : s.sampled input = true) (haon : s.pwr.aon = true) :
    let r := s.sampleInstant input
    let taken := r.takeReading input reading (r.stuckRef input)
    exec (.temperatureSample input reading) s =
      if s.pwr.crst then .next taken.shutRelease else .next (taken.judgeReading input (r.stuckRef input)) := if_neg (by simp [hsampled, haon])

theorem State.judgeReading_of_sound (h : (s.sensor input).broken = true ∨ (s.sensor input).brokenBy (decide (20 ≤ input)) ref s.now = none) :
    s.judgeReading input ref = if 3 ≤ (s.bands.sensor input).hot && !s.bands.therm.shutHold
      then s.bands.protectiveShutdown input (s.bands.sensor input).reading else s.bands := by
  unfold State.judgeReading
  rcases h with h | h
  · simp only [h, if_true]
  · simp only [h, ite_self]

/-! The composite (R630, R635, R637) -/

/-- The time of the last composite, the composite and the inputs are the same, and so is the clock. -/
structure SameComposite (u t : State) : Prop where
  now : t.now = u.now
  compAt : t.therm.compAt = u.therm.compAt
  composite : t.therm.composite = u.therm.composite
  sensors : t.therm.sensors = u.therm.sensors

theorem SameComposite.trans {u v t : State} (h : SameComposite u v) (k : SameComposite v t) : SameComposite u t :=
  ⟨k.now.trans h.now, k.compAt.trans h.compAt, k.composite.trans h.composite, k.sensors.trans h.sensors⟩

theorem SameComposite.of_hostless {u t : State} (h : t.hostless = u.hostless) : SameComposite u t :=
  have htherm : t.hostless.therm = u.hostless.therm := congrArg State.therm h
  have hnow : t.hostless.now = u.hostless.now := congrArg State.now h
  ⟨hnow, congrArg ThermSt.compAt htherm, congrArg ThermSt.composite htherm, congrArg ThermSt.sensors htherm⟩

theorem SameComposite.note (u : State) (id kind index : Nat) (args : List Nat) : SameComposite u (u.note id kind index args) :=
  ⟨by simp, by simp, by simp, by simp⟩

/-- The composite is taken: the largest contribution of the inputs, 10 ms after the one before. -/
def State.compositeTaken (s : State) : State :=
  let q := s.reach (s.therm.compAt + 10 * ms)
  q.modTherm fun t => { t with composite := ((q.hottest 0 24).map (·.2)).getD q.therm.composite, compAt := q.now }

/-- Warnings, times and the throttle level follow the composite and do not change it. -/
theorem exec_compositeTemperatureUpdate_on (hon : s.pwr.crst = false) : Does .compositeTemperatureUpdate s (SameComposite s.compositeTaken) := by
  change ∃ t, execCompositeTemperatureUpdate s = .next t ∧ _
  unfold execCompositeTemperatureUpdate
  rw [if_neg (ne_true_of_eq_false hon)]
  extract_lets q c taken hot broken crossed warned k timed old level throttled
  refine ⟨_, rfl, ?_⟩
  have hcrossed : SameComposite taken crossed := ⟨rfl, rfl, rfl, rfl⟩
  have hwarned : SameComposite crossed warned := .of_hostless (by unfold warned; split <;> simp)
  have htimed : SameComposite warned timed := by
    unfold timed
    split
    · exact ⟨rfl, rfl, rfl, rfl⟩
    · split
      · exact ⟨rfl, rfl, rfl, rfl⟩
      · exact ⟨rfl, rfl, rfl, rfl⟩
  have hthrottled : SameComposite taken throttled := ((hcrossed.trans hwarned).trans htimed).trans ⟨rfl, rfl, rfl, rfl⟩
  split
  · exact hthrottled
  · exact hthrottled.trans (.note _ _ _ _ _)

end Rows

/-- Settles O22, from the row of each command. The reference of a stuck input is a deduced reading (assumption log 38), the hold of a shutdown is judged on
the inputs that are not masked (log 49), and the clock is moved to each sample (log 3). -/
theorem temperaturesAreTaken : Obligations.TemperaturesAreTaken := by
  intro s input reading v ref r taken x q
  refine ⟨fun hsampled haon hreset => ?_, fun hsampled haon hon => ?_, ?_, fun hsound hcool => ?_, fun hsound hhot hfree => ?_, fun hon => ?_,
    fun hon => ⟨_, if_neg (by simp [hon]), rfl⟩⟩
  · exact (exec_temperatureSample_sampled hsampled haon).trans (if_pos hreset)
  · exact (exec_temperatureSample_sampled hsampled haon).trans (if_neg (ne_true_of_eq_false hon))
  · unfold State.takeReading
    rw [State.sensor_modSensor]
    exact ⟨rfl, rfl⟩
  · exact (State.judgeReading_of_sound hsound).trans (if_neg (by simp [Nat.not_le.mpr hcool]))
  · exact (State.judgeReading_of_sound hsound).trans (if_pos (by simp [hhot, hfree]))
  · obtain ⟨t, hrow, hnow, hat, hcomposite, hsensors⟩ := exec_compositeTemperatureUpdate_on hon
    exact ⟨t, hrow, hnow, hat, hcomposite, hsensors⟩

end Sys2Proof.Machine
end

section
/-!
The spindle: what the row of each of its commands answers where its turn has come, and O44, which collects these equations.
-/
namespace Sys2Proof.Machine
open Sys2Proof

section Rows
variable {s : State}

/-! Spin-up (R410) -/

theorem exec_rotorSensingEnd_senses {amb : Bool} (hspin : s.rack.spin = .spinup) (hstate : s.servo.spindle.state = .sense) (hmotor : s.motorOn = true)
    (hvin : 10800 ≤ s.pwr.vinMain) (hparked : (s.servo.acts.all fun a => decide (a.mode = .parked) || decide (a.mode = .fenced)) = true) :
    let m := if amb then s.setNow (s.now + 200 * ms) else s
    exec (.rotorSensingEnd amb) s = .next (m.modSpindle fun p => { p with
      state := .openloop, attempts := satInc p.attempts, stageAt := m.now, cmd := m.keyN 0x0508 2 2 }) :=
  if_neg (by rw [hparked]; simp [hspin, hstate, hmotor, hvin])

theorem exec_backEmfDetected_ramp (hspin : s.rack.spin = .spinup) (hstate : s.servo.spindle.state = .openloop) :
    exec .backEmfDetected s = .next (s.modSpindle fun p => { p with state := .bemf, sp := [0, 0], stageAt := s.now }) :=
  if_neg (by simp [hspin, hstate])

theorem exec_runUpSpeedReached_closed (hspin : s.rack.spin = .spinup) (hstate : s.servo.spindle.state = .bemf) (hmotor : s.motorOn = true) :
    exec .runUpSpeedReached s = .next (s.modServo fun v => { v with
      acts := v.acts.map fun z => ({ z with loadTries := 0 } : ServoAct).load s.now, spindle := { v.spindle with speed := 115200 } }) :=
  if_neg (by simp [hspin, hstate, hmotor])

/-! The speed error and braking (R413, R416) -/

theorem exec_spindleSpeedErrorTimeout_running {t : Nat} (herror : s.servo.spindle.errSince = some t) : exec .spindleSpeedErrorTimeout s =
    .next ((((s.reach (t + sec)).modSpindle fun p => { p with winhibit := true, goodRun := 0, errSince := none }).fault 0x212 []).inhibitAll) := by
  change execSpindleSpeedErrorTimeout s = _
  simp only [execSpindleSpeedErrorTimeout, herror]

theorem exec_brakingSpeedReached_stops (hstate : s.servo.spindle.state = .braking) (hstops : s.rack.toReduced = false) :
    exec .brakingSpeedReached s = .next (s.modSpindle fun p => { p with cmd := 0, speed := 9600 }) := if_neg (by simp [hstate, hstops])

end Rows

/-- Settles O44, from the row of each command. The coefficients, the units of a commutation period and the cogging entry are deduced readings (assumption
log 55), and the clock is moved to the end of each timer (log 3). -/
theorem theSpindleRuns : Obligations.TheSpindleRuns := by
  intro s period index t theta amb p q wedge err f top cmd rpm16 v m
  have hloop (hperiod : period ≠ 0) (hruns : (p.state = .bemf || p.state = .wedge || p.state = .reduced) = true) :
      exec (.speedLoopUpdate period index theta) s =
        .next (if wedge then v.speedJudge (q.nominal wedge).1 (q.nominal wedge).2 period else v) := if_neg (by rw [hruns]; simp [hperiod])
  refine ⟨fun hperiod => ⟨fun hbefore => ?_, fun hwedge => ?_⟩, exec_spindleSpeedErrorTimeout_running,
    fun hspin => ⟨exec_rotorSensingEnd_senses hspin, exec_backEmfDetected_ramp hspin, exec_runUpSpeedReached_closed hspin⟩,
    fun hstate => ⟨_, if_neg (not_not_intro hstate), rfl⟩, exec_brakingSpeedReached_stops⟩
  · have hnone : wedge = false := by rcases hbefore with h | h <;> simp [wedge, h]
    refine (hloop hperiod (by rcases hbefore with h | h <;> simp [h])).trans ?_
    rw [hnone]; rfl
  · refine (hloop hperiod (by simp [hwedge])).trans (congrArg Host.Outcome.next (if_pos (decide_eq_true hwedge)))

end Sys2Proof.Machine
end
